-- ==== Sys2Proof/Word.lean ====
section
/-! DEFINITION. The word types of the block: registers are 32 bits wide (00_scope.md, "Registers and access codes"),
memories are addressed in bytes. -/

namespace Sys2Proof

/-- A register word. -/
abbrev W32 := BitVec 32
/-- A 16-bit word. -/
abbrev W16 := BitVec 16
/-- A 64-bit word. -/
abbrev W64 := BitVec 64
/-- A byte. -/
abbrev Byte := BitVec 8

/-- The 32-bit word of a natural number, modulo 2^32. -/
def w32 (n : Nat) : W32 := BitVec.ofNat 32 n

/-- The byte of a natural number, modulo 256. -/
def byte (n : Nat) : Byte := BitVec.ofNat 8 n

end Sys2Proof
end

