-- ==== Sys2Proof/Syntax.lean ====
section
/-! DEFINITION. The commands of the block: one constructor for each row of spec/opcode_table.json, with the row's operands.
A command that is a register write carries its requester and the whole word written. A command that is an event carries what
the world outside the model decides in it: data that arrive, times, and upsets of memories. -/

namespace Sys2Proof

/-- The requesters that reach the registers (00_scope.md, "Requesters, ownership and silent refusal"). -/
inductive Req where
  | host | knl | dbg
  deriving DecidableEq, Repr

/-- The words of the PCIe configuration space that R483 and R485 rest on, each by its name in PCIe: IDs, class code and revision,
Device Control, Device Control 2, Power Management Control/Status, MSI-X Message Control, the VC1 resource control, AER
Uncorrectable Error Status and the four words of its header log. -/
inductive CfgReg where
  | id | classRev | devCtl | devCtl2 | pmcsr | msixCtl | vc1Ctl | aerUnc | aerHdr (i : Nat)
  deriving DecidableEq, Repr

/-- Where a register access goes: the register bus (BAR0), BAR2, or a word of the configuration space. -/
inductive Space where
  | bar0 | bar2 | cfg (r : CfgReg)
  deriving DecidableEq, Repr

/-- A read of `len` bytes of `space` from byte address `a`; `vc1` when the TLP rides VC1. -/
structure ReadAt where
  space : Space
  a : Nat
  len : Nat
  vc1 : Bool
  deriving DecidableEq, Repr

/-- What HELLO says of its plate (R375): PLATE_ID and the depth of its frame buffer; version, rows and columns are fixed there. -/
structure HelloBody where
  plateId : Nat
  depth : Nat
  deriving DecidableEq, Repr

/-- A word that BST or PXC keeps of a cell (R180, R188, R189): BST's sums LA, LW, WA and WW, PXC's density, and its modulation after the
first and the second iteration. -/
inductive CellWord where
  | la | lw | wa | ww | rho | m1 | m2
  deriving DecidableEq, Repr

/-- An upset of a memory that the world outside the model brings to a command: which word reads uncorrectable on the way of the
items it expands. `n` counts the chords that the record at hand has delivered before it. -/
inductive Upset where
  | none
  | spool                      -- the spooled block (R118)
  | cell (id n : Nat)          -- cached data of cell `id`, after `n` chords (R145, R148)
  | box (id : Nat)             -- the directory box of cell `id` (R142)
  | grid (n off : Nat)         -- grid memory at window offset `off`, after `n` chords (R164)
  | chord (n : Nat)            -- chord `n` as BST receives it (R205)
  | acc (w : CellWord) (k j : Nat)  -- a word of cell (k, j) (R203)
  deriving DecidableEq, Repr

/-- Upsets of a raster tile in the patch that it reports: pixels (256·row + column) whose dose its datapath gets wrong, what its
sums are off by, and the memories that read uncorrectable: accumulators, the edge list, VER's own patch state. -/
structure TileUpset where
  wrong : List (Nat × Nat) := []
  dArea : Int := 0
  dCov : Int := 0
  dRm : Nat := 0
  acc : Bool := false
  edge : Bool := false
  state : Bool := false
  deriving DecidableEq, Repr

/-- What the read of a DMA descriptor returns (R507, R516): its words, and whether the channel's buffer reads uncorrectable; or
UR, CA or a poisoned completion. -/
inductive Fetch where
  | words (ws : List W32) (ue : Bool)
  | bad
  deriving DecidableEq, Repr

/-- How a DMA transfer ends (R512): in full, with the bytes read from host memory where it was host to device; or with UR, CA or
a poisoned completion after `done` bytes, `l` having reached the target. -/
inductive Xfer where
  | ok (l : List Byte)
  | bad (done : Nat) (l : List Byte)
  deriving DecidableEq, Repr

/-- What the block's own layouts keep in a sector of SPOOL, CELL or PATCH: a spooled block by BLOCK_SEQ, a REFETCH block by its place
in the order of arrival, cached data of a cell or its directory box, the record of a patch of a section. -/
inductive ScrubItem where
  | none
  | spool (seq : Nat)
  | refetch (i : Nat)
  | cell (id : Nat)
  | box (id : Nat)
  | patch (sec q p : Nat)
  deriving DecidableEq, Repr

/-- A sector that the scrubber reads corrected, or uncorrectable (`ue`), in physical pseudo-channel `pc`. -/
structure SectorUpset where
  pc : Nat
  ue : Bool
  item : ScrubItem := .none
  deriving DecidableEq, Repr

/-- What an SRAM scrubber's decoder gives (R583). -/
inductive WordFound where
  | clean | corrected | uncorrectable | poisoned
  deriving DecidableEq, Repr

/-- What an SRAM word holds: a word of KNL SRAM, by its number, the severity word of a source, or another memory's word. -/
inductive WordHome where
  | other
  | kennel (word : Nat)
  | severity (source : Nat)
  deriving DecidableEq, Repr

/-- An access of the management core to a word of KNL SRAM (R622). -/
inductive CoreAccess where
  | load | fetch | narrowStore
  deriving DecidableEq, Repr

/-- What a self-test found to fail (R599 to R601): a resource, a word of an SRAM macro with or without a spare left, an HBM
pseudo-channel, a macro's checker. -/
inductive TestFail where
  | tile (n : Nat)
  | engine (n : Nat)
  | channel (n : Nat)
  | lane (n : Nat)
  | pc (p : Nat)
  | word (macroNo w : Nat)
  | checker (macroNo : Nat)
  deriving DecidableEq, Repr

/-- The commands. -/
inductive Instr where
  /-- REGISTER_WRITE (R12). A write to a register that has no row of its own stores or ignores the value according to its access code, subject to _OWNER. To `space`, `size` bytes from byte address `a`, the dwords `ws` in ascending order; `vc1` when the TLP rides VC1. -/
  | registerWrite (req : Req) (space : Space) (size a : Nat) (ws : List W32) (vc1 : Bool)
  /-- ENABLE_SET (R244). Setting _CTRL.ENABLE switches a block, tile, engine, channel or lane on, or sends a power request when its domain is off, and starts its memory self-test. `base` is the page, or the _CTRL word of a tile, engine, channel or lane; `v` the word written. -/
  | enableSet (req : Req) (base : Nat) (v : W32)
  /-- ENABLE_CLEAR (R244). Clearing _CTRL.ENABLE on an ISOLATED resource powers it off; on GLR it takes the link down; on HEL it enters OFF. -/
  | enableClear (req : Req) (base : Nat) (v : W32)
  /-- ENABLE_SELF_TEST_DONE (R599). The self-test of a re-enabled resource completes and the resource reads ISOLATED, or it stays out of service on failure. `base` as for ENABLE_SET; `pass` is the test's result. -/
  | enableSelfTestDone (base : Nat) (pass : Bool)
  /-- QUIESCE_SET (R242). Setting QUIESCE makes a resource finish its current work at the next natural boundary and take no more. -/
  | quiesceSet (req : Req) (base : Nat) (v : W32)
  /-- QUIESCE_CLEAR (R519). Clearing QUIESCE resumes the resource from where it stopped. -/
  | quiesceClear (req : Req) (base : Nat) (v : W32)
  /-- ISOLATE_SET (R243). Setting ISOLATE fences a resource at once and takes back the work it holds. -/
  | isolateSet (req : Req) (base : Nat) (v : W32)
  /-- ISOLATE_CLEAR (R246). Clearing ISOLATE readmits a resource to service in the role or state its registers give. -/
  | isolateClear (req : Req) (base : Nat) (v : W32)
  /-- SOFT_RESET (R740). A write of SOFT_RESET resets a block as its chapter describes, leaving the protected fields as they are. -/
  | softReset (req : Req) (base : Nat) (v : W32)
  /-- EVT_PEND_WRITE (R494). A W1C write to _EVT_PEND clears pending events and sends another MSI-X message if the vector level stays at 1. -/
  | evtPendWrite (req : Req) (base : Nat) (v : W32)
  /-- INJECT (R603). A write to _INJECT arms an error injection on the next decode or stored write of the page's protected memories. -/
  | inject (req : Req) (base : Nat) (v : W32)
  /-- ROW_DELAY (R36). A write to a ROW_DELAY word starts the recomputation of DMAX and sets BUSY. Row `r` of the geometry page. -/
  | rowDelay (req : Req) (r : Nat) (v : W32)
  /-- GEOM_DMAX_DONE (R36). The recomputation of DMAX completes and BUSY clears. -/
  | geomDmaxDone
  /-- BLOCK (R115). SPL receives a whole block from a DMA descriptor, checks it and accepts or discards it by its BLOCK_SEQ. The bytes that channel `ch` has read. -/
  | block (ch : Nat) (data : List Byte)
  /-- GAP_WAIT (R117). GAP_WAIT expires after an out-of-order block and SPL posts one GAP NAK for each missing sequence number. -/
  | gapWait
  /-- SPL_NAK_HOLD (R119). SPL_NAK_HOLD expires for an open NAK and SPL gives the sequence number up. `seq` is the open NAK's first sequence number. -/
  | splNakHold (seq : Nat)
  /-- SPL_REQ_W2 (R129). A read of SPL_REQ_W2 removes the oldest request entry from the queue. -/
  | splReqW2 (req : Req)
  /-- PAD (R82). A PAD record is ignored. -/
  | pad (u : Upset)
  /-- SLOT_WRITE (R86). Once every earlier stripe of the named slot has ended, SPL applies the SLOT_WRITE pairs as HOST writes and continues. -/
  | slotWrite (u : Upset)
  /-- CELL_OPEN (R88). A CELL_OPEN record opens a cell definition with its bounding box. -/
  | cellOpen (u : Upset)
  /-- CELL_CLOSE (R131). A CELL_CLOSE record makes the cell DEFINED and stores it in the cell cache. -/
  | cellClose (u : Upset)
  /-- CELL_DROP (R133). A CELL_DROP record frees the cell's space and directory entry and closes any open refetch. -/
  | cellDrop (u : Upset)
  /-- FIGURE (R94). A FIGURE record is flattened, altered, clipped and cut into pieces for basting and raster. -/
  | figure (u : Upset)
  /-- PLACE (R101). A PLACE record places a cell, which XPD culls or expands depth-first. -/
  | place (u : Upset)
  /-- ARRAY (R102). An ARRAY record places a grid of cell instances expanded row by row. -/
  | array (u : Upset)
  /-- STRIPE_OPEN (R105). A STRIPE_OPEN record opens a stripe section and marks a field boundary. -/
  | stripeOpen (u : Upset)
  /-- BIN (R111). A BIN record assigns the following items to a bin. -/
  | bin (u : Upset)
  /-- ORIGIN (R108). An ORIGIN record replaces the origin for later records of the section. -/
  | origin (u : Upset)
  /-- FIELD (R109). A FIELD record sets the field and grid for later items and marks a field boundary. -/
  | field (u : Upset)
  /-- STRIPE_CLOSE (R114). A STRIPE_CLOSE record closes the section and completes its remaining bands. -/
  | stripeClose (u : Upset)
  /-- XPD_QUERY (R170). A write to XPD_QUERY starts a cell-state lookup. -/
  | xpdQuery (req : Req) (v : W32)
  /-- XPD_LOOKUP_DONE (R170). The cell-state lookup completes and XPD_QSTATE shows the state. -/
  | xpdLookupDone
  /-- PATCH_RECORD_ALLOCATED (R317). BST, having waited for PATCH units, allocates the patch record and continues. -/
  | patchRecordAllocated
  /-- LATCHED (R199). PXC takes up a section's STRIPE_OPEN and BST and PXC latch the slot's parameters. -/
  | latched
  /-- RELEASED (R201). PXC releases a band to the raster array with its cell modulations. -/
  | released (u : Upset)
  /-- DISPATCH (R237). VER dispatches a first raster to the lowest-numbered idle ACTIVE tile, reserving patch-row space. Bit n of `scan` is set when tile n's only patch is being scanned. -/
  | dispatch (scan : Nat)
  /-- SECOND_RASTER (R224). VER dispatches a second raster of a mismatched patch to another in-service tile. `scan` as for DISPATCH. -/
  | secondRaster (scan : Nat)
  /-- PATCH_REPORT (R220). A tile's patch report arrives and VER applies the four checks and gives the verdict. -/
  | patchReport (tile : Nat) (u : TileUpset)
  /-- VER_TIMEOUT (R232). A tile has not reported within VER_CFG.TIMEOUT, so VER fences it and dispatches the patch again. -/
  | verTimeout (tile : Nat)
  /-- TILE_CLOCK_STOP (R239). A tile that has held no patch for 1 µs has its clock stopped. The tile's clock has run for `us` microseconds since it last stopped. -/
  | tileClockStop (tile us : Nat)
  /-- TILE_WAKE (R239). A stopped tile's clock runs again and it takes its patch. -/
  | tileWake (tile : Nat)
  /-- PD_IDLE (R240). Every tile of a raster domain has been stopped for PD_IDLE and VER asks the PMU to switch the domain off. -/
  | pdIdle (dom : Nat)
  /-- RAS_TEST_START (R245). A write of RAS_TEST.START on an ISOLATED tile runs the built-in patch test. -/
  | rasTestStart (req : Req) (tile : Nat) (v : W32)
  /-- TEST_DONE (R245). The tile's built-in test ends and sets DONE and PASS or TEST_FAIL. `pass` is the test's result. -/
  | testDone (tile : Nat) (pass : Bool)
  /-- VER_INJECT (R250). A write to VER's _INJECT arms corruption of the next report, or of both rasters of a patch. -/
  | verInject (req : Req) (v : W32)
  /-- STITCH_ROW (R265). STC stitches one pixel row into code sums and per-pass codes once its patch row has verdicts and its frames are free. `fault` is 0, or 1 or 2 for one or both copies of the map word read uncorrectable. -/
  | stitchRow (fault : Nat)
  /-- GATHER (R279). At its placement time STC gathers a shot's rows through the remap table into row packets. `late` lists pixel rows whose read has not returned in time; `fault` is as for STITCH_ROW. -/
  | gather (late : List Nat) (fault : Nat)
  /-- BEGIN (R294). STC begins a stripe: commits pending map content, latches the generation, assigns a serial and reads any mending set. -/
  | begin
  /-- DBM_COMMIT (R293). A write of DBM_COMMIT.GO commits NEXT_SLOT as a new generation. -/
  | dbmCommit (req : Req) (v : W32)
  /-- DBM_BITMAP_WRITE (R289). A write to a bitmap word of NEXT_SLOT sets PENDING. -/
  | dbmBitmapWrite (req : Req) (slot word : Nat) (v : W32)
  /-- COPY_DONE (R290). The copy of the current bitmap into NEXT_SLOT finishes, COPYING clears and held map or bits are applied. -/
  | copyDone
  /-- BOB_MEND_RD (R63). A write to BOB_MEND_RD releases mending entries and frees places for waiting entries. -/
  | bobMendRd (req : Req) (v : W32)
  /-- MEND_WAIT_END (R63). A mending entry that waited for a free place is written and its block resumes. -/
  | mendWaitEnd
  /-- MEND_VIEW_READ (R588). A read of the mending-list view window returns entries, or all ones with MEND_POISON for a poisoned sector. At byte offset `o` of the window. -/
  | mendViewRead (req : Req) (o : Nat)
  /-- BOB_REQUEST (R326). A port request enters its pseudo-channel's bank queue, or is held while the queue is full. A read or write (`wr`) of the burst at DA `da` by port number `port`, at time `now` in ns. -/
  | bobRequest (port da : Nat) (wr : Bool) (now : Nat)
  /-- BOB_COMPLETION (R331). A request completes to its port and the port's latency estimate is updated. `latency` is what the request took, in ns. -/
  | bobCompletion (port latency : Nat)
  /-- REFRESH (R306). The per-bank refresh interval expires and the controller issues a refresh. Pseudo-channel `pc`, at time `now` in ns. -/
  | refresh (pc now : Nat)
  /-- REFRESH_MANAGEMENT (R306). A stack's refresh-management request is served ahead of other commands to its banks. `banks` are the banks the request names. -/
  | refreshManagement (pc now : Nat) (banks : List Nat)
  /-- OPEN_PAGE_IDLE (R330). MC_CFG.IDLE expires after a bank's last column command and the open row is precharged. Bank `k` of pseudo-channel `pc`. -/
  | openPageIdle (pc k now : Nat)
  /-- ROW_DUE (R338). A pixel row of a stripe becomes due at the gather of its due shot. -/
  | rowDue
  /-- SPOOL_GRANT (R319). SPL grants spool space to a waiting transfer, which then proceeds. -/
  | spoolGrant (ch : Nat)
  /-- MIG_START (R341). A write of START to BOB_MIG_CTRL begins a migration onto a spare pseudo-channel. -/
  | migStart (req : Req) (v : W32)
  /-- MIG_CHUNK (R342). The migration copies one chunk and advances PTR. `bad` lists the sectors of the chunk that read uncorrectable. -/
  | migChunk (bad : List Nat)
  /-- BOB_PCSTATE (R346). A write of SPARE to a RETIRED pseudo-channel readmits it as a spare. -/
  | bobPcstate (req : Req) (p : Nat) (v : W32)
  /-- PC_LOST (R348). A pseudo-channel's PHY loses training and the pseudo-channel is set LOST. -/
  | pcLost (p : Nat)
  /-- CA_PARITY (R348). A command/address parity error is reported, and four within 1 ms make the pseudo-channel LOST. Bank `k` and row `row` of the command in error in pseudo-channel `p`; `us` is the time in microseconds. -/
  | caParity (p k row us : Nat)
  /-- TRANSMITTER_FAULT (R369). Lane `lane`'s transmitter reports a fault when the last `unsent` of its packets have not wholly left. -/
  | transmitterFault (lane unsent : Nat)
  /-- HELLO (R375). HELLO on return lane `lane`, with its RSEQ and what it says of the plate. -/
  | hello (lane rseq : Nat) (body : HelloBody)
  /-- LANE_STATUS (R369). LANE_STATUS: lock and FEC lock bits, then errored symbols and uncorrectable codewords by lane. -/
  | laneStatus (lane rseq lock fec : Nat) (errs uncorr : List Nat)
  /-- TUNE_REQ (R359). TUNE_REQ: lane, tap, action 0 HOLD, 1 INC, 2 DEC, 3 PRESET `preset`. -/
  | tuneReq (lane rseq txLane tap action preset : Nat)
  /-- ROW_FAIL (R380). ROW_FAIL: LSEQ, NOCOMMIT, the CRC and SEQ bitmaps with bit K for packet K. -/
  | rowFail (lane rseq lseq : Nat) (nocommit : Bool) (crc seqf : Nat)
  /-- BEAM_DIED (R382). BEAM_DIED: LSEQ, packet and position. -/
  | beamDied (lane rseq lseq k j : Nat)
  /-- DBM_PART (R383). DBM_PART: part number and its 8,192 bits, bit 0 first. -/
  | dbmPart (lane rseq p bitmap : Nat)
  /-- DBM_END (R383). DBM_END: dead count and CRC-32C. -/
  | dbmEnd (lane rseq count crc : Nat)
  /-- TAG_RESP (R392). TAG_RESP: PLATE_ID, COUNT and MAC, the MAC's first byte least significant. -/
  | tagResp (lane rseq plateId count mac : Nat)
  /-- TAG_ACK (R395). TAG_ACK: COUNT and MAC. -/
  | tagAck (lane rseq count mac : Nat)
  /-- STATUS (R378). STATUS: ACK_LSEQ, FIRED_LSEQ, NEXT_RSEQ and plate flags. -/
  | status (lane ackLseq firedLseq nextRseq flags : Nat)
  /-- BADMSG (R377). A message on return lane `lane` whose CRC fails. -/
  | badmsg (lane : Nat)
  /-- RESEND_TIMEOUT (R377). 50 µs pass with the oldest outstanding RESEND range incomplete. -/
  | resendTimeout
  /-- UNACK_CLR (R386). A write of GLR_CMD with UNACK_CLR. -/
  | unackClr (req : Req) (v : W32)
  /-- DBM_REQ (R388). A write of GLR_CMD with DBM_REQ. -/
  | dbmReq (req : Req) (v : W32)
  /-- LCLK_LOCKED (R388). LCLK and the lane PLLs lock. -/
  | lclkLocked
  /-- RET_LOCK (R388). The return lanes reach block lock. -/
  | retLock
  /-- FEC_ALIGN (R388). The FEC lock and error window completes. -/
  | fecAlign
  /-- TRAIN_HALF_TIMEOUT (R752). Half of GLR_TRAIN.TIMEOUT passes. -/
  | trainHalfTimeout
  /-- TRAIN_FAIL (R388). GLR_TRAIN.TIMEOUT expires. -/
  | trainFail
  /-- DBM_MS (R388). DBM_MS expires without DBM_END. -/
  | dbmMs
  /-- GLR_HB (R389). No valid STATUS arrives for GLR_HB.TIMEOUT. -/
  | glrHb
  /-- BLOCK_LOCK_LOST (R389). Every return lane has lost block lock. -/
  | blockLockLost
  /-- TRAINED (R372). A lane retrained alone finishes training. -/
  | trained (lane : Nat)
  /-- CHAL (R751). A write of TAG_CTRL with CHAL. -/
  | chal (req : Req) (v : W32)
  /-- TAG_RETRY (R396). 100 µs pass with the exchange unanswered. -/
  | tagRetry
  /-- CHK_START (R399). A write of CHK_CMD with START. -/
  | chkStart (req : Req) (unit : Nat) (v : W32)
  /-- CHK_D8 (R400). A write to CHK_D8. -/
  | chkD8 (req : Req) (unit : Nat) (v : W32)
  /-- CHK_D16 (R400). A write to CHK_D16. -/
  | chkD16 (req : Req) (unit : Nat) (v : W32)
  /-- CHK_D32 (R400). A write to CHK_D32. -/
  | chkD32 (req : Req) (unit : Nat) (v : W32)
  /-- COUNT_EDGE (R406). A stage count edge moves POS and may reach boundaries, cancel them, or count backlash. The inputs take levels `x` and `y` at time `t` in half nanoseconds and hold them for `width` ns. -/
  | countEdge (x y : Bool) (width t : Nat)
  /-- LOSS_OF_INPUT_SWING (R409). An LVDS receiver reports loss of input swing and EXP declares a receiver fault. -/
  | lossOfInputSwing
  /-- ENC_VALID_LOW (R424). ENC_VALID goes low for two samples during a stripe and EXP sets FEEDBACK_LOST and aborts. -/
  | encValidLow
  /-- STRIPE_GO (R447). A rising edge of STRIPE_GO starts the head ticket's stripe, run as refused where R446 applies, or is ignored. The edge comes at time `t` in half nanoseconds. -/
  | stripeGo (t : Nat)
  /-- LEAD_BOUNDARY (R414). At a lead boundary EXP hands an early frame of the stripe to GLR. -/
  | leadBoundary
  /-- SHOT_BOUNDARY (R420). At a shot's boundary EXP fires or skips it, and GLR begins frame f + 2 with the commit for frame f. -/
  | shotBoundary
  /-- OSREQ_EXPIRY (R423). 1,024 boundaries pass without overspeed and OSREQ returns to 255. -/
  | osreqExpiry
  /-- FREEZE (R425). FREEZE_TIME passes with no count edge during a stripe, so EXP muzzles and aborts. -/
  | freeze
  /-- STROBE_RISE (R427). STROBE_DELAY after a fired shot's boundary, STROBE rises. -/
  | strobeRise
  /-- STROBE_FALL (R427). STROBE_WIDTH after its rise, STROBE falls and a waiting muzzle begins. -/
  | strobeFall
  /-- STROBE_CUT (R438). A strobe reaches MUZ_LIMIT, so MUZ cuts it, sets STUCK and raises severity 3. -/
  | strobeCut
  /-- CALIBRATION (R439). Every 1 ms MUZ calibrates its delay chain against ACLK. `pass` when the chain is within its limits; `cells` is the word measured. -/
  | calibration (pass : Bool) (cells : W32)
  /-- ABORT_ASSERTED (R434). ABORT# goes low and MUZ muzzles and aborts the stripe with an EXTERNAL entry. -/
  | abortAsserted
  /-- ABORT_RELEASED (R434). ABORT# is released and its muzzle ends. -/
  | abortReleased
  /-- BLANK_REQ_ASSERTED (R434). BLANK_REQ# goes low and MUZ muzzles while the stripe continues. -/
  | blankReqAsserted
  /-- BLANK_REQ_RELEASED (R434). BLANK_REQ# is released, the muzzle ends and its EXTERNAL entry is made. -/
  | blankReqReleased
  /-- CLEAR_STUCK (R440). A KNL write of MUZ_CMD.CLEAR_STUCK clears STUCK when no severity-3 source is latched. -/
  | clearStuck (req : Req) (v : W32)
  /-- MUZ_INJECT_CUT (R746). Setting MUZ _INJECT.CUT makes the next strobe read as reaching MUZ_LIMIT. -/
  | muzInjectCut (req : Req) (v : W32)
  /-- RESUME (R441). A write of EXP_CMD.RESUME leaves HALTED when no abort cause remains. -/
  | resume (req : Req) (v : W32)
  /-- TKT_CLR (R443). A write of EXP_CMD.TKT_CLR discards the partial ticket record. -/
  | tktClr (req : Req) (v : W32)
  /-- EXP_TKT (R443). A write to EXP_TKT adds one ticket word, and the eighth completes the record. -/
  | expTkt (req : Req) (v : W32)
  /-- ACCEPTED (R444). EXP accepts a completed ticket, latching the geometry and checking any mending set. -/
  | accepted
  /-- WAKE (R448). At the estimated shot 0 minus WAKE_LEAD, EXP asks the PMU to wake the stripe's domains. -/
  | wake
  /-- PACE_FRAME (R450). A new 16-bit PACE frame begins, carrying the current RATE and flags. -/
  | paceFrame
  /-- TICK (R457). The tick at time `t` in 0.5 ns, with ENC_VALID as it reads. -/
  | tick (t : Nat) (encValid : Bool)
  /-- NOP (R470). Executed when it stands at the program's address. -/
  | nop
  /-- LDI (R470). Executed when it stands at the program's address. -/
  | ldi
  /-- LDH (R470). Executed when it stands at the program's address. -/
  | ldh
  /-- ADD (R470). Executed when it stands at the program's address. -/
  | add
  /-- SUB (R470). Executed when it stands at the program's address. -/
  | sub
  /-- ADDI (R470). Executed when it stands at the program's address. -/
  | addi
  /-- MUL (R470). Executed when it stands at the program's address. -/
  | mul
  /-- SHR (R470). Executed when it stands at the program's address. -/
  | shr
  /-- SHL (R470). Executed when it stands at the program's address. -/
  | shl
  /-- MIN (R470). Executed when it stands at the program's address. -/
  | minI
  /-- MAX (R470). Executed when it stands at the program's address. -/
  | maxI
  /-- IN (R472). Executed when it stands at the program's address. -/
  | inPort
  /-- CF (R470). Executed when it stands at the program's address. -/
  | cf
  /-- HYST (R460). Executed when it stands at the program's address. -/
  | hyst
  /-- OUT (R460). Executed when it stands at the program's address. -/
  | outI
  /-- CAP (R479). Executed when it stands at the program's address. -/
  | capI
  /-- BR (R470). Executed when it stands at the program's address. -/
  | br
  /-- BZ (R470). Executed when it stands at the program's address. -/
  | bz
  /-- BN (R470). Executed when it stands at the program's address. -/
  | bn
  /-- WAIT_INSTRUCTION (R458). Executed when it stands at the program's address. -/
  | waitInstruction
  /-- UC_FAULT (R471). An illegal opcode stands at the program's address, or its word reads uncorrectable (`ue`). -/
  | ucFault (ue : Bool)
  /-- PEAK_CLR (R482). A write of HEL_CMD with PEAK_CLR. -/
  | peakClr (req : Req) (v : W32)
  /-- RELOAD (R468). A write of HEL_CMD with RELOAD. -/
  | reload (req : Req) (v : W32)
  /-- SAFE (R464). A write of HEL_CMD with SAFE. -/
  | safe (req : Req) (v : W32)
  /-- ACQ (R462). A write of HEL_CMD with ACQ. -/
  | acq (req : Req) (v : W32)
  /-- INJ_ARM (R477). A write of HEL_INJ_CTRL with ARM. -/
  | injArm (req : Req) (v : W32)
  /-- INJ_STOP (R478). A write of HEL_INJ_CTRL with STOP. -/
  | injStop (req : Req) (v : W32)
  /-- CAP_ARM (R479). A write of HEL_CAP_CTRL with ARM. -/
  | capArm (req : Req) (v : W32)
  /-- MICROCODE_WRITE (R468). A write of microcode word `a`. -/
  | microcodeWrite (req : Req) (a : Nat) (v : W32)
  /-- PERST (R485). PERST# resets HLK, every DMA channel and configuration state and retrains the link. -/
  | perst
  /-- FLR (R485). A Function Level Reset resets HLK and every DMA channel. -/
  | flr
  /-- HLK_LINK_DOWN (R486). The PCIe link goes down and outstanding host requests are treated as timed out. `reads` gives for each host data read cut off its channel, the bytes done and those that reached the target. -/
  | hlkLinkDown (reads : List (Nat × Nat × List Byte))
  /-- LINK_UP (R524). The PCIe link reaches L0. Generation, width and FLIT mode negotiated. -/
  | linkUp (gen width : Nat) (flit : Bool)
  /-- BAR4_ACCESS (R490). A BAR4 TLP reads or writes the bobbin at DA from HLK_BAR4 through port HOST. At offset `o`; a write's bytes, or a read of `n` bytes. -/
  | bar4Access (o : Nat) (wdata : Option (List Byte)) (n : Nat) (vc1 : Bool)
  /-- BLANK_SET (R498). A keyed WH_CMD write with BLANK_SET sets the BLANK whistle level and muzzles. -/
  | blankSet (v : W32) (vc1 : Bool)
  /-- BLANK_CLR (R497). A keyed WH_CMD write with BLANK_CLR clears the BLANK level. -/
  | blankClr (v : W32) (vc1 : Bool)
  /-- STOP_SET (R498). A keyed WH_CMD write with STOP_SET sets the STOP level, which aborts and halts. -/
  | stopSet (v : W32) (vc1 : Bool)
  /-- STOP_CLR (R497). A keyed WH_CMD write with STOP_CLR clears the STOP level. -/
  | stopClr (v : W32) (vc1 : Bool)
  /-- DMA_HEAD (R506). A write to DMA_HEAD in IDLE, PARKED or HALTED moves the channel to IDLE at that head. The LO word, or with `hi` the HI word. -/
  | dmaHead (req : Req) (n : Nat) (hi : Bool) (v : W32)
  /-- DMA_DB (R509). A doorbell fetches the head, re-reads a parked descriptor, refetches after a halt, or sets DB_PEND. -/
  | dmaDb (req : Req) (n : Nat)
  /-- DESCRIPTOR_FETCHED (R507). A descriptor fetch returns and the channel starts its transfer or rejects it for alignment. -/
  | descriptorFetched (n : Nat) (res : Fetch)
  /-- DESCRIPTOR_DONE (R512). A descriptor's transfer ends and is written back with its code, then the channel goes on, parks or halts. `res` says how the transfer on the host link ended. -/
  | descriptorDone (n : Nat) (res : Xfer)
  /-- FETCH_TIMEOUT (R516). A descriptor fetch meets the completion timeout and halts the channel. -/
  | fetchTimeout (n : Nat)
  /-- HOST_TIMEOUT (R512). A host data read meets the completion timeout and the descriptor fails. `done` bytes were complete, `l` those that reached the target. -/
  | hostTimeout (n done : Nat) (l : List Byte)
  /-- DEV_TIMEOUT (R514). A device-side request meets DMA_TMO and the descriptor fails. `done` bytes were complete, `l` those that reached the target. -/
  | devTimeout (n done : Nat) (l : List Byte)
  /-- DISABLE (R520). A write of DMA_DISABLE on channels 12 to 15 stops the channel at once. -/
  | disable (req : Req) (n : Nat)
  /-- CDC_ROLE (R527). A write to CDC_ROLE changes engine roles, each taking effect when the engine is free. -/
  | cdcRole (req : Req) (v : W32)
  /-- CDC_DISPATCH (R529). CDC reserves spool space and dispatches a KQZ block to an idle inbound engine. -/
  | cdcDispatch
  /-- FRAME_DECODED (R532). An engine finishes a frame, which passes and is handed on or fails with a NAK. -/
  | frameDecoded (n : Nat)
  /-- ENG_UE (R551). An engine reads an uncorrectable word of its own memories and abandons its frame or job. -/
  | engUe (n : Nat)
  /-- JOB_GO (R541). A write of CDC_JOB_CTRL.GO starts an outbound compression job. -/
  | jobGo (req : Req) (n : Nat) (v : W32)
  /-- SNAP_READY (R545). A waiting SNAP job's patch row has every verdict and reading begins. -/
  | snapReady (n : Nat)
  /-- JOB_ABORT (R549). A write of CDC_JOB_CTRL.ABORT ends the job with RESULT ABORTED. -/
  | jobAbort (req : Req) (n : Nat) (v : W32)
  /-- JOB_DONE (R550). An outbound job ends and writes RESULT, OUT and ORIG_CRC. -/
  | jobDone (n : Nat)
  /-- JOB_SWAP_GO (R559). A write of GLB_JOB_SWAP.GO makes the SHADOW slot COMMITTED. -/
  | jobSwapGo (req : Req) (v : W32)
  /-- JOB_SWAP_CANCEL (R559). A write of GLB_JOB_SWAP.CANCEL returns the committed slot to SHADOW. -/
  | jobSwapCancel (req : Req) (v : W32)
  /-- SWAP_WORK_DONE (R561). The internal work of a swap finishes and blocks take the new ACTIVE slot. -/
  | swapWorkDone
  /-- SCRUB_READ (R589). The HBM scrubber reads one sector, writing back corrections or poison. `ups` lists the physical pseudo-channels whose sector reads corrected or uncorrectable. -/
  | scrubRead (ups : List SectorUpset)
  /-- SRAM_SCRUB (R593). An SRAM scrubber reads one word and handles it as a sector. Macro `m`, word `w`; `last` when it is the macro's last word. -/
  | sramScrub (m w : Nat) (found : WordFound) (home : WordHome) (last : Bool)
  /-- ODE_POLL (R582). Every 1 ms MEI reads each stack's on-die error count and may set ODE_HIGH. `counts` gives each stack's count. -/
  | odePoll (counts : List Nat)
  /-- MEI_INJ_GO (R605). A write of MEI_INJ_CTRL.GO inverts check bits in the stored sector at MEI_INJ_ADDR. -/
  | meiInjGo (req : Req) (v : W32)
  /-- FCL_STATUS (R610). A W1C write to FCL_STATUS clears a source's bit and level if its line is inactive. -/
  | fclStatus (req : Req) (v : W32)
  /-- FCL_SEV (R608). A write to FCL_SEV sets error severities, never below a floor. The severity word of source `src`. -/
  | fclSev (req : Req) (src : Nat) (v : W32)
  /-- FCL_LOG_W2 (R613). A read of FCL_LOG_W2 removes the oldest log entry. -/
  | fclLogW2 (req : Req)
  /-- RESTART (R615). A KNL write of FCL_CMD.RESTART ends a halt when no level is 3 and STUCK is 0. -/
  | restart (req : Req) (v : W32)
  /-- BARK (R616). A half-period of the BARK grid expires and BARK toggles. -/
  | bark
  /-- WDOG (R624). KNL_WDOG.MS passes without a kick, so an NMI enters the crash handler and kennel-away begins. `handled` when the crash handler ran to its end. -/
  | wdog (handled : Bool)
  /-- WDOG_RESET (R624). The core is not reset 10 ms after the watchdog interrupt, so hardware resets it. -/
  | wdogReset
  /-- KNL_KICK (R624). A write to KNL_KICK restarts the watchdog. -/
  | knlKick (req : Req)
  /-- POISONED_LOAD (R622). A core access to a poisoned SRAM word raises an access fault. At byte offset `a` of KNL SRAM. -/
  | poisonedLoad (kind : CoreAccess) (a : Nat)
  /-- CONFIRM (R629). A KNL_CMD CONFIRM from the tried image makes it preferred and may raise SVN_MIN. -/
  | confirm (req : Req) (v : W32)
  /-- AWAY (R631). A KNL_CMD AWAY begins kennel-away. -/
  | away (req : Req) (v : W32)
  /-- AWAY_END (R631). A KNL_CMD AWAY_END ends kennel-away. -/
  | awayEnd (req : Req) (v : W32)
  /-- REBOOT (R631). A KNL_CMD REBOOT resets the core into ROM under kennel-away. -/
  | reboot (req : Req) (v : W32)
  /-- AWAY_EXPIRED (R632). Kennel-away lasts 5,000 ms and AWAY_EXPIRED is set. -/
  | awayExpired
  /-- STORE_REGS (R638). A keyed NVM_CMD of KIND REGS loads TIM_EPOCH, snapshots every NV field and stores it. -/
  | storeRegs (req : Req)
  /-- STORE_BOOT (R630). A keyed NVM_CMD of KIND BOOT stores the boot record, refusing to lower SVN_MIN or clear REVOKED. -/
  | storeBoot (req : Req)
  /-- STORE_KEY (R637). A keyed NVM_CMD of KIND KEY stores a key slot. -/
  | storeKey (req : Req) (index : Nat)
  /-- STORE_CRASH (R637). A keyed NVM_CMD of KIND CRASH stores a crash record. -/
  | storeCrash (req : Req) (index : Nat)
  /-- STORE_LOG (R637). A keyed NVM_CMD of KIND LOG stores 512 bytes of the event log. -/
  | storeLog (req : Req)
  /-- STORE_USER (R637). A keyed NVM_CMD of KIND USER stores 512 bytes of the user area. -/
  | storeUser (req : Req)
  /-- NVM_DONE (R635). An MRAM store finishes and is verified. `ok` when the verification passes. -/
  | nvmDone (ok : Bool)
  /-- KNL_H2K_DB (R646). The host doorbell delivers a mailbox command to the firmware or is answered BUSY. -/
  | knlH2kDb (req : Req)
  /-- KNL_K2H_DB (R668). A KNL write of KNL_K2H_DB sets K2H for the host. -/
  | knlK2hDb (req : Req)
  /-- UPDATE (R647). The mailbox command UPDATE checks and programs a new image into the other slot. `flash` when the flash programs without error. -/
  | update (flash : Bool)
  /-- REBOOT_COMMAND (R647). The mailbox command REBOOT reboots the core. -/
  | rebootCommand
  /-- STORE_COMMAND (R647). The mailbox command STORE issues STORE REGS. -/
  | storeCommand
  /-- LOG_EXPORT (R647). The mailbox command LOG_EXPORT compresses the event log to a DA. -/
  | logExport
  /-- KEY_WRITE (R647). The mailbox command KEY_WRITE stores a key slot and zeroes the source bytes. -/
  | keyWrite
  /-- RUN_SRAM (R628). In RECOVERY, RUN_SRAM makes ROM check and run an image loaded into SRAM. -/
  | runSram
  /-- TEMP_CHECK (R645). Every 100 µs hardware compares die temperature with KNL_TLIM and 125 °C. `got` gives sensor numbers with their readings, none where a sensor does not answer. -/
  | tempCheck (got : List (Nat × Option Nat))
  /-- SECOND_CARRY (R654). TIM nanoseconds reach 10^9, the seconds advance and PPS_OUT rises. -/
  | secondCarry
  /-- PPS_OUT_END (R654). WIDTH_US after its rise, PPS_OUT falls. -/
  | ppsOutEnd
  /-- PPS_IN (R654). A PPS_IN edge latches TIM into TIM_PPSIN_NS and TIM_PPSIN_S. -/
  | ppsIn (rising : Bool)
  /-- TIM_NS (R650). A read of TIM_NS latches the seconds of the same clock. -/
  | timNs (req : Req)
  /-- STEP (R651). A TIM_CMD STEP adds the step to TIM in one clock. -/
  | step (req : Req) (v : W32)
  /-- TRUST (R652). A TIM_CMD TRUST clears TIME_UNTRUSTED, HOLDOVER and HOLD_S. -/
  | trust (req : Req) (v : W32)
  /-- HOLD (R653). A TIM_CMD HOLD sets HOLDOVER. -/
  | hold (req : Req) (v : W32)
  /-- HOLD_MAX (R652). HOLD_S reaches HOLD_MAX and TIME_UNTRUSTED is set. -/
  | holdMax
  /-- KNL_MAC_TXTAIL (R659). Advancing TXTAIL hands transmit descriptors to the MAC, which sends their frames in ring order. -/
  | knlMacTxtail (req : Req) (v : W32)
  /-- TIM_OS_CORR_HI (R661). A write to TIM_OS_CORR_HI sets ARMED. -/
  | timOsCorrHi (req : Req) (v : W32)
  /-- ONESTEP_DEADLINE (R661). At the correctionField deadline the MAC inserts the armed correction, or zero with OS_MISS. -/
  | onestepDeadline
  /-- TX_WRITEBACK (R659). The MAC writes back a transmit descriptor, latching STAMP times into the queue. -/
  | txWriteback
  /-- RX_FRAME (R659). The MAC receives a frame into the next receive buffer and writes back its descriptor. -/
  | rxFrame (data : List Byte) (good : Bool)
  /-- NETSTOP_DATAGRAM (R666). A keyed network-stop datagram with a newer sequence sets or clears NETSTOP. The four words of the UDP payload. -/
  | netstopDatagram (w0 w1 w2 w3 : W32)
  /-- TIM_TSQ_NS (R663). A read of TIM_TSQ_NS removes the oldest transmit-stamp entry. -/
  | timTsqNs (req : Req)
  /-- NSTOP_CLR (R667). A KNL write of NSTOP_CLR clears NETSTOP. -/
  | nstopClr (req : Req) (v : W32)
  /-- PD_REQ_ON (R676). A PMU_PD REQ of 1 switches a domain on. -/
  | pdReqOn (req : Req) (n : Nat) (v : W32)
  /-- PD_REQ_OFF (R675). A PMU_PD REQ of 2 switches a domain off. -/
  | pdReqOff (req : Req) (n : Nat) (v : W32)
  /-- PD_REQ_SELF_REFRESH (R678). A PMU_PD REQ of 3 places a memory domain in SELF_REFRESH. -/
  | pdReqSelfRefresh (req : Req) (n : Nat) (v : W32)
  /-- PD_SWITCH_DONE (R672). A domain switch completes, and memories are self-tested at switch-on. `fails` lists what the self-tests found. -/
  | pdSwitchDone (n : Nat) (fails : List TestFail)
  /-- PD_FAIL (R677). A domain does not reach ON within 1 ms and returns to OFF. -/
  | pdFail (n : Nat)
  /-- PMU_MEMIDLE (R678). The memory idle conditions hold for PMU_MEMIDLE and the stacks enter SELF_REFRESH. -/
  | pmuMemidle
  /-- SELF_REFRESH_EXIT (R679). The stacks leave SELF_REFRESH and waiting requests proceed. -/
  | selfRefreshExit
  /-- REFCLK_LOST (R687). No REFCLK edge for 1 µs switches ACLK to RC, stops the PLLs and raises severity 3. -/
  | refclkLost
  /-- REFCLK_RETURN (R688). REFCLK has been present for 1 ms and ACLK and the PLLs return to it. -/
  | refclkReturn
  /-- PLL_UNLOCK (R689). A PLL loses lock, its clocks stop and it restarts. -/
  | pllUnlock (p : Nat)
  /-- PLL_LOCK (R684). A PLL locks and its clocks run. -/
  | pllLock (p : Nat)
  /-- POWER_ON (R694). VDD_AON first rises or falls below its reset level, resetting everything. -/
  | powerOn
  /-- PORST (R691). PORST# rises and the power-up sequence runs. `refclk` when REFCLK is present; `lines` lists the error lines that are active; `fails` what the self-tests found. -/
  | porst (refclk : Bool) (lines : List Nat) (fails : List TestFail)
  /-- WRST (R696). WRST# low for two ACLK periods starts a warm reset. -/
  | wrst
  /-- WARM (R694). A keyed KNL write of PMU_CMD.WARM starts a warm reset of 20 µs. -/
  | warm (req : Req) (v : W32)
  /-- WARM_END (R697). The warm reset ends, the logic leaves reset and the stacks leave self-refresh. -/
  | warmEnd
  /-- SUPPLY_WARN (R700). A rail falls below its warning level, so MUZ muzzles and NVM freezes. Rail `r`, numbered as in R698's table. -/
  | supplyWarn (r : Nat)
  /-- RAIL_RELEASE (R700). The last rail in warning rises above its release level and the 10 µs wait begins. Rail `r`, numbered as in R698's table. -/
  | railRelease (r : Nat)
  /-- WARNING_END (R700). 10 µs pass with no rail in warning, the supply warning ends and the stripe resumes or is aborted. -/
  | warningEnd
  /-- BROWNOUT (R701). A rail falls below its reset level and the device holds itself in reset. Rail `r`, numbered as in R698's table. -/
  | brownout (r : Nat)
  /-- BROWNOUT_RELEASE (R701). Every rail has been above its release level for 1 ms and the power-up sequence runs. Operands as for PORST. -/
  | brownoutRelease (refclk : Bool) (lines : List Nat) (fails : List TestFail)
  /-- COMMAND_SLOT (R328). At each command slot a pseudo-channel picks one bank candidate by urgency, direction and row hits and issues its PRE, ACT or column command. -/
  | commandSlot (pc now : Nat)
  /-- RETURN_LANE_BLOCK_LOCK (R754). A return lane gains or loses block lock. -/
  | returnLaneBlockLock (lane : Nat) (lock : Bool)
  /-- READ_OF_LO (R526). A read of the LO word of a paired counter or address register latches its HI word. A read of any register or word, of any size. -/
  | readOfLo (req : Req) (rd : ReadAt)
  /-- REMAP_ENTRY_RETIRE (R618). A KNL write of 0 to MEI_RMP_ENT0.VALID retires a remap entry, so the address is served from its own storage again. -/
  | remapEntryRetire (req : Req) (v : W32)
  /-- MANAGEMENT_NETWORK_LINK (R668). The 1000BASE-X or SGMII management link comes up or goes down, changing KNL_MAC_CFG.LINK_UP. -/
  | managementNetworkLink (up : Bool)
  deriving DecidableEq, Repr

end Sys2Proof
end

