-- ==== Sys2Proof/Machine/Bits.lean ====
section
/-! DEFINITION. Fields of words, signed readings, byte order and the small list operations that the block's operations share. -/

namespace Sys2Proof.Machine

/-- Bits `hi` down to `lo` of a number, the notation [hi:lo] of the spec. -/
def fld (w : Nat) (hi lo : Nat) : Nat := (w >>> lo) % 2 ^ (hi - lo + 1)

/-- Bits [hi:lo] of a register word. -/
def bits (w : W32) (hi lo : Nat) : Nat := fld w.toNat hi lo

/-- Bit `i` of a register word. -/
def bit (w : W32) (i : Nat) : Bool := w.getLsbD i

/-- The mask with ones in [hi:lo]. -/
def maskOf (hi lo : Nat) : Nat := (2 ^ (hi - lo + 1) - 1) <<< lo

/-- Replace bits [hi:lo] of a register word by `v`. -/
def setBits (w : W32) (hi lo v : Nat) : W32 :=
  (w &&& ~~~ w32 (maskOf hi lo)) ||| w32 ((v % 2 ^ (hi - lo + 1)) <<< lo)

/-- Set or clear bit `i` of a register word. -/
def putBit (w : W32) (i : Nat) (b : Bool) : W32 := setBits w i i (if b then 1 else 0)

/-- Two's-complement reading of the low `n` bits. -/
def toS (n v : Nat) : Int :=
  let m := v % 2 ^ n
  if 2 * m < 2 ^ n then (m : Int) else (m : Int) - (2 ^ n : Nat)

/-- The low `n` bits of an integer in two's complement. -/
def ofS (n : Nat) (i : Int) : Nat := (i % (2 ^ n : Nat)).toNat

/-- An integer wrapped into `n`-bit two's complement. -/
def wrapS (n : Nat) (i : Int) : Int := toS n (ofS n i)

/-- An integer held to the range of `n`-bit two's complement. -/
def satS (n : Nat) (i : Int) : Int := max (-(2 ^ (n - 1) : Nat)) (min ((2 ^ (n - 1) : Nat) - 1) i)

/-- An integer held to `lo … hi`. -/
def clampI (lo hi i : Int) : Int := max lo (min hi i)

/-- 0 or 1. -/
def b2n (b : Bool) : Nat := if b then 1 else 0

/-- round(a / b) = floor(a/b + 1/2) of R7, for b > 0. -/
def roundDiv (a b : Int) : Int := (2 * a + b) / (2 * b)

/-- The number of ones in the low `n` bits. -/
def popcount (n v : Nat) : Nat := (List.range n).countP (fun i => v.testBit i)

/-- The lowest set bit among bits 0 … n−1. -/
def lowestSet (n v : Nat) : Option Nat := (List.range n).find? (fun i => v.testBit i)

/-- `k` bytes of a number, least significant first. -/
def leBytes : Nat → Nat → List Byte
  | 0, _ => []
  | k + 1, v => byte v :: leBytes k (v / 256)

/-- The number whose bytes, least significant first, are given. -/
def leNat : List Byte → Nat
  | [] => 0
  | b :: r => b.toNat + 256 * leNat r

/-- The number whose bytes, most significant first, are given. -/
def beNat (l : List Byte) : Nat := l.foldl (fun a b => a * 256 + b.toNat) 0

/-- `k` bytes of a number, most significant first. -/
def beBytes (k v : Nat) : List Byte := (leBytes k v).reverse

/-- Cut a byte string into pieces of `n` bytes (fuel: at most its length of pieces). -/
def chunks (n : Nat) : Nat → List Byte → List (List Byte)
  | 0, _ => []
  | _ + 1, [] => []
  | f + 1, l => l.take n :: chunks n f (l.drop n)

/-- The 32-bit little-endian words of a byte string. -/
def wordsOf (l : List Byte) : List W32 := (chunks 4 l.length l).map (fun b => w32 (leNat b))

/-- Little-endian bytes of words. -/
def bytesOfWords (l : List W32) : List Byte := l.flatMap (fun w => leBytes 4 w.toNat)

/-- Element `i` of a list, or a default. -/
def nth {α : Type} (l : List α) (i : Nat) (d : α) : α := l.getD i d

/-- Replace element `i` of a list by a function of it. -/
def modNth {α : Type} : List α → Nat → (α → α) → List α
  | [], _, _ => []
  | a :: r, 0, f => f a :: r
  | a :: r, i + 1, f => a :: modNth r i f

/-- Look a key up in a key list. -/
def alGet {α : Type} : List (Nat × α) → Nat → Option α
  | [], _ => none
  | (k, v) :: r, a => if a = k then some v else alGet r a

/-- Remove a key. -/
def alDel {α : Type} : List (Nat × α) → Nat → List (Nat × α)
  | [], _ => []
  | (k, v) :: r, a => if a = k then alDel r a else (k, v) :: alDel r a

/-- Store under a key in a key list held in ascending order. -/
def alSet {α : Type} : List (Nat × α) → Nat → α → List (Nat × α)
  | [], a, x => [(a, x)]
  | (k, v) :: r, a, x =>
    if a < k then (a, x) :: (k, v) :: r
    else if a = k then (a, x) :: r
    else (k, v) :: alSet r a x

/-- Insert a number into an ascending list without repeats. -/
def setIns : List Nat → Nat → List Nat
  | [], a => [a]
  | k :: r, a => if a < k then a :: k :: r else if a = k then k :: r else k :: setIns r a

/-- Remove a number from a list without repeats. -/
def setDel (l : List Nat) (a : Nat) : List Nat := l.filter (fun k => k != a)

/-- Insert into an ordered list, after its equals. -/
def insBy {α : Type} (le : α → α → Bool) (a : α) : List α → List α
  | [] => [a]
  | b :: r => if le b a then b :: insBy le a r else a :: b :: r

/-- Stable sorting by insertion. -/
def sortBy {α : Type} (le : α → α → Bool) (l : List α) : List α := l.foldl (fun s a => insBy le a s) []

/-- The maximal runs of consecutive numbers of an ascending list, as first and last. -/
def runsOf (l : List Nat) : List (Nat × Nat) :=
  (l.foldl (fun (acc : List (Nat × Nat)) a =>
    match acc with
    | (f, e) :: r => if a = e + 1 then (f, a) :: r else (a, a) :: (f, e) :: r
    | [] => [(a, a)]) []).reverse

/-- Sum of a list of integers. -/
def sumI (l : List Int) : Int := l.foldl (· + ·) 0

/-- Sum of a list of numbers. -/
def sumN (l : List Nat) : Nat := l.foldl (· + ·) 0

/-- Apply a function `n` times. -/
def iter {α : Type} (f : α → α) : Nat → α → α
  | 0, a => a
  | n + 1, a => iter f n (f a)

/-- The whole numbers `lo … lo + n − 1`. -/
def rangeI (lo : Int) (n : Nat) : List Int := (List.range n).map (fun i => lo + (i : Int))

end Sys2Proof.Machine
end

