-- ==== Sys2Proof/Machine/Crc.lean ====
section
/-! DEFINITION. The cyclic redundancy codes of R78, R398 and the chapters that use them. -/

namespace Sys2Proof.Machine

/-- One bit of a reflected code with reversed polynomial `p`. -/
def crcBitR (p c : Nat) : Nat := if c % 2 = 1 then (c / 2) ^^^ p else c / 2

/-- One byte of a reflected code. -/
def crcByteR (p c b : Nat) : Nat := iter (crcBitR p) 8 (c ^^^ b)

/-- One bit of a code of width `w` taken most significant bit first. -/
def crcBitN (w p c : Nat) : Nat := if c.testBit (w - 1) then (2 * c % 2 ^ w) ^^^ p else 2 * c % 2 ^ w

/-- One byte of such a code. -/
def crcByteN (w p c b : Nat) : Nat := iter (crcBitN w p) 8 (c ^^^ (b <<< (w - 8)))

/-- CRC-32C of a byte string (R78). -/
def crc32c (l : List Byte) : Nat := (l.foldl (fun c b => crcByteR 0x82F63B78 c b.toNat) 0xFFFFFFFF) ^^^ 0xFFFFFFFF

/-- CRC-32 of IEEE 802.3 of a byte string (R398). -/
def crc32 (l : List Byte) : Nat := (l.foldl (fun c b => crcByteR 0xEDB88320 c b.toNat) 0xFFFFFFFF) ^^^ 0xFFFFFFFF

/-! ### The algorithms of a check unit (R398) -/

/-- Width of algorithm `alg`. -/
def chkWidth (alg : Nat) : Nat := if alg = 2 then 16 else if alg = 3 then 64 else 32

/-- Initial value. -/
def chkInit (alg : Nat) : Nat := if alg ≤ 1 then 0xFFFFFFFF else if alg = 2 then 0xFFFF else 0

/-- Final XOR. -/
def chkXor (alg : Nat) : Nat := if alg ≤ 1 then 0xFFFFFFFF else 0

/-- One byte. -/
def chkByte (alg c b : Nat) : Nat :=
  match alg with
  | 0 => crcByteR 0x82F63B78 c b
  | 1 => crcByteR 0xEDB88320 c b
  | 2 => crcByteN 16 0x1021 c b
  | _ => crcByteN 64 0x42F0E1EBA9EA3693 c b

end Sys2Proof.Machine
end

