-- ==== Sys2Proof/Config.lean ====
section
/-! DEFINITION. What one implementation fixes and the spec leaves open: constants without a body, so that nothing can be
proved from their values. -/

namespace Sys2Proof

/-- A value the spec leaves open, by the block's counter of values taken so far. -/
opaque Config.freeValue : Nat → BitVec 64

/-- The silicon stepping, MAJOR in [15:8] and MINOR in [7:0] (R736, _REV: "per stepping"). -/
opaque Config.stepping : BitVec 16

/-- The 128-bit nonces of the random-number source (R391), by the number of the draw. -/
opaque Config.nonce : Nat → BitVec 128

/-- The FFE taps of preset `n` of the transmit lanes, as LANE_FFE holds them (R359, R388: the spec numbers the presets and
states no taps). -/
opaque Config.ffePreset : Nat → BitVec 32

/-- The bytes of the FACTORY area of the MRAM by offset (R634: "Manufacture only"). -/
opaque Config.factory : Nat → BitVec 8

/-- The four factory root hashes (R626, R634), 48 bytes each. -/
opaque Config.rootHash : Nat → List (BitVec 8)

/-- The DEFLATE stream that an engine makes at LEVEL 1 to 9 (R538): any stream that decodes to the input. -/
opaque Config.deflate : Nat → List (BitVec 8) → List (BitVec 8)

/-- The body of a CTRL unit of an operation whose fields R359 names without their places (TUNE_ACK and RESEND), by operation and
fields. -/
opaque Config.ctrlBody : Nat → List Nat → List (BitVec 8)

/-- Umkodel's Vendor ID (R483: named without its number), and the revision in the class-code word. -/
opaque Config.vendorId : BitVec 16
opaque Config.revisionId : BitVec 8

/-- The body of a return message by its TYPE and fields: R375 names the fields, and states neither their widths nor their places. -/
opaque Config.retBody : Nat → List Nat → List (BitVec 8)

end Sys2Proof
end

