-- ==== Sys2Proof/Machine/Mem.lean ====
section
/-! DEFINITION. Byte memories: a list of cells in one canonical form, addresses strictly rising and no cell equal to what an
unlisted address reads as, which is 0 (R600: the start-up zero write; R599 for the memories inside the block). -/

namespace Sys2Proof.Machine

/-- A byte memory. -/
abbrev Mem := List Host.Cell

/-- What an unlisted address reads as (R599, R600). -/
def Mem.blank : Byte := 0

/-- The byte at an address. -/
def Mem.read : Mem → Nat → Byte
  | [], _ => Mem.blank
  | (k, v) :: r, a => if a = k then v else Mem.read r a

/-- `n` bytes from an address up. -/
def Mem.readN (m : Mem) (a n : Nat) : List Byte :=
  let s := m.filter (fun c => decide (a ≤ c.1 ∧ c.1 < a + n))
  (List.range n).map (fun i => Mem.read s (a + i))

/-- The cells of a byte string laid down from address `a`, those equal to the blank byte left out. -/
def Mem.run : Nat → List Byte → Mem
  | _, [] => []
  | a, b :: r => if b = Mem.blank then Mem.run (a + 1) r else (a, b) :: Mem.run (a + 1) r

/-- Store a byte string from address `a` up. -/
def Mem.write (m : Mem) (a : Nat) (l : List Byte) : Mem :=
  m.filter (fun c => c.1 < a) ++ Mem.run a l ++ m.filter (fun c => a + l.length ≤ c.1)

/-- Set every byte of `a … a + n − 1` to the blank byte. -/
def Mem.zero (m : Mem) (a n : Nat) : Mem := m.filter (fun c => c.1 < a ∨ a + n ≤ c.1)

/-- Addresses strictly rise. -/
def Mem.rising : Mem → Bool
  | [] => true
  | [_] => true
  | a :: b :: r => decide (a.1 < b.1) && Mem.rising (b :: r)

/-- The canonical form. -/
def Mem.wf (m : Mem) : Bool := Mem.rising m && m.all (fun c => c.2 != Mem.blank)

/-- A 32-bit little-endian word. -/
def Mem.readW (m : Mem) (a : Nat) : W32 := w32 (leNat (m.readN a 4))

/-- Store a 32-bit little-endian word. -/
def Mem.writeW (m : Mem) (a : Nat) (w : W32) : Mem := m.write a (leBytes 4 w.toNat)

end Sys2Proof.Machine
end

