-- ==== Sys2Proof/Machine/RegMap.lean ====
section
/-! DEFINITION. The register map of BAR0, from the field maps of the chapters of spec/ and from R733, R734, R736 and R742:
the pages and their bases, for each register its offset, the masks of its fields by access code (R12) and its reset value,
and for each page its events, its error bits and their default severities. -/

namespace Sys2Proof.Machine

/-- The page kinds of R733. -/
inductive Page where
  | glb
  | pmu
  | nvm
  | fcl
  | tim
  | knl
  | mei
  | chk
  | hlk
  | dmaG
  | dmaCh
  | spl
  | cdcG
  | cdcE
  | xpd
  | alt
  | bst
  | pxc
  | ras
  | ver
  | stc
  | bob
  | mc
  | glr
  | tag
  | exp
  | muz
  | hel
  | lane
  deriving DecidableEq, Repr

/-- One register, or `n` registers 4 bytes apart, of a page: the masks of its fields by access code (R12), its reset value, and whether only KNL may write it. -/
structure RegRow where
  off : Nat
  n : Nat
  rw : Nat
  nv : Nat
  rws : Nat
  w1c : Nat
  w1s : Nat
  rst : Nat
  knl : Bool
  deriving DecidableEq, Repr

/-- Page base of instance `n` of a page kind (R733). -/
def Page.base : Page → Nat → Nat
  | .glb, _ => 0x0
  | .pmu, _ => 0x1000
  | .nvm, _ => 0x2000
  | .fcl, _ => 0x3000
  | .tim, _ => 0x4000
  | .knl, _ => 0x5000
  | .mei, _ => 0x6000
  | .chk, n => 0x8000 + 0x1000 * n
  | .hlk, _ => 0x10000
  | .dmaG, _ => 0x11000
  | .dmaCh, n => 0x20000 + 0x1000 * n
  | .spl, _ => 0x30000
  | .cdcG, _ => 0x31000
  | .cdcE, n => 0x32000 + 0x1000 * n
  | .xpd, _ => 0x40000
  | .alt, _ => 0x41000
  | .bst, _ => 0x50000
  | .pxc, _ => 0x51000
  | .ras, n => 0x60000 + 0x1000 * n
  | .ver, _ => 0x90000
  | .stc, _ => 0xA0000
  | .bob, _ => 0xB0000
  | .mc, n => 0xC0000 + 0x1000 * n
  | .glr, _ => 0x100000
  | .tag, _ => 0x120000
  | .exp, _ => 0x130000
  | .muz, _ => 0x131000
  | .hel, _ => 0x140000
  | .lane, n => 0x150000 + 0x1000 * n

/-- Number of instances of a page kind (R733). -/
def Page.count : Page → Nat
  | .chk => 8
  | .dmaCh => 16
  | .cdcE => 8
  | .ras => 34
  | .mc => 64
  | .lane => 52
  | _ => 1

/-- The TYPE field of _ID (R733). -/
def Page.typ : Page → Nat
  | .glb => 0x0001
  | .pmu => 0x0002
  | .nvm => 0x0003
  | .fcl => 0x0004
  | .tim => 0x0005
  | .knl => 0x0006
  | .mei => 0x0007
  | .chk => 0x0008
  | .hlk => 0x0010
  | .dmaG => 0x0011
  | .dmaCh => 0x0012
  | .spl => 0x0020
  | .cdcG => 0x0021
  | .cdcE => 0x0022
  | .xpd => 0x0030
  | .alt => 0x0031
  | .bst => 0x0040
  | .pxc => 0x0041
  | .ras => 0x0050
  | .ver => 0x0051
  | .stc => 0x0060
  | .bob => 0x0070
  | .mc => 0x0071
  | .glr => 0x0080
  | .tag => 0x0082
  | .exp => 0x0090
  | .muz => 0x0091
  | .hel => 0x00A0
  | .lane => 0x0081

/-- Every page kind, in the order of R733. -/
def Page.all : List Page :=
  [.glb, .pmu, .nvm, .fcl, .tim, .knl, .mei, .chk, .hlk, .dmaG, .dmaCh, .spl, .cdcG, .cdcE, .xpd, .alt, .bst, .pxc, .ras, .ver, .stc, .bob, .mc, .glr, .tag, .exp, .muz, .hel, .lane]

/-- The page kind and instance whose 4 KiB page holds BAR0 address `a` (R733). -/
def pageOf (a : Nat) : Option (Page × Nat) :=
  let b := a / 0x1000 * 0x1000
  Page.all.findSome? fun p =>
    let b0 := p.base 0
    if b0 ≤ b ∧ b < b0 + 0x1000 * p.count then some (p, (b - b0) / 0x1000) else none

/-- Block registers of the GLB page. -/
def rowsGlb : List RegRow :=
  [
    ⟨0x100, 1, 0x0, 0x0, 0x0, 0x0, 0x0, 0x0, false⟩,  -- GLB_JOB
    ⟨0x104, 1, 0x0, 0x0, 0x0, 0x0, 0x0, 0x0, false⟩,  -- GLB_JOB_SWAP
    ⟨0x108, 1, 0xFFFF0003, 0x0, 0x0, 0x0, 0x0, 0x27100003, false⟩,  -- GLB_SLOT_A
    ⟨0x10C, 1, 0xFFFF0003, 0x0, 0x0, 0x0, 0x0, 0x27100003, false⟩,  -- GLB_SLOT_B
    ⟨0x110, 1, 0xFFFFFFFF, 0x0, 0x0, 0x0, 0x0, 0x0, false⟩,  -- GLB_JOBID_A
    ⟨0x114, 1, 0xFFFFFFFF, 0x0, 0x0, 0x0, 0x0, 0x0, false⟩,  -- GLB_JOBID_B
    ⟨0x118, 1, 0x0, 0x0, 0x0, 0x0, 0x0, 0x0, false⟩,  -- GLB_SEAL_INDEX
    ⟨0x11C, 1, 0x0, 0x0, 0x0, 0x0, 0x0, 0x0, false⟩,  -- GLB_SEAL_WR
    ⟨0x120, 1, 0x0, 0x0, 0x0, 0x0, 0x0, 0x0, false⟩,  -- GLB_SEAL_STAT
    ⟨0x124, 1, 0xFFFF001F, 0x0, 0x0, 0x0, 0x0, 0x4400000, false⟩  -- GLB_REPAIR
  ]

/-- Block registers of the PMU page. -/
def rowsPmu : List RegRow :=
  [
    ⟨0x100, 14, 0x30, 0x0, 0x0, 0x0, 0x0, 0x0, false⟩,  -- PMU_PD[0..13]
    ⟨0x140, 1, 0x0, 0x0, 0x0, 0x0, 0x0, 0x20000000, false⟩,  -- PMU_STAT
    ⟨0x144, 1, 0x0, 0x0, 0x0, 0x3F0000, 0x0, 0x0, false⟩,  -- PMU_SUPPLY
    ⟨0x148, 1, 0x0, 0x0, 0x0, 0x0, 0x0, 0x0, false⟩,  -- PMU_CNT_WARN
    ⟨0x14C, 1, 0xFFFFFF, 0x0, 0x0, 0x0, 0x0, 0x3E8, false⟩,  -- PMU_MEMIDLE
    ⟨0x150, 1, 0xFF, 0x0, 0x0, 0x0, 0x0, 0x0, false⟩,  -- PMU_RASPLAN
    ⟨0x154, 1, 0x1, 0x0, 0x0, 0x0, 0x0, 0x0, false⟩,  -- PMU_CLK
    ⟨0x158, 1, 0x0, 0x0, 0x0, 0x0, 0x0, 0x1, false⟩,  -- PMU_RSTCAUSE
    ⟨0x15C, 1, 0x0, 0x0, 0x0, 0x0, 0x0, 0x0, true⟩,  -- PMU_CMD
    ⟨0x160, 1, 0x0, 0x0, 0x0, 0x80000000, 0x0, 0x0, false⟩,  -- PMU_WR_STAT
    ⟨0x164, 1, 0x0, 0x0, 0x0, 0x0, 0x0, 0x0, false⟩,  -- PMU_WR_STRIPE
    ⟨0x168, 1, 0x0, 0x0, 0x0, 0x0, 0x0, 0x0, false⟩  -- PMU_WR_UNSENT
  ]
  ++ [
    ⟨0x16C, 1, 0x0, 0x0, 0x0, 0x0, 0x0, 0x0, false⟩,  -- PMU_WR_UNACK
    ⟨0x170, 1, 0x0, 0x0, 0x0, 0x0, 0x0, 0x0, false⟩,  -- PMU_WR_MEND
    ⟨0x174, 1, 0x0, 0x0, 0x0, 0x0, 0x0, 0x0, false⟩  -- PMU_WR_SERIAL
  ]

/-- Block registers of the NVM page. -/
def rowsNvm : List RegRow :=
  [
    ⟨0x100, 1, 0x0, 0x0, 0x0, 0x0, 0x0, 0x0, false⟩,  -- NVM_CMD
    ⟨0x104, 1, 0x0, 0x0, 0x0, 0x0, 0x0, 0x0, false⟩,  -- NVM_STAT
    ⟨0x108, 1, 0x7FFFF, 0x0, 0x0, 0x0, 0x0, 0x0, false⟩,  -- NVM_OFF
    ⟨0x10C, 1, 0x7FFFC, 0x0, 0x0, 0x0, 0x0, 0x0, false⟩,  -- NVM_RD_ADDR
    ⟨0x110, 1, 0x0, 0x0, 0x0, 0x0, 0x0, 0x0, false⟩,  -- NVM_RD_DATA
    ⟨0x114, 1, 0x0, 0x0, 0x0, 0x0, 0x0, 0x0, false⟩,  -- NVM_SVN
    ⟨0x118, 1, 0x0, 0x0, 0xFFFFFFFF, 0x0, 0x0, 0x0, false⟩,  -- NVM_CNT_STORE
    ⟨0x11C, 1, 0x0, 0x0, 0x0, 0x0, 0x0, 0x0, false⟩,  -- NVM_CNT_REJECT
    ⟨0x200, 128, 0x0, 0x0, 0x0, 0x0, 0x0, 0x0, false⟩  -- NVM_BUF[0..127]
  ]

/-- Block registers of the FCL page. -/
def rowsFcl : List RegRow :=
  [
    ⟨0x100, 1, 0x0, 0x0, 0x0, 0xFFFFFFFF, 0x0, 0x0, false⟩,  -- FCL_STATUS_LO
    ⟨0x104, 1, 0x0, 0x0, 0x0, 0x0, 0x0, 0x0, false⟩,  -- FCL_STATUS_HI
    ⟨0x108, 1, 0x0, 0x0, 0x0, 0x0, 0x0, 0x0, false⟩,  -- FCL_LVL_LO
    ⟨0x10C, 1, 0x0, 0x0, 0x0, 0x0, 0x0, 0x0, false⟩,  -- FCL_LVL_HI
    ⟨0x110, 1, 0x0, 0x0, 0x0, 0x80000000, 0x0, 0x0, false⟩,  -- FCL_FIRST
    ⟨0x114, 1, 0x0, 0x0, 0x0, 0x0, 0x0, 0x0, false⟩,  -- FCL_FIRST_S
    ⟨0x118, 1, 0x0, 0x0, 0x0, 0x0, 0x0, 0x0, false⟩,  -- FCL_FIRST_NS
    ⟨0x11C, 1, 0x0, 0x0, 0x0, 0x80000000, 0x0, 0x0, false⟩,  -- FCL_LOG_STAT
    ⟨0x120, 1, 0x0, 0x0, 0x0, 0x0, 0x0, 0x0, false⟩,  -- FCL_LOG_W0
    ⟨0x124, 1, 0x0, 0x0, 0x0, 0x0, 0x0, 0x0, false⟩,  -- FCL_LOG_W1
    ⟨0x128, 1, 0x0, 0x0, 0x0, 0x0, 0x0, 0x0, false⟩,  -- FCL_LOG_W2
    ⟨0x12C, 1, 0x0, 0x0, 0x0, 0x0, 0x0, 0x0, true⟩  -- FCL_CMD
  ]
  ++ [
    ⟨0x130, 1, 0x0, 0x0, 0x3, 0x0, 0x0, 0x2, false⟩,  -- FCL_OUT
    ⟨0x134, 1, 0x0, 0x0, 0xFFFFFFFF, 0x0, 0x0, 0x0, false⟩,  -- FCL_CNT
    ⟨0x200, 32, 0x0, 0xFFFFFFFF, 0x0, 0x0, 0x0, 0x0, false⟩  -- FCL_SEV[0..31]
  ]

/-- Block registers of the TIM page. -/
def rowsTim : List RegRow :=
  [
    ⟨0x100, 1, 0x0, 0x0, 0x0, 0x0, 0x0, 0x0, false⟩,  -- TIM_NS
    ⟨0x104, 1, 0x0, 0x0, 0x0, 0x0, 0x0, 0x0, false⟩,  -- TIM_S_LO
    ⟨0x108, 1, 0x0, 0x0, 0x0, 0x0, 0x0, 0x0, false⟩,  -- TIM_S_HI
    ⟨0x10C, 1, 0x0, 0x0, 0x0, 0x0, 0x0, 0x80000000, false⟩,  -- TIM_STAT
    ⟨0x110, 1, 0x0, 0x0, 0x0, 0x0, 0x0, 0x0, true⟩,  -- TIM_CMD
    ⟨0x114, 1, 0xFFFFFFFF, 0x0, 0x0, 0x0, 0x0, 0x0, true⟩,  -- TIM_RATE
    ⟨0x118, 1, 0xFFFFFFFF, 0x0, 0x0, 0x0, 0x0, 0x0, true⟩,  -- TIM_STEP_S
    ⟨0x11C, 1, 0xFFFFFFFF, 0x0, 0x0, 0x0, 0x0, 0x0, true⟩,  -- TIM_STEP_NS
    ⟨0x120, 1, 0x0, 0xFFFFFFFF, 0x0, 0x0, 0x0, 0x0, false⟩,  -- TIM_EPOCH
    ⟨0x124, 1, 0xFFFF, 0x0, 0x0, 0x0, 0x0, 0x258, false⟩,  -- TIM_HOLD
    ⟨0x128, 1, 0xC00FFFFF, 0x0, 0x0, 0x0, 0x0, 0x80002710, false⟩,  -- TIM_PPS
    ⟨0x12C, 1, 0x0, 0x0, 0x0, 0x0, 0x0, 0x0, false⟩  -- TIM_PPSIN_NS
  ]
  ++ [
    ⟨0x130, 1, 0x0, 0x0, 0x0, 0x0, 0x0, 0x0, false⟩,  -- TIM_PPSIN_S
    ⟨0x134, 1, 0x0, 0x0, 0x0, 0x80000000, 0x0, 0x0, false⟩,  -- TIM_TSQ_STAT
    ⟨0x138, 1, 0x0, 0x0, 0x0, 0x0, 0x0, 0x0, false⟩,  -- TIM_TSQ_ID
    ⟨0x13C, 1, 0x0, 0x0, 0x0, 0x0, 0x0, 0x0, false⟩,  -- TIM_TSQ_S
    ⟨0x140, 1, 0x0, 0x0, 0x0, 0x0, 0x0, 0x0, false⟩,  -- TIM_TSQ_NS
    ⟨0x144, 1, 0xFFFF, 0x0, 0x0, 0x0, 0x0, 0xFA0, false⟩,  -- TIM_OS_HOLD
    ⟨0x148, 1, 0xFFFFFFFF, 0x0, 0x0, 0x0, 0x0, 0x0, false⟩,  -- TIM_OS_CORR_LO
    ⟨0x14C, 1, 0xFFFFFFFF, 0x0, 0x0, 0x0, 0x0, 0x0, false⟩,  -- TIM_OS_CORR_HI
    ⟨0x150, 1, 0x0, 0x0, 0x0, 0x20000000, 0x0, 0x0, false⟩,  -- TIM_OS_STAT
    ⟨0x154, 1, 0x0, 0x0, 0x0, 0x0, 0x0, 0x0, false⟩,  -- TIM_CNT_OSMISS
    ⟨0x158, 1, 0x0, 0xFFFF, 0x0, 0x0, 0x0, 0x0, false⟩  -- TIM_EPOCH_HI
  ]

/-- Block registers of the KNL page. -/
def rowsKnl : List RegRow :=
  [
    ⟨0x100, 1, 0x0, 0x0, 0x0, 0x0, 0x0, 0x80000000, false⟩,  -- KNL_STAT
    ⟨0x104, 1, 0x0, 0x0, 0x0, 0x0, 0x0, 0x0, false⟩,  -- KNL_FWVER
    ⟨0x108, 1, 0x0, 0x0, 0x0, 0x0, 0x0, 0x0, false⟩,  -- KNL_FWSVN
    ⟨0x10C, 1, 0x0, 0x0, 0x0, 0x0, 0x0, 0x0, true⟩,  -- KNL_CMD
    ⟨0x110, 1, 0xFFFF, 0x0, 0x0, 0x0, 0x0, 0x0, true⟩,  -- KNL_WDOG
    ⟨0x114, 1, 0x0, 0x0, 0x0, 0x0, 0x0, 0x0, true⟩,  -- KNL_KICK
    ⟨0x118, 1, 0x0, 0x0, 0x0, 0x0, 0x0, 0x80000000, false⟩,  -- KNL_AWAY
    ⟨0x11C, 1, 0x1FFFF, 0x0, 0x0, 0x0, 0x0, 0x0, false⟩,  -- KNL_DAWIN
    ⟨0x120, 1, 0x0, 0x0, 0x0, 0x0, 0x0, 0x0, false⟩,  -- KNL_H2K_DB
    ⟨0x124, 1, 0x0, 0x0, 0x0, 0x0, 0x0, 0x0, false⟩,  -- KNL_K2H_DB
    ⟨0x140, 16, 0xFFFFFFFF, 0x0, 0x0, 0x0, 0x0, 0x0, false⟩,  -- KNL_H2K[0..15]
    ⟨0x180, 16, 0xFFFFFFFF, 0x0, 0x0, 0x0, 0x0, 0x0, false⟩  -- KNL_K2H[0..15]
  ]
  ++ [
    ⟨0x1C0, 1, 0xFF, 0x0, 0x0, 0x0, 0x0, 0x0, false⟩,  -- KNL_SENS_SEL
    ⟨0x1C4, 1, 0x0, 0x0, 0x0, 0x0, 0x0, 0x0, false⟩,  -- KNL_SENS_VAL
    ⟨0x1C8, 1, 0xFFFF, 0x0, 0x0, 0x0, 0x0, 0xB305, false⟩,  -- KNL_TLIM
    ⟨0x1CC, 1, 0xFFFFFFFF, 0x0, 0x0, 0x0, 0x0, 0x0, false⟩,  -- KNL_LOG_WR
    ⟨0x1D0, 1, 0x0, 0x0, 0xFFFFFFFF, 0x0, 0x0, 0x0, false⟩,  -- KNL_CNT_BOOT
    ⟨0x200, 16, 0x0, 0xFFFF, 0x0, 0x0, 0x0, 0x0, false⟩,  -- KNL_RAIL[0..15]
    ⟨0x300, 1, 0x60000000, 0x0, 0x0, 0x0, 0x0, 0x0, false⟩,  -- KNL_MAC_CFG
    ⟨0x304, 1, 0x0, 0xFFFFFFFF, 0x0, 0x0, 0x0, 0x0, false⟩,  -- KNL_MAC_ADDR_LO
    ⟨0x308, 1, 0x0, 0xFFFF, 0x0, 0x0, 0x0, 0x0, false⟩,  -- KNL_MAC_ADDR_HI
    ⟨0x30C, 1, 0x0, 0xFFFFFFFF, 0x0, 0x0, 0x0, 0x0, false⟩,  -- KNL_MAC_IP
    ⟨0x310, 1, 0xF0007FFF, 0x0, 0x0, 0x0, 0x0, 0x40000000, false⟩,  -- KNL_MAC_TXRING
    ⟨0x314, 1, 0x3FF, 0x0, 0x0, 0x0, 0x0, 0x0, false⟩  -- KNL_MAC_TXTAIL
  ]
  ++ [
    ⟨0x318, 1, 0x0, 0x0, 0x0, 0x0, 0x0, 0x0, false⟩,  -- KNL_MAC_TXHEAD
    ⟨0x31C, 1, 0xF0007FFF, 0x0, 0x0, 0x0, 0x0, 0x40000000, false⟩,  -- KNL_MAC_RXRING
    ⟨0x320, 1, 0x3FF, 0x0, 0x0, 0x0, 0x0, 0x0, false⟩,  -- KNL_MAC_RXTAIL
    ⟨0x324, 1, 0x0, 0x0, 0x0, 0x0, 0x0, 0x0, false⟩,  -- KNL_MAC_RXHEAD
    ⟨0x328, 1, 0x0, 0xFFFF, 0x0, 0x0, 0x0, 0x0, false⟩,  -- KNL_NSTOP_CFG
    ⟨0x32C, 1, 0x0, 0xFFFFFFFF, 0x0, 0x0, 0x0, 0x0, true⟩,  -- KNL_NSTOP_KEY0
    ⟨0x330, 1, 0x0, 0xFFFFFFFF, 0x0, 0x0, 0x0, 0x0, true⟩,  -- KNL_NSTOP_KEY1
    ⟨0x334, 1, 0x0, 0x0, 0x0, 0x0, 0x0, 0x0, false⟩,  -- KNL_NSTOP_SEQ
    ⟨0x338, 1, 0x0, 0x0, 0x0, 0x0, 0x0, 0x0, true⟩,  -- KNL_NSTOP_CMD
    ⟨0x340, 1, 0x0, 0xFFFFFFFF, 0x0, 0x0, 0x0, 0x0, false⟩,  -- KNL_RPT_IP
    ⟨0x344, 1, 0x0, 0xFFFF, 0x0, 0x0, 0x0, 0x0, false⟩  -- KNL_RPT_PORT
  ]

/-- Block registers of the MEI page. -/
def rowsMei : List RegRow :=
  [
    ⟨0x100, 1, 0xFFFFFFFF, 0x0, 0x0, 0x0, 0x0, 0x64003C, false⟩,  -- MEI_SCRUB
    ⟨0x104, 1, 0x0, 0x0, 0x0, 0x0, 0x0, 0x0, false⟩,  -- MEI_SCRUB_POS
    ⟨0x108, 1, 0x0, 0x0, 0x0, 0x0, 0x0, 0x0, false⟩,  -- MEI_SCRUB_PASS
    ⟨0x10C, 1, 0xF, 0x0, 0x0, 0x0, 0x0, 0x3, false⟩,  -- MEI_CE_K
    ⟨0x110, 1, 0x0, 0x0, 0x0, 0x0, 0x0, 0x0, false⟩,  -- MEI_CNT_CE
    ⟨0x114, 1, 0x0, 0x0, 0x0, 0x0, 0x0, 0x0, false⟩,  -- MEI_CNT_UE
    ⟨0x118, 1, 0x0, 0x0, 0x0, 0x0, 0x0, 0x0, false⟩,  -- MEI_CNT_POISON
    ⟨0x11C, 1, 0x0, 0x0, 0x0, 0x0, 0x0, 0x0, false⟩,  -- MEI_CNT_REMAP
    ⟨0x120, 1, 0x0, 0x0, 0x0, 0x0, 0x0, 0x0, false⟩,  -- MEI_CNT_TRK_DROP
    ⟨0x124, 1, 0x0, 0x0, 0x0, 0x0, 0x0, 0x0, false⟩,  -- MEI_LAST_UE_LO
    ⟨0x128, 1, 0x0, 0x0, 0x0, 0x0, 0x0, 0x0, false⟩,  -- MEI_LAST_UE_HI
    ⟨0x12C, 1, 0x0, 0x0, 0x0, 0x0, 0x0, 0x0, false⟩  -- MEI_LAST_UE_S
  ]
  ++ [
    ⟨0x130, 1, 0x0, 0x0, 0x0, 0x0, 0x0, 0x0, false⟩,  -- MEI_LAST_UE_NS
    ⟨0x134, 1, 0x0, 0x0, 0x0, 0x0, 0x0, 0x0, false⟩,  -- MEI_INIT
    ⟨0x138, 1, 0x8000FFFF, 0x0, 0x0, 0x0, 0x0, 0x0, false⟩,  -- MEI_RMP_SEL
    ⟨0x13C, 1, 0x0, 0x80000000, 0x0, 0x0, 0x0, 0x0, false⟩,  -- MEI_RMP_ENT0
    ⟨0x140, 1, 0x0, 0x3FFFFC1F, 0x0, 0x0, 0x0, 0x0, false⟩,  -- MEI_RMP_ENT1
    ⟨0x144, 1, 0x0, 0x0, 0x0, 0x0, 0x0, 0x0, false⟩,  -- MEI_RMP_USED
    ⟨0x148, 1, 0xFFFF, 0x0, 0x0, 0x0, 0x0, 0x100, false⟩,  -- MEI_ODE
    ⟨0x14C, 1, 0xFFFFFFFF, 0x0, 0x0, 0x0, 0x0, 0x0, false⟩,  -- MEI_INJ_ADDR_LO
    ⟨0x150, 1, 0xFFFFFFFF, 0x0, 0x0, 0x0, 0x0, 0x0, false⟩,  -- MEI_INJ_ADDR_HI
    ⟨0x154, 1, 0x7, 0x0, 0x0, 0x0, 0x0, 0x0, false⟩  -- MEI_INJ_CTRL
  ]

/-- Block registers of the CHK page. -/
def rowsChk : List RegRow :=
  [
    ⟨0x100, 1, 0x17, 0x0, 0x0, 0x0, 0x0, 0x0, false⟩,  -- CHK_CFG
    ⟨0x104, 1, 0xFFFFFFFF, 0x0, 0x0, 0x0, 0x0, 0x0, false⟩,  -- CHK_SEED_LO
    ⟨0x108, 1, 0xFFFFFFFF, 0x0, 0x0, 0x0, 0x0, 0x0, false⟩,  -- CHK_SEED_HI
    ⟨0x10C, 1, 0xFFFFFFFF, 0x0, 0x0, 0x0, 0x0, 0x0, false⟩,  -- CHK_ALIVE
    ⟨0x110, 1, 0x0, 0x0, 0x0, 0x0, 0x0, 0x0, false⟩,  -- CHK_CMD
    ⟨0x114, 1, 0x0, 0x0, 0x0, 0x0, 0x0, 0x0, false⟩,  -- CHK_STAT
    ⟨0x118, 1, 0x0, 0x0, 0x0, 0x0, 0x0, 0x0, false⟩,  -- CHK_RES_LO
    ⟨0x11C, 1, 0x0, 0x0, 0x0, 0x0, 0x0, 0x0, false⟩,  -- CHK_RES_HI
    ⟨0x120, 1, 0x0, 0x0, 0x0, 0x0, 0x0, 0x0, false⟩,  -- CHK_D8
    ⟨0x124, 1, 0x0, 0x0, 0x0, 0x0, 0x0, 0x0, false⟩,  -- CHK_D16
    ⟨0x128, 1, 0x0, 0x0, 0x0, 0x0, 0x0, 0x0, false⟩,  -- CHK_D32
    ⟨0x12C, 1, 0x0, 0x0, 0x0, 0x0, 0x0, 0x0, false⟩  -- CHK_BYTES
  ]

/-- Block registers of the HLK page. -/
def rowsHlk : List RegRow :=
  [
    ⟨0x100, 1, 0x0, 0x0, 0x0, 0x0, 0x0, 0x0, false⟩,  -- HLK_LINK
    ⟨0x104, 1, 0x1, 0x0, 0x0, 0x0, 0x0, 0x1, false⟩,  -- HLK_CFG
    ⟨0x108, 1, 0x1FFFF, 0x0, 0x0, 0x0, 0x0, 0x0, false⟩,  -- HLK_BAR4
    ⟨0x10C, 1, 0x0, 0x0, 0x0, 0x0, 0x0, 0x0, false⟩,  -- HLK_CNT_RECOV
    ⟨0x110, 1, 0x0, 0x0, 0x0, 0x0, 0x0, 0x0, false⟩,  -- HLK_CNT_UR
    ⟨0x114, 1, 0x0, 0x0, 0x0, 0x0, 0x0, 0x0, false⟩  -- HLK_CNT_VC1
  ]

/-- Block registers of the DMAG page. -/
def rowsDmaG : List RegRow :=
  [
    ⟨0x100, 1, 0xFFFF, 0x0, 0x0, 0x0, 0x0, 0x2710, false⟩,  -- DMA_TMO
    ⟨0x104, 1, 0x1, 0x0, 0x0, 0x0, 0x0, 0x0, false⟩,  -- DMA_CFG
    ⟨0x108, 1, 0x0, 0x0, 0x0, 0x0, 0x0, 0x0, false⟩,  -- DMA_RUN
    ⟨0x10C, 1, 0x0, 0x0, 0x0, 0x0, 0x0, 0x0, false⟩,  -- DMA_PARKED
    ⟨0x110, 1, 0x0, 0x0, 0x0, 0x0, 0x0, 0x0, false⟩,  -- DMA_HALTED
    ⟨0x114, 1, 0x0, 0x0, 0x0, 0x0, 0x0, 0x0, false⟩,  -- DMA_BYTES_H2D_LO
    ⟨0x118, 1, 0x0, 0x0, 0x0, 0x0, 0x0, 0x0, false⟩,  -- DMA_BYTES_H2D_HI
    ⟨0x11C, 1, 0x0, 0x0, 0x0, 0x0, 0x0, 0x0, false⟩,  -- DMA_BYTES_D2H_LO
    ⟨0x120, 1, 0x0, 0x0, 0x0, 0x0, 0x0, 0x0, false⟩  -- DMA_BYTES_D2H_HI
  ]

/-- Block registers of the DMACH page. -/
def rowsDmaCh : List RegRow :=
  [
    ⟨0x100, 1, 0xFFFFFFFF, 0x0, 0x0, 0x0, 0x0, 0x0, false⟩,  -- DMA_HEAD_LO
    ⟨0x104, 1, 0xFFFFFFFF, 0x0, 0x0, 0x0, 0x0, 0x0, false⟩,  -- DMA_HEAD_HI
    ⟨0x108, 1, 0x0, 0x0, 0x0, 0x0, 0x0, 0x0, false⟩,  -- DMA_DB
    ⟨0x10C, 1, 0xFFFF, 0x0, 0x0, 0x0, 0x0, 0x400, false⟩,  -- DMA_HOPS
    ⟨0x110, 1, 0x0, 0x0, 0x0, 0x0, 0x0, 0x0, false⟩,  -- DMA_STAT
    ⟨0x114, 1, 0x0, 0x0, 0x0, 0x0, 0x0, 0x0, false⟩,  -- DMA_CUR_LO
    ⟨0x118, 1, 0x0, 0x0, 0x0, 0x0, 0x0, 0x0, false⟩,  -- DMA_CUR_HI
    ⟨0x11C, 1, 0xF, 0x0, 0x0, 0x0, 0x0, 0x4, false⟩,  -- DMA_CH_CFG
    ⟨0x120, 1, 0x0, 0x0, 0x0, 0x0, 0x0, 0x0, false⟩,  -- DMA_DISABLE
    ⟨0x124, 1, 0x0, 0x0, 0x0, 0x0, 0x0, 0x0, false⟩,  -- DMA_CNT_DESC
    ⟨0x128, 1, 0x0, 0x0, 0x0, 0x0, 0x0, 0x0, false⟩,  -- DMA_CNT_BAD
    ⟨0x12C, 1, 0x0, 0x0, 0x0, 0x0, 0x0, 0x0, false⟩  -- DMA_CNT_BYTES_LO
  ]
  ++ [
    ⟨0x130, 1, 0x0, 0x0, 0x0, 0x0, 0x0, 0x0, false⟩  -- DMA_CNT_BYTES_HI
  ]

/-- Block registers of the SPL page. -/
def rowsSpl : List RegRow :=
  [
    ⟨0x100, 1, 0xFFFFFF, 0x0, 0x0, 0x0, 0x0, 0x640001, false⟩,  -- SPL_CFG
    ⟨0x104, 1, 0xFFFFFFFF, 0x0, 0x0, 0x0, 0x0, 0x0, false⟩,  -- SPL_SEQ
    ⟨0x108, 1, 0xFFFFF, 0x0, 0x0, 0x0, 0x0, 0x1388, false⟩,  -- SPL_NAK_HOLD
    ⟨0x10C, 1, 0x0, 0x0, 0x0, 0x80000000, 0x0, 0x0, false⟩,  -- SPL_REQ_STAT
    ⟨0x110, 1, 0x0, 0x0, 0x0, 0x0, 0x0, 0x0, false⟩,  -- SPL_REQ_W0
    ⟨0x114, 1, 0x0, 0x0, 0x0, 0x0, 0x0, 0x0, false⟩,  -- SPL_REQ_W1
    ⟨0x118, 1, 0x0, 0x0, 0x0, 0x0, 0x0, 0x0, false⟩,  -- SPL_REQ_W2
    ⟨0x11C, 1, 0x0, 0x0, 0x0, 0x0, 0x0, 0x0, false⟩,  -- SPL_POS
    ⟨0x120, 1, 0x0, 0x0, 0x0, 0x0, 0x0, 0x0, false⟩,  -- SPL_CNT_DAMAGED
    ⟨0x124, 1, 0x0, 0x0, 0x0, 0x0, 0x0, 0x0, false⟩,  -- SPL_CNT_DISCARD
    ⟨0x128, 1, 0x0, 0x0, 0x0, 0x0, 0x0, 0x0, false⟩  -- SPL_CNT_GIVEUP
  ]

/-- Block registers of the CDCG page. -/
def rowsCdcG : List RegRow :=
  [
    ⟨0x100, 1, 0xFF, 0x0, 0x0, 0x0, 0x0, 0x80, false⟩,  -- CDC_ROLE
    ⟨0x104, 1, 0x0, 0x0, 0x0, 0x0, 0x0, 0x0, false⟩,  -- CDC_INSVC
    ⟨0x108, 1, 0x0, 0x0, 0x0, 0x0, 0x0, 0x0, false⟩,  -- CDC_PEND
    ⟨0x10C, 1, 0x0, 0x0, 0x0, 0x0, 0x0, 0x0, false⟩,  -- CDC_CNT_FRAMES
    ⟨0x110, 1, 0x0, 0x0, 0x0, 0x0, 0x0, 0x0, false⟩,  -- CDC_CNT_CRC
    ⟨0x114, 1, 0x0, 0x0, 0x0, 0x0, 0x0, 0x0, false⟩,  -- CDC_CNT_FORMAT
    ⟨0x118, 1, 0x0, 0x0, 0x0, 0x0, 0x0, 0x0, false⟩,  -- CDC_CNT_OUT_LO
    ⟨0x11C, 1, 0x0, 0x0, 0x0, 0x0, 0x0, 0x0, false⟩  -- CDC_CNT_OUT_HI
  ]

/-- Block registers of the CDCE page. -/
def rowsCdcE : List RegRow :=
  [
    ⟨0x100, 1, 0xF000F, 0x0, 0x0, 0x0, 0x0, 0x1, false⟩,  -- CDC_JOB_CTRL
    ⟨0x104, 1, 0xFFFFFFFF, 0x0, 0x0, 0x0, 0x0, 0x0, false⟩,  -- CDC_JOB_SRC_LO
    ⟨0x108, 1, 0xFFFFFFFF, 0x0, 0x0, 0x0, 0x0, 0x0, false⟩,  -- CDC_JOB_SRC_HI
    ⟨0x10C, 1, 0xFFFFFFFF, 0x0, 0x0, 0x0, 0x0, 0x0, false⟩,  -- CDC_JOB_LEN
    ⟨0x110, 1, 0xFFFFFFFF, 0x0, 0x0, 0x0, 0x0, 0x0, false⟩,  -- CDC_JOB_DST_LO
    ⟨0x114, 1, 0xFFFFFFFF, 0x0, 0x0, 0x0, 0x0, 0x0, false⟩,  -- CDC_JOB_DST_HI
    ⟨0x118, 1, 0xFFFFFFFF, 0x0, 0x0, 0x0, 0x0, 0x0, false⟩,  -- CDC_JOB_DST_MAX
    ⟨0x11C, 1, 0x0, 0x0, 0x0, 0x0, 0x0, 0x0, false⟩,  -- CDC_JOB_STAT
    ⟨0x120, 1, 0x0, 0x0, 0x0, 0x0, 0x0, 0x0, false⟩,  -- CDC_JOB_OUT
    ⟨0x124, 1, 0x0, 0x0, 0x0, 0x0, 0x0, 0x0, false⟩,  -- CDC_JOB_CRC
    ⟨0x128, 1, 0x0, 0x0, 0x0, 0x0, 0x0, 0x0, false⟩,  -- CDC_ENG_CUR
    ⟨0x12C, 1, 0x0, 0x0, 0x0, 0x0, 0x0, 0x0, false⟩  -- CDC_CNT_WORK
  ]
  ++ [
    ⟨0x130, 1, 0x0, 0x0, 0x0, 0x0, 0x0, 0x0, false⟩,  -- CDC_CNT_IN
    ⟨0x134, 1, 0x0, 0x0, 0x0, 0x0, 0x0, 0x0, false⟩  -- CDC_CNT_OUT
  ]

/-- Block registers of the XPD page. -/
def rowsXpd : List RegRow :=
  [
    ⟨0x100, 1, 0xFFFFFFFF, 0x0, 0x0, 0x0, 0x0, 0x10001800, false⟩,  -- XPD_CFG_A
    ⟨0x104, 1, 0xFFFFFFFF, 0x0, 0x0, 0x0, 0x0, 0x10001800, false⟩,  -- XPD_CFG_B
    ⟨0x108, 1, 0x0, 0x0, 0x0, 0x0, 0x0, 0x0, false⟩,  -- XPD_DIR
    ⟨0x10C, 1, 0x0, 0x0, 0x0, 0x0, 0x0, 0x0, false⟩,  -- XPD_CACHE_USED
    ⟨0x110, 1, 0xFFFFFFFF, 0x0, 0x0, 0x0, 0x0, 0x0, false⟩,  -- XPD_QUERY
    ⟨0x114, 1, 0x0, 0x0, 0x0, 0x0, 0x0, 0x0, false⟩,  -- XPD_QSTATE
    ⟨0x118, 1, 0x0, 0x0, 0x0, 0x0, 0x0, 0x0, false⟩,  -- XPD_WAIT
    ⟨0x11C, 1, 0x0, 0x0, 0x0, 0x0, 0x0, 0x0, false⟩,  -- XPD_WAIT_ID
    ⟨0x120, 1, 0x0, 0x0, 0x0, 0x0, 0x0, 0x0, false⟩,  -- XPD_CNT_CULLED
    ⟨0x124, 1, 0x0, 0x0, 0x0, 0x0, 0x0, 0x0, false⟩,  -- XPD_CNT_SKIPPED
    ⟨0x128, 1, 0x0, 0x0, 0x0, 0x0, 0x0, 0x0, false⟩  -- XPD_CNT_FAILED
  ]

/-- Block registers of the ALT page. -/
def rowsAlt : List RegRow :=
  [
    ⟨0x100, 1, 0xFFFF, 0x0, 0x0, 0x0, 0x0, 0x40, false⟩,  -- ALT_MAX_SEG_A
    ⟨0x104, 1, 0xFFFF, 0x0, 0x0, 0x0, 0x0, 0x40, false⟩,  -- ALT_MAX_SEG_B
    ⟨0x108, 1, 0x0, 0x0, 0x0, 0x0, 0x0, 0x0, false⟩,  -- ALT_CUR
    ⟨0x10C, 1, 0x0, 0x0, 0x0, 0x0, 0x0, 0x0, false⟩,  -- ALT_BANK
    ⟨0x110, 1, 0x0, 0x0, 0x0, 0x0, 0x0, 0x0, false⟩,  -- ALT_STRIPE
    ⟨0x114, 1, 0x0, 0x0, 0x0, 0x0, 0x0, 0x0, false⟩,  -- ALT_CNT_SUBDIV
    ⟨0x118, 1, 0x0, 0x0, 0x0, 0x0, 0x0, 0x0, false⟩  -- ALT_CNT_CLIP
  ]

/-- Block registers of the BST page. -/
def rowsBst : List RegRow :=
  [
    ⟨0x100, 1, 0x0, 0x0, 0x0, 0x0, 0x0, 0x0, false⟩,  -- BST_POS
    ⟨0x104, 1, 0x0, 0x0, 0x0, 0x0, 0x0, 0x0, false⟩,  -- BST_BAND
    ⟨0x108, 1, 0x0, 0x0, 0x0, 0x0, 0x0, 0x0, false⟩,  -- BST_GRID
    ⟨0x10C, 1, 0x0, 0x0, 0x0, 0x0, 0x0, 0x0, false⟩,  -- BST_CNT_PIECES
    ⟨0x110, 1, 0x0, 0x0, 0x0, 0x0, 0x0, 0x0, false⟩,  -- BST_CNT_PATCHES
    ⟨0x114, 1, 0x0, 0x0, 0x0, 0x0, 0x0, 0x0, false⟩,  -- BST_CNT_CARRY
    ⟨0x118, 1, 0x0, 0x0, 0x0, 0x0, 0x0, 0x0, false⟩,  -- BST_LAST_PATCH
    ⟨0x11C, 1, 0x0, 0x0, 0x0, 0x0, 0x0, 0x0, false⟩,  -- BST_LAST_AREA_LO
    ⟨0x120, 1, 0x0, 0x0, 0x0, 0x0, 0x0, 0x0, false⟩  -- BST_LAST_AREA_HI
  ]

/-- Block registers of the PXC page. -/
def rowsPxc : List RegRow :=
  [
    ⟨0x100, 1, 0x7, 0x0, 0x0, 0x0, 0x0, 0x0, false⟩,  -- PXC_CFG_A
    ⟨0x104, 1, 0x7, 0x0, 0x0, 0x0, 0x0, 0x0, false⟩,  -- PXC_CFG_B
    ⟨0x110, 4, 0x3FFFFF, 0x0, 0x0, 0x0, 0x0, 0x0, false⟩,  -- PXC_TERM_A[0..3]
    ⟨0x120, 1, 0xFFFFF, 0x0, 0x0, 0x0, 0x0, 0x0, false⟩,  -- PXC_FOG_A
    ⟨0x124, 1, 0xFFF0FFF, 0x0, 0x0, 0x0, 0x0, 0xFFF0000, false⟩,  -- PXC_MLIM_A
    ⟨0x130, 4, 0x3FFFFF, 0x0, 0x0, 0x0, 0x0, 0x0, false⟩,  -- PXC_TERM_B[0..3]
    ⟨0x140, 1, 0xFFFFF, 0x0, 0x0, 0x0, 0x0, 0x0, false⟩,  -- PXC_FOG_B
    ⟨0x144, 1, 0xFFF0FFF, 0x0, 0x0, 0x0, 0x0, 0xFFF0000, false⟩,  -- PXC_MLIM_B
    ⟨0x150, 1, 0x0, 0x0, 0x0, 0x0, 0x0, 0x8000, false⟩,  -- PXC_T_A
    ⟨0x154, 1, 0x0, 0x0, 0x0, 0x0, 0x0, 0x1000040, false⟩,  -- PXC_REACH_A
    ⟨0x158, 1, 0x0, 0x0, 0x0, 0x0, 0x0, 0x8000, false⟩,  -- PXC_T_B
    ⟨0x15C, 1, 0x0, 0x0, 0x0, 0x0, 0x0, 0x1000040, false⟩  -- PXC_REACH_B
  ]
  ++ [
    ⟨0x160, 1, 0x0, 0x0, 0x0, 0x0, 0x0, 0x0, false⟩,  -- PXC_POS
    ⟨0x164, 1, 0x0, 0x0, 0x0, 0x0, 0x0, 0x0, false⟩,  -- PXC_BAND
    ⟨0x168, 1, 0x0, 0x0, 0x0, 0x0, 0x0, 0x0, false⟩,  -- PXC_CNT_CLAMP
    ⟨0x400, 33, 0x1FFFF, 0x0, 0x0, 0x0, 0x0, 0x0, false⟩,  -- PXC_TAP of slot A, term 0
    ⟨0x500, 33, 0x1FFFF, 0x0, 0x0, 0x0, 0x0, 0x0, false⟩,  -- PXC_TAP of slot A, term 1
    ⟨0x600, 33, 0x1FFFF, 0x0, 0x0, 0x0, 0x0, 0x0, false⟩,  -- PXC_TAP of slot A, term 2
    ⟨0x700, 33, 0x1FFFF, 0x0, 0x0, 0x0, 0x0, 0x0, false⟩,  -- PXC_TAP of slot A, term 3
    ⟨0x800, 9, 0x1FFFF, 0x0, 0x0, 0x0, 0x0, 0x0, false⟩,  -- of its fog term
    ⟨0x900, 33, 0x1FFFF, 0x0, 0x0, 0x0, 0x0, 0x0, false⟩,  -- PXC_TAP of slot B, term 0
    ⟨0xA00, 33, 0x1FFFF, 0x0, 0x0, 0x0, 0x0, 0x0, false⟩,  -- PXC_TAP of slot B, term 1
    ⟨0xB00, 33, 0x1FFFF, 0x0, 0x0, 0x0, 0x0, 0x0, false⟩,  -- PXC_TAP of slot B, term 2
    ⟨0xC00, 33, 0x1FFFF, 0x0, 0x0, 0x0, 0x0, 0x0, false⟩,  -- PXC_TAP of slot B, term 3
    ⟨0xD00, 9, 0x1FFFF, 0x0, 0x0, 0x0, 0x0, 0x0, false⟩  -- of its fog term
  ]

/-- Block registers of the RAS page. -/
def rowsRas : List RegRow :=
  [
    ⟨0x100, 1, 0x3, 0x0, 0x0, 0x0, 0x0, 0x1, false⟩,  -- RAS_ROLE
    ⟨0x104, 1, 0x0, 0x0, 0x0, 0x0, 0x0, 0x0, false⟩,  -- RAS_CUR
    ⟨0x108, 1, 0x0, 0x0, 0x0, 0x0, 0x0, 0x0, false⟩,  -- RAS_CUR_STRIPE
    ⟨0x10C, 1, 0x0, 0x0, 0x0, 0x0, 0x0, 0x0, false⟩,  -- RAS_TEST
    ⟨0x110, 1, 0x0, 0x0, 0x0, 0x0, 0x0, 0x0, false⟩,  -- RAS_CNT_PATCH
    ⟨0x114, 1, 0x0, 0x0, 0x0, 0x0, 0x0, 0x0, false⟩,  -- RAS_CNT_MISMATCH
    ⟨0x118, 1, 0x0, 0x0, 0x0, 0x0, 0x0, 0x0, false⟩,  -- RAS_CNT_CONFIRMED
    ⟨0x11C, 1, 0x0, 0x0, 0x0, 0x0, 0x0, 0x0, false⟩,  -- RAS_CNT_AWAKE
    ⟨0x120, 1, 0x0, 0x0, 0x0, 0x0, 0x0, 0x0, false⟩,  -- RAS_LAST_FRAG
    ⟨0x124, 1, 0x0, 0x0, 0x0, 0x0, 0x0, 0x0, false⟩,  -- RAS_LAST_NXI
    ⟨0x128, 1, 0x0, 0x0, 0x0, 0x0, 0x0, 0x0, false⟩  -- RAS_LAST_NYI
  ]

/-- Block registers of the VER page. -/
def rowsVer : List RegRow :=
  [
    ⟨0x100, 1, 0xFF0F01, 0x0, 0x0, 0x0, 0x0, 0x640201, false⟩,  -- VER_CFG
    ⟨0x104, 1, 0xFFFF, 0x0, 0x0, 0x0, 0x0, 0x3E8, false⟩,  -- VER_PD_IDLE
    ⟨0x108, 1, 0x0, 0x0, 0x0, 0x0, 0x0, 0x0, false⟩,  -- VER_INSVC_LO
    ⟨0x10C, 1, 0x0, 0x0, 0x0, 0x0, 0x0, 0x0, false⟩,  -- VER_INSVC_HI
    ⟨0x110, 1, 0x0, 0x0, 0x0, 0x0, 0x0, 0x0, false⟩,  -- VER_AWAKE_LO
    ⟨0x114, 1, 0x0, 0x0, 0x0, 0x0, 0x0, 0x0, false⟩,  -- VER_AWAKE_HI
    ⟨0x118, 1, 0x0, 0x0, 0x0, 0x0, 0x0, 0x0, false⟩,  -- VER_QUEUE
    ⟨0x11C, 1, 0x0, 0x0, 0x0, 0x0, 0x0, 0x0, false⟩,  -- VER_CNT_PASS1
    ⟨0x120, 1, 0x0, 0x0, 0x0, 0x0, 0x0, 0x0, false⟩,  -- VER_CNT_PASS2
    ⟨0x124, 1, 0x0, 0x0, 0x0, 0x0, 0x0, 0x0, false⟩,  -- VER_CNT_FLAGGED
    ⟨0x128, 1, 0x0, 0x0, 0x0, 0x0, 0x0, 0x0, false⟩,  -- VER_CNT_WITHHELD
    ⟨0x12C, 1, 0x0, 0x0, 0x0, 0x0, 0x0, 0x0, false⟩  -- VER_CNT_POISON_RR
  ]
  ++ [
    ⟨0x130, 1, 0x0, 0x0, 0x0, 0x0, 0x0, 0x0, false⟩,  -- VER_MM_STRIPE
    ⟨0x134, 1, 0x0, 0x0, 0x0, 0x0, 0x0, 0x0, false⟩,  -- VER_MM_PATCH
    ⟨0x138, 1, 0x0, 0x0, 0x0, 0x0, 0x0, 0x0, false⟩,  -- VER_MM_KIND
    ⟨0x13C, 1, 0x0, 0x0, 0x0, 0x0, 0x0, 0x0, false⟩,  -- VER_MM_DIFF_LO
    ⟨0x140, 1, 0x0, 0x0, 0x0, 0x0, 0x0, 0x0, false⟩,  -- VER_MM_DIFF_HI
    ⟨0x144, 1, 0x0, 0x0, 0x0, 0x0, 0x0, 0x0, false⟩,  -- VER_MM_BOUND_LO
    ⟨0x148, 1, 0x0, 0x0, 0x0, 0x0, 0x0, 0x0, false⟩  -- VER_MM_BOUND_HI
  ]

/-- Block registers of the STC page. -/
def rowsStc : List RegRow :=
  [
    ⟨0x100, 1, 0xFFFFF, 0x0, 0x0, 0x0, 0x0, 0x0, false⟩,  -- STC_SCALE_A
    ⟨0x104, 1, 0xFFFFF, 0x0, 0x0, 0x0, 0x0, 0x0, false⟩,  -- STC_SCALE_B
    ⟨0x108, 1, 0x0, 0x0, 0x0, 0x0, 0x0, 0x0, false⟩,  -- STC_POS
    ⟨0x10C, 1, 0x0, 0x0, 0x0, 0x0, 0x0, 0x0, false⟩,  -- STC_STRIPE
    ⟨0x110, 1, 0x0, 0x0, 0x0, 0x0, 0x0, 0x0, false⟩,  -- STC_ROW
    ⟨0x114, 1, 0x0, 0x0, 0x0, 0x0, 0x0, 0x0, false⟩,  -- STC_GATHER
    ⟨0x118, 1, 0x0, 0x0, 0x0, 0x0, 0x0, 0x0, false⟩,  -- STC_LEAD
    ⟨0x11C, 1, 0x0, 0x0, 0x0, 0x0, 0x0, 0x1000, false⟩,  -- STC_PQ
    ⟨0x120, 1, 0x0, 0x0, 0x0, 0x0, 0x0, 0x0, false⟩,  -- STC_DBM
    ⟨0x124, 1, 0x0, 0x0, 0x0, 0x0, 0x0, 0x0, false⟩,  -- STC_CNT_SHORT
    ⟨0x128, 1, 0x0, 0x0, 0x0, 0x0, 0x0, 0x0, false⟩,  -- STC_CNT_STARVE
    ⟨0x12C, 1, 0x0, 0x0, 0x0, 0x0, 0x0, 0x0, false⟩  -- STC_CNT_TAG
  ]
  ++ [
    ⟨0x130, 1, 0x0, 0x0, 0x0, 0x0, 0x0, 0x0, false⟩,  -- STC_CNT_DARNED
    ⟨0x134, 1, 0x0, 0x0, 0x0, 0x0, 0x0, 0x0, false⟩  -- STC_CNT_RESTITCH
  ]

/-- Block registers of the BOB page. -/
def rowsBob : List RegRow :=
  [
    ⟨0x100, 7, 0xFFFFFFFF, 0x0, 0x0, 0x0, 0x0, 0x0, false⟩,  -- BOB_RGN[0..6]
    ⟨0x120, 1, 0x0, 0x0, 0x0, 0x0, 0x0, 0x0, false⟩,  -- BOB_LOOK_ROWS
    ⟨0x124, 1, 0x0, 0x0, 0x0, 0x0, 0x0, 0x0, false⟩,  -- BOB_LOOK_US
    ⟨0x128, 1, 0xFFFFFF, 0x0, 0x0, 0x0, 0x0, 0x1D4C0, false⟩,  -- BOB_WM_HIGH
    ⟨0x12C, 1, 0xFFFFFF, 0x0, 0x0, 0x0, 0x0, 0x4E20, false⟩,  -- BOB_WM_LOW
    ⟨0x130, 1, 0xFF, 0x0, 0x0, 0x0, 0x0, 0xFF0040, false⟩,  -- BOB_PACE
    ⟨0x134, 1, 0xFFFF, 0x0, 0x0, 0x0, 0x0, 0x7D0, false⟩,  -- BOB_DUE
    ⟨0x138, 1, 0xFF, 0x0, 0x0, 0x0, 0x0, 0x8, false⟩,  -- BOB_SPOOL_RSV
    ⟨0x13C, 1, 0x0, 0x0, 0x0, 0x0, 0x0, 0x0, false⟩,  -- BOB_SPOOL_FREE
    ⟨0x140, 1, 0x0, 0x0, 0x0, 0x0, 0x0, 0x0, false⟩,  -- BOB_PATCH_FREE
    ⟨0x144, 1, 0x0, 0x0, 0x0, 0x0, 0x0, 0x0, false⟩,  -- BOB_WIN_FREE
    ⟨0x148, 1, 0x0, 0x0, 0x0, 0x0, 0x0, 0x0, false⟩  -- BOB_MEND_WR
  ]
  ++ [
    ⟨0x14C, 1, 0xFFFFFFFF, 0x0, 0x0, 0x0, 0x0, 0x0, false⟩,  -- BOB_MEND_RD
    ⟨0x150, 1, 0xFFFFFFFF, 0x0, 0x0, 0x0, 0x0, 0x0, false⟩,  -- BOB_MEND_VIEW
    ⟨0x154, 1, 0x0, 0x0, 0x0, 0x0, 0x0, 0x400000, false⟩,  -- BOB_MEND_CAP
    ⟨0x158, 1, 0x7F7F, 0x0, 0x0, 0x0, 0x0, 0x0, false⟩,  -- BOB_MIG_CTRL
    ⟨0x15C, 1, 0x0, 0x0, 0x0, 0x0, 0x0, 0x0, false⟩,  -- BOB_MIG_STAT
    ⟨0x160, 1, 0xFF, 0x0, 0x0, 0x0, 0x0, 0x8, false⟩,  -- BOB_MIG_RATE
    ⟨0x164, 1, 0x0, 0x0, 0x0, 0x0, 0x0, 0x0, false⟩,  -- BOB_CNT_MIGPOISON
    ⟨0x168, 1, 0x0, 0x0, 0x0, 0x0, 0x0, 0x0, false⟩,  -- BOB_CNT_LATE
    ⟨0x16C, 1, 0x0, 0x0, 0x0, 0x0, 0x0, 0x0, false⟩,  -- BOB_CNT_LOW
    ⟨0x180, 15, 0x0, 0xFFFF, 0x0, 0x0, 0x0, 0xFA, false⟩,  -- BOB_LAT_SEED[0..14]
    ⟨0x1C0, 15, 0x0, 0x0, 0x0, 0x0, 0x0, 0xFA, false⟩,  -- BOB_LAT_EST[0..14]
    ⟨0x200, 15, 0xFFFF, 0x0, 0x0, 0x0, 0x0, 0x0, false⟩  -- BOB_LT[0..14]
  ]
  ++ [
    ⟨0x400, 126, 0x0, 0x7F, 0x0, 0x0, 0x0, 0x0, false⟩,  -- BOB_PCMAP[0..125]
    ⟨0x600, 128, 0x0, 0x7, 0x0, 0x0, 0x0, 0x0, false⟩  -- BOB_PCSTATE[0..127]
  ]

/-- Block registers of the MC page. -/
def rowsMc : List RegRow :=
  [
    ⟨0x100, 1, 0xFFFFFFFF, 0x0, 0x0, 0x0, 0x0, 0x401020, false⟩,  -- MC_CFG
    ⟨0x104, 1, 0xFFFFFFFF, 0x0, 0x0, 0x0, 0x0, 0x48331717, false⟩,  -- MC_TIM0
    ⟨0x108, 1, 0xFFFFFFFF, 0x0, 0x0, 0x0, 0x0, 0x1805040C, false⟩,  -- MC_TIM1
    ⟨0x10C, 1, 0xFFFF, 0x0, 0x0, 0x0, 0x0, 0x82, false⟩,  -- MC_REF
    ⟨0x110, 1, 0x0, 0x0, 0x0, 0x0, 0x0, 0x0, false⟩,  -- MC_STAT
    ⟨0x114, 1, 0x0, 0x0, 0x0, 0x0, 0x0, 0x0, false⟩,  -- MC_CNT_ACT
    ⟨0x118, 1, 0x0, 0x0, 0x0, 0x0, 0x0, 0x0, false⟩,  -- MC_CNT_RD
    ⟨0x11C, 1, 0x0, 0x0, 0x0, 0x0, 0x0, 0x0, false⟩,  -- MC_CNT_WR
    ⟨0x120, 1, 0x0, 0x0, 0x0, 0x0, 0x0, 0x0, false⟩,  -- MC_CNT_HIT
    ⟨0x124, 1, 0x0, 0x0, 0x0, 0x0, 0x0, 0x0, false⟩,  -- MC_CNT_INORDER
    ⟨0x128, 1, 0x0, 0x0, 0x0, 0x0, 0x0, 0x0, false⟩  -- MC_CNT_URG3
  ]

/-- Block registers of the GLR page. -/
def rowsGlr : List RegRow :=
  [
    ⟨0x100, 1, 0x0, 0x0, 0x0, 0x0, 0x0, 0x0, false⟩,  -- GLR_LINK
    ⟨0x104, 1, 0xFF003F, 0x0, 0x0, 0x0, 0x0, 0x540008, false⟩,  -- GLR_CFG
    ⟨0x108, 1, 0x0, 0x0, 0x0, 0x0, 0x0, 0x0, false⟩,  -- GLR_LIVE_LO
    ⟨0x10C, 1, 0x0, 0x0, 0x0, 0x0, 0x0, 0x0, false⟩,  -- GLR_LIVE_HI
    ⟨0x110, 1, 0x0, 0x0, 0x0, 0x0, 0x0, 0x0, false⟩,  -- GLR_LSEQ
    ⟨0x114, 1, 0x0, 0x0, 0x0, 0x0, 0x0, 0x0, false⟩,  -- GLR_ACK
    ⟨0x118, 1, 0x0, 0x0, 0x0, 0x0, 0x0, 0x1, false⟩,  -- GLR_UNACK_FIRST
    ⟨0x11C, 1, 0x0, 0x0, 0x0, 0x0, 0x0, 0x0, false⟩,  -- GLR_UNACK_LAST
    ⟨0x120, 1, 0xFFF, 0x0, 0x0, 0x0, 0x0, 0x400, false⟩,  -- GLR_ACKWIN
    ⟨0x124, 1, 0xFFFF, 0x0, 0x0, 0x0, 0x0, 0x64, false⟩,  -- GLR_HB
    ⟨0x128, 1, 0xFFFFFFFF, 0x0, 0x0, 0x0, 0x0, 0xC81388, false⟩,  -- GLR_TRAIN
    ⟨0x12C, 1, 0x0, 0x0, 0x0, 0x0, 0x0, 0x1F4, false⟩  -- GLR_TMIN
  ]
  ++ [
    ⟨0x130, 1, 0x0, 0x0, 0x0, 0x0, 0x0, 0x0, false⟩,  -- GLR_PLATE_ID_LO
    ⟨0x134, 1, 0x0, 0x0, 0x0, 0x0, 0x0, 0x0, false⟩,  -- GLR_PLATE_ID_HI
    ⟨0x138, 1, 0x0, 0x0, 0x0, 0x0, 0x0, 0x0, false⟩,  -- GLR_CMD
    ⟨0x13C, 1, 0x0, 0x0, 0x0, 0x0, 0x0, 0x0, false⟩,  -- GLR_CNT_ROWFAIL
    ⟨0x140, 1, 0x0, 0x0, 0x0, 0x0, 0x0, 0x0, false⟩,  -- GLR_CNT_LANE
    ⟨0x144, 1, 0x0, 0x0, 0x0, 0x0, 0x0, 0x0, false⟩,  -- GLR_CNT_RESEND
    ⟨0x148, 1, 0x0, 0x0, 0x0, 0x0, 0x0, 0x0, false⟩  -- GLR_CNT_BADMSG
  ]

/-- Block registers of the TAG page. -/
def rowsTag : List RegRow :=
  [
    ⟨0x100, 1, 0xF2, 0x0, 0x0, 0x0, 0x1, 0x2, false⟩,  -- TAG_CTRL
    ⟨0x104, 1, 0x0, 0x0, 0x0, 0x0, 0x0, 0x0, false⟩,  -- TAG_STAT
    ⟨0x108, 1, 0x0, 0x0, 0x0, 0x0, 0x0, 0x0, false⟩,  -- TAG_COUNT
    ⟨0x10C, 1, 0xFFFFFFFF, 0x0, 0x0, 0x0, 0x0, 0xFFFFFFFF, false⟩,  -- TAG_LIMIT
    ⟨0x110, 1, 0x0, 0x0, 0x0, 0x0, 0x0, 0x0, false⟩,  -- TAG_RESID
    ⟨0x114, 4, 0x0, 0x0, 0x0, 0x0, 0x0, 0x0, false⟩  -- TAG_NONCE[0..3]
  ]

/-- Block registers of the EXP page. -/
def rowsExp : List RegRow :=
  [
    ⟨0x100, 1, 0x31F, 0x0, 0x0, 0x0, 0x0, 0x2, false⟩,  -- EXP_CFG
    ⟨0x104, 1, 0x1FFFFFF, 0x0, 0x0, 0x0, 0x0, 0x10000, false⟩,  -- EXP_RATIO_A
    ⟨0x108, 1, 0x1FFFFFF, 0x0, 0x0, 0x0, 0x0, 0x10000, false⟩,  -- EXP_RATIO_B
    ⟨0x10C, 1, 0x3FF, 0x0, 0x0, 0x0, 0x0, 0xF0, false⟩,  -- EXP_STROBE_A
    ⟨0x110, 1, 0x3FF, 0x0, 0x0, 0x0, 0x0, 0xF0, false⟩,  -- EXP_STROBE_B
    ⟨0x114, 1, 0xFFFF, 0x0, 0x0, 0x0, 0x0, 0x1F401F4, false⟩,  -- EXP_TMIN
    ⟨0x118, 1, 0xFFF0FFF, 0x0, 0x0, 0x0, 0x0, 0x960258, false⟩,  -- EXP_DELAY
    ⟨0x11C, 1, 0xFFFF, 0x0, 0x0, 0x0, 0x0, 0x2, false⟩,  -- EXP_GO
    ⟨0x120, 1, 0xFFFF00FF, 0x0, 0x0, 0x0, 0x0, 0x140004, false⟩,  -- EXP_GUARD
    ⟨0x124, 1, 0xFFFF00FF, 0x0, 0x0, 0x0, 0x0, 0x10000008, false⟩,  -- EXP_SKIP
    ⟨0x128, 1, 0xFFFFFF, 0x0, 0x0, 0x0, 0x0, 0x4E20, false⟩,  -- EXP_TURN
    ⟨0x12C, 1, 0xFFFF, 0x0, 0x0, 0x0, 0x0, 0xFFFFFAFF, false⟩  -- EXP_PACE
  ]
  ++ [
    ⟨0x130, 1, 0x1FF, 0x0, 0x0, 0x0, 0x0, 0x10D, false⟩,  -- EXP_OVS
    ⟨0x140, 1, 0x0, 0x0, 0x0, 0x0, 0x0, 0x0, false⟩,  -- EXP_TKT
    ⟨0x144, 1, 0x0, 0x0, 0x0, 0x0, 0x0, 0x0, false⟩,  -- EXP_TKT_STAT
    ⟨0x148, 1, 0x0, 0x0, 0x0, 0x0, 0x0, 0x0, false⟩,  -- EXP_CMD
    ⟨0x14C, 1, 0x0, 0x0, 0x0, 0x0, 0x0, 0x0, false⟩,  -- EXP_RUN
    ⟨0x150, 1, 0x0, 0x0, 0x0, 0x0, 0x0, 0x0, false⟩,  -- EXP_REFUSE
    ⟨0x154, 1, 0x0, 0x0, 0x0, 0x0, 0x0, 0x0, false⟩,  -- EXP_STRIPE
    ⟨0x158, 1, 0x0, 0x0, 0x0, 0x0, 0x0, 0x0, false⟩,  -- EXP_SHOT
    ⟨0x15C, 1, 0x0, 0x0, 0x0, 0x0, 0x0, 0x0, false⟩,  -- EXP_N
    ⟨0x160, 1, 0x0, 0x0, 0x0, 0x0, 0x0, 0x0, false⟩,  -- EXP_POS_LO
    ⟨0x164, 1, 0x0, 0x0, 0x0, 0x0, 0x0, 0x0, false⟩,  -- EXP_POS_HI
    ⟨0x168, 1, 0x0, 0x0, 0x0, 0x0, 0x0, 0x0, false⟩  -- EXP_GO_POS_LO
  ]
  ++ [
    ⟨0x16C, 1, 0x0, 0x0, 0x0, 0x0, 0x0, 0x0, false⟩,  -- EXP_GO_POS_HI
    ⟨0x170, 1, 0x0, 0x0, 0x0, 0x0, 0x0, 0x0, false⟩,  -- EXP_HWM
    ⟨0x174, 1, 0x0, 0x0, 0x0, 0x0, 0x0, 0x0, false⟩,  -- EXP_PERIOD
    ⟨0x178, 1, 0x0, 0x0, 0x0, 0x0, 0x0, 0x0, false⟩,  -- EXP_CNT_SHOTS
    ⟨0x17C, 1, 0x0, 0x0, 0x0, 0x0, 0x0, 0x0, false⟩,  -- EXP_CNT_SKIP
    ⟨0x180, 1, 0x0, 0x0, 0x0, 0x0, 0x0, 0x0, false⟩,  -- EXP_CNT_BACKLASH
    ⟨0x184, 1, 0x0, 0x0, 0x0, 0x0, 0x0, 0x0, false⟩  -- EXP_CNT_GO_IGNORED
  ]

/-- Block registers of the MUZ page. -/
def rowsMuz : List RegRow :=
  [
    ⟨0x100, 1, 0xFF, 0x0, 0x0, 0x0, 0x0, 0x40, false⟩,  -- MUZ_GRACE
    ⟨0x104, 1, 0x0, 0x0, 0x0, 0x0, 0x0, 0x170, false⟩,  -- MUZ_LIMIT
    ⟨0x108, 1, 0x0, 0x0, 0x0, 0x0, 0x0, 0x0, false⟩,  -- MUZ_STAT
    ⟨0x10C, 1, 0x0, 0x0, 0xFFFFFFFF, 0x0, 0x0, 0x0, false⟩,  -- MUZ_CUT_SHOT
    ⟨0x110, 1, 0x0, 0x0, 0xFFFFFFFF, 0x0, 0x0, 0x0, false⟩,  -- MUZ_CUT_STRIPE
    ⟨0x114, 1, 0x0, 0x0, 0x0, 0x0, 0x0, 0x0, true⟩,  -- MUZ_CMD
    ⟨0x118, 1, 0x0, 0x0, 0xFFFFFFFF, 0x0, 0x0, 0x0, false⟩,  -- MUZ_CNT
    ⟨0x11C, 1, 0x0, 0x0, 0x0, 0x0, 0x0, 0x0, false⟩  -- MUZ_CAL
  ]

/-- Block registers of the HEL page. -/
def rowsHel : List RegRow :=
  [
    ⟨0x100, 1, 0x3FF, 0x0, 0x0, 0x0, 0x0, 0x200, false⟩,  -- HEL_CFG
    ⟨0x104, 1, 0xFFFF, 0x0, 0x0, 0x0, 0x0, 0x100, false⟩,  -- HEL_SLOPE
    ⟨0x108, 1, 0xFFFF, 0x0, 0x0, 0x0, 0x0, 0x200, false⟩,  -- HEL_BAND
    ⟨0x10C, 1, 0xFF00FFFF, 0x0, 0x0, 0x0, 0x0, 0x8000010, false⟩,  -- HEL_LEASH
    ⟨0x110, 1, 0xFFFF, 0x0, 0x0, 0x0, 0x0, 0x400, false⟩,  -- HEL_RAMP
    ⟨0x114, 1, 0x0, 0x0, 0x0, 0x0, 0x0, 0x0, false⟩,  -- HEL_CMD
    ⟨0x118, 1, 0x0, 0x0, 0x0, 0x0, 0x0, 0x0, false⟩,  -- HEL_STAT
    ⟨0x11C, 1, 0x0, 0x0, 0x0, 0x0, 0x0, 0x0, false⟩,  -- HEL_Y
    ⟨0x120, 1, 0x0, 0x0, 0x0, 0x0, 0x0, 0x0, false⟩,  -- HEL_ERR_LAST
    ⟨0x124, 1, 0x0, 0x0, 0x0, 0x0, 0x0, 0x0, false⟩,  -- HEL_PEAK
    ⟨0x128, 1, 0x0, 0x0, 0x0, 0x0, 0x0, 0x0, false⟩,  -- HEL_SAMPLE
    ⟨0x12C, 1, 0x0, 0x0, 0x0, 0x0, 0x0, 0x0, false⟩  -- HEL_CNT_OVERRUN
  ]
  ++ [
    ⟨0x130, 1, 0x0, 0x0, 0x0, 0x0, 0x0, 0x0, false⟩,  -- HEL_CNT_SWITCH
    ⟨0x134, 1, 0x0, 0x0, 0x0, 0x0, 0x0, 0x0, false⟩,  -- HEL_CYC
    ⟨0x140, 16, 0xFFFFFFFF, 0x0, 0x0, 0x0, 0x0, 0x0, false⟩,  -- HEL_COEF[0..15]
    ⟨0x180, 1, 0x3C, 0x0, 0x0, 0x0, 0x3, 0x0, false⟩,  -- HEL_INJ_CTRL
    ⟨0x184, 1, 0xFFFFFF, 0x0, 0x0, 0x0, 0x0, 0x0, false⟩,  -- HEL_INJ_AMP
    ⟨0x188, 1, 0xFFFFFFFF, 0x0, 0x0, 0x0, 0x0, 0x100, false⟩,  -- HEL_INJ_LEN
    ⟨0x18C, 1, 0xFFFF, 0x0, 0x0, 0x0, 0x0, 0x10, false⟩,  -- HEL_INJ_HALF
    ⟨0x190, 1, 0xFFFFFFFF, 0x0, 0x0, 0x0, 0x0, 0x0, false⟩,  -- HEL_INJ_F0
    ⟨0x194, 1, 0xFFFFFFFF, 0x0, 0x0, 0x0, 0x0, 0x0, false⟩,  -- HEL_INJ_F1
    ⟨0x1A0, 1, 0x77FFF00, 0x0, 0x0, 0x0, 0x1, 0x0, false⟩,  -- HEL_CAP_CTRL
    ⟨0x1A4, 1, 0x0, 0x0, 0x0, 0x0, 0x0, 0x0, false⟩  -- HEL_CAP_STAT
  ]

/-- Block registers of the LANE page. -/
def rowsLane : List RegRow :=
  [
    ⟨0x100, 1, 0x0, 0x0, 0x0, 0x0, 0x0, 0x0, false⟩,  -- LANE_STAT
    ⟨0x104, 1, 0xFFFFFFFF, 0x0, 0x0, 0x0, 0x0, 0xF83800, false⟩,  -- LANE_FFE
    ⟨0x108, 1, 0x0, 0x0, 0x0, 0x0, 0x0, 0x0, false⟩,  -- LANE_BER
    ⟨0x10C, 1, 0x0, 0x0, 0x0, 0x0, 0x0, 0x0, false⟩,  -- LANE_CNT_UNCORR
    ⟨0x110, 1, 0x0, 0x0, 0x0, 0x0, 0x0, 0x0, false⟩  -- LANE_CNT_LOSS
  ]

/-- Block registers of a page kind. -/
def Page.rows : Page → List RegRow
  | .glb => rowsGlb
  | .pmu => rowsPmu
  | .nvm => rowsNvm
  | .fcl => rowsFcl
  | .tim => rowsTim
  | .knl => rowsKnl
  | .mei => rowsMei
  | .chk => rowsChk
  | .hlk => rowsHlk
  | .dmaG => rowsDmaG
  | .dmaCh => rowsDmaCh
  | .spl => rowsSpl
  | .cdcG => rowsCdcG
  | .cdcE => rowsCdcE
  | .xpd => rowsXpd
  | .alt => rowsAlt
  | .bst => rowsBst
  | .pxc => rowsPxc
  | .ras => rowsRas
  | .ver => rowsVer
  | .stc => rowsStc
  | .bob => rowsBob
  | .mc => rowsMc
  | .glr => rowsGlr
  | .tag => rowsTag
  | .exp => rowsExp
  | .muz => rowsMuz
  | .hel => rowsHel
  | .lane => rowsLane

/-- Reset severity of the error bits of a page (R608): bit, default severity, and whether it is a floor ("never lower"). -/
def Page.errs : Page → List (Nat × Nat × Bool)
  | .glb => [(0, 1, false)]
  | .pmu => [(0, 1, false), (1, 3, true), (2, 2, false), (3, 2, false), (4, 1, false)]
  | .nvm => [(0, 1, false), (1, 1, false), (2, 0, false)]
  | .fcl => [(0, 3, true), (1, 3, true)]
  | .tim => [(0, 0, false), (1, 0, false), (2, 0, false)]
  | .knl => [(0, 2, true), (1, 1, false), (2, 1, false), (3, 1, false), (4, 2, false), (5, 1, false), (6, 1, false)]
  | .mei => [(0, 0, false), (1, 1, false), (2, 0, false), (3, 0, false), (4, 3, false), (5, 3, true), (6, 1, false), (7, 1, false)]
  | .hlk => [(0, 1, false), (1, 0, false), (2, 1, false)]
  | .dmaCh => [(0, 0, false), (1, 0, false), (2, 1, false), (3, 1, false), (4, 1, false), (5, 1, false)]
  | .spl => [(0, 2, false), (1, 1, false), (2, 0, false)]
  | .cdcG => [(0, 0, false), (1, 0, false), (2, 1, false)]
  | .cdcE => [(0, 1, false), (1, 0, false)]
  | .xpd => [(0, 1, false), (1, 1, false), (2, 1, false), (3, 0, false)]
  | .alt => [(0, 1, false)]
  | .bst => [(0, 1, false), (1, 1, false)]
  | .pxc => [(0, 1, false)]
  | .ras => [(0, 0, false), (1, 1, false), (2, 0, false)]
  | .ver => [(0, 1, false), (1, 1, false), (2, 1, false), (3, 0, false), (4, 2, false)]
  | .stc => [(0, 0, false), (1, 1, false), (2, 1, false), (3, 1, false), (4, 1, false), (5, 2, true), (6, 2, true), (7, 0, false)]
  | .bob => [(0, 2, false), (1, 0, false), (2, 2, true)]
  | .mc => [(0, 0, false), (1, 2, false)]
  | .glr => [(0, 2, false), (1, 1, false), (2, 0, false), (3, 1, false), (4, 2, true), (5, 1, false), (6, 1, false), (7, 2, true)]
  | .tag => [(0, 2, false), (1, 2, false), (2, 2, false)]
  | .exp => [(0, 2, false), (1, 2, false), (2, 2, false), (3, 2, false), (4, 0, false), (5, 1, false), (6, 1, false), (7, 1, false), (8, 1, false)]
  | .muz => [(0, 3, true), (1, 2, false)]
  | .hel => [(0, 2, false), (1, 2, false), (2, 2, false), (3, 2, false), (4, 0, false)]
  | .lane => [(0, 1, false)]
  | _ => []

/-! Event and error bit numbers. -/
namespace Bit
abbrev evt_GLB_SWAPPED : Nat := 0
abbrev evt_GLB_SEALED : Nat := 1
abbrev err_GLB_SLOT_STALE : Nat := 0
abbrev evt_PMU_READY : Nat := 0
abbrev evt_PMU_STANDBY : Nat := 1
abbrev evt_PMU_WARM_DONE : Nat := 2
abbrev err_PMU_SUPPLY_WARN : Nat := 0
abbrev err_PMU_REFCLK_LOST : Nat := 1
abbrev err_PMU_PLL_UNLOCK : Nat := 2
abbrev err_PMU_PD_FAIL : Nat := 3
abbrev err_PMU_WARM_ABORT : Nat := 4
abbrev evt_NVM_DONE : Nat := 0
abbrev err_NVM_VERIFY_FAIL : Nat := 0
abbrev err_NVM_NVREG_LOST : Nat := 1
abbrev err_NVM_COPY_BAD : Nat := 2
abbrev evt_FCL_SEV1 : Nat := 0
abbrev evt_FCL_SEV2 : Nat := 1
abbrev evt_FCL_SEV3 : Nat := 2
abbrev evt_FCL_LOG : Nat := 3
abbrev err_FCL_SEV_UE : Nat := 0
abbrev err_FCL_LINE_FAIL : Nat := 1
abbrev evt_TIM_PPS_IN : Nat := 0
abbrev err_TIM_UNTRUSTED : Nat := 0
abbrev err_TIM_OS_MISS : Nat := 1
abbrev err_TIM_TSQ_OVF : Nat := 2
abbrev evt_KNL_K2H : Nat := 0
abbrev evt_KNL_BOOTED : Nat := 1
abbrev err_KNL_AWAY_EXPIRED : Nat := 0
abbrev err_KNL_WDOG : Nat := 1
abbrev err_KNL_CRASH : Nat := 2
abbrev err_KNL_TEMP_WARN : Nat := 3
abbrev err_KNL_OVERTEMP : Nat := 4
abbrev err_KNL_BOOT_FALLBACK : Nat := 5
abbrev err_KNL_NO_IMAGE : Nat := 6
abbrev evt_MEI_PASS_DONE : Nat := 0
abbrev evt_MEI_REMAP_ADDED : Nat := 1
abbrev err_MEI_SCRUB_UE : Nat := 0
abbrev err_MEI_REMAP_FULL : Nat := 1
abbrev err_MEI_TRACK_FULL : Nat := 2
abbrev err_MEI_ODE_HIGH : Nat := 3
abbrev err_MEI_INIT_FAIL : Nat := 4
abbrev err_MEI_CHECKER_FAIL : Nat := 5
abbrev err_MEI_MEND_POISON : Nat := 6
abbrev err_MEI_PC_INIT : Nat := 7
abbrev evt_HLK_LINK_UP : Nat := 0
abbrev err_HLK_LINK_DOWN : Nat := 0
abbrev err_HLK_DOWNTRAINED : Nat := 1
abbrev err_HLK_AER_UNCORR : Nat := 2
abbrev evt_DMACH_DONE : Nat := 0
abbrev evt_DMACH_PARKED : Nat := 1
abbrev evt_DMACH_HALTED : Nat := 2
abbrev evt_DMACH_BAD : Nat := 3
abbrev err_DMACH_BAD : Nat := 0
abbrev err_DMACH_ALIGN : Nat := 1
abbrev err_DMACH_HOPS_EXCEEDED : Nat := 2
abbrev err_DMACH_FETCH_FAIL : Nat := 3
abbrev err_DMACH_DESC_UE : Nat := 4
abbrev err_DMACH_LINK_ALIGN : Nat := 5
abbrev evt_SPL_REQ : Nat := 0
abbrev evt_SPL_SECTION_DONE : Nat := 1
abbrev err_SPL_STREAM_LOST : Nat := 0
abbrev err_SPL_REQ_OVERFLOW : Nat := 1
abbrev err_SPL_GIVEUP : Nat := 2
abbrev err_CDCG_KQZ_CRC : Nat := 0
abbrev err_CDCG_KQZ_FORMAT : Nat := 1
abbrev err_CDCG_NO_ENGINE : Nat := 2
abbrev evt_CDCE_JOB_DONE : Nat := 0
abbrev err_CDCE_ENG_UE : Nat := 0
abbrev err_CDCE_JOB_FAIL : Nat := 1
abbrev evt_XPD_WAIT : Nat := 0
abbrev evt_XPD_RESOLVED : Nat := 1
abbrev err_XPD_CACHE_FULL : Nat := 0
abbrev err_XPD_DIR_FULL : Nat := 1
abbrev err_XPD_INST_LOST : Nat := 2
abbrev err_XPD_CELL_POISON : Nat := 3
abbrev evt_ALT_FIELD_CHANGE : Nat := 0
abbrev err_ALT_GRID_POISON : Nat := 0
abbrev evt_BST_BAND_DONE : Nat := 0
abbrev evt_BST_SECTION_DONE : Nat := 1
abbrev err_BST_ACC_POISON : Nat := 0
abbrev err_BST_CHORD_POISON : Nat := 1
abbrev evt_PXC_RELEASED : Nat := 0
abbrev evt_PXC_LATCHED : Nat := 1
abbrev err_PXC_ARR_POISON : Nat := 0
abbrev evt_RAS_TEST_DONE : Nat := 0
abbrev err_RAS_ACC_UE : Nat := 0
abbrev err_RAS_FENCED : Nat := 1
abbrev err_RAS_TEST_FAIL : Nat := 2
abbrev evt_VER_MISMATCH : Nat := 0
abbrev evt_VER_ROLE_CHANGE : Nat := 1
abbrev err_VER_FLAGGED : Nat := 0
abbrev err_VER_EDGE_POISON : Nat := 1
abbrev err_VER_TILE_FENCED : Nat := 2
abbrev err_VER_NO_SPARE : Nat := 3
abbrev err_VER_STATE_UE : Nat := 4
abbrev evt_STC_BEGIN : Nat := 0
abbrev evt_STC_END : Nat := 1
abbrev err_STC_SHORT : Nat := 0
abbrev err_STC_STARVE : Nat := 1
abbrev err_STC_TAG_ERR : Nat := 2
abbrev err_STC_DOSE_POISON : Nat := 3
abbrev err_STC_SLOT_POISON : Nat := 4
abbrev err_STC_REMAP_UE : Nat := 5
abbrev err_STC_DBM_UE : Nat := 6
abbrev err_STC_TABLE_CE : Nat := 7
abbrev evt_BOB_LOW : Nat := 0
abbrev evt_BOB_HIGH : Nat := 1
abbrev evt_BOB_MIG_DONE : Nat := 2
abbrev evt_BOB_MEND_WAIT : Nat := 3
abbrev err_BOB_PC_LOST : Nat := 0
abbrev err_BOB_MIG_POISON : Nat := 1
abbrev err_BOB_LIST_FULL : Nat := 2
abbrev err_MC_CA_PARITY : Nat := 0
abbrev err_MC_PC_LOST : Nat := 1
abbrev evt_GLR_LINKED : Nat := 0
abbrev evt_GLR_READY : Nat := 1
abbrev evt_GLR_MAP_CHANGE : Nat := 2
abbrev err_GLR_LINK_DOWN : Nat := 0
abbrev err_GLR_TRAIN_FAIL : Nat := 1
abbrev err_GLR_ROW_FAIL : Nat := 2
abbrev err_GLR_RATE_LIMIT : Nat := 3
abbrev err_GLR_ACK_STALL : Nat := 4
abbrev err_GLR_MSG_LOST : Nat := 5
abbrev err_GLR_DBM_BAD : Nat := 6
abbrev err_GLR_HIST_UE : Nat := 7
abbrev evt_TAG_ADVANCED : Nat := 0
abbrev err_TAG_TAG_FAIL : Nat := 0
abbrev err_TAG_TAG_TIMEOUT : Nat := 1
abbrev err_TAG_TAG_EXPIRED : Nat := 2
abbrev evt_EXP_ACCEPTED : Nat := 0
abbrev evt_EXP_STRIPE_START : Nat := 1
abbrev evt_EXP_STRIPE_END : Nat := 2
abbrev evt_EXP_OVERSPEED : Nat := 3
abbrev err_EXP_FEEDBACK_LOST : Nat := 0
abbrev err_EXP_FREEZE : Nat := 1
abbrev err_EXP_REVERSAL : Nat := 2
abbrev err_EXP_SKIP_LIMIT : Nat := 3
abbrev err_EXP_SKIP : Nat := 4
abbrev err_EXP_MEND_GEN_LOST : Nat := 5
abbrev err_EXP_REFUSED : Nat := 6
abbrev err_EXP_WAKE_LATE : Nat := 7
abbrev err_EXP_MEND_SET_BAD : Nat := 8
abbrev evt_MUZ_MUZZLE : Nat := 0
abbrev evt_MUZ_RELEASE : Nat := 1
abbrev err_MUZ_STUCK : Nat := 0
abbrev err_MUZ_CAL_FAIL : Nat := 1
abbrev evt_HEL_TRACKING : Nat := 0
abbrev evt_HEL_SAFE_DONE : Nat := 1
abbrev evt_HEL_INJ_DONE : Nat := 2
abbrev evt_HEL_CAP_DONE : Nat := 3
abbrev err_HEL_LEASH : Nat := 0
abbrev err_HEL_OVERRUN : Nat := 1
abbrev err_HEL_UC_FAULT : Nat := 2
abbrev err_HEL_NOT_READY : Nat := 3
abbrev err_HEL_INJ_ABORT : Nat := 4
abbrev evt_LANE_TRAINED : Nat := 0
abbrev err_LANE_LANE_LOST : Nat := 0
end Bit

/-! Register addresses in BAR0, under the names of the spec. -/
namespace Adr
abbrev GLB_JOB : Nat := 0x100
abbrev GLB_JOB_SWAP : Nat := 0x104
abbrev GLB_SLOT_A : Nat := 0x108
abbrev GLB_SLOT_B : Nat := 0x10C
abbrev GLB_JOBID_A : Nat := 0x110
abbrev GLB_JOBID_B : Nat := 0x114
abbrev GLB_SEAL_INDEX : Nat := 0x118
abbrev GLB_SEAL_WR : Nat := 0x11C
abbrev GLB_SEAL_STAT : Nat := 0x120
abbrev GLB_REPAIR : Nat := 0x124
abbrev PMU_PD (i : Nat) : Nat := 0x1100 + 4 * i
abbrev PMU_STAT : Nat := 0x1140
abbrev PMU_SUPPLY : Nat := 0x1144
abbrev PMU_CNT_WARN : Nat := 0x1148
abbrev PMU_MEMIDLE : Nat := 0x114C
abbrev PMU_RASPLAN : Nat := 0x1150
abbrev PMU_CLK : Nat := 0x1154
abbrev PMU_RSTCAUSE : Nat := 0x1158
abbrev PMU_CMD : Nat := 0x115C
abbrev PMU_WR_STAT : Nat := 0x1160
abbrev PMU_WR_STRIPE : Nat := 0x1164
abbrev PMU_WR_UNSENT : Nat := 0x1168
abbrev PMU_WR_UNACK : Nat := 0x116C
abbrev PMU_WR_MEND : Nat := 0x1170
abbrev PMU_WR_SERIAL : Nat := 0x1174
abbrev NVM_CMD : Nat := 0x2100
abbrev NVM_STAT : Nat := 0x2104
abbrev NVM_OFF : Nat := 0x2108
abbrev NVM_RD_ADDR : Nat := 0x210C
abbrev NVM_RD_DATA : Nat := 0x2110
abbrev NVM_SVN : Nat := 0x2114
abbrev NVM_CNT_STORE : Nat := 0x2118
abbrev NVM_CNT_REJECT : Nat := 0x211C
abbrev NVM_BUF (i : Nat) : Nat := 0x2200 + 4 * i
abbrev FCL_STATUS_LO : Nat := 0x3100
abbrev FCL_STATUS_HI : Nat := 0x3104
abbrev FCL_LVL_LO : Nat := 0x3108
abbrev FCL_LVL_HI : Nat := 0x310C
abbrev FCL_FIRST : Nat := 0x3110
abbrev FCL_FIRST_S : Nat := 0x3114
abbrev FCL_FIRST_NS : Nat := 0x3118
abbrev FCL_LOG_STAT : Nat := 0x311C
abbrev FCL_LOG_W0 : Nat := 0x3120
abbrev FCL_LOG_W1 : Nat := 0x3124
abbrev FCL_LOG_W2 : Nat := 0x3128
abbrev FCL_CMD : Nat := 0x312C
abbrev FCL_OUT : Nat := 0x3130
abbrev FCL_CNT : Nat := 0x3134
abbrev FCL_SEV (i : Nat) : Nat := 0x3200 + 4 * i
abbrev TIM_NS : Nat := 0x4100
abbrev TIM_S_LO : Nat := 0x4104
abbrev TIM_S_HI : Nat := 0x4108
abbrev TIM_STAT : Nat := 0x410C
abbrev TIM_CMD : Nat := 0x4110
abbrev TIM_RATE : Nat := 0x4114
abbrev TIM_STEP_S : Nat := 0x4118
abbrev TIM_STEP_NS : Nat := 0x411C
abbrev TIM_EPOCH : Nat := 0x4120
abbrev TIM_HOLD : Nat := 0x4124
abbrev TIM_PPS : Nat := 0x4128
abbrev TIM_PPSIN_NS : Nat := 0x412C
abbrev TIM_PPSIN_S : Nat := 0x4130
abbrev TIM_TSQ_STAT : Nat := 0x4134
abbrev TIM_TSQ_ID : Nat := 0x4138
abbrev TIM_TSQ_S : Nat := 0x413C
abbrev TIM_TSQ_NS : Nat := 0x4140
abbrev TIM_OS_HOLD : Nat := 0x4144
abbrev TIM_OS_CORR_LO : Nat := 0x4148
abbrev TIM_OS_CORR_HI : Nat := 0x414C
abbrev TIM_OS_STAT : Nat := 0x4150
abbrev TIM_CNT_OSMISS : Nat := 0x4154
abbrev TIM_EPOCH_HI : Nat := 0x4158
abbrev KNL_STAT : Nat := 0x5100
abbrev KNL_FWVER : Nat := 0x5104
abbrev KNL_FWSVN : Nat := 0x5108
abbrev KNL_CMD : Nat := 0x510C
abbrev KNL_WDOG : Nat := 0x5110
abbrev KNL_KICK : Nat := 0x5114
abbrev KNL_AWAY : Nat := 0x5118
abbrev KNL_DAWIN : Nat := 0x511C
abbrev KNL_H2K_DB : Nat := 0x5120
abbrev KNL_K2H_DB : Nat := 0x5124
abbrev KNL_H2K (i : Nat) : Nat := 0x5140 + 4 * i
abbrev KNL_K2H (i : Nat) : Nat := 0x5180 + 4 * i
abbrev KNL_SENS_SEL : Nat := 0x51C0
abbrev KNL_SENS_VAL : Nat := 0x51C4
abbrev KNL_TLIM : Nat := 0x51C8
abbrev KNL_LOG_WR : Nat := 0x51CC
abbrev KNL_CNT_BOOT : Nat := 0x51D0
abbrev KNL_RAIL (i : Nat) : Nat := 0x5200 + 4 * i
abbrev KNL_MAC_CFG : Nat := 0x5300
abbrev KNL_MAC_ADDR_LO : Nat := 0x5304
abbrev KNL_MAC_ADDR_HI : Nat := 0x5308
abbrev KNL_MAC_IP : Nat := 0x530C
abbrev KNL_MAC_TXRING : Nat := 0x5310
abbrev KNL_MAC_TXTAIL : Nat := 0x5314
abbrev KNL_MAC_TXHEAD : Nat := 0x5318
abbrev KNL_MAC_RXRING : Nat := 0x531C
abbrev KNL_MAC_RXTAIL : Nat := 0x5320
abbrev KNL_MAC_RXHEAD : Nat := 0x5324
abbrev KNL_NSTOP_CFG : Nat := 0x5328
abbrev KNL_NSTOP_KEY0 : Nat := 0x532C
abbrev KNL_NSTOP_KEY1 : Nat := 0x5330
abbrev KNL_NSTOP_SEQ : Nat := 0x5334
abbrev KNL_NSTOP_CMD : Nat := 0x5338
abbrev KNL_RPT_IP : Nat := 0x5340
abbrev KNL_RPT_PORT : Nat := 0x5344
abbrev MEI_SCRUB : Nat := 0x6100
abbrev MEI_SCRUB_POS : Nat := 0x6104
abbrev MEI_SCRUB_PASS : Nat := 0x6108
abbrev MEI_CE_K : Nat := 0x610C
abbrev MEI_CNT_CE : Nat := 0x6110
abbrev MEI_CNT_UE : Nat := 0x6114
abbrev MEI_CNT_POISON : Nat := 0x6118
abbrev MEI_CNT_REMAP : Nat := 0x611C
abbrev MEI_CNT_TRK_DROP : Nat := 0x6120
abbrev MEI_LAST_UE_LO : Nat := 0x6124
abbrev MEI_LAST_UE_HI : Nat := 0x6128
abbrev MEI_LAST_UE_S : Nat := 0x612C
abbrev MEI_LAST_UE_NS : Nat := 0x6130
abbrev MEI_INIT : Nat := 0x6134
abbrev MEI_RMP_SEL : Nat := 0x6138
abbrev MEI_RMP_ENT0 : Nat := 0x613C
abbrev MEI_RMP_ENT1 : Nat := 0x6140
abbrev MEI_RMP_USED : Nat := 0x6144
abbrev MEI_ODE : Nat := 0x6148
abbrev MEI_INJ_ADDR_LO : Nat := 0x614C
abbrev MEI_INJ_ADDR_HI : Nat := 0x6150
abbrev MEI_INJ_CTRL : Nat := 0x6154
abbrev CHK_CFG (n : Nat) : Nat := 0x8100 + 0x1000 * n
abbrev CHK_SEED_LO (n : Nat) : Nat := 0x8104 + 0x1000 * n
abbrev CHK_SEED_HI (n : Nat) : Nat := 0x8108 + 0x1000 * n
abbrev CHK_ALIVE (n : Nat) : Nat := 0x810C + 0x1000 * n
abbrev CHK_CMD (n : Nat) : Nat := 0x8110 + 0x1000 * n
abbrev CHK_STAT (n : Nat) : Nat := 0x8114 + 0x1000 * n
abbrev CHK_RES_LO (n : Nat) : Nat := 0x8118 + 0x1000 * n
abbrev CHK_RES_HI (n : Nat) : Nat := 0x811C + 0x1000 * n
abbrev CHK_D8 (n : Nat) : Nat := 0x8120 + 0x1000 * n
abbrev CHK_D16 (n : Nat) : Nat := 0x8124 + 0x1000 * n
abbrev CHK_D32 (n : Nat) : Nat := 0x8128 + 0x1000 * n
abbrev CHK_BYTES (n : Nat) : Nat := 0x812C + 0x1000 * n
abbrev HLK_LINK : Nat := 0x10100
abbrev HLK_CFG : Nat := 0x10104
abbrev HLK_BAR4 : Nat := 0x10108
abbrev HLK_CNT_RECOV : Nat := 0x1010C
abbrev HLK_CNT_UR : Nat := 0x10110
abbrev HLK_CNT_VC1 : Nat := 0x10114
abbrev DMA_TMO : Nat := 0x11100
abbrev DMA_CFG : Nat := 0x11104
abbrev DMA_RUN : Nat := 0x11108
abbrev DMA_PARKED : Nat := 0x1110C
abbrev DMA_HALTED : Nat := 0x11110
abbrev DMA_BYTES_H2D_LO : Nat := 0x11114
abbrev DMA_BYTES_H2D_HI : Nat := 0x11118
abbrev DMA_BYTES_D2H_LO : Nat := 0x1111C
abbrev DMA_BYTES_D2H_HI : Nat := 0x11120
abbrev DMA_HEAD_LO (n : Nat) : Nat := 0x20100 + 0x1000 * n
abbrev DMA_HEAD_HI (n : Nat) : Nat := 0x20104 + 0x1000 * n
abbrev DMA_DB (n : Nat) : Nat := 0x20108 + 0x1000 * n
abbrev DMA_HOPS (n : Nat) : Nat := 0x2010C + 0x1000 * n
abbrev DMA_STAT (n : Nat) : Nat := 0x20110 + 0x1000 * n
abbrev DMA_CUR_LO (n : Nat) : Nat := 0x20114 + 0x1000 * n
abbrev DMA_CUR_HI (n : Nat) : Nat := 0x20118 + 0x1000 * n
abbrev DMA_CH_CFG (n : Nat) : Nat := 0x2011C + 0x1000 * n
abbrev DMA_DISABLE (n : Nat) : Nat := 0x20120 + 0x1000 * n
abbrev DMA_CNT_DESC (n : Nat) : Nat := 0x20124 + 0x1000 * n
abbrev DMA_CNT_BAD (n : Nat) : Nat := 0x20128 + 0x1000 * n
abbrev DMA_CNT_BYTES_LO (n : Nat) : Nat := 0x2012C + 0x1000 * n
abbrev DMA_CNT_BYTES_HI (n : Nat) : Nat := 0x20130 + 0x1000 * n
abbrev SPL_CFG : Nat := 0x30100
abbrev SPL_SEQ : Nat := 0x30104
abbrev SPL_NAK_HOLD : Nat := 0x30108
abbrev SPL_REQ_STAT : Nat := 0x3010C
abbrev SPL_REQ_W0 : Nat := 0x30110
abbrev SPL_REQ_W1 : Nat := 0x30114
abbrev SPL_REQ_W2 : Nat := 0x30118
abbrev SPL_POS : Nat := 0x3011C
abbrev SPL_CNT_DAMAGED : Nat := 0x30120
abbrev SPL_CNT_DISCARD : Nat := 0x30124
abbrev SPL_CNT_GIVEUP : Nat := 0x30128
abbrev CDC_ROLE : Nat := 0x31100
abbrev CDC_INSVC : Nat := 0x31104
abbrev CDC_PEND : Nat := 0x31108
abbrev CDC_CNT_FRAMES : Nat := 0x3110C
abbrev CDC_CNT_CRC : Nat := 0x31110
abbrev CDC_CNT_FORMAT : Nat := 0x31114
abbrev CDC_CNT_OUT_LO : Nat := 0x31118
abbrev CDC_CNT_OUT_HI : Nat := 0x3111C
abbrev CDC_JOB_CTRL (n : Nat) : Nat := 0x32100 + 0x1000 * n
abbrev CDC_JOB_SRC_LO (n : Nat) : Nat := 0x32104 + 0x1000 * n
abbrev CDC_JOB_SRC_HI (n : Nat) : Nat := 0x32108 + 0x1000 * n
abbrev CDC_JOB_LEN (n : Nat) : Nat := 0x3210C + 0x1000 * n
abbrev CDC_JOB_DST_LO (n : Nat) : Nat := 0x32110 + 0x1000 * n
abbrev CDC_JOB_DST_HI (n : Nat) : Nat := 0x32114 + 0x1000 * n
abbrev CDC_JOB_DST_MAX (n : Nat) : Nat := 0x32118 + 0x1000 * n
abbrev CDC_JOB_STAT (n : Nat) : Nat := 0x3211C + 0x1000 * n
abbrev CDC_JOB_OUT (n : Nat) : Nat := 0x32120 + 0x1000 * n
abbrev CDC_JOB_CRC (n : Nat) : Nat := 0x32124 + 0x1000 * n
abbrev CDC_ENG_CUR (n : Nat) : Nat := 0x32128 + 0x1000 * n
abbrev CDC_CNT_WORK (n : Nat) : Nat := 0x3212C + 0x1000 * n
abbrev CDC_CNT_IN (n : Nat) : Nat := 0x32130 + 0x1000 * n
abbrev CDC_CNT_OUT (n : Nat) : Nat := 0x32134 + 0x1000 * n
abbrev XPD_CFG_A : Nat := 0x40100
abbrev XPD_CFG_B : Nat := 0x40104
abbrev XPD_DIR : Nat := 0x40108
abbrev XPD_CACHE_USED : Nat := 0x4010C
abbrev XPD_QUERY : Nat := 0x40110
abbrev XPD_QSTATE : Nat := 0x40114
abbrev XPD_WAIT : Nat := 0x40118
abbrev XPD_WAIT_ID : Nat := 0x4011C
abbrev XPD_CNT_CULLED : Nat := 0x40120
abbrev XPD_CNT_SKIPPED : Nat := 0x40124
abbrev XPD_CNT_FAILED : Nat := 0x40128
abbrev ALT_MAX_SEG_A : Nat := 0x41100
abbrev ALT_MAX_SEG_B : Nat := 0x41104
abbrev ALT_CUR : Nat := 0x41108
abbrev ALT_BANK : Nat := 0x4110C
abbrev ALT_STRIPE : Nat := 0x41110
abbrev ALT_CNT_SUBDIV : Nat := 0x41114
abbrev ALT_CNT_CLIP : Nat := 0x41118
abbrev BST_POS : Nat := 0x50100
abbrev BST_BAND : Nat := 0x50104
abbrev BST_GRID : Nat := 0x50108
abbrev BST_CNT_PIECES : Nat := 0x5010C
abbrev BST_CNT_PATCHES : Nat := 0x50110
abbrev BST_CNT_CARRY : Nat := 0x50114
abbrev BST_LAST_PATCH : Nat := 0x50118
abbrev BST_LAST_AREA_LO : Nat := 0x5011C
abbrev BST_LAST_AREA_HI : Nat := 0x50120
abbrev PXC_CFG_A : Nat := 0x51100
abbrev PXC_CFG_B : Nat := 0x51104
abbrev PXC_TERM_A (i : Nat) : Nat := 0x51110 + 4 * i
abbrev PXC_FOG_A : Nat := 0x51120
abbrev PXC_MLIM_A : Nat := 0x51124
abbrev PXC_TERM_B (i : Nat) : Nat := 0x51130 + 4 * i
abbrev PXC_FOG_B : Nat := 0x51140
abbrev PXC_MLIM_B : Nat := 0x51144
abbrev PXC_T_A : Nat := 0x51150
abbrev PXC_REACH_A : Nat := 0x51154
abbrev PXC_T_B : Nat := 0x51158
abbrev PXC_REACH_B : Nat := 0x5115C
abbrev PXC_POS : Nat := 0x51160
abbrev PXC_BAND : Nat := 0x51164
abbrev PXC_CNT_CLAMP : Nat := 0x51168
abbrev PXC_TAP (i : Nat) : Nat := 0x51400 + 4 * i
abbrev RAS_ROLE (n : Nat) : Nat := 0x60100 + 0x1000 * n
abbrev RAS_CUR (n : Nat) : Nat := 0x60104 + 0x1000 * n
abbrev RAS_CUR_STRIPE (n : Nat) : Nat := 0x60108 + 0x1000 * n
abbrev RAS_TEST (n : Nat) : Nat := 0x6010C + 0x1000 * n
abbrev RAS_CNT_PATCH (n : Nat) : Nat := 0x60110 + 0x1000 * n
abbrev RAS_CNT_MISMATCH (n : Nat) : Nat := 0x60114 + 0x1000 * n
abbrev RAS_CNT_CONFIRMED (n : Nat) : Nat := 0x60118 + 0x1000 * n
abbrev RAS_CNT_AWAKE (n : Nat) : Nat := 0x6011C + 0x1000 * n
abbrev RAS_LAST_FRAG (n : Nat) : Nat := 0x60120 + 0x1000 * n
abbrev RAS_LAST_NXI (n : Nat) : Nat := 0x60124 + 0x1000 * n
abbrev RAS_LAST_NYI (n : Nat) : Nat := 0x60128 + 0x1000 * n
abbrev VER_CFG : Nat := 0x90100
abbrev VER_PD_IDLE : Nat := 0x90104
abbrev VER_INSVC_LO : Nat := 0x90108
abbrev VER_INSVC_HI : Nat := 0x9010C
abbrev VER_AWAKE_LO : Nat := 0x90110
abbrev VER_AWAKE_HI : Nat := 0x90114
abbrev VER_QUEUE : Nat := 0x90118
abbrev VER_CNT_PASS1 : Nat := 0x9011C
abbrev VER_CNT_PASS2 : Nat := 0x90120
abbrev VER_CNT_FLAGGED : Nat := 0x90124
abbrev VER_CNT_WITHHELD : Nat := 0x90128
abbrev VER_CNT_POISON_RR : Nat := 0x9012C
abbrev VER_MM_STRIPE : Nat := 0x90130
abbrev VER_MM_PATCH : Nat := 0x90134
abbrev VER_MM_KIND : Nat := 0x90138
abbrev VER_MM_DIFF_LO : Nat := 0x9013C
abbrev VER_MM_DIFF_HI : Nat := 0x90140
abbrev VER_MM_BOUND_LO : Nat := 0x90144
abbrev VER_MM_BOUND_HI : Nat := 0x90148
abbrev STC_SCALE_A : Nat := 0xA0100
abbrev STC_SCALE_B : Nat := 0xA0104
abbrev STC_POS : Nat := 0xA0108
abbrev STC_STRIPE : Nat := 0xA010C
abbrev STC_ROW : Nat := 0xA0110
abbrev STC_GATHER : Nat := 0xA0114
abbrev STC_LEAD : Nat := 0xA0118
abbrev STC_PQ : Nat := 0xA011C
abbrev STC_DBM : Nat := 0xA0120
abbrev STC_CNT_SHORT : Nat := 0xA0124
abbrev STC_CNT_STARVE : Nat := 0xA0128
abbrev STC_CNT_TAG : Nat := 0xA012C
abbrev STC_CNT_DARNED : Nat := 0xA0130
abbrev STC_CNT_RESTITCH : Nat := 0xA0134
abbrev BOB_RGN (i : Nat) : Nat := 0xB0100 + 4 * i
abbrev BOB_LOOK_ROWS : Nat := 0xB0120
abbrev BOB_LOOK_US : Nat := 0xB0124
abbrev BOB_WM_HIGH : Nat := 0xB0128
abbrev BOB_WM_LOW : Nat := 0xB012C
abbrev BOB_PACE : Nat := 0xB0130
abbrev BOB_DUE : Nat := 0xB0134
abbrev BOB_SPOOL_RSV : Nat := 0xB0138
abbrev BOB_SPOOL_FREE : Nat := 0xB013C
abbrev BOB_PATCH_FREE : Nat := 0xB0140
abbrev BOB_WIN_FREE : Nat := 0xB0144
abbrev BOB_MEND_WR : Nat := 0xB0148
abbrev BOB_MEND_RD : Nat := 0xB014C
abbrev BOB_MEND_VIEW : Nat := 0xB0150
abbrev BOB_MEND_CAP : Nat := 0xB0154
abbrev BOB_MIG_CTRL : Nat := 0xB0158
abbrev BOB_MIG_STAT : Nat := 0xB015C
abbrev BOB_MIG_RATE : Nat := 0xB0160
abbrev BOB_CNT_MIGPOISON : Nat := 0xB0164
abbrev BOB_CNT_LATE : Nat := 0xB0168
abbrev BOB_CNT_LOW : Nat := 0xB016C
abbrev BOB_LAT_SEED (i : Nat) : Nat := 0xB0180 + 4 * i
abbrev BOB_LAT_EST (i : Nat) : Nat := 0xB01C0 + 4 * i
abbrev BOB_LT (i : Nat) : Nat := 0xB0200 + 4 * i
abbrev BOB_PCMAP (i : Nat) : Nat := 0xB0400 + 4 * i
abbrev BOB_PCSTATE (i : Nat) : Nat := 0xB0600 + 4 * i
abbrev MC_CFG (n : Nat) : Nat := 0xC0100 + 0x1000 * n
abbrev MC_TIM0 (n : Nat) : Nat := 0xC0104 + 0x1000 * n
abbrev MC_TIM1 (n : Nat) : Nat := 0xC0108 + 0x1000 * n
abbrev MC_REF (n : Nat) : Nat := 0xC010C + 0x1000 * n
abbrev MC_STAT (n : Nat) : Nat := 0xC0110 + 0x1000 * n
abbrev MC_CNT_ACT (n : Nat) : Nat := 0xC0114 + 0x1000 * n
abbrev MC_CNT_RD (n : Nat) : Nat := 0xC0118 + 0x1000 * n
abbrev MC_CNT_WR (n : Nat) : Nat := 0xC011C + 0x1000 * n
abbrev MC_CNT_HIT (n : Nat) : Nat := 0xC0120 + 0x1000 * n
abbrev MC_CNT_INORDER (n : Nat) : Nat := 0xC0124 + 0x1000 * n
abbrev MC_CNT_URG3 (n : Nat) : Nat := 0xC0128 + 0x1000 * n
abbrev GLR_LINK : Nat := 0x100100
abbrev GLR_CFG : Nat := 0x100104
abbrev GLR_LIVE_LO : Nat := 0x100108
abbrev GLR_LIVE_HI : Nat := 0x10010C
abbrev GLR_LSEQ : Nat := 0x100110
abbrev GLR_ACK : Nat := 0x100114
abbrev GLR_UNACK_FIRST : Nat := 0x100118
abbrev GLR_UNACK_LAST : Nat := 0x10011C
abbrev GLR_ACKWIN : Nat := 0x100120
abbrev GLR_HB : Nat := 0x100124
abbrev GLR_TRAIN : Nat := 0x100128
abbrev GLR_TMIN : Nat := 0x10012C
abbrev GLR_PLATE_ID_LO : Nat := 0x100130
abbrev GLR_PLATE_ID_HI : Nat := 0x100134
abbrev GLR_CMD : Nat := 0x100138
abbrev GLR_CNT_ROWFAIL : Nat := 0x10013C
abbrev GLR_CNT_LANE : Nat := 0x100140
abbrev GLR_CNT_RESEND : Nat := 0x100144
abbrev GLR_CNT_BADMSG : Nat := 0x100148
abbrev TAG_CTRL : Nat := 0x120100
abbrev TAG_STAT : Nat := 0x120104
abbrev TAG_COUNT : Nat := 0x120108
abbrev TAG_LIMIT : Nat := 0x12010C
abbrev TAG_RESID : Nat := 0x120110
abbrev TAG_NONCE (i : Nat) : Nat := 0x120114 + 4 * i
abbrev EXP_CFG : Nat := 0x130100
abbrev EXP_RATIO_A : Nat := 0x130104
abbrev EXP_RATIO_B : Nat := 0x130108
abbrev EXP_STROBE_A : Nat := 0x13010C
abbrev EXP_STROBE_B : Nat := 0x130110
abbrev EXP_TMIN : Nat := 0x130114
abbrev EXP_DELAY : Nat := 0x130118
abbrev EXP_GO : Nat := 0x13011C
abbrev EXP_GUARD : Nat := 0x130120
abbrev EXP_SKIP : Nat := 0x130124
abbrev EXP_TURN : Nat := 0x130128
abbrev EXP_PACE : Nat := 0x13012C
abbrev EXP_OVS : Nat := 0x130130
abbrev EXP_TKT : Nat := 0x130140
abbrev EXP_TKT_STAT : Nat := 0x130144
abbrev EXP_CMD : Nat := 0x130148
abbrev EXP_RUN : Nat := 0x13014C
abbrev EXP_REFUSE : Nat := 0x130150
abbrev EXP_STRIPE : Nat := 0x130154
abbrev EXP_SHOT : Nat := 0x130158
abbrev EXP_N : Nat := 0x13015C
abbrev EXP_POS_LO : Nat := 0x130160
abbrev EXP_POS_HI : Nat := 0x130164
abbrev EXP_GO_POS_LO : Nat := 0x130168
abbrev EXP_GO_POS_HI : Nat := 0x13016C
abbrev EXP_HWM : Nat := 0x130170
abbrev EXP_PERIOD : Nat := 0x130174
abbrev EXP_CNT_SHOTS : Nat := 0x130178
abbrev EXP_CNT_SKIP : Nat := 0x13017C
abbrev EXP_CNT_BACKLASH : Nat := 0x130180
abbrev EXP_CNT_GO_IGNORED : Nat := 0x130184
abbrev MUZ_GRACE : Nat := 0x131100
abbrev MUZ_LIMIT : Nat := 0x131104
abbrev MUZ_STAT : Nat := 0x131108
abbrev MUZ_CUT_SHOT : Nat := 0x13110C
abbrev MUZ_CUT_STRIPE : Nat := 0x131110
abbrev MUZ_CMD : Nat := 0x131114
abbrev MUZ_CNT : Nat := 0x131118
abbrev MUZ_CAL : Nat := 0x13111C
abbrev HEL_CFG : Nat := 0x140100
abbrev HEL_SLOPE : Nat := 0x140104
abbrev HEL_BAND : Nat := 0x140108
abbrev HEL_LEASH : Nat := 0x14010C
abbrev HEL_RAMP : Nat := 0x140110
abbrev HEL_CMD : Nat := 0x140114
abbrev HEL_STAT : Nat := 0x140118
abbrev HEL_Y : Nat := 0x14011C
abbrev HEL_ERR_LAST : Nat := 0x140120
abbrev HEL_PEAK : Nat := 0x140124
abbrev HEL_SAMPLE : Nat := 0x140128
abbrev HEL_CNT_OVERRUN : Nat := 0x14012C
abbrev HEL_CNT_SWITCH : Nat := 0x140130
abbrev HEL_CYC : Nat := 0x140134
abbrev HEL_COEF (i : Nat) : Nat := 0x140140 + 4 * i
abbrev HEL_INJ_CTRL : Nat := 0x140180
abbrev HEL_INJ_AMP : Nat := 0x140184
abbrev HEL_INJ_LEN : Nat := 0x140188
abbrev HEL_INJ_HALF : Nat := 0x14018C
abbrev HEL_INJ_F0 : Nat := 0x140190
abbrev HEL_INJ_F1 : Nat := 0x140194
abbrev HEL_CAP_CTRL : Nat := 0x1401A0
abbrev HEL_CAP_STAT : Nat := 0x1401A4
abbrev LANE_STAT (n : Nat) : Nat := 0x150100 + 0x1000 * n
abbrev LANE_FFE (n : Nat) : Nat := 0x150104 + 0x1000 * n
abbrev LANE_BER (n : Nat) : Nat := 0x150108 + 0x1000 * n
abbrev LANE_CNT_UNCORR (n : Nat) : Nat := 0x15010C + 0x1000 * n
abbrev LANE_CNT_LOSS (n : Nat) : Nat := 0x150110 + 0x1000 * n
abbrev HEL_UC (a : Nat) : Nat := 0x148000 + 4 * a
abbrev REMAP (w : Nat) : Nat := 0x1000000 + 4 * w
abbrev DBM_STATUS : Nat := 0x1200000
abbrev DBM_COMMIT : Nat := 0x1200004
abbrev DBM_DEAD : Nat := 0x1200008
abbrev DBM_SLOT (i : Nat) : Nat := 0x1200010 + 4 * i
abbrev DBM_BITS (i : Nat) (w : Nat) : Nat := 0x1210000 + 0x10000 * i + 4 * w
abbrev ROW_DELAY (r : Nat) : Nat := 0x1300000 + 4 * r
abbrev ROW_GEOM (r : Nat) : Nat := 0x1300800 + 4 * r
abbrev GEOM_DMAX : Nat := 0x1301000
abbrev GRID_MEM (o : Nat) : Nat := 0x1400000 + o
abbrev HEL_CAP (i : Nat) : Nat := 0x1800000 + 16 * i
abbrev MEND_VIEW (o : Nat) : Nat := 0x1C00000 + o
end Adr
/-- The header registers of every page (R736), by offset. -/
abbrev oCTRL : Nat := 0x008
abbrev oSTATE : Nat := 0x00C
abbrev oEVTRAW : Nat := 0x010
abbrev oEVTEN : Nat := 0x014
abbrev oEVTPEND : Nat := 0x018
abbrev oERRRAW : Nat := 0x01C
abbrev oERRLATCH : Nat := 0x020
abbrev oERRMASK : Nat := 0x024
abbrev oINFO0 : Nat := 0x028
abbrev oINFO1 : Nat := 0x02C
abbrev oINJECT : Nat := 0x030
abbrev oOWNER : Nat := 0x034
abbrev oSCRATCH : Nat := 0x038

/-- The power domain of a page (R671, R733); none for the always-on domain. -/
def Page.domain : Page → Nat → Option Nat
  | .glb, _ => some 1
  | .pmu, _ => none
  | .nvm, _ => none
  | .fcl, _ => none
  | .tim, _ => none
  | .knl, _ => some 0
  | .mei, _ => none
  | .chk, _ => some 11
  | .hlk, _ => some 1
  | .dmaG, _ => some 1
  | .dmaCh, _ => some 1
  | .spl, _ => some 2
  | .cdcG, _ => some 2
  | .cdcE, _ => some 2
  | .xpd, _ => some 3
  | .alt, _ => some 3
  | .bst, _ => some 4
  | .pxc, _ => some 4
  | .ras, n => some (if n < 17 then 5 else 6)
  | .ver, _ => some 7
  | .stc, _ => some 8
  | .bob, _ => some 9
  | .mc, n => some (if n < 32 then 9 else 10)
  | .glr, _ => some 11
  | .tag, _ => some 11
  | .exp, _ => some 13
  | .muz, _ => none
  | .hel, _ => some 13
  | .lane, n => some (if n < 24 then 11 else 12)

/-- The MSI-X vector of a page (R493); a vector number of 64 stands for none. -/
def Page.vector : Page → Nat → Nat
  | .dmaCh, n => n
  | .spl, _ => 16
  | .fcl, _ => 17
  | .exp, _ => 18
  | .muz, _ => 18
  | .bob, _ => 19
  | .mc, _ => 19
  | .ver, _ => 20
  | .ras, _ => 20
  | .glr, _ => 21
  | .lane, _ => 21
  | .tag, _ => 21
  | .hel, _ => 22
  | .xpd, _ => 23
  | .alt, _ => 23
  | .bst, _ => 24
  | .pxc, _ => 24
  | .stc, _ => 25
  | .dmaG, _ => 25
  | .glb, _ => 25
  | .cdcG, _ => 26
  | .cdcE, _ => 26
  | .knl, _ => 27
  | .tim, _ => 28
  | .nvm, _ => 29
  | .pmu, _ => 29
  | .mei, _ => 29
  | .hlk, _ => 29
  | .chk, _ => 64

/-- The FCL source of a page (R607); none for the DMA global page and the CHK pages, which raise no errors. -/
def Page.source : Page → Nat → Option Nat
  | .glb, _ => some 0
  | .pmu, _ => some 1
  | .nvm, _ => some 2
  | .fcl, _ => some 3
  | .tim, _ => some 4
  | .knl, _ => some 5
  | .mei, _ => some 6
  | .hlk, _ => some 7
  | .dmaCh, n => some (if n < 12 then 8 else 9)
  | .spl, _ => some 10
  | .cdcG, _ => some 11
  | .cdcE, _ => some 12
  | .xpd, _ => some 13
  | .alt, _ => some 14
  | .bst, _ => some 15
  | .pxc, _ => some 16
  | .ras, n => some (if n < 17 then 17 else 18)
  | .ver, _ => some 19
  | .stc, _ => some 20
  | .bob, _ => some 21
  | .mc, n => some (if n < 32 then 22 else 23)
  | .glr, _ => some 24
  | .lane, n => some (if n < 24 then 25 else if n < 48 then 26 else 27)
  | .tag, _ => some 28
  | .exp, _ => some 29
  | .muz, _ => some 30
  | .hel, _ => some 31
  | .chk, _ => none
  | .dmaG, _ => none

/-- The page kind whose error bits source `s` of R607 collects. -/
def sourcePage (s : Nat) : Page :=
  nth [Page.glb, .pmu, .nvm, .fcl, .tim, .knl, .mei, .hlk, .dmaCh, .dmaCh, .spl, .cdcG, .cdcE, .xpd, .alt, .bst,
       .pxc, .ras, .ras, .ver, .stc, .bob, .mc, .mc, .glr, .lane, .lane, .lane, .tag, .exp, .muz, .hel] s .glb

/-- The pages of source `s` (R607), by base address. -/
def sourcePages (s : Nat) : List Nat :=
  let p := sourcePage s
  ((List.range p.count).filter (fun n => p.source n == some s)).map (fun n => p.base n)

/-- Reset severity of error bit `b` of source `s` (R608). -/
def sevDefault (s b : Nat) : Nat := (((sourcePage s).errs.find? (fun e => e.1 == b)).map (fun e => e.2.1)).getD 0

/-- Floor of the severity of error bit `b` of source `s` (R608). -/
def sevFloor (s b : Nat) : Nat :=
  (((sourcePage s).errs.find? (fun e => e.1 == b)).map (fun e => if e.2.2 then e.2.1 else 0)).getD 0

/-- Reset value of FCL_SEV of source `s` (R608, R619). -/
def sevWord (s : Nat) : Nat := (sourcePage s).errs.foldl (fun a e => a + e.2.1 * 4 ^ e.1) 0

/-- The pages whose events drive vector `v` (R493), by base address. -/
def vectorPages (v : Nat) : List Nat :=
  Page.all.flatMap fun p => ((List.range p.count).filter (fun n => p.vector n == v)).map (fun n => p.base n)

/-- Pages that hold a protected memory and so have the _INJECT of R603 (the pages whose chapter gives it one). -/
def Page.hasInject : Page → Bool
  | .mei => true | .fcl => true | .xpd => true | .alt => true | .bst => true | .pxc => true | .ras => true
  | .stc => true | .mc => true | .glr => true | .hel => true | .dmaCh => true | .cdcE => true | .knl => true
  | .exp => true
  | _ => false

/-- _ID of a page (R736). -/
def idWord (p : Page) (n : Nat) : Nat := p.typ * 0x10000 + n * 0x100 + 1

/-- Reset value of _OWNER (R742). -/
def ownerReset : Page → Nat → Nat
  | .nvm, _ => 6 | .pmu, _ => 6 | .knl, _ => 6 | .tag, _ => 6
  | .dmaCh, n => if n < 12 then 7 else 6
  | _, _ => 7

/-- Reset value of _CTRL (R742): ENABLE is 1 but on GLR and HEL. -/
def ctrlReset : Page → Nat
  | .glr => 0 | .hel => 0 | _ => 1

/-- The row of a page's register map that holds offset `o`. -/
def Page.row (p : Page) (o : Nat) : Option RegRow :=
  p.rows.find? fun r => decide (r.off ≤ o ∧ o < r.off + 4 * r.n)

/-- Reset values that differ from instance to instance: R235 (RAS_ROLE), the BOB_RGN table of R349, the port targets of R322,
R309 and R310 (BOB_PCMAP, BOB_PCSTATE), R608 (FCL_SEV), R706 (PMU_PD POLICY). -/
def regReset (p : Page) (n o : Nat) (row : RegRow) : Nat :=
  let i := (o - row.off) / 4
  match p with
  | .ras => if o == 0x100 && (n == 16 || n == 33) then 2 else row.rst
  | .bob =>
    if row.off == 0x100 then
      nth [0x02000000, 0x178F0200, 0x0600198F, 0x0EE71F8F, 0x00822E76, 0x00082EF8, 0x00402F00] i 0
    else if row.off == 0x200 then
      nth [1000, 4000, 2000, 4000, 2000, 8000, 1500, 8000, 4000, 16000, 65535, 4000, 16000, 32000, 2000] i 0
    else if row.off == 0x400 then (if i < 63 then i else i + 1)
    else if row.off == 0x600 then (if i == 63 || i == 127 then 1 else 0)
    else row.rst
  | .fcl => if row.off == 0x200 then sevWord i else row.rst
  | .pmu =>
    if row.off == 0x100 then
      (if i == 5 || i == 6 || i == 9 || i == 10 then 0x10 else if i == 11 || i == 12 then 0x20 else 0)
    else row.rst
  | _ => row.rst

/-- Whether BAR0 address `a` lies in a table window of R734 or in the HEL microcode window. -/
def inWindow (a : Nat) : Bool :=
  decide ((0x148000 ≤ a ∧ a < 0x149000) ∨ (0x1000000 ≤ a ∧ a < 0x2C00000))

/-- Owning page of a window (R734). -/
def windowPage (a : Nat) : Page :=
  if a < 0x149000 then .hel
  else if a < 0x1300000 then .stc
  else if a < 0x1400000 then .exp
  else if a < 0x1800000 then .alt
  else if a < 0x1C00000 then .hel
  else .bob

/-- Whether a window word lies in the used part of its window (R734). -/
def windowUsed (a : Nat) : Bool :=
  if a < 0x149000 then decide (a < 0x148400)
  else if a < 0x1200000 then true
  else if a < 0x1300000 then decide (a < 0x12A0000)
  else if a < 0x1400000 then decide (a < 0x1301004)
  else if a < 0x1800000 then true
  else if a < 0x1C00000 then decide (a < 0x1880000)
  else true

/-- The standard loop of R474, every other microcode word WAIT (R468). -/
def microRom (i : Nat) : Nat :=
  [0x58800000, 0x59000001, 0x61800000, 0x19118000, 0x32090010, 0x62800001, 0x1A228000, 0x5B000002, 0x23A30000, 0x68380000,
    0x78238000, 0x98000000].getD i 0x98000000

/-- Reset value of the BAR0 word at `a`: the header words (R736, R742), the field maps of the chapters, and the table windows,
where a remap entry names its own wire position (R285), NEXT_SLOT of DBM_STATUS is 1 (R288), the microcode is the standard
loop (R468), every alteration field is the identity (R159), and every other word is 0. -/
def wordReset (a : Nat) : Nat :=
  if inWindow a then
    (if 0x1000000 ≤ a ∧ a < 0x1200000 then (a - 0x1000000) / 4
     else if a == 0x1200000 then 0x01000000
     else if 0x1400000 ≤ a ∧ a < 0x1800000 then
       (if a % 0x100000 < 0x2000 ∧ (a % 32 = 0 ∨ a % 32 = 12) then 0x40000000 else 0)
     else if a < 0x148400 then microRom ((a - 0x148000) / 4) else 0)
  else
    match pageOf a with
    | none => 0
    | some (p, n) =>
      let o := a % 0x1000
      if o < 0x100 then
        (if o == 0 then idWord p n
         else if o == oCTRL then ctrlReset p
         else if o == oOWNER then ownerReset p n else 0)
      else match p.row o with
        | none => 0
        | some row => regReset p n o row

end Sys2Proof.Machine
end

