-- ==== Sys2Proof/Machine/State.lean ====
section
/-! DEFINITION. The state of the block as plain data. Registers of BAR0 (and the words of its table windows) stand in one word
store keyed by address, an unlisted word at its reset value (RegMap); what the spec gives the block beside its registers stands
in the structures below, one per chapter. Defaults of the fields are their values at reset. -/

namespace Sys2Proof.Machine

/-- Why the block stops with a fault. No meaning of this model ends in one: the block has no address that does not exist for
its register space (R488: holes read zero) and its memories answer every address (R490). Kept as the spec's reserve; safe. -/
inductive Fault where
  /-- Raised by no meaning; safe. -/
  | none
  deriving DecidableEq, Repr

/-- Why a command has no meaning. -/
inductive Refusal where
  /-- Raised by Dispatch for a command that is not modelled yet, by its mnemonic; safe, since nothing is claimed of it. -/
  | notModelled (mnemonic : String)
  deriving DecidableEq, Repr

/-! ### What leaves the block -/

/-- The output pins that hold a level (R427, R433, R616, R617, R654). -/
inductive Pin where
  | strobe | blankAll | bark | fault | ppsOut
  deriving DecidableEq, Repr

/-- The levels at which they stand, none while they are high-impedance (R702). -/
structure Pins where
  strobe : Option Bool := none
  blankAll : Option Bool := none       -- BLANK_ALL#, low while asserted
  bark : Option Bool := none
  fault : Option Bool := none          -- FAULT#, low while driven
  ppsOut : Option Bool := none
  trk : Option (List (Bool × Nat)) := none  -- TRK_SYNC and TRK_DAT[1:0] in each clock of the frame under way (R480); [] where the four lines are low
  deriving DecidableEq, Repr

/-- A frame as GLR begins it (R356, R357): commit 0 NONE, 1 FIRE, 2 BLANK for frame LSEQ − 2, the live lanes of its map, and the
nonzero codes by wire position 1,024·K + j. -/
structure OutFrame where
  lseq : Nat
  serial : Nat
  commit : Nat
  lanes : List Nat
  codes : List (Nat × Nat)
  deriving DecidableEq, Repr

/-- One thing the block puts out. The list of them is the model's own record. -/
inductive Out where
  | msix (vector : Nat)                                    -- an MSI-X message (R494)
  | pin (p : Pin) (level : Option Bool)                    -- a pin takes a level, or goes high-impedance
  | mark (halfNs : Nat)                                    -- a SHOT_MARK pulse of this length in 0.5 ns (R429)
  | frame (f : OutFrame)                                   -- the 512 row packets of a frame (R357)
  | commit (fire : Bool) (lseq : Nat)                      -- a COMMIT unit on every live lane (R358)
  | ctrl (op : Nat) (body : List Nat)                      -- a CTRL unit (R359): its operation and the fields of its body in order
  | pace (frame : Nat)                                     -- a PACE frame of 16 bits (R450)
  | dac (frame : Nat)                                      -- a DAC frame of the Heel, its 48 bits (R480, R481)
  | trk (lines : Option (List (Bool × Nat)))               -- the TRK lines go out so from now on: per clock TRK_SYNC and TRK_DAT (R480)
  | hostWrite (addr : Nat) (data : List Byte) (ep ro ns : Bool)  -- a posted write to host memory: its EP bit, Relaxed Ordering and No Snoop
  | hostRead (ch addr len : Nat) (ns : Bool)               -- a read request of a DMA channel to host memory (R523)
  | readData (req : Req) (addr : Nat) (ws : List W32)      -- the answer to a register read, or one completion of it (R488)
  | bar4Data (data : List Byte) (ep : Bool)                -- the answer to a BAR4 read (R490)
  | mac (data : List Byte)                                 -- a frame on the management network (R659)
  | plic (source : Nat)                                    -- a request of the core's interrupt controller (R623)
  | outputsOff (warm : Bool)                               -- the outputs go high-impedance: all (R702), or those of R703
  deriving DecidableEq, Repr

/-! ### Exposure timing (chapter 09), tickets (R47, R443, R444) -/

/-- A stripe ticket (R47), as accepted (R37, R39, R444): with the plate geometry latched at acceptance. -/
structure Tkt where
  seq : Nat               -- the model's own: number of the ticket, 0 for the first accepted since reset (R106 pairing)
  index : W32             -- STRIPE_INDEX
  fieldId : Nat
  slotB : Bool
  mending : Bool
  minus : Bool
  gridId : Nat
  y0 : Int
  x0 : Int
  len : Nat               -- L
  wakeLead : Nat          -- µs
  mendSet : Nat
  dmax : Nat              -- R37
  geom : List (Nat × W32) -- R37: the words of the plate geometry window that differ from 0, by BAR0 address
  rejected : Bool         -- R66, R748, R756
  gen : Option Nat        -- DBM generation latched by STC (R294), once latched
  serial : Nat            -- STC serial assigned at its latch (R276), 0 before
  stopAt : Option Nat     -- shot at which REMAP_UE or DBM_UE stops exposure (R300)
  swept : Bool            -- a SOFT_RESET of STC or EXP abandoned it before its start (R758)
  deriving DecidableEq, Repr

/-- The stripe in progress, from its STRIPE_GO (R447) to its end (R415). -/
structure Run where
  tkt : Tkt
  refused : Bool          -- R446, R562: every commit BLANK
  ratio : Nat             -- R428
  width : Nat             -- R428, 0.5 ns
  goLead : Nat            -- R413
  posGo : Nat             -- R410, POS at STRIPE_GO, 48 bits
  hwm : Int               -- R416
  tEdge : Nat             -- time of the latest count edge (R411), 0.5 ns
  tau : Nat               -- R411, time from the edge before it
  nb : Nat                -- next boundary number not yet reached (R411)
  sched : Option Nat      -- its scheduled time while f > 0 and T stands at c (R411, R412)
  due : List Nat          -- times of boundaries reached and not yet carried out, oldest first
  next : Nat              -- next boundary number to carry out
  shots : Nat             -- shots decided so far: the first undecided shot
  lastFired : Option Nat  -- time of the last fired shot of the stripe, or of lead boundary GO_LEAD − 1 (R420)
  lastB : Option Nat      -- time of the last boundary carried out
  lastIv : Nat            -- the last interval (R431)
  skips : List Nat        -- shot numbers skipped, newest first (R422)
  begun : Nat             -- frames handed to GLR (R414)
  gathered : Nat          -- frames gathered (R431)
  deriving DecidableEq, Repr

/-- EXP (chapter 09): its own state beside its registers. -/
structure Exp where
  pos : Nat := 0                 -- POS, 48 bits (R407)
  goPos : Nat := 0               -- POS_GO of the last STRIPE_GO
  qA : Bool := false             -- filtered level of input A, which is STEP in STEP/DIR mode (R406, R408)
  qB : Bool := false             -- filtered level of input B, which is DIR in STEP/DIR mode
  lastEdge : Option Nat := none  -- time of the last count edge (R409, R425)
  edges : List Nat := []         -- times of the last nine count edges, newest first (R455)
  lastUp : Bool := true          -- the last count edge moved POS upward (R455)
  osLeft : Nat := 0              -- 1,024 boundaries of R423, plus 1; 1 once they have passed, 0 without overspeed
  lastSlotB : Bool := false      -- slot of the last stripe (R456)
  words : List W32 := []         -- partial ticket record (R443), word 0 first
  arriving : List (List W32) := []  -- completed records not yet accepted (R443, R444)
  queue : List Tkt := []         -- accepted tickets, head first, the running stripe's ticket at the head (R443, R445)
  count : Nat := 0               -- tickets accepted since reset (the model's own, R106)
  run : Option Run := none
  halted : Bool := false         -- HALTED (R434, R441, R750)
  sinceRun : Bool := false       -- a stripe has run since EXP was idle (R448)
  wakeHead : Bool := false       -- the wake of the head ticket has been asked for (R448)
  swapWork : Bool := false       -- internal work of a swap in progress (R561)
  posHi : W32 := 0               -- latched HI words (R452)
  goPosHi : W32 := 0
  deriving DecidableEq, Repr

/-- A STROBE pulse in progress, from the boundary at which its shot was decided FIRE to its falling edge (R427, R432). -/
structure Pulse where
  shot : Nat
  tkt : Tkt                      -- the shot's stripe
  high : Bool := false           -- STROBE is high for it
  cut : Bool := false            -- it reads to the watchdog as reaching MUZ_LIMIT (R746)
  deriving DecidableEq, Repr

/-- MUZ, in the always-on domain (R432 to R440). -/
structure Muz where
  abortPin : Bool := false       -- ABORT# reads low
  blankPin : Bool := false       -- BLANK_REQ# reads low
  whBlank : Bool := false        -- whistle BLANK level (R498)
  whStop : Bool := false         -- whistle STOP level (R498)
  netstop : Bool := false        -- management-network stop (R666)
  supply : Bool := false         -- supply warning in force, its 10 µs included (R700)
  sev3 : Bool := false           -- the severity-3 muzzle, held to the restart (R434)
  stuck : Bool := false          -- R438
  reset : Bool := false          -- the muzzle of a warm reset (R696)
  muzzled : Bool := false        -- a muzzle is in force (R432)
  pulses : List Pulse := []      -- STROBE pulses in progress, oldest first (R432)
  momentary : Bool := false      -- a muzzle that ends at its abort waits for the pulses in progress (R432, R434)
  limit : Nat := 0x170           -- MUZ_LIMIT as latched at STRIPE_GO (R438)
  blankFrom : Option Nat := none   -- first shot covered by BLANK_REQ#, and by WHISTLE_BLANK, and by the supply muzzle (R436)
  whFrom : Option Nat := none
  supplyFrom : Option Nat := none
  supplyBroke : Bool := false    -- a feedback loss, freeze or reversal fell within the supply muzzle (R435)
  track : Bool := false          -- MUZ_STAT.TRACK
  deriving DecidableEq, Repr

/-! ### Job slots (chapter 13) -/

/-- A sealed stripe whose report the firmware owes (R665): what it says, with TIM at the seal. -/
structure Report where
  index : W32
  serial : Nat
  mending : Bool
  slotB : Bool
  unack : Bool
  wr : W32                       -- GLB_SEAL_WR
  secs : W32
  ns : W32
  deriving DecidableEq, Repr

/-- GLB (R556 to R565). -/
structure Glb where
  activeB : Bool := false        -- ACTIVE slot: false A, true B (R558)
  pend : Bool := false           -- the SHADOW slot is COMMITTED (R559)
  reports : List Report := []    -- sealed stripes whose report the firmware has yet to send (R665)
  swaps : List (List W32) := []  -- swaps that the firmware has yet to log: words 4 to 7 of their entries (R557, R642)
  deriving DecidableEq, Repr

/-- A stripe that has ended and is not yet sealed (R564). -/
structure Ended where
  index : W32
  serial : Nat
  lastLseq : Nat                 -- LSEQ of the last frame sent for it
  sent : Bool                    -- whether a frame was sent for it
  mending : Bool := false
  slotB : Bool := false
  down : Bool := false           -- the link went down with its last frame not acknowledged, while an entry of it waits (R63)
  deriving DecidableEq, Repr

/-! ### Fault collection and integrity (chapter 14) -/

/-- FCL (R606 to R617). -/
structure Fcl where
  status : W32 := 0
  lvl : List Nat := List.replicate 32 0     -- level of each source
  log : List (W32 × W32 × W32) := []        -- oldest first, at most 64 (R613)
  ovf : Bool := false
  halted : Bool := false                    -- R614
  bark : Bool := false                      -- the level of BARK
  barkRun : Bool := false                   -- BARK toggles
  barkArm : Bool := false                   -- BARK begins again at the next half-period boundary (R616)
  barkGrid : Bool := false                  -- the half-period grid has begun (R616)
  sevUe : Nat := 0                          -- sources whose severity word reads uncorrectable (SEV_UE), a bit mask
  deriving DecidableEq, Repr

/-- One remap entry (R595, R618). -/
structure Remap where
  sram : Bool
  index : Nat                    -- table place: HBM 8·p + e, SRAM 4·macro + e
  poisoned : Bool
  unit : Nat                     -- physical pseudo-channel, or macro
  addr : Nat                     -- ENT1 as the register shows it: K, ROW, SECTOR, or the word address
  old : Option (List Byte × Bool) := none   -- HBM: what the sector's own storage holds and whether it is poisoned, where that is known
  deriving DecidableEq, Repr

/-- One tracker entry (R594). -/
structure Track where
  sram : Bool
  unit : Nat
  addr : Nat
  count : Nat
  seen : Bool                    -- the current pass has seen it
  deriving DecidableEq, Repr

/-- MEI (R589 to R605). -/
structure Mei where
  track : List Track := []       -- oldest first, at most 256 (R594)
  remaps : List Remap := []
  lastUeHi : W32 := 0            -- latched HI word
  initTest : Bool := false       -- HBM test and zero write complete (R600)
  badSectors : List (Nat × Nat) := []  -- sectors with inverted check bits of codeword 0: sector number and MODE (R604, R605)
  deriving DecidableEq, Repr

/-! ### Host link and DMA (chapter 11) -/

/-- CSTATE of a DMA channel (R526). -/
inductive CState where
  | idle | run | parked | halted
  deriving DecidableEq, Repr

/-- What a running DMA channel waits for. -/
inductive Phase where
  | none        -- nothing is outstanding
  | fetch       -- the descriptor at CUR is being fetched
  | reread      -- the parked descriptor's words are being read again (R508)
  | xfer        -- the transfer of the fetched descriptor runs
  deriving DecidableEq, Repr

/-- One DMA channel (R502 to R526). -/
structure Chan where
  cstate : CState := .idle
  phase : Phase := .none
  cur : Nat := 0                 -- DMA_CUR, 64 bits
  head : Nat := 0                -- HEAD as completed by a write of HI
  desc : List W32 := []          -- the sixteen words of the fetched descriptor
  dbPend : Bool := false
  hops : Nat := 0
  cause : Nat := 0               -- HALT_CAUSE
  held : Bool := false           -- the next descriptor waits for QUIESCE to clear (R519)
  block : Option (List Byte) := none  -- its block waits for spool space (R319)
  given : Bool := false          -- SPL has taken the block of the descriptor in progress
  sent : Nat := 0                -- bytes of the transfer whose read requests or writes have gone to the host
  badAt : Option Nat := none     -- offset of the first poisoned sector among the bytes sent
  reads : Nat := 0               -- read requests outstanding (R523)
  asked : Bool := false          -- the read request of the descriptor has been issued
  turns : Nat := 0               -- turns taken in this round (R523)
  curHi : W32 := 0               -- latched HI words
  bytesHi : W32 := 0
  deriving DecidableEq, Repr

/-- The PCIe configuration state that R483 and R485 rest on, at its reset values of PCIe (PRESUMED, log entry 93). -/
structure Pcie where
  mps : Nat := 0                 -- Max_Payload_Size, 128·2^mps
  mrrs : Nat := 2                -- Max_Read_Request_Size, 128·2^mrrs
  ro : Bool := true              -- Enable Relaxed Ordering
  ns : Bool := true              -- Enable No Snoop
  tmo : Nat := 0                 -- Completion Timeout Value
  d3 : Bool := false             -- D3hot
  msixEn : Bool := false         -- MSI-X Enable
  msixFm : Bool := false         -- Function Mask
  vc1 : Bool := false            -- VC1 enabled with traffic class 7 (R499)
  hdr : List W32 := []           -- the header log of AER, empty while nothing is logged
  deriving DecidableEq, Repr

/-- Device-side writes that a transfer cut off may still make (R520): its channel, target, device address and the most bytes. -/
structure Late where
  ch : Nat
  tgt : Nat
  dev : Nat
  len : Nat
  deriving DecidableEq, Repr

/-- HLK (R483 to R501): link, and the whistle counters, which stand in the always-on domain. -/
structure Hlk where
  up : Bool := false
  whCnt : W32 := 0
  whStray : W32 := 0
  h2dHi : W32 := 0               -- latched HI words of the byte counters of all channels (R525)
  d2hHi : W32 := 0
  msixPend : List Nat := []      -- pending-bit array, the vectors in ascending order (R741)
  aer : W32 := 0                 -- AER Uncorrectable Error Status (R524)
  cfg : Pcie := {}
  late : List Late := []         -- writes of transfers cut off (R485, R520), oldest first
  deriving DecidableEq, Repr

/-! ### Power (chapter 16) -/

/-- STATE of a power domain (R706). -/
inductive PdState where
  | off | on | selfRefresh | switchingOn | switchingOff
  deriving DecidableEq, Repr

/-- One switched domain. -/
structure Pd where
  st : PdState := .off
  fromSr : Bool := false         -- the switch in progress is an exit from self-refresh (R679)
  wait : List Nat := []          -- requests that wait for the switch in progress, oldest first (R676)
  deriving DecidableEq, Repr

/-- Step of the sequence of R691 that the PMU waits at. -/
inductive Seq where
  | off          -- held in reset
  | refclk       -- before step 4, waiting for REFCLK (R692)
  | hlk | knl | mem | logic     -- waiting for PD_HLK, PD_KNL, the memory domains, the domains of step 10
  | done
  | warm         -- a warm reset holds (R696)
  deriving DecidableEq, Repr

/-- PMU (chapter 16). -/
structure Pmu where
  pd : List Pd := List.replicate 14 {}
  seq : Seq := .off
  ready : Bool := false
  refclk : Bool := false
  aclkRc : Bool := true
  standby : Bool := false
  lock : Nat := 0                -- locked PLLs, bit p
  run : Nat := 0                 -- PLLs started, bit p (R684)
  warnRails : Nat := 0           -- rails below warning now
  warn : Bool := false           -- a supply warning in force
  resetRails : Nat := 0          -- rails below their reset level (R701)
  firstRail : Nat := 0           -- the first rail that fell in the brown-out at hand
  aonFell : Bool := false        -- VDD_AON fell below its reset level in it
  warmCause : Nat := 0           -- CAUSE that the warm reset in force will show
  plan : Nat := 0                -- the entry of PMU_RASPLAN taken at the last swap (R681)
  deriving DecidableEq, Repr
/-! ### Stitcher, darner and dead-beam map (chapter 06) -/

/-- One slot of the dead-beam map (R288): whether a generation is HELD, and which. -/
structure DbmSlot where
  held : Bool := false
  gen : Nat := 0
  deriving DecidableEq, Repr

/-- The dead-beam map's control (R288 to R296). The bitmaps stand in the window's words. -/
structure Dbm where
  valid : Bool := false
  pending : Bool := false
  copying : Bool := false
  nextSlot : Nat := 1
  curSlot : Nat := 0
  curGen : Nat := 0
  slots : List DbmSlot := List.replicate 9 {}
  pendMap : Bool := false               -- NEXT_SLOT includes a complete self-test map received since the last link-up (R291)
  heldMap : Option (List Nat) := none   -- a self-test map held while COPYING (R292): its dead beams, 1,024·r + c, ascending
  heldBits : List Nat := []             -- beam-died bits held while COPYING, in arrival order, at most 64 (R292)
  heldOld : Bool := false               -- the held map came before the last link-up (R291)
  deriving DecidableEq, Repr

/-- An entry of a mending set as STC reads it (R568): KIND and words 2 and 3. -/
structure SetEnt where
  kind : Nat
  w2 : Nat
  w3 : Nat
  deriving DecidableEq, Repr

/-- A mending set read at a stripe's latch (R295, R569): its header's generation, its entries, and those of its parent. -/
structure MSet where
  gen : Nat
  ents : List SetEnt
  parent : Option (Nat × List SetEnt)
  dead : List Nat                       -- dead beams of its generation (R270)
  parentDead : List Nat
  deriving DecidableEq, Repr

/-- The stripe that STC stitches or gathers, from its BEGIN (R294). -/
structure Stitch where
  tkt : Tkt
  b : Nat                               -- row bands B (R557)
  scale : Nat                           -- R256
  gen : Nat                             -- latched generation
  serial : Nat
  dead : List Nat                       -- dead beams of the latched generation (R297), 1,024·r + c, ascending
  mset : Option MSet                    -- mending set, in a mending-mode stripe (R270)
  carry : List (Nat × Int)              -- diffusion carries that differ from 0, by track (R253)
  rows : Nat                            -- pixel rows stitched: the next u (R265)
  gathered : Nat                        -- shots gathered or counted as gathered (R284, R442)
  ended : Bool                          -- no further shot is sent: the stripe ended, was aborted or abandoned
  died : List Nat                       -- beams reported dead during the stripe (R60), 1,024·r + c
  deriving DecidableEq, Repr

/-- STC (chapter 06). -/
structure Stc where
  cur : Option Stitch := none
  todo : List Tkt := []                 -- accepted tickets that STC has not begun, oldest first
  serial : Nat := 0                     -- last serial assigned (R276)
  dbm : Dbm := {}
  spoilt : List Nat := []               -- words of the remap table and the bitmaps one copy of which an injected write spoilt (R604), by BAR0 address, ascending
  deriving DecidableEq, Repr

/-! ### Bobbin (chapter 07) -/

/-- A block of the pipeline that makes mending entries and waits with them (R63). -/
inductive Blk where
  | spl | xpd | alt | bst | pxc | ver | stc | glr | exp
  deriving DecidableEq, Repr

/-- A mending entry (R54), with the stripe's ticket number and the block that made it. -/
structure MEnt where
  w0 : W32
  w1 : W32
  w2 : W32
  w3 : W32
  blk : Blk
  deriving DecidableEq, Repr

/-- A patch row's space in the bobbin window (R313, R315). -/
structure WinRow where
  sec : Nat          -- section number
  q : Nat
  off : Nat          -- ring offset of its first byte
  len : Nat
  deriving DecidableEq, Repr

/-- A request at a port of the bobbin (R323 to R328). -/
structure BReq where
  id : Nat           -- order of arrival
  port : Nat
  da : Nat
  wr : Bool
  at0 : Nat          -- MCLK at which its port handed it over
  acked : Bool := false  -- a write acknowledged to its port (R325)
  deriving DecidableEq, Repr

/-- A bank of a pseudo-channel (R328 to R330). -/
structure Bank where
  k : Nat                       -- rotation index, 0–47
  opn : Option Nat := none      -- open row
  q : List BReq := []           -- queued requests, oldest first, at most eight (R326)
  inorder : Bool := false
  hits : Nat := 0
  actFor : Nat := 0             -- the request for which the open row was activated
  act : Option Nat := none      -- MCLK of the last ACT, PRE, READ, WRITE and per-bank refresh
  pre : Option Nat := none
  rd : Option Nat := none
  wrt : Option Nat := none
  ref : Option Nat := none
  deriving DecidableEq, Repr

/-- One pseudo-channel's controller (R326 to R330). -/
structure Pc where
  banks : List Bank := []       -- banks touched so far, by ascending rotation index; every other is idle and empty
  held : List BReq := []        -- requests handed over and not yet admitted to a bank queue, oldest first
  admitAt : Nat := 0            -- the first MCLK at which a request may be admitted (R326: one per MCLK)
  dirW : Bool := false          -- DIR: the last column command was a write
  dirCnt : Nat := 0
  ptr : Nat := 47               -- PTR of R328
  rr : Nat := 14                -- port admitted last (R326)
  done : List BReq := []        -- column command issued, completion not yet returned
  parity : List Nat := []       -- times (µs) of the last command/address parity errors, newest first (R348)
  refBank : Nat := 0            -- the bank whose refresh falls due next (R306)
  refAt : Option Nat := none    -- MCLK of the last per-bank refresh
  deriving DecidableEq, Repr

/-- BOB (chapter 07). -/
structure Bob where
  winNext : Nat := 0                 -- next free ring offset (R313)
  win : List WinRow := []            -- reserved patch rows, oldest first
  patchUsed : Nat := 0               -- 4 KiB units in use (R317)
  spoolUsed : Nat := 0               -- bytes of spool granted and not freed (R319, R320)
  migBusy : Bool := false
  migPtr : Nat := 0
  migSrc : Nat := 0                  -- logical pseudo-channel
  migDst : Nat := 0                  -- physical pseudo-channel
  low : Bool := false                -- the condition of R336 holds
  wasHigh : Bool := false            -- LA_US stands at or above HIGH
  waitq : List MEnt := []            -- mending entries that wait for a place (R63), oldest first
  lost : List Nat := []              -- physical pseudo-channels that are LOST (R348)
  wiped : List (Nat × Nat × List Nat) := []  -- logical pseudo-channels copied from a lost one: every sector from a chunk on is poisoned but those listed, written since
  reqNo : Nat := 0
  migHeld : List BReq := []          -- requests for the chunk being copied (R342), oldest first
  pcs : List (Nat × Pc) := []        -- controllers by physical pseudo-channel; an unlisted one is idle
  deriving DecidableEq, Repr

/-! ### Glaur link, tag and check-value units (chapter 08) -/

/-- A frame history entry (R377 ff., "Translation into mending entries"). -/
structure Hist where
  lseq : Nat
  index : W32
  shot : Nat
  n : Nat                    -- N of the stripe
  slotB : Bool
  mending : Bool
  gen : Nat
  serial : Nat
  tseq : Nat                 -- ticket number
  commit : Nat               -- 0 none yet, 1 FIRE, 2 BLANK
  noEntry : Bool             -- a refused or REJECTED stripe (R757)
  ue : Bool := false         -- the entry fails SECDED
  map : List Nat := []       -- the lane map in force for the frame (R574)
  deriving DecidableEq, Repr

/-- A transmit or return lane's training state, beside its registers. -/
structure Lane where
  live : Bool := false       -- in the map (R366, R367)
  lock : Bool := false
  fec : Bool := false
  good : Bool := false       -- its last training found it within the limits of R369 (R372)
  alone : Bool := false      -- being retrained alone (R388, R752)
  pendLive : Bool := false   -- joins the map at the next frame (R372)
  pkts : Nat := 0            -- packets of the last frame sent on it (LANE_STAT.PKTS, R403)
  unc : Nat := 0             -- uncorrectable codewords of the last LANE_STATUS (R369)
  deriving DecidableEq, Repr

/-- An outstanding RESEND (R377): first and last RSEQ, and whether it has been repeated. -/
structure Resend where
  first : Nat
  last : Nat
  again : Bool
  deriving DecidableEq, Repr

/-- A frame held between gather and its begin: the nonzero codes by wire position 1,024·K + j (R283). -/
structure Frm where
  shot : Nat
  codes : List (Nat × Nat)
  deriving DecidableEq, Repr

/-- GLR (R351 to R389). -/
structure Glr where
  st : Nat := 0                      -- GLR_LINK.STATE
  lclk : Bool := false               -- LCLK and lane PLLs locked, return receivers on (R388 step 2)
  unackOld : Bool := false
  lanes : List Lane := List.replicate 52 {}
  lseq : Option Nat := none          -- LSEQ of the last frame begun; none from LINK_UP to frame 0
  ack : Nat := 0
  unFirst : Nat := 1
  unLast : Nat := 0
  map : List Nat := []               -- live lanes of the last frame begun, ascending (R366, R367)
  mapPrev : List Nat := []           -- and of the frame before it (R362, R371)
  hist : List (Nat × Hist) := []     -- by LSEQ mod 4,096
  frames : List Frm := []            -- gathered frames not yet begun, oldest first
  rxNext : Nat := 0                  -- next RSEQ expected (R377)
  rxMiss : List Nat := []            -- RSEQs skipped and not yet received
  rxLost : List Nat := []            -- RSEQs given up (R377)
  resends : List Resend := []        -- RESENDs outstanding, oldest first
  buf : List Instr := []             -- messages received and not yet translated, oldest first, at most 256 (R63, R292)
  ackWant : Option (Nat × Nat) := none  -- the last STATUS not yet taken: ACK_LSEQ and NEXT_RSEQ (R378)
  parts : List (Nat × Nat) := []        -- DBM parts received: p and the 8,192 bits of the part, bit 0 first (R383)
  dbmAsked : Bool := false           -- a DBM_REQ is outstanding (R388)
  aligned : Bool := false            -- the error window of step 8 is complete (R388)
  half : Bool := false               -- half of GLR_TRAIN.TIMEOUT has passed (R752)
  plate : Nat := 0                   -- PLATE_ID
  rateLimited : Bool := false
  leaving : List Nat := []           -- lanes out of the map under QUIESCE that still send packets of their last frame (R370)
  ended : List Ended := []           -- stripes ended and not sealed (R564)
  fails : List (Nat × Nat) := []     -- transmit lanes and frames (LSEQ) whose packets ROW_FAIL reports named (R574), newest first
  deriving DecidableEq, Repr

/-- An outstanding tag exchange (R392 to R396). -/
structure TagX where
  adv : Bool
  nonce : Nat
  repeats : Nat
  deriving DecidableEq, Repr

/-- TAG (R391 to R397). -/
structure Tag where
  auth : Bool := false
  count : Nat := 0
  resid : Nat := 0
  x : Option TagX := none
  chalWait : Bool := false           -- a challenge waits behind the outstanding exchange (R751)
  deriving DecidableEq, Repr

/-- An entry of a CHK unit's FIFO (R400, R405): data of 1, 2 or 4 bytes, or a START behind the data before it. -/
inductive ChkItem where
  | data (bytes : Nat) (v : W32)
  | start
  deriving DecidableEq, Repr

/-- One CHK unit (R398 to R401): its CRC register before the final XOR, and its FIFO. -/
structure Chk where
  crc : Nat := 0
  fifo : List ChkItem := []          -- oldest first, at most 16 of them data
  deriving DecidableEq, Repr
/-! ### Spool, codec and expansion (chapters 02, 03, 12) -/

/-- A block of the stream that SPL has accepted (R74). -/
structure SBlk where
  seq : Nat
  cid : W32
  btype : Nat                           -- 1 JOB, 2 LIB, 3 STRIPE
  kqz : Bool
  refetch : Bool
  sopen : Bool
  sclose : Bool
  infLo : Int
  infHi : Int
  len : Nat                             -- BLOCK_LEN
  rawLen : Nat
  payload : List Byte                   -- payload and padding
  recs : Option (List W32)              -- record words, once decoded
  resv : Nat := 0                       -- spool bytes reserved for its decoded records (R530)
  bad : Bool := false                   -- its spooled data reads poisoned
  failed : Bool := false                -- its frame was rejected (R532)
  avoid : Option Nat := none            -- engine that last abandoned it (R551)
  deriving DecidableEq, Repr

/-- What SPL holds of a sequence number at or beyond the one XPD is at. -/
inductive Item where
  | held (b : SBlk)
  | gone (hdr : Option SBlk)            -- given up, with the header where SPL held it (R121, R122)
  | lost                                -- received, and dropped with STREAM_LOST (R762): it still counts as received (R115)
  deriving DecidableEq, Repr

/-- An open NAK (R119), with the header of its block where SPL held it. -/
structure Nak where
  seq : Nat
  hdr : Option SBlk
  deriving DecidableEq, Repr

/-- SPL (chapter 02). -/
structure Spl where
  pos : Nat := 0                        -- sequence number that XPD is at, or that comes next
  line : List (Nat × Item) := []        -- what is received or given up from `pos` on, by sequence number
  cur : Option SBlk := none             -- the block handed to XPD, with the words that remain in its recs
  last : Option SBlk := none            -- the block before it (R122), without its data
  refs : List SBlk := []                -- REFETCH blocks that wait for a decoder, in order of arrival
  top : Nat := 0                        -- the number after the highest accepted one (R117)
  gaps : Nat := 0                       -- waits of R117 that run
  naks : List Nak := []                 -- open NAKs, oldest first
  reqs : List (W32 × W32 × W32) := []   -- request queue, oldest first, at most 64 (R125)
  ovf : Bool := false
  lost : Bool := false                  -- after STREAM_LOST (R762)
  opens : Nat := 0                      -- STRIPE_OPEN records processed (R106)
  skip : Nat := 0                       -- record words of the block at `pos` that XPD has already processed (R118)
  owed : List (Nat × Int × Int × Bool) := []  -- R121 ranges of sections not yet opened: section, rows, and whether the entries are made
  deriving DecidableEq, Repr

/-- A cell definition (R130, R134): its records as words, its box XMIN, YMIN, XMAX, YMAX. -/
structure Cell where
  id : Nat
  box : Int × Int × Int × Int
  recs : List (List W32) := []
  cid : W32                             -- CONTENT_ID of the LIB block that last defined it (R125)
  defd : Bool := false                  -- a definition is cached
  bad : Bool := false                   -- POISONED, or, while it is open, with poison in its records (R135)
  boxBad : Bool := false                -- its directory box reads poisoned
  refetch : Bool := false               -- a CELL_REFETCH is open
  deriving DecidableEq, Repr

/-- XPD and ALT (chapter 03). -/
structure Xpd where
  cells : List Cell := []
  defn : Option Cell := none            -- the cell between CELL_OPEN and CELL_CLOSE
  deaf : Bool := false                  -- LIB records are discarded up to the next CELL_OPEN (R124)
  elem : Nat := 0                       -- elements of the ARRAY at hand that are done
  wait : Option (Nat × Nat) := none     -- cell awaited and REASON (R145)
  waitCulls : Nat := 0                  -- cells that the waiting instance culled before it (R142)
  qBusy : Bool := false                 -- a lookup of R170 runs
  qState : Nat := 0
  gridBad : List Nat := []              -- words of the grid memory that an injected write spoilt (R604), by window offset, ascending
  deriving DecidableEq, Repr

/-- An outbound job (R541 to R550) as its registers stood at GO. -/
structure Job where
  kind : Nat
  level : Nat
  fallback : Bool
  src : Nat
  len : Nat
  dst : Nat
  dstMax : Nat
  req : Req
  waiting : Bool                        -- R545
  hold : Option (Nat × Nat)             -- section and patch row held under R546
  deriving DecidableEq, Repr

/-- A codec engine (chapter 12). -/
structure Eng where
  out : Bool := false                   -- the role in effect (R527)
  frame : Option (Bool × Nat) := none   -- frame being decoded: whether of a REFETCH block, and its BLOCK_SEQ or place in `refs`
  job : Option Job := none
  deriving DecidableEq, Repr

/-! ### Raster tiles and the verifier (chapter 05) -/

/-- A raster of a patch: of which section and patch, whether a second raster or a re-raster of R247, and the tiles it must
avoid. -/
structure Work where
  sec : Nat
  q : Nat
  p : Nat
  second : Bool := false
  rr : Bool := false
  avoid : List Nat := []                -- the tile of the first raster, then tiles that timed out on the second
  ue : Bool := false                    -- it is the first raster to run since _INJECT of its tile's page was set (R755)
  deriving DecidableEq, Repr

/-- A raster tile. -/
structure Tile where
  awake : Bool := false                 -- its clock runs (R239)
  work : List Work := []                -- patches it holds, oldest first, at most two (R237)
  deriving DecidableEq, Repr

/-- VER (chapter 05). -/
structure Ver where
  wait : List Work := []                -- patches released by PXC and not dispatched, in order
  rr : List Work := []                  -- re-rasters of R247 that wait
  retry : List Work := []               -- second rasters that wait
  tiles : List Tile := List.replicate 34 {}
  injOn : Option Work := none           -- an injection with BOTH waits for this second raster's report (R250)
  deriving DecidableEq, Repr

/-! ### Sections of the stream on their way through the data path (chapters 02 to 07) -/

/-- A patch's verdict (chapter 05). -/
inductive Verd where
  | released | withheld
  deriving DecidableEq, Repr

/-- A point in sp. -/
abbrev Pt := Int × Int

/-- A piece that BST cut (R177): its ends, its SELV flag, its cell column and row (R179). -/
structure Piece where
  u : Pt
  v : Pt
  selv : Bool
  k : Nat
  j : Nat
  deriving DecidableEq, Repr

/-- A patch from its record's allocation until it is consumed (R185, R194, R248). -/
structure Patch where
  q : Nat
  p : Nat
  edges : List (Pt × Pt)                -- edge list with carry pieces, in the writing frame
  ap : Int                              -- AP (R184)
  apBad : Bool                          -- AP carries the poison code (R204)
  edgeBad : Bool := false               -- the record in HBM reads poisoned (R228)
  units : Nat                           -- 4 KiB units of its record (R317)
  mods : List Nat := []                 -- the 36 modulations of R194, by 6·row + column, once released
  modBad : Bool := false                -- one of them carries the poison code
  queued : Bool := false                -- PXC has released it
  deriving DecidableEq, Repr

/-- Slot parameters of PXC as latched for a section (R199). -/
structure PxcPar where
  terms : List (Nat × Nat × List Nat)   -- ETA, RAD and taps of each term in use
  etaF : Nat
  radF : Nat
  tapF : List Nat
  mMin : Nat
  mMax : Nat
  deriving DecidableEq, Repr

/-- One stripe section, paired with the ticket of the same number (R106). -/
structure Sec where
  num : Nat
  slotB : Bool
  b : Nat                               -- row bands B of its slot (R557)
  minus : Bool
  len : Nat
  verd : List ((Nat × Nat) × Verd) := []  -- verdicts by (Q, P) (R267)
  tkt : Tkt                             -- the ticket words that STRIPE_OPEN copies
  selvBins : Nat                        -- R105
  reachBins : Nat
  selvX : Nat
  orx : Int                             -- origin in force (R108)
  ory : Int
  fieldId : Nat                         -- field and grid in force (R109)
  gridId : Nat
  bin : Nat := 0                        -- bin in force (R111)
  closed : Bool := false
  par : Option PxcPar := none           -- latched at R199
  pieces : List Piece := []             -- pieces of the bands not yet complete, in the order BST made them
  cutBand : Nat := 0                    -- bin of the chords being cut
  bands : Nat := 0                      -- bands completed (R200)
  todo : Option (List (Nat × Nat)) := none  -- patches (Q, P) of the band being completed that have no record yet
  rho : List ((Nat × Nat) × Nat) := []  -- densities that differ from 0, by (k, j) (R188)
  bad : List (CellWord × Nat × Nat) := []  -- words of cells (k, j) that BST or PXC read poisoned (R203)
  released : Nat := 0                   -- bands released (R201)
  patches : List Patch := []
  blank : List Nat := []                -- stripe rows that send code 0 on every pass (R121, R147, R203, R206), ascending
  dropped : Bool := false               -- abandoned by a SOFT_RESET of BST or PXC
  deriving DecidableEq, Repr
/-! ### Kennel, time base and non-volatile store (chapter 15) -/

/-- One copy of an NVM area (R635): its sequence number and what it holds. -/
structure NvCopy where
  seq : Nat
  data : List Byte                      -- its bytes, but for an NVREG copy
  regs : List (Nat × W32) := []         -- an NVREG copy: the NV fields that differ from reset, by BAR0 address
  rmps : List Remap := []               -- and the remap entries (R598)
  deriving DecidableEq, Repr

/-- A store that runs (R637): its KIND, INDEX, offset and source as they stood when it began. -/
structure NvJob where
  kind : Nat
  index : Nat
  off : Nat
  data : List Byte
  regs : List (Nat × W32) := []         -- the snapshot of STORE REGS (R638)
  rmps : List Remap := []
  deriving DecidableEq, Repr

/-- NVM (R634 to R641). Areas kept as two copies are numbered 0 NVREG, 1 BOOT, 2 + k key slot k. -/
structure Nvm where
  keys : List (Nat × List Byte) := []   -- key slots in force: 32 bytes each (R641)
  copies : List (Nat × Option NvCopy × Option NvCopy) := []  -- by area; an unlisted area has no valid copy
  mram : Mem := []                      -- CRASH, LOG and USER by MRAM offset (R636)
  buf : List (Nat × W32) := []          -- NVM_BUF by word number
  job : Option NvJob := none
  deriving DecidableEq, Repr

/-- A transmit frame that has left, until its descriptor is written back (R659, R663). -/
structure MacTx where
  osMiss : Bool
  secs : Nat                            -- TIM when its first byte left
  ns : Nat
  deriving DecidableEq, Repr

/-- A repair sequence of the firmware (R572 to R576). -/
structure Repair where
  base : Nat                            -- base of the page that it has taken
  owner : W32                           -- _OWNER as saved
  step : Nat                            -- the next of its steps
  deriving DecidableEq, Repr

/-- KNL (R620 to R633, R644 to R647, R658 to R667). -/
structure Knl where
  sram : Mem := []
  sramBad : List Nat := []              -- poisoned words of KNL SRAM, by word number, ascending
  flash : Mem := []                     -- the xSPI flash
  phase : Nat := 0                      -- KNL_STAT.PHASE
  slot : Nat := 0                       -- KNL_STAT.SLOT
  away : Bool := true
  awayNs : Nat := 0                     -- duration of kennel-away
  wdogNs : Nat := 0                     -- time since the watchdog was last restarted (R624)
  nmi : Bool := false                   -- the watchdog interrupt stands and the core has not been reset (R624)
  cmd : Option (List W32) := none       -- the mailbox command in service: H2K0 to H2K15 as they stood (R646)
  warnArm : Bool := true                -- TEMP_WARN may latch (R668, HYST)
  sens : List (Nat × Nat) := []         -- current readings by index (R644)
  trap : Option (Nat × Nat) := none     -- the last access fault of R622: mcause and the core address
  tx : Option MacTx := none
  osHeld : Bool := false                -- the frame at the head is held (R661)
  rptLast : Option Nat := none          -- REPORT_ID of the last stripe report (R665)
  repairs : List Repair := []           -- repair sequences under way (R572)
  readmitted : List (Nat × Nat) := []   -- lanes readmitted, and TIM in ns then (R575)
  calls : List Nat := []                -- bases of pages whose repair the firmware owes (R573)
  logAt : Nat := 0                      -- TIM in ns at the last copy of the event-log ring into LOG
  deriving DecidableEq, Repr

/-- TIM (R648 to R654, R663): the counter and the stamp queue of REPORT_ID, seconds and nanoseconds, oldest first. -/
structure Tim where
  sec : Nat := 0                        -- 48 bits
  ns : Nat := 0
  frac : Nat := 0                       -- 32 bits below the nanoseconds
  pps : Bool := false                   -- PPS_OUT is high
  tsq : List (Nat × Nat × Nat) := []
  deriving DecidableEq, Repr

/-! ### Heel (chapter 10) -/

/-- HEL (R454 to R482) beside its registers. -/
structure Hel where
  mode : Nat := 0                -- HEL_STAT.MODE
  y : Int := 0                   -- Y
  ystage : Int := 0
  v : Int := 0                   -- slope state: 0, 1 for +S, −1 for −S
  hold : Bool := false           -- hold_pending
  h : List Int := List.replicate 16 0   -- h0 to h15
  pc : Nat := 0
  cyc : Nat := 0                 -- QCLK since the first fetch
  going : Bool := false          -- the program runs
  ticked : Bool := false         -- a sample has been started since ENABLE
  complete : Bool := false       -- the sample has executed WAIT
  hysted : Bool := false         -- the sample has executed HYST
  overruns : Nat := 0            -- consecutive incomplete samples
  leash : Nat := 0               -- LEASH_CNT
  acqLeft : Nat := 0
  encHigh : Nat := 0             -- consecutive ticks with ENC_VALID high, at most 16
  encLow : Nat := 0              -- consecutive ticks with it low
  safeReq : Bool := false        -- a cause of R464 waits for the tick
  acqReq : Bool := false         -- ACQ waits for the tick
  seq : Nat := 0                 -- frame count mod 16
  frame : Nat := 0               -- the DAC frame begun last
  ports : List Int := []         -- input ports as latched at the tick (R472)
  smp : List W32 := []           -- sampled registers as taken at the tick: SLOPE, BAND, LEASH, RAMP, COEF0 to COEF15 (R475)
  bad : List Nat := []           -- microcode words that read uncorrectable
  inj : Bool := false            -- an injection runs
  injK : Nat := 0
  injPhi : Nat := 0
  injG : Int := 0                -- g of the sample
  capArmed : Bool := false
  capTrig : Bool := false
  capDone : Bool := false
  capN : Nat := 0                -- entries written since ARM
  capLeft : Nat := 0             -- entries still to write after the trigger
  capTrigIdx : Nat := 0
  capFirst : Nat := 0
  capCur : Option Nat := none    -- entry of the current sample
  seen : Nat := 0                -- trigger sources seen since the last tick, a bit mask (R479)
  deriving DecidableEq, Repr

/-- The block, without its command queue. -/
structure Dev where
  regs : List (Nat × W32) := []       -- BAR0 words and window words that differ from reset, by address
  bar2 : List (Nat × W32) := []       -- MSI-X table words, by BAR2 offset (R741)
  infoHeld : List Nat := []           -- pages whose first-error capture is held (R739), by base
  pins : Pins := {}                   -- the output pins
  outs : List Out := []               -- the model's own record of what left the block, newest first
  free : Nat := 0                     -- the model's own counter of free values taken
  hbm : Mem := []                     -- the bobbin by device address (chapter 07)
  poison : List Nat := []             -- poisoned sectors, DA div 32, ascending (R584)
  exp : Exp := {}
  muz : Muz := {}
  glb : Glb := {}
  fcl : Fcl := {}
  mei : Mei := {}
  hlk : Hlk := {}
  chans : List Chan := List.replicate 16 {}
  pmu : Pmu := {}
  stc : Stc := {}
  bob : Bob := {}
  glr : Glr := {}
  tag : Tag := {}
  cdcHi : W32 := 0                    -- latched HI word of CDC_CNT_OUT (R554)
  chks : List Chk := List.replicate 8 {}
  testing : List Nat := []            -- pages of resources whose self-test runs (R244, R599), by base
  secs : List Sec := []               -- sections in stream order, oldest first
  spl : Spl := {}
  xpd : Xpd := {}
  engs : List Eng := [{}, {}, {}, {}, {}, {}, {}, { out := true }]
  ver : Ver := {}
  nvm : Nvm := {}
  knl : Knl := {}
  tim : Tim := {}
  hel : Hel := {}
  deriving DecidableEq, Repr

/-- The state: the block and the queue of waiting commands, first in, first out. -/
structure State where
  dev : Dev
  pending : List Instr
  deriving DecidableEq, Repr

/-- The block right after reset: every field at its reset value, every domain off, no command waiting. -/
def State.reset : State := ⟨{}, []⟩

end Sys2Proof.Machine
end

