-- ==== Sys2Proof/Machine/Flags.lean ====
section
/-! DEFINITION. The word store of BAR0 and the flags the block raises: events, their MSI-X vectors (R493, R494, R738). -/

namespace Sys2Proof.Machine

/-! ### The word store -/

/-- The word at BAR0 address `a` as the block holds it (R12). -/
def rg (d : Dev) (a : Nat) : W32 := (alGet d.regs a).getD (w32 (wordReset a))

/-- Put a word at BAR0 address `a`; a word equal to its reset value is not listed. -/
def wr (d : Dev) (a : Nat) (v : W32) : Dev :=
  { d with regs := if v = w32 (wordReset a) then alDel d.regs a else alSet d.regs a v }

/-- Field [hi:lo] of the word at `a`. -/
def fd (d : Dev) (a hi lo : Nat) : Nat := bits (rg d a) hi lo

/-- Put a field of the word at `a`. -/
def setFd (d : Dev) (a hi lo v : Nat) : Dev := wr d a (setBits (rg d a) hi lo v)

/-- Add to the 32-bit counter at `a`, modulo 2^32. -/
def addReg (d : Dev) (a n : Nat) : Dev := wr d a (rg d a + w32 n)

/-- Count one in the 32-bit counter at `a`. -/
def inc (d : Dev) (a : Nat) : Dev := addReg d a 1

/-- Put something out. -/
def emit (d : Dev) (o : Out) : Dev := { d with outs := o :: d.outs }

/-- Put several things out, in order. -/
def emitAll (d : Dev) (os : List Out) : Dev := os.foldl emit d

/-- Take a value that the spec leaves open. -/
def takeFree (d : Dev) : BitVec 64 × Dev := (Config.freeValue d.free, { d with free := d.free + 1 })

/-- Add a value that the spec leaves open to the counter at `a`. -/
def addFree (d : Dev) (a : Nat) : Dev :=
  let (v, d) := takeFree d
  addReg d a v.toNat

/-- `n` bytes that the spec leaves open. -/
def freeBytes (d : Dev) (n : Nat) : List Byte × Dev :=
  ((List.range n).map fun i => byte (Config.freeValue (d.free + i)).toNat, { d with free := d.free + n })

/-- Add to a 64-bit counter across two registers. -/
def addReg64 (d : Dev) (lo hi n : Nat) : Dev :=
  let v := (rg d lo).toNat + 4294967296 * (rg d hi).toNat + n
  wr (wr d lo (w32 v)) hi (w32 (v / 4294967296))

/-- The slot register of a pair: A or B (R556). -/
def slotReg (b : Bool) (a0 b0 : Nat) : Nat := if b then b0 else a0

/-! ### Events and MSI-X (R493, R494, R738) -/

/-- The level of vector `v` (R494). -/
def vectorLevel (d : Dev) (v : Nat) : Bool :=
  (vectorPages v).any fun b => rg d (b + oEVTPEND) &&& rg d (b + oEVTEN) != 0

/-- The word at BAR2 offset `o` of the MSI-X table, 0 at reset but for the mask bit of PCIe, which is 1. -/
def msixWord (d : Dev) (o : Nat) : W32 := (alGet d.bar2 o).getD (if o % 16 = 12 then 1 else 0)

/-- Whether PCIe holds the messages of vector `v` back: MSI-X disabled, the function or the table entry masked, or D3hot. -/
def msixMasked (d : Dev) (v : Nat) : Bool :=
  !d.hlk.cfg.msixEn || d.hlk.cfg.msixFm || d.hlk.cfg.d3 || bit (msixWord d (0x800 + 16 * v + 12)) 0

/-- Send one message on vector `v` (R494): held in the pending-bit array while it is masked, dropped while the link is
down (R486). -/
def sendMsix (d : Dev) (v : Nat) : Dev :=
  if msixMasked d v then { d with hlk := { d.hlk with msixPend := setIns d.hlk.msixPend v } }
  else if d.hlk.up then emit d (.msix v) else d

/-- The page kind and instance of a page base. -/
def pg (base : Nat) : Page × Nat := (pageOf base).getD (.glb, 0)

/-- The vector of a page base. -/
def vecOf (base : Nat) : Nat := (pg base).1.vector (pg base).2

/-- Event `b` of the page at `base` occurs (R738): its _EVT_PEND bit sets, and the vector's rise sends one message. -/
def evt (d : Dev) (base b : Nat) : Dev :=
  let v := vecOf base
  let before := vectorLevel d v
  let d := wr d (base + oEVTPEND) (putBit (rg d (base + oEVTPEND)) b true)
  if !before && vectorLevel d v then sendMsix d v else d

end Sys2Proof.Machine
end

