-- ==== Sys2Proof/Machine/Chk.lean ====
section
/-! DEFINITION. The check-value units (R398 to R401, R405): a FIFO of the data written, and the unit that feeds them. LCLK runs while no
command waits, so an idle step feeds what a FIFO holds (DESIGN CHOICE, log entry 89). -/

namespace Sys2Proof.Machine

/-- Algorithm of unit `n`. -/
def chkAlg (d : Dev) (n : Nat) : Nat := fd d (Adr.CHK_CFG n) 2 0

/-- fold(ALIVE) of R399. -/
def chkFold (d : Dev) (n : Nat) : Nat :=
  let a := (rg d (Adr.CHK_ALIVE n)).toNat
  if fd d (Adr.CHK_CFG n) 4 4 = 0 then 0
  else if chkAlg d n = 2 then (a % 65536) ^^^ (a / 65536) else a

/-- SEED as the algorithm uses it (R405). -/
def chkSeed (d : Dev) (n : Nat) : Nat :=
  let lo := (rg d (Adr.CHK_SEED_LO n)).toNat
  match chkAlg d n with
  | 2 => lo % 65536
  | 3 => lo + 4294967296 * (rg d (Adr.CHK_SEED_HI n)).toNat
  | _ => lo

/-- The result registers show the register's value after the final XOR (R401). -/
def chkShow (d : Dev) (n : Nat) : Dev :=
  let v := (nth d.chks n {}).crc ^^^ chkXor (chkAlg d n)
  let d := wr d (Adr.CHK_RES_LO n) (w32 v)
  wr d (Adr.CHK_RES_HI n) (if chkAlg d n = 3 then w32 (v >>> 32) else 0)

/-- Put the CRC register of unit `n`. -/
def chkPut (d : Dev) (n v : Nat) : Dev := { d with chks := modNth d.chks n fun c => { c with crc := v } }

/-- Begin a value (R399). Algorithms 4 to 7 are reserved: what the register holds then is open. -/
def chkStart (d : Dev) (n : Nat) : Dev :=
  let d := wr d (Adr.CHK_BYTES n) 0
  let fold := chkFold d n
  let d := if fd d (Adr.CHK_CFG n) 4 4 = 1 then inc d (Adr.CHK_ALIVE n) else d
  if 4 ≤ chkAlg d n then
    let (v, d) := takeFree d
    chkShow (chkPut d n v.toNat) n
  else chkShow (chkPut d n (chkInit (chkAlg d n) ^^^ chkSeed d n ^^^ fold)) n

/-- Feed `k` bytes of `v`, least significant first (R400). -/
def chkFeed (d : Dev) (n k : Nat) (v : W32) : Dev :=
  let d := addReg d (Adr.CHK_BYTES n) k
  if 4 ≤ chkAlg d n then
    let (f, d) := takeFree d
    chkShow (chkPut d n f.toNat) n
  else
    chkShow (chkPut d n ((leBytes k v.toNat).foldl (fun c b => chkByte (chkAlg d n) c b.toNat) (nth d.chks n {}).crc)) n

/-- The FIFO of unit `n`, oldest entry first. -/
def chkFifo (d : Dev) (n : Nat) : List ChkItem := (nth d.chks n {}).fifo

/-- Put the FIFO of unit `n`. -/
def chkPutFifo (d : Dev) (n : Nat) (l : List ChkItem) : Dev := { d with chks := modNth d.chks n fun c => { c with fifo := l } }

/-- Whether an entry is data, which takes one of the FIFO's 16 places. -/
def ChkItem.isData : ChkItem → Bool
  | .data .. => true
  | .start => false

/-- LEVEL of unit `n` (R405). -/
def chkLevel (d : Dev) (n : Nat) : Nat := (chkFifo d n).countP (·.isData)

/-- The unit takes one entry from its FIFO. -/
def chkItem (d : Dev) (n : Nat) : ChkItem → Dev
  | .data k v => chkFeed d n k v
  | .start => chkStart d n

/-- The unit takes every entry of its FIFO, in their order. -/
def chkRun (d : Dev) (n : Nat) : Dev := (chkFifo d n).foldl (fun d i => chkItem d n i) (chkPutFifo d n [])

/-- The unit takes entries up to the oldest data: room for a write that waits (R400). -/
def chkRoom (d : Dev) (n : Nat) : Dev :=
  let l := chkFifo d n
  let k := (l.takeWhile fun i => !i.isData).length + 1
  (l.take k).foldl (fun d i => chkItem d n i) (chkPutFifo d n (l.drop k))

/-- What the result registers show while BUSY reads 1 is open: R401 gives them for BUSY 0 alone. -/
def chkBusy (d : Dev) (n : Nat) : Dev :=
  let (a, d) := takeFree d
  let (b, d) := takeFree d
  wr (wr d (Adr.CHK_RES_LO n) (w32 a.toNat)) (Adr.CHK_RES_HI n) (w32 b.toNat)

/-- Data of `k` bytes are written (R400): they enter the FIFO, after the oldest entry has left a full one. -/
def chkData (d : Dev) (n k : Nat) (v : W32) : Dev :=
  let d := if chkLevel d n < 16 then d else chkRoom d n
  chkBusy (chkPutFifo d n (chkFifo d n ++ [.data k v])) n

/-- START is written (R399, R405): the value begins at once, or after the data already in the FIFO. -/
def chkBegin (d : Dev) (n : Nat) : Dev :=
  if chkFifo d n = [] then chkStart d n else chkPutFifo d n (chkFifo d n ++ [.start])

/-- SOFT_RESET of unit `n` (chapter 08): the FIFO empties, and BUSY clears. -/
def chkClear (d : Dev) (n : Nat) : Dev := if chkFifo d n = [] then d else chkShow (chkPutFifo d n []) n

/-- LCLK runs: every unit feeds what its FIFO holds. -/
def chkTicks (d : Dev) : Dev := (List.range 8).foldl (fun d n => if chkFifo d n = [] then d else chkRun d n) d

end Sys2Proof.Machine
end

