-- ==== Sys2Proof/Machine/Ops.lean ====
section
/-! DEFINITION. The named operations over domains, the bobbin, the mending list, the muzzle and the end of a stripe,
which the commands of every chapter share. -/

namespace Sys2Proof.Machine

/-! ### Domains -/

/-- STATE of power domain `n` (R671). -/
def pdState (d : Dev) (n : Nat) : PdState := (nth d.pmu.pd n {}).st

/-- Whether domain `n` is powered: ON, or a memory domain in self-refresh, whose registers answer. -/
def pdOn (d : Dev) (n : Nat) : Bool :=
  match pdState d n with
  | .on => true
  | .selfRefresh => true
  | _ => false

/-- Whether the domain of a page is powered (R489). -/
def pageOn (d : Dev) (p : Page) (n : Nat) : Bool :=
  match p.domain n with
  | none => true
  | some k => pdOn d k

/-- The PLL that serves domain `n` (R683). -/
def pllOf (n : Nat) : Nat := nth [0, 1, 2, 2, 3, 4, 5, 3, 6, 7, 7, 8, 8, 9] n 10

/-- Whether a page is powered and its domain's clock runs: its PLL is locked (R687 to R689). -/
def pageClocked (d : Dev) (p : Page) (n : Nat) : Bool :=
  pageOn d p n && (p.domain n).all fun k => d.pmu.lock.testBit (pllOf k)

/-! ### Time -/

/-- TIM seconds, low 32 bits, of the counter. -/
def timS (d : Dev) : W32 := w32 d.tim.sec

/-- TIM nanoseconds. -/
def timNs (d : Dev) : W32 := w32 d.tim.ns

/-! ### Injected errors (R603, R604) -/

/-- Use up the injection armed in the _INJECT register of the page at `base` for the next decode, or for the next stored write:
its MODE, 0 when none applies. A corrected word is counted (R580). -/
def injTake (d : Dev) (base : Nat) (onWrite : Bool) : Nat × Dev :=
  let w := rg d (base + oINJECT)
  let m := bits w 2 0
  if m = 0 ∨ 5 ≤ m ∨ bit w 4 ≠ onWrite then (0, d)
  else
    let d := wr d (base + oINJECT) (setBits w 2 0 0)
    (m, if m = 1 then inc d Adr.MEI_CNT_CE else d)

/-- Use up an injection, of either kind, by work that stores words and reads them again: whether it makes one uncorrectable. -/
def injAny (d : Dev) (base : Nat) : Bool × Dev :=
  let (a, d) := injTake d base false
  let (b, d) := injTake d base true
  (decide (2 ≤ a ∨ 2 ≤ b), d)

/-! ### The bobbin (R307, R308, R490, R586, R348) -/

/-- Bytes of device address space (R311). -/
def daSpan : Nat := 101468602368

/-- The logical pseudo-channel of a device address (R308). -/
def lpcOf (da : Nat) : Nat := (da / 1024) % 126

/-- The physical pseudo-channel that holds a device address (R308). -/
def pcOf (d : Dev) (da : Nat) : Nat := fd d (Adr.BOB_PCMAP (lpcOf da)) 6 0

/-- Whether the pseudo-channel that serves a device address is LOST (R348); during a migration, chunks below PTR are served from
the target (R342). -/
def daLost (d : Dev) (da : Nat) : Bool :=
  d.bob.lost != [] &&
  d.bob.lost.contains
    (if d.bob.migBusy && lpcOf da = d.bob.migSrc && decide (da / 1024 / 126 < d.bob.migPtr) then d.bob.migDst else pcOf d da)

/-- Whether sector `s` holds the poison code that the copy of a lost pseudo-channel left (R348). -/
def daWiped (d : Dev) (s : Nat) : Bool :=
  match alGet d.bob.wiped (lpcOf (32 * s)) with
  | some (c, good) => decide (c ≤ s / 32 / 126) && !good.contains s
  | none => false

/-- Standby ends, and PLL_N starts again (R682). -/
def standbyLeave (d : Dev) : Dev :=
  if d.pmu.standby then { d with pmu := { d.pmu with standby := false, run := d.pmu.run ||| 1024 } } else d

/-- A request for the bobbin brings the memory domains out of self-refresh (R679); the exit ends with SELF_REFRESH_EXIT. -/
def wakeMem (d : Dev) : Dev :=
  if pdState d 9 = .selfRefresh ∨ pdState d 10 = .selfRefresh then
    let up (p : Pd) : Pd := if p.st = .selfRefresh then { p with st := .switchingOn, fromSr := true } else p
    standbyLeave { d with pmu := { d.pmu with pd := modNth (modNth d.pmu.pd 9 up) 10 up } }
  else d

/-- Whether any of the sectors that `da … da + n − 1` touch reads poisoned (R584, R348). -/
def hbmBad (d : Dev) (da n : Nat) : Bool :=
  n != 0 &&
  ((d.poison.any fun s => decide (da / 32 ≤ s ∧ s ≤ (da + n - 1) / 32)) ||
   ((d.bob.lost != [] || d.bob.wiped != []) && (List.range ((da + n - 1) / 32 - da / 32 + 1)).any fun i =>
      daLost d (32 * (da / 32 + i)) || daWiped d (da / 32 + i)))

/-- Bytes of the bobbin; those at or beyond the end of the space read zero (R490). -/
def hbmRead (d : Dev) (da n : Nat) : List Byte := d.hbm.readN da n

/-- The little-endian word at a device address. -/
def hbmWord (d : Dev) (da : Nat) : Nat := leNat (hbmRead d da 4)

/-- The sectors that `da … da + n − 1` covers whole. -/
def wholeSectors (da n : Nat) : List Nat :=
  let a := (da + 31) / 32
  (List.range ((da + n) / 32 - a)).map fun i => a + i

/-- A write-side injection of the MC page of a device address acts on the sector stored (R603, R604): the sector becomes
uncorrectable under MODE 2 to 4, and MODE 3 stores the poison code. -/
def hbmInjWrite (d : Dev) (da : Nat) : Dev :=
  let (m, d) := injTake d (Page.mc.base (pcOf d da / 2)) true
  if m = 0 then d
  else
    let d := if 2 ≤ m then { d with poison := setIns d.poison (da / 32) } else d
    if m = 3 then d
    else { d with mei := { d.mei with badSectors := d.mei.badSectors.filter (fun s => s.1 != da / 32) ++ [(da / 32, m)] } }

/-- Whether any MC page has an injection armed. -/
def mcArmed (d : Dev) : Bool := d.regs.any fun e => decide (0xC0000 ≤ e.1 ∧ e.1 < 0x100000) && e.1 % 0x1000 = oINJECT

/-- Store bytes in the bobbin as one request: bytes beyond the space and bytes of lost pseudo-channels are dropped (R490,
R348); a sector that the write covers whole loses its poison (R586). -/
def hbmWrite (d : Dev) (da : Nat) (l : List Byte) : Dev :=
  let l := l.take (daSpan - da)
  let whole (s : Nat) : Bool := decide (da ≤ 32 * s ∧ 32 * s + 32 ≤ da + l.length)
  let hbm := if d.bob.lost = [] then d.hbm.write da l
    else (chunks 1024 (l.length + 1) (l.take (1024 - da % 1024)) ++ chunks 1024 (l.length + 1) (l.drop (1024 - da % 1024))
      ).foldl (fun (m : Mem × Nat) c => (if daLost d m.2 then m.1 else m.1.write m.2 c, m.2 + c.length)) (d.hbm, da) |>.1
  let wiped := if d.bob.wiped = [] then [] else d.bob.wiped.map fun w =>
    (w.1, w.2.1, ((wholeSectors da l.length).filter fun s => lpcOf (32 * s) = w.1 && !daLost d (32 * s)).foldl setIns w.2.2)
  let d := { d with
    hbm := hbm
    poison := d.poison.filter fun s => !(whole s && !daLost d (32 * s))
    bob := { d.bob with wiped := wiped }
    mei := { d.mei with badSectors := d.mei.badSectors.filter fun s => !whole s.1 } }
  if mcArmed d && l != [] then hbmInjWrite d da else d

/-- A functional read of `n` bytes at a device address counts the sectors whose one inverted check bit it corrects (R583, R604). -/
def hbmCe (d : Dev) (da n : Nat) : Dev :=
  match d.mei.badSectors.countP fun s => s.2 = 1 && decide (n ≠ 0 ∧ da / 32 ≤ s.1 ∧ s.1 ≤ (da + n - 1) / 32) with
  | 0 => d
  | k => addReg d Adr.MEI_CNT_CE k

/-- A functional read of `n` bytes at a device address meets the injected errors (R583, R603, R604): corrected sectors are counted,
and a decode-side injection of the address's MC page is used up; whether that makes the read uncorrectable. -/
def hbmInjRead (d : Dev) (da n : Nat) : Bool × Dev :=
  let d := hbmCe d da n
  if mcArmed d then
    let (m, d) := injTake d (Page.mc.base (pcOf d da / 2)) false
    (decide (2 ≤ m), d)
  else (false, d)

/-- Store the poison code in the sector of a device address (R584). -/
def hbmPoison (d : Dev) (da : Nat) : Dev := { d with poison := setIns d.poison (da / 32) }

/-- Device address of the base of region `i`, and its size in bytes (R311, BOB_RGN). -/
def rgnBase (d : Dev) (i : Nat) : Nat := fd d (Adr.BOB_RGN i) 15 0 * 8388608
def rgnSize (d : Dev) (i : Nat) : Nat := fd d (Adr.BOB_RGN i) 31 16 * 8388608

/-! ### The mending list (R54 to R63, R321) -/

/-- CAP of R321: the largest power of two that does not exceed region size div 16. -/
def mendCap (d : Dev) : Nat :=
  let k := rgnSize d 5 / 16
  if k = 0 then 0 else 2 ^ Nat.log2 k

/-- The free count of R61 (R321). -/
def mendFree (d : Dev) : Nat := mendCap d - (rg d Adr.BOB_MEND_WR - rg d Adr.BOB_MEND_RD).toNat

/-- Word 1 of an entry (R54). -/
def entWord1 (gen : Nat) (mending slotB : Bool) (cause kind : Nat) : W32 :=
  w32 (gen % 65536 * 65536 + b2n mending * 32768 + b2n slotB * 16384 + cause * 16 + kind)

/-- The generation an entry of a stripe carries (R294): the latched one, or the current one before the latch. -/
def tktGen (d : Dev) (t : Tkt) : Nat := t.gen.getD d.stc.dbm.curGen

/-- A mending entry of a stripe (R54). -/
def mkEnt (d : Dev) (blk : Blk) (t : Tkt) (cause kind : Nat) (w2 w3 : W32) : MEnt :=
  ⟨t.index, entWord1 (tktGen d t) t.mending t.slotB cause kind, w2, w3, blk⟩

/-- Write an entry at BOB_MEND_WR mod CAP and advance BOB_MEND_WR (R321). -/
def mendStore (d : Dev) (e : MEnt) : Dev :=
  let w := rg d Adr.BOB_MEND_WR
  let d := hbmWrite d (rgnBase d 5 + 16 * (w.toNat % max 1 (mendCap d))) (bytesOfWords [e.w0, e.w1, e.w2, e.w3])
  wr d Adr.BOB_MEND_WR (w + 1)

/-- An entry is made (R59, R63): written at once, or kept waiting when the ring is full or earlier entries wait. -/
def putEnt (d : Dev) (e : MEnt) : Dev :=
  if d.bob.waitq = [] ∧ mendFree d ≠ 0 then mendStore d e
  else
    let first := d.bob.waitq = []
    let d := { d with bob := { d.bob with waitq := d.bob.waitq ++ [e] } }
    if first then evt d (Page.bob.base 0) Bit.evt_BOB_MEND_WAIT else d

/-- Whether a block waits with an entry (R63). -/
def blkWaits (d : Dev) (b : Blk) : Bool := d.bob.waitq.any fun e => e.blk = b

/-! ### The muzzle (R432 to R437) -/

/-- Whether a cause that holds a muzzle is present (R434, R696). -/
def muzCause (d : Dev) : Bool :=
  let m := d.muz
  m.abortPin || m.blankPin || m.whBlank || m.whStop || m.netstop || m.supply || m.sev3 || m.stuck || m.reset

/-- A muzzle begins: BLANK_ALL# is asserted (R432, R433). -/
def muzBegin (d : Dev) : Dev :=
  let d := { d with muz := { d.muz with muzzled := true }, hel := { d.hel with seen := d.hel.seen ||| 16 } }
  evt (inc d Adr.MUZ_CNT) (Page.muz.base 0) Bit.evt_MUZ_MUZZLE

/-- A muzzle ends. -/
def muzEnd (d : Dev) : Dev :=
  evt { d with muz := { d.muz with muzzled := false } } (Page.muz.base 0) Bit.evt_MUZ_RELEASE

/-- Bring the muzzle in line with its causes: it begins at once when no strobe is in progress, and ends with its last cause. -/
def muzUpdate (d : Dev) : Dev :=
  if d.muz.muzzled then (if muzCause d then d else muzEnd d)
  else if muzCause d && d.muz.pulses = [] then muzBegin d else d

/-- A muzzle begins and ends at once unless a cause holds it: BLANK_ALL# shows it all the same (R433). -/
def muzBlink (d : Dev) : Dev :=
  let d := muzUpdate (muzBegin d)
  if d.muz.muzzled then d else emitAll d [.pin .blankAll (some false), .pin .blankAll (some true)]

/-- The muzzle of a cause that ends at its abort (R434): it begins, after the strobes in progress, and ends unless another
cause holds. -/
def muzMoment (d : Dev) : Dev :=
  if d.muz.muzzled then d
  else if d.muz.pulses ≠ [] then { d with muz := { d.muz with momentary := true } }
  else muzBlink d

/-! ### Tickets and stripes -/

/-- N of a ticket (R39). -/
def Tkt.n (t : Tkt) : Nat := t.len + t.dmax

/-- Change ticket number `k` wherever the block holds it: in the queue, in the running stripe and in STC. -/
def updTkt (d : Dev) (k : Nat) (f : Tkt → Tkt) : Dev :=
  let g (t : Tkt) : Tkt := if t.seq = k then f t else t
  { d with
    exp := { d.exp with queue := d.exp.queue.map g, run := d.exp.run.map fun r => { r with tkt := g r.tkt } }
    stc := { d.stc with cur := d.stc.cur.map (fun s => { s with tkt := g s.tkt }), todo := d.stc.todo.map g } }

/-- A stripe boundary (R560) with ticket `head` at the head of the queue: the pending swap takes effect when the head ticket
names the COMMITTED slot. -/
def stripeBoundary (d : Dev) : Dev :=
  match d.exp.queue with
  | [] => d
  | t :: _ =>
    if d.glb.pend && t.slotB != d.glb.activeB then
      let slot := if t.slotB then (rg d Adr.GLB_SLOT_B, rg d Adr.GLB_JOBID_B) else (rg d Adr.GLB_SLOT_A, rg d Adr.GLB_JOBID_A)
      let note := [w32 (b2n t.slotB), slot.1 >>> 16, slot.2, t.index]
      let d := { d with
        glb := { d.glb with activeB := !d.glb.activeB, pend := false, swaps := d.glb.swaps ++ [note] }
        exp := { d.exp with swapWork := true } }
      evt d (Page.glb.base 0) Bit.evt_GLB_SWAPPED
    else d

/-- Whether LSEQ `a` lies at or before `b` under the half-range rule (R115, R387). -/
def lseqLe (a b : Nat) : Bool := decide ((b + 4294967296 - a % 4294967296) % 4294967296 < 2147483648)

/-- Seal a stripe (R565); while KNL_RPT_PORT is not 0 the firmware owes a report of it (R665). -/
def sealOne (d : Dev) (e : Ended) (unack : Bool) : Dev :=
  let d := wr d Adr.GLB_SEAL_INDEX e.index
  let d := wr d Adr.GLB_SEAL_WR (rg d Adr.BOB_MEND_WR)
  let d := wr d Adr.GLB_SEAL_STAT (w32 (b2n unack * 2147483648 + e.serial))
  let d := if fd d Adr.KNL_RPT_PORT 15 0 = 0 then d
    else
      let r : Report := ⟨e.index, e.serial, e.mending, e.slotB, unack, rg d Adr.GLB_SEAL_WR, timS d, timNs d⟩
      { d with glb := { d.glb with reports := d.glb.reports ++ [r] } }
  evt d (Page.glb.base 0) Bit.evt_GLB_SEALED

/-- Whether an ended stripe may seal now (R564): its last frame is acknowledged, or the link has gone down since it ended, and
none of its entries waits. -/
def sealable (d : Dev) (e : Ended) : Bool :=
  (e.down || !e.sent || lseqLe e.lastLseq d.glr.ack) && !(d.bob.waitq.any fun m => m.w0 = e.index)

/-- Seal every ended stripe that may seal, in the order in which they ended. -/
def sealCheck (d : Dev) : Dev :=
  d.glr.ended.foldl (fun d e =>
    if sealable d e then
      sealOne { d with glr := { d.glr with ended := d.glr.ended.filter fun x => x != e } } e e.down
    else d) d

/-- Seal every ended stripe at a link-down (R564): UNACK is set for those whose last frame was not acknowledged. One with an
entry that waits for space (R63) seals when that entry has been written. -/
def sealDown (d : Dev) : Dev :=
  let mark (e : Ended) : Ended := { e with down := e.down || (e.sent && !lseqLe e.lastLseq d.glr.ack) }
  sealCheck { d with glr := { d.glr with ended := d.glr.ended.map fun e =>
    let e := mark e
    if e.down then e else { e with sent := false } } }

/-- Close the covering entries of a stripe at shot `f` (exclusive): one entry for each of BLANK_REQ#, WHISTLE_BLANK and the
supply warning whose muzzle has covered shots of it (R62, R436). -/
def closeCover (d : Dev) (r : Run) (f : Nat) : Dev :=
  let one (d : Dev) (s : Option Nat) (cause : Nat) : Dev :=
    match s with
    | some a => if a < f && !r.refused then putEnt d (mkEnt d .exp r.tkt cause 2 (w32 a) (w32 (f - 1))) else d
    | none => d
  let d := one d d.muz.blankFrom 6
  let d := one d d.muz.whFrom 6
  let d := one d d.muz.supplyFrom 7
  { d with muz := { d.muz with blankFrom := none, whFrom := none, supplyFrom := none } }

/-- Record the commit of frame `l` in the frame history. -/
def histCommit (d : Dev) (l c : Nat) : Dev :=
  { d with glr := { d.glr with hist := d.glr.hist.map fun h =>
    if h.1 = l % 4096 ∧ h.2.lseq = l then (h.1, { h.2 with commit := c }) else h } }

/-- Send a COMMIT unit for frame `l` on every live lane (R358, R360). -/
def sendCommit (d : Dev) (fire : Bool) (l : Nat) : Dev :=
  histCommit (emit d (.commit fire l)) l (if fire then 1 else 2)

/-- The stripe in progress ends (R415, R442): its remaining shots count as gathered, EXP moves to the next ticket, and the
boundary of R560 falls. -/
def endStripe (d : Dev) (r : Run) : Dev :=
  let d := wr (closeCover d r r.shots) Adr.EXP_HWM (w32 (ofS 32 r.hwm))
  let e : Ended :=
    { index := r.tkt.index, serial := r.tkt.serial, lastLseq := d.glr.lseq.getD 0
      sent := d.glr.hist.any fun h => h.2.tseq = r.tkt.seq, mending := r.tkt.mending, slotB := r.tkt.slotB }
  let q := d.exp.queue.tail
  let d := { d with
    exp := { d.exp with run := none, queue := q, sinceRun := true, wakeHead := false, lastSlotB := r.tkt.slotB }
    glr := { d.glr with ended := d.glr.ended ++ [e], frames := [], leaving := [] }
    bob := { d.bob with low := if q = [] then false else d.bob.low }
    stc := { d.stc with cur := d.stc.cur.map fun s =>
      if s.tkt.seq = r.tkt.seq then { s with ended := true, gathered := max s.gathered r.tkt.n } else s } }
  let d := evt d (Page.exp.base 0) Bit.evt_EXP_STRIPE_END
  sealCheck (stripeBoundary d)

/-- Abort the stripe in progress (R434, R442): one SHOT_RANGE entry of the given CAUSE from shot `first`, or else from its first
undecided shot, to N − 1; none when no cause is given or the stripe runs refused (R757). Frames already sent for undecided shots
are committed BLANK. -/
def abortFrom (d : Dev) (cause first : Option Nat) : Dev :=
  match d.exp.run with
  | none => d
  | some r =>
    let f := r.shots
    let a := first.getD f
    let n := r.tkt.n
    let sent := sortBy (fun a b => decide (a.2.shot ≤ b.2.shot))
      (d.glr.hist.filter fun h => h.2.tseq = r.tkt.seq && decide (f ≤ h.2.shot) && h.2.commit = 0)
    let d := sent.foldl (fun d h => if d.glr.st < 6 then d else sendCommit d false h.2.lseq) d
    let d := match cause with
      | some c => if a < n ∧ !r.refused then putEnt d (mkEnt d .exp r.tkt c 2 (w32 a) (w32 (n - 1))) else d
      | none => d
    endStripe d r

/-- Abort the stripe in progress from its first undecided shot (R434, R442). -/
def abortStripe (d : Dev) (cause : Option Nat) : Dev := abortFrom d cause none

/-- Put EXP in HALTED (R434, R750). -/
def halt (d : Dev) : Dev := { d with exp := { d.exp with halted := true } }

/-! ### Errors and fault collection (R606 to R617, R739) -/

/-- Whether FAULT# is driven low: a source's level is at least FCL_OUT.FAULT_LVL (R617). -/
def faultLow (d : Dev) : Bool := d.fcl.lvl.any fun l => decide (fd d Adr.FCL_OUT 1 0 ≤ l)

/-- The TRK lines over the 25 clocks of a DAC frame (R480): TRK_SYNC in clock 0 alone, frame bits 47 − 2m and 46 − 2m in clock m,
and clock 24 low. -/
def trkLines (frame : Nat) : List (Bool × Nat) :=
  (List.range 25).map fun m => (m = 0, if m < 24 then frame / 2 ^ (46 - 2 * m) % 4 else 0)

/-- The levels that the output pins take in a state (R427, R432, R433, R616, R617, R480, R654, R702): STROBE only while the gate of MUZ
is open; nothing is driven while the block is held in reset, and PD_EXP's TRK lines not during a warm reset (R703). -/
def pinLevels (d : Dev) : Pins :=
  if d.pmu.seq = .off then {}
  else {
    strobe := some (!d.muz.muzzled && d.muz.pulses.any (·.high))
    blankAll := some (!d.muz.muzzled)
    bark := some d.fcl.bark
    fault := some (!faultLow d)
    ppsOut := some d.tim.pps
    trk := if !pdOn d 13 || d.pmu.seq = .warm then none else some (if d.hel.mode = 0 then [] else trkLines d.hel.frame) }

/-- The changes between two settings of the pins. -/
def pinEdges (p q : Pins) : List Out :=
  (if p.strobe = q.strobe then [] else [.pin .strobe q.strobe]) ++
  (if p.blankAll = q.blankAll then [] else [.pin .blankAll q.blankAll]) ++
  (if p.bark = q.bark then [] else [.pin .bark q.bark]) ++
  (if p.fault = q.fault then [] else [.pin .fault q.fault]) ++
  (if p.ppsOut = q.ppsOut then [] else [.pin .ppsOut q.ppsOut]) ++
  (if p.trk = q.trk then [] else [.trk q.trk])

/-- The output pins follow the state. -/
def drive (d : Dev) : Dev := { emitAll d (pinEdges d.pins (pinLevels d)) with pins := pinLevels d }

/-- Severity of error bit `b` of source `s` (R608); every bit of a source whose severity word reads uncorrectable acts at 3. -/
def sevOf (d : Dev) (s b : Nat) : Nat :=
  if d.fcl.sevUe.testBit s then 3 else fd d (Adr.FCL_SEV s) (2 * b + 1) (2 * b)

/-- _ERR_MASK of a page as it acts: bits with floors of 2 or 3 read 0 (R606). -/
def errMask (d : Dev) (base : Nat) : W32 :=
  (pg base).1.errs.foldl (fun m e => if e.2.2 && 2 ≤ e.2.1 then putBit m e.1 false else m) (rg d (base + oERRMASK))

/-- One entry of the FCL log (R613). -/
def fclLog (d : Dev) (s inst lvl b : Nat) : Dev :=
  if d.fcl.log.length ≥ 64 then { d with fcl := { d.fcl with ovf := true } }
  else
    let e := (w32 (s * 16777216 + inst * 65536 + lvl * 256 + b), timS d, timNs d)
    let first := d.fcl.log = []
    let d := { d with fcl := { d.fcl with log := d.fcl.log ++ [e] } }
    if first then evt d (Page.fcl.base 0) Bit.evt_FCL_LOG else d

/-- FCL_FIRST captures (R612). -/
def fclFirst (d : Dev) (s inst lvl b : Nat) : Dev :=
  if bit (rg d Adr.FCL_FIRST) 31 then d
  else
    let d := wr d Adr.FCL_FIRST (w32 (2147483648 + s * 16777216 + inst * 65536 + lvl * 256 + b))
    wr (wr d Adr.FCL_FIRST_S (timS d)) Adr.FCL_FIRST_NS (timNs d)

/-- The severity-2 stop of R434: muzzle, STOP entry unless the stop's own entry covers the shots, HALTED. -/
def sevStop (d : Dev) : Dev :=
  let d := muzMoment d
  halt (abortStripe d (some 5))

/-- The severity-3 response (R614, R616): the muzzle holds to the restart, the data path halts, BARK goes low. -/
def sevHalt (d : Dev) : Dev :=
  let d := { d with
    muz := { d.muz with sev3 := true }
    fcl := { d.fcl with halted := true, bark := false, barkRun := false, barkArm := false } }
  halt (abortStripe (muzUpdate d) (some 5))

/-- FCL's response to error bit `b` of source `s`, instance `inst` (R609, R610, R612, R613). A fault of HEL that stops exposure
shows in MUZ_STAT.TRACK (R453). -/
def fclAct (d : Dev) (s inst b : Nat) : Dev :=
  let l := sevOf d s b
  let d := { d with fcl := { d.fcl with
    status := putBit d.fcl.status s true
    lvl := modNth d.fcl.lvl s (fun x => max x l) } }
  let d := inc d Adr.FCL_CNT
  let d := fclLog (fclFirst d s inst l b) s inst l b
  let p := Page.fcl.base 0
  let d := if 1 ≤ l then evt d p Bit.evt_FCL_SEV1 else d
  let d := if 2 ≤ l then evt d p Bit.evt_FCL_SEV2 else d
  let d := if 3 ≤ l then evt d p Bit.evt_FCL_SEV3 else d
  let d := if 2 ≤ l ∧ some s = Page.hel.source 0 then { d with muz := { d.muz with track := true } } else d
  if l = 2 then sevStop d else if 3 ≤ l then sevHalt d else d

/-- Error condition `b` of the page at `base` latches (R606, R739); unmasked, it captures _ERR_INFO when the latch held no unmasked
bit and no capture is held. Whether it is unmasked. -/
def errSet (d : Dev) (base b : Nat) (i0 i1 : W32) : Bool × Dev :=
  let old := rg d (base + oERRLATCH)
  let mask := errMask d base
  let d := wr d (base + oERRLATCH) (putBit old b true)
  if bit mask b then (false, d)
  else
    (true, if old &&& ~~~mask = 0 ∧ !d.infoHeld.contains base then
        { wr (wr d (base + oINFO0) i0) (base + oINFO1) i1 with infoHeld := setIns d.infoHeld base }
      else d)

/-- The severity word of source `s` has read uncorrectable (R619): its bits act at 3, and FCL latches SEV_UE. -/
def sevUe (d : Dev) (s : Nat) : Dev :=
  let d := { d with fcl := { d.fcl with sevUe := d.fcl.sevUe ||| 2 ^ s } }
  let (_, d) := errSet d (Page.fcl.base 0) Bit.err_FCL_SEV_UE (w32 s) (w32 (4 * s))
  fclAct d 3 0 Bit.err_FCL_SEV_UE

/-- FCL takes error bit `b` of source `s`: an injection on its severity table acts on this look-up (R603, R619). -/
def fclTake (d : Dev) (s inst b : Nat) : Dev :=
  let (m, d) := injTake d (Page.fcl.base 0) false
  fclAct (if 2 ≤ m then sevUe d s else d) s inst b

/-- Error condition `b` of the page at `base` occurs (R606): it latches, and FCL answers it unless it is masked. -/
def err (d : Dev) (base b : Nat) (i0 i1 : W32) : Dev :=
  let (on, d) := errSet d base b i0 i1
  if on then
    match (pg base).1.source (pg base).2 with
    | none => d
    | some s => fclTake d s (pg base).2 b
  else d

/-- An error condition whose severity-2 stop falls later by its own rule (R300, R435): it latches, FCL logs it at once and takes
a level of at least 2; at severity 3 it acts at once like any other. -/
def errHold (d : Dev) (base b : Nat) (i0 i1 : W32) : Dev :=
  match (pg base).1.source (pg base).2 with
  | none => err d base b i0 i1
  | some s =>
    if 3 ≤ sevOf d s b then err d base b i0 i1
    else
      let (on, d) := errSet d base b i0 i1
      if !on then d
      else
        let l := sevOf d s b
        let inst := (pg base).2
        let d := { d with fcl := { d.fcl with
          status := putBit d.fcl.status s true
          lvl := modNth d.fcl.lvl s (fun x => max x l) } }
        let d := fclLog (fclFirst (inc d Adr.FCL_CNT) s inst l b) s inst l b
        let p := Page.fcl.base 0
        let d := if 1 ≤ l then evt d p Bit.evt_FCL_SEV1 else d
        if 2 ≤ l then evt d p Bit.evt_FCL_SEV2 else d

/-- Whether a stripe that is neither refused nor REJECTED is in LEAD or RUN (R747). -/
def exposing (d : Dev) : Bool :=
  match d.exp.run with
  | some r => !r.refused
  | none => false

/-- The reserve of R61 once entries have been made (R747): with fewer than 16 free while a stripe exposes, exposure stops at the
next shot with one LIST_FULL entry, and BOB raises LIST_FULL, whose response muzzles and halts (R434). -/
def listCheck (d : Dev) : Dev :=
  if exposing d && decide (mendFree d < 16) then
    let x := match d.exp.run with
      | some r => r.tkt.index
      | none => 0
    halt (err (abortStripe d (some 13)) (Page.bob.base 0) Bit.err_BOB_LIST_FULL 0 x)
  else d

/-- Mending entries that one cause makes together (R59, R61, R63, R747): all of them are made, and then the reserve acts. -/
def addEnts (d : Dev) (l : List MEnt) : Dev := if l = [] then d else listCheck (l.foldl putEnt d)

/-- A mending entry is made (R59, R61, R63, R747). -/
def addEnt (d : Dev) (e : MEnt) : Dev := listCheck (putEnt d e)

/-- Whether the stripe of ticket number `k` has ended: every ticket before the head of the queue. -/
def tktOver (d : Dev) (k : Nat) : Bool :=
  match d.exp.queue with
  | t :: _ => decide (k < t.seq)
  | [] => decide (k < d.exp.count)

/-- Whether the entries that the data path would make for ticket number `k` are withheld: from its STRIPE_GO a refused or
REJECTED stripe makes none (R757), and once a stripe has ended its own entries cover what is left of it (R442, R565). -/
def entSilent (d : Dev) (k : Nat) : Bool :=
  tktOver d k ||
  match d.exp.run with
  | some r => r.tkt.seq = k && r.refused
  | none => false

/-- CAUSE, KIND and words 2 and 3 of a mending entry (R54). -/
abbrev EntWords := Nat × Nat × W32 × W32

/-- Mending entries of a stripe that one cause makes together, withheld where R757 says so. -/
def stripeEnts (d : Dev) (blk : Blk) (t : Tkt) (l : List EntWords) : Dev :=
  if entSilent d t.seq then d else addEnts d (l.map fun e => mkEnt d blk t e.1 e.2.1 e.2.2.1 e.2.2.2)

/-- A mending entry of a stripe, withheld where R757 says so. -/
def stripeEnt (d : Dev) (blk : Blk) (t : Tkt) (cause kind : Nat) (w2 w3 : W32) : Dev :=
  if entSilent d t.seq then d else addEnt d (mkEnt d blk t cause kind w2 w3)

/-- Clear error bits by a write to _ERR_LATCH; the capture is released when every bit reads 0 (R739). -/
def errClear (d : Dev) (base : Nat) (v : W32) : Dev :=
  let l := rg d (base + oERRLATCH) &&& ~~~v
  let d := wr d (base + oERRLATCH) l
  if l = 0 then { d with infoHeld := setDel d.infoHeld base } else d

/-- Whether a page drives its error line (R606). -/
def errLine (d : Dev) (base : Nat) : Bool := rg d (base + oERRLATCH) &&& ~~~errMask d base != 0

/-- Whether the line of source `s` is active (R606, R607). -/
def srcLine (d : Dev) (s : Nat) : Bool := (sourcePages s).any (errLine d)

/-- _INFO words of an EXP error: the shot or 0, and the STRIPE_INDEX (R452). -/
def expErr (d : Dev) (b : Nat) : Dev :=
  let (s, x) := match d.exp.run with
    | some r => (w32 r.shots, r.tkt.index)
    | none => (0, rg d Adr.EXP_STRIPE)
  err d (Page.exp.base 0) b s x

/-- An error of EXP about a ticket that has not started: shot 0 and the ticket's STRIPE_INDEX. -/
def expTktErr (d : Dev) (b : Nat) (t : Tkt) : Dev := err d (Page.exp.base 0) b 0 t.index

end Sys2Proof.Machine
end

