-- ==== Sys2Proof/Machine/Stc.lean ====
section
/-! DEFINITION. Stitcher and darner (chapter 06): geometry of passes, the stitching procedure, mending-mode stitching, the pass
queue and the gather. -/

namespace Sys2Proof.Machine

/-! ### Geometry of a stripe (R29 to R44) -/

/-- D_r as latched in a ticket (R35, R37). -/
def tktDelay (t : Tkt) (r : Nat) : Nat := bits ((alGet t.geom (Adr.ROW_DELAY r)).getD 0) 13 0

/-- XOFF_r as latched in a ticket (R35, R37). -/
def tktXoff (t : Tkt) (r : Nat) : Int := toS 8 (bits ((alGet t.geom (Adr.ROW_GEOM r)).getD 0) 7 0)

/-- E_r (R40). -/
def effDelay (t : Tkt) (r : Nat) : Nat := if t.minus then t.dmax - tktDelay t r else tktDelay t r

/-- The smallest effective delay. -/
def emin (t : Tkt) : Nat := (List.range 512).foldl (fun a r => min a (effDelay t r)) (effDelay t 0)

/-- Band of row `r` in a job of `b` bands (R29). -/
def bandOf (b r : Nat) : Nat := r / (512 / b)

/-- Track of beam (r, c) (R30). -/
def trackOf (t : Tkt) (b r c : Nat) : Int := (c * b + bandOf b r : Nat) + tktXoff t r

/-- Whether row `r` is active at shot `s` (R43). -/
def rowActive (t : Tkt) (r s : Nat) : Bool := decide (effDelay t r ≤ s ∧ s - effDelay t r < t.len)

/-- Writing-frame row of stripe row `u` (R41, R42). -/
def rowY (t : Tkt) (u : Nat) : Int := if t.minus then t.y0 - (u : Int) else t.y0 + (u : Int)

/-- The column of row `r` whose beam writes track `tr`, if any (R30). -/
def colOn (t : Tkt) (b r tr : Nat) : Option Nat :=
  let x : Int := (tr : Int) - bandOf b r - tktXoff t r
  if 0 ≤ x ∧ x % b = 0 ∧ x / b < 1024 then some (x / b).toNat else none

/-- The passes of track `tr` in passing order (R32, R33): row and column. -/
def passList (t : Tkt) (b tr : Nat) : List (Nat × Nat) :=
  let rows := (List.range 512).filterMap fun r => (colOn t b r tr).map fun c => (effDelay t r, r, c)
  (sortBy (fun a x => decide (a.1 ≤ x.1)) rows).map fun x => x.2

/-- The number of beam (r, c) in dead-beam lists. -/
def beamNo (r c : Nat) : Nat := 1024 * r + c

/-! ### The split (R258, R261, R262) -/

/-- place() of R265 for a code sum `s` at pixel (x, y): a code for each pass of the list, and the shortfall. -/
def placeCodes (dead : List Nat) (passes : List (Nat × Nat)) (s : Nat) (x y : Int) : List ((Nat × Nat) × Nat) × Nat :=
  let lv := passes.filter fun p => !dead.contains (beamNo p.1 p.2)
  let n := lv.length
  if n = 0 then (passes.map fun p => (p, 0), s)
  else
    let g := min s (15 * n)
    let q := g / n
    let rem := g % n
    let rho : Int := (x + y) % n
    let code (j : Nat) : Nat := q + b2n (decide ((((j : Int) - rho) % n) < rem))
    let lc := (List.range n).map fun j => (nth lv j (0, 0), code j)
    (passes.map fun p => (p, ((lc.find? fun z => z.1 = p).map (·.2)).getD 0), s - g)

/-- The code of a pass in a list of codes. -/
def codeAt (l : List ((Nat × Nat) × Nat)) (p : Nat × Nat) : Nat := ((l.find? fun z => z.1 = p).map (·.2)).getD 0

/-! ### Mending mode (R271, R567 to R569) -/

/-- Whether an entry of a set names pass (r, c) at shot `s` (R55). -/
def entNames (n : Nat) (e : SetEnt) (s r c : Nat) : Bool :=
  match e.kind with
  | 1 => decide (e.w2 = s ∧ fld e.w3 8 0 ≤ r ∧ r ≤ fld e.w3 24 16)
  | 2 => decide (e.w2 ≤ s ∧ s ≤ e.w3)
  | 5 => decide (e.w2 ≤ s ∧ s < n ∧ fld e.w3 18 10 = r ∧ fld e.w3 9 0 = c)
  | _ => false

/-- mend_pixel of R271: from the original codes and target of a pixel, and the entries of a set, the codes sent, the value
they stand for, and the shortfall. -/
def mendPixel (t : Tkt) (ents : List SetEnt) (dead : List Nat) (passes : List (Nat × Nat)) (tr u : Nat) (x y : Int)
    (orig : List ((Nat × Nat) × Nat)) (target : Nat) : List ((Nat × Nat) × Nat) × Nat × Nat :=
  let yw := ofS 32 y
  let named := passes.filter fun p => ents.any fun e => entNames t.n e (u + effDelay t p.1) p.1 p.2
  let span := ents.any fun e => e.kind = 3 && e.w2 = yw && decide (fld e.w3 15 0 ≤ tr ∧ tr ≤ fld e.w3 31 16)
  let short := sumN ((ents.filter fun e => e.kind = 4 && e.w2 = yw && fld e.w3 15 0 = tr).map fun e => fld e.w3 31 16)
  let hasShort := ents.any fun e => e.kind = 4 && e.w2 = yw && fld e.w3 15 0 = tr
  let deficit := if span then target else sumN (named.map (codeAt orig)) + short
  let split := span || hasShort || named.any fun p => decide (0 < codeAt orig p) && dead.contains (beamNo p.1 p.2)
  if split then
    let (codes, sh) := placeCodes dead passes deficit x y
    (codes, deficit, sh)
  else (passes.map fun p => (p, if named.contains p then codeAt orig p else 0), deficit, 0)

/-- The codes of one pixel with code sum `s`: of a normal stripe (R265), or of a mending-mode stripe, through its set and the
set's parent (R270, R271, R569). -/
def pixelCodes (st : Stitch) (passes : List (Nat × Nat)) (tr u s : Nat) (x y : Int) : List ((Nat × Nat) × Nat) × Nat :=
  match st.mset with
  | none => placeCodes st.dead passes s x y
  | some m =>
    let (orig, target) := match m.parent with
      | none => ((placeCodes m.dead passes s x y).1, s)
      | some (_, pents) =>
        let o := (placeCodes m.parentDead passes s x y).1
        let r := mendPixel st.tkt pents m.dead passes tr u x y o s
        (r.1, r.2.1)
    let r := mendPixel st.tkt m.ents st.dead passes tr u x y orig target
    (r.1, r.2.2)

/-! ### Doses in the bobbin window (R313, R314) -/

/-- The section of a ticket number. -/
def secOf (d : Dev) (k : Nat) : Option Sec := d.secs.find? fun s => s.num = k

/-- Ring offset of patch row `q` of section `k`. -/
def winOf (d : Dev) (k q : Nat) : Option WinRow := d.bob.win.find? fun w => w.sec = k && w.q = q

/-- Device address of a ring offset. -/
def winDa (d : Dev) (off : Nat) : Nat := rgnBase d 3 + off % max 1 (rgnSize d 3)

/-- The 384 bytes of local row `r` of patch `p` of a reserved patch row, and whether they read poisoned (R314). -/
def doseRow (d : Dev) (w : WinRow) (p r : Nat) : List Byte × Bool :=
  let off := (w.off + 98304 * p + 384 * r) % max 1 (rgnSize d 3)
  let n1 := min 384 (rgnSize d 3 - off)
  let a := rgnBase d 3 + off
  (hbmRead d a n1 ++ hbmRead d (rgnBase d 3) (384 - n1), hbmBad d a n1 || hbmBad d (rgnBase d 3) (384 - n1))

/-- STC reads the doses of a stripe row: the sectors corrected are counted (R583, R604). -/
def doseCe (d : Dev) (k q r n : Nat) : Dev :=
  match d.mei.badSectors, winOf d k q with
  | [], _ => d
  | _, none => d
  | _, some w => (List.range n).foldl (fun d p =>
    let off := (w.off + 98304 * p + 384 * r) % max 1 (rgnSize d 3)
    let n1 := min 384 (rgnSize d 3 - off)
    hbmCe (hbmCe d (rgnBase d 3 + off) n1) (rgnBase d 3) (384 - n1)) d

/-- The local pixel row of stripe row `u` in its patch (R209): local rows ascend with Y. -/
def localRow (s : Sec) (u : Nat) : Nat := if s.minus then 255 - u % 256 else u % 256

/-- D of local pixel `i` of a row string (R314). -/
def doseAt (l : List Byte) (i : Nat) : Nat :=
  let b (k : Nat) : Nat := (nth l k 0).toNat
  if i % 2 = 0 then b (3 * i / 2) + 256 * (b (3 * i / 2 + 1) % 16)
  else b (3 * i / 2) / 16 + 16 * b (3 * i / 2 + 1)

/-- The verdict of patch (p, q) of a section. -/
def secVerd (s : Sec) (p q : Nat) : Option Verd := (s.verd.find? fun v => v.1 = (q, p)).map (·.2)

/-! ### The pass queue (R273 to R277) -/

/-- PQ_DEPTH (R273). -/
def pqDepth (d : Dev) : Nat := rgnSize d 4 / 266240

/-- Device address of slot `r`, and of its tag, of shot `s` (R274). -/
def slotDa (d : Dev) (s r : Nat) : Nat := rgnBase d 4 + 266240 * (s % max 1 (pqDepth d)) + 512 * r
def tagDa (d : Dev) (s r : Nat) : Nat := rgnBase d 4 + 266240 * (s % max 1 (pqDepth d)) + 262144 + 8 * r

/-- The two words of a tag (R275). -/
def tagWords (s serial r : Nat) : List W32 := [w32 s, w32 (serial % 65536 * 65536 + r)]

/-- The 512 code bytes of a slot from its nonzero codes by column (R274). -/
def slotBytes (codes : List (Nat × Nat)) : List Byte :=
  if codes = [] then List.replicate 512 0
  else (List.range 512).map fun i => byte ((alGet codes (2 * i)).getD 0 + 16 * (alGet codes (2 * i + 1)).getD 0)

/-- The nonzero codes of a slot by column. -/
def slotCodes (l : List Byte) : List (Nat × Nat) :=
  ((List.range 512).flatMap fun i =>
    let v := (nth l i 0).toNat
    [(2 * i, v % 16), (2 * i + 1, v / 16)]).filter fun c => c.2 != 0

/-- Write slot `r` of shot `s` whole: its codes and its tag (R276). -/
def writeSlot (d : Dev) (s serial r : Nat) (codes : List (Nat × Nat)) : Dev :=
  hbmWrite (hbmWrite d (slotDa d s r) (slotBytes codes)) (tagDa d s r) (bytesOfWords (tagWords s serial r))

/-! ### Stitching (R265 to R272) -/

/-- What the stitching of one pixel row yields. -/
structure RowOut where
  codes : List ((Nat × Nat) × Nat)      -- nonzero codes by (row, column)
  carry : List (Nat × Int)              -- carries after the row
  shorts : List (Nat × Nat)             -- shortfalls by track
  darned : Nat                          -- pixels stitched with at least one dead pass
  bad : List Nat                        -- patches with a poisoned dose in the row
  deriving DecidableEq, Repr

/-- Tracks of patch column `p` with at least one dead pass. -/
def darnedIn (st : Stitch) (p : Nat) : Nat :=
  if st.dead = [] then 0
  else (List.range 256).countP fun i => (passList st.tkt st.b (256 * p + i)).any fun z => st.dead.contains (beamNo z.1 z.2)

/-- Stitch pixel row `u` of a stripe (R265). -/
def stitchRow (d : Dev) (st : Stitch) (sec : Sec) (u : Nat) : RowOut :=
  let y := rowY st.tkt u
  let q := u / 256
  (List.range (4 * st.b)).foldl (fun (o : RowOut) p =>
    match secVerd sec p q, winOf d sec.num q with
    | some .released, some w =>
      let (bytes, poisoned) := doseRow d w p (localRow sec u)
      if poisoned then { o with bad := o.bad ++ [p] }
      else
        (List.range 256).foldl (fun (o : RowOut) i =>
          let tr := 256 * p + i
          let dose := doseAt bytes i
          let e0 : Int := if u % 256 = 0 then 0 else (alGet st.carry tr).getD 0
          if dose = 0 ∧ e0 = 0 ∧ st.mset.isNone then o
          else
            let x := (dose : Int) * st.scale + e0
            let s := (x + 524288) / 1048576
            let e := x - s * 1048576
            let passes := passList st.tkt st.b tr
            let xw := st.tkt.x0 + (tr : Int)
            let (codes, short) := pixelCodes st passes tr u s.toNat xw y
            { o with
              codes := o.codes ++ codes.filter fun c => c.2 != 0
              carry := if e = 0 then o.carry else o.carry ++ [(tr, e)]
              shorts := if short = 0 then o.shorts else o.shorts ++ [(tr, short)] })
          { o with darned := o.darned + darnedIn st p }
    | _, _ => o) ⟨[], [], [], 0, []⟩

/-- The codes of row `r` in a row's yield, by column. -/
def rowOutCodes (o : RowOut) (r : Nat) : List (Nat × Nat) :=
  (o.codes.filter fun c => c.1.1 = r).map fun c => (c.1.2, c.2)

/-- Write the slots of pixel row `u`, but for shots whose gather has begun (R266, R277). -/
def writeRow (d : Dev) (st : Stitch) (u : Nat) (o : RowOut) : Dev :=
  (List.range 512).foldl (fun d r =>
    let s := u + effDelay st.tkt r
    if s < st.gathered then d else writeSlot d s st.serial r (rowOutCodes o r)) d

/-- Whether the pass queue can give every frame that row `u` writes (R268, R277). -/
def rowFits (d : Dev) (st : Stitch) (u : Nat) : Bool :=
  (List.range 512).all fun r => decide (u + effDelay st.tkt r < st.gathered + pqDepth d)

/-- Whether every patch of patch row `q` has a verdict (R267). -/
def rowVerdicts (sec : Sec) (q : Nat) : Bool := (List.range (4 * sec.b)).all fun p => (secVerd sec p q).isSome

/-- INFO words of an STC error. -/
def stcErr (d : Dev) (b : Nat) (t : Tkt) (w : Nat) : Dev := err d (Page.stc.base 0) b t.index (w32 w)

/-- An error whose severity-2 stop falls at shot `s` of ticket `t` (R300). -/
def stcErrAt (d : Dev) (b : Nat) (t : Tkt) (w s : Nat) : Dev :=
  updTkt (errHold d (Page.stc.base 0) b t.index (w32 w)) t.seq fun k =>
    { k with stopAt := some (match k.stopAt with | some a => min a s | none => s) }

/-- Whether a block of the data path may work (R614, R689, R63): powered, its clock running, enabled, neither isolated nor quiesced,
not halted, and not waiting with a mending entry. -/
def blkRuns (d : Dev) (p : Page) (b : Blk) : Bool :=
  pageClocked d p 0 && !d.fcl.halted && !blkWaits d b &&
  bit (rg d (p.base 0 + oCTRL)) 0 && !bit (rg d (p.base 0 + oCTRL)) 1 && !bit (rg d (p.base 0 + oCTRL)) 2

/-- The slot that holds generation `g`, if it is held (R66). -/
def dbmSlotOf (d : Dev) (g : Nat) : Option Nat :=
  (List.range 9).find? fun i => let s := nth d.stc.dbm.slots i {}; s.held && s.gen = g

/-- The fault that a read of table words from `a` up to `b` gives, `fault` apart (R298, R603, R604): an injection or a copy that an
injected write spoilt makes one copy fail, which STC rewrites. -/
def tableFault (d : Dev) (a b fault : Nat) : Nat × Dev :=
  let (m, d) := injTake d (Page.stc.base 0) false
  let here (x : Nat) : Bool := decide (a ≤ x ∧ x < b)
  (if 2 ≤ m || d.stc.spoilt.any here then max 1 fault else fault,
   { d with stc := { d.stc with spoilt := d.stc.spoilt.filter fun x => !here x } })

/-- An injected write of a table word spoils one copy of it, and any other write mends it (R603, R604). -/
def tableStored (d : Dev) (a : Nat) : Dev :=
  let (m, d) := injTake d (Page.stc.base 0) true
  { d with stc := { d.stc with spoilt := if 2 ≤ m then setIns d.stc.spoilt a else setDel d.stc.spoilt a } }

/-- Stitch the next pixel row of the current stripe when R267 and R268 allow: the row's entries (R263, R269) are made together, and
then its errors are raised. `fault` says how a word of the latched map read:
0 well, 1 one copy uncorrectable (R298), 2 both (R299). -/
def stcStitch (d : Dev) (fault : Nat) : Dev :=
  match d.stc.cur with
  | none => d
  | some st =>
    match secOf d st.tkt.seq with
    | none => d
    | some sec =>
      let u := st.rows
      if !blkRuns d .stc .stc || st.ended || decide (st.tkt.len ≤ u) || !rowVerdicts sec (u / 256) || !rowFits d st u then d
      else
        let k := (dbmSlotOf d st.gen).getD 9
        let (fault, d) := tableFault d (Adr.DBM_BITS k 0) (Adr.DBM_BITS (k + 1) 0) fault
        let o := stitchRow d st sec u
        let d := doseCe d st.tkt.seq (u / 256) (localRow sec u) (4 * st.b)
        let o := if st.tkt.rejected then { o with codes := [], shorts := [], darned := 0 } else o
        let step (d : Dev) : Dev := { d with stc := { d.stc with cur := some { st with rows := u + 1, carry := o.carry } } }
        let d := if fault = 1 then stcErr d Bit.err_STC_TABLE_CE st.tkt u else d
        if fault = 2 then
          stcErrAt (step d) Bit.err_STC_DBM_UE st.tkt u (u + emin st.tkt)
        else
          let d := step (writeRow d st u o)
          let d := setFd d Adr.STC_ROW 23 0 (u + 1)
          let d := addReg d Adr.STC_CNT_DARNED o.darned
          let yw := w32 (ofS 32 (rowY st.tkt u))
          let d := stripeEnts d .stc st.tkt
            ((o.bad.map fun p => (10, 3, yw, w32 ((256 * p + 255) * 65536 + 256 * p))) ++
             o.shorts.map fun s => (12, 4, yw, w32 (s.2 % 65536 * 65536 + s.1)))
          let d := o.bad.foldl (fun d _ => stcErr d Bit.err_STC_DOSE_POISON st.tkt u) d
          o.shorts.foldl (fun d _ => stcErr (inc d Adr.STC_CNT_SHORT) Bit.err_STC_SHORT st.tkt u) d

/-! ### Gather (R279 to R284, R340) -/

/-- Logical beam of wire position `w` (R285): 1,024·r + c. -/
def remapBeam (d : Dev) (w : Nat) : Nat := fd d (Adr.REMAP w) 18 0

/-- The remap entries that differ from the identity: wire position and beam. -/
def remapOdd (d : Dev) : List (Nat × Nat) :=
  (d.regs.filter fun e => decide (0x1000000 ≤ e.1 ∧ e.1 < 0x1200000)).map fun e => ((e.1 - 0x1000000) / 4, bits e.2 18 0)

/-- Wire codes of a shot from codes by beam (R283). -/
def wireCodes (d : Dev) (beams : List (Nat × Nat)) : List (Nat × Nat) :=
  let odd := remapOdd d
  let plain := beams.filter fun b => (alGet odd b.1).isNone
  let moved := odd.filterMap fun e => (alGet beams e.2).map fun c => (e.1, c)
  moved.foldl (fun l e => alSet l e.1 e.2) plain

/-- How a row of a shot is found at its gather (R279). -/
inductive Found where
  | inactive | notReady | poisoned | badTag | ready
  deriving DecidableEq, Repr

/-- The finding of R279 for row `r` of shot `s` of ticket `t`. -/
def findRow (d : Dev) (t : Tkt) (s r : Nat) : Found :=
  if !rowActive t r s then .inactive
  else
    match d.stc.cur with
    | none => .notReady
    | some st =>
      if st.tkt.seq ≠ t.seq ∨ st.rows ≤ s - effDelay t r then .notReady
      else if hbmBad d (slotDa d s r) 512 || hbmBad d (tagDa d s r) 8 then .poisoned
      else if wordsOf (hbmRead d (tagDa d s r) 8) ≠ tagWords s st.serial r then .badTag
      else .ready

/-- SHOT_ROWS entries at shot `s` for the maximal runs of a list of rows (R281). -/
def rowEnts (cause s : Nat) (rows : List Nat) : List EntWords :=
  (runsOf rows).map fun r => (cause, 1, w32 s, w32 (r.2 * 65536 + r.1))

/-- Whether the slot of a row is read at a gather (R279). -/
def Found.reads : Found → Bool
  | .poisoned | .badTag | .ready => true
  | .inactive | .notReady => false

/-- The findings of R279 for every row of shot `s`. An injection of the STC page acts on the first slot read (R303, R603). -/
def findRows (d : Dev) (t : Tkt) (s : Nat) : List (Nat × Found) × Dev :=
  let found := (List.range 512).map fun r => (r, findRow d t s r)
  match found.find? fun x => x.2.reads with
  | none => (found, d)
  | some a =>
    let (m, d) := injTake d (Page.stc.base 0) false
    let d := if d.mei.badSectors = [] then d
      else (found.filter fun x => x.2.reads).foldl (fun d x => hbmCe (hbmCe d (slotDa d s x.1) 512) (tagDa d s x.1) 8) d
    (if 2 ≤ m then found.map fun x => if x.1 = a.1 then (x.1, .poisoned) else x else found, d)

/-- Word 3 of a BEAM_SPAN entry (R54). -/
def beamWord (beam : Nat) : W32 := w32 beam

/-- Gather shot `s` of the running stripe's ticket `t`. `late` lists rows whose slot reads had not returned by packet time
(R340); `fault` says how a remap entry read: 0 well, 1 one copy uncorrectable (R298), 2 both (R299). The shot's entries are made
together, and then its errors are raised. With the stripe's first gather, the BEAM_SPAN entries of beams reported dead since STC
began it are due (R60, R382). -/
def stcGather (d : Dev) (t : Tkt) (s : Nat) (late : List Nat) (fault : Nat) : Dev :=
  let (found, d) := findRows d t s
  let (fault, d) := tableFault d (Adr.REMAP 0) (Adr.REMAP 524288) fault
  let late := late.filter fun r => found.any fun x => x.1 = r && x.2.reads
  let pick (f : Found) : List Nat := (found.filter fun x => x.2 = f && !late.contains x.1).map (·.1)
  let starve := (found.filter fun x => (x.2 = .notReady || x.2 = .badTag) && !late.contains x.1).map (·.1)
  let ready := pick .ready
  let (died, owed) := match d.stc.cur with
    | some st => if st.tkt.seq = t.seq then (st.died, if st.gathered = 0 then st.died else []) else ([], [])
    | none => ([], [])
  let blank (r : Nat) : Bool := match secOf d t.seq with
    | some sec => sec.blank.contains (s - effDelay t r)
    | none => false
  let beams := (ready.filter fun r => !blank r).flatMap fun r =>
    ((slotCodes (hbmRead d (slotDa d s r) 512)).map fun c => (beamNo r c.1, c.2)).filter fun b => !died.contains b.1
  let codes := if fault = 2 ∨ t.rejected then [] else wireCodes d beams
  let d := { d with
    glr := { d.glr with frames := d.glr.frames ++ [⟨s, codes⟩] }
    stc := { d.stc with cur := d.stc.cur.map fun st =>
      if st.tkt.seq = t.seq then { st with gathered := max st.gathered (s + 1) } else st } }
  let d := wr d Adr.STC_GATHER (w32 s)
  let d := stripeEnts d .glr t (owed.map fun b => (0xE, 5, 0, beamWord b))
  let d := stripeEnts d .stc t
    (rowEnts 4 s starve ++ ((pick .poisoned).map fun r => (10, 1, w32 s, w32 (r * 65536 + r))) ++ rowEnts 4 s late)
  let tags := (pick .badTag).length
  let d := if tags = 0 then d else stcErr (addReg d Adr.STC_CNT_TAG tags) Bit.err_STC_TAG_ERR t s
  let d := if starve = [] then d else stcErr (addReg d Adr.STC_CNT_STARVE starve.length) Bit.err_STC_STARVE t s
  let d := (pick .poisoned).foldl (fun d _ => stcErr d Bit.err_STC_SLOT_POISON t s) d
  let d := if late = [] then d else stcErr (addReg d Adr.BOB_CNT_LATE late.length) Bit.err_STC_STARVE t s
  let d := if fault = 1 then stcErr d Bit.err_STC_TABLE_CE t s else d
  let d := if fault = 2 then stcErrAt d Bit.err_STC_REMAP_UE t s s else d
  if s + 1 = t.n then evt d (Page.stc.base 0) Bit.evt_STC_END else d

/-! ### Consumption (R302, R316, R317) -/

/-- Patch rows of ticket `t`'s section whose patches are consumed: the gather of the last shot that carries a pass of any of
their pixels has begun (R302), every shot of an ended stripe counting as gathered (R442). -/
def rowConsumed (st : Stitch) (q : Nat) : Bool :=
  let last := min (256 * (q + 1)) st.tkt.len
  decide (0 < last ∧ last ≤ st.gathered) &&
    decide (last - 1 + (List.range 512).foldl (fun a r => max a (effDelay st.tkt r)) 0 < st.gathered)

end Sys2Proof.Machine
end

