-- ==== Sys2Proof/Machine/Dbm.lean ====
section
/-! DEFINITION. The dead-beam map (R288 to R297), the begin of a stripe at STC (R294, R295, R756), restitching (R301). -/

namespace Sys2Proof.Machine

/-- Dead beams of slot `i` (R288): 1,024·r + c, ascending. -/
def dbmDead (d : Dev) (i : Nat) : List Nat :=
  let a := Adr.DBM_BITS i 0
  (d.regs.filter fun e => decide (a ≤ e.1 ∧ e.1 < a + 0x10000)).flatMap fun e =>
    ((List.range 32).filter fun b => e.2.getLsbD b).map fun b => 32 * ((e.1 - a) / 4) + b

/-- Mark a beam dead in slot `i`. -/
def dbmMark (d : Dev) (i beam : Nat) : Dev :=
  let a := Adr.DBM_BITS i (beam / 32)
  wr d a (putBit (rg d a) (beam % 32) true)

/-- Replace the whole bitmap of slot `i`. -/
def dbmReplace (d : Dev) (i : Nat) (beams : List Nat) : Dev :=
  let a := Adr.DBM_BITS i 0
  let d := { d with regs := d.regs.filter fun e => !decide (a ≤ e.1 ∧ e.1 < a + 0x10000) }
  beams.foldl (fun d b => dbmMark d i b) d

/-- Change the map's control. -/
def setDbm (d : Dev) (f : Dbm → Dbm) : Dev := { d with stc := { d.stc with dbm := f d.stc.dbm } }

/-- Commit NEXT_SLOT as generation CUR_GEN + 1 (R290, R291, R293). -/
def dbmCommit (d : Dev) : Dev :=
  let m := d.stc.dbm
  let gen := (m.curGen + 1) % 65536
  let slots := modNth m.slots m.nextSlot fun _ => ⟨true, gen⟩
  let heldNos := (List.range 9).filter fun i => (nth slots i {}).held
  let age (i : Nat) : Nat := (gen + 65536 - (nth slots i {}).gen) % 65536
  let oldest := heldNos.foldl (fun a i => if age a < age i then i else a) m.nextSlot
  let (slots, next) :=
    if heldNos.length = 9 then (modNth slots oldest (fun s => { s with held := false }), oldest)
    else (slots, ((List.range 9).find? fun i => !(nth slots i {}).held).getD 0)
  setDbm d fun m => { m with
    valid := m.valid || m.pendMap, pending := false, pendMap := false, copying := true
    nextSlot := next, curSlot := m.nextSlot, curGen := gen, slots := slots }

/-- The copy of R290 ends: held items are applied in their order (R292). -/
def dbmCopied (d : Dev) : Dev :=
  let m := d.stc.dbm
  if !m.copying then d
  else
    let d := dbmReplace d m.nextSlot (dbmDead d m.curSlot)
    let d := match m.heldMap with
      | some b => dbmReplace d m.nextSlot b
      | none => d
    let d := m.heldBits.foldl (fun d b => dbmMark d m.nextSlot b) d
    setDbm d fun m => { m with
      copying := false
      pending := m.pending || m.heldMap.isSome || m.heldBits != []
      pendMap := m.pendMap || (m.heldMap.isSome && !m.heldOld)
      heldMap := none, heldBits := [], heldOld := false }

/-- A self-test map from the plate reaches NEXT_SLOT, or is held (R291, R292). -/
def dbmAddMap (d : Dev) (beams : List Nat) : Dev :=
  if d.stc.dbm.copying then setDbm d fun m => { m with heldMap := some beams, heldOld := false }
  else setDbm (dbmReplace d d.stc.dbm.nextSlot beams) fun m => { m with pending := true, pendMap := true }

/-- A beam-died bit reaches NEXT_SLOT, or is held (R291, R292). -/
def dbmAddBit (d : Dev) (beam : Nat) : Dev :=
  if d.stc.dbm.copying then setDbm d fun m => { m with heldBits := m.heldBits ++ [beam] }
  else setDbm (dbmMark d d.stc.dbm.nextSlot beam) fun m => { m with pending := true }

/-- Whether a beam-died bit must wait untranslated: all 64 places of R292 are full. -/
def dbmFull (d : Dev) : Bool := d.stc.dbm.copying && decide (64 ≤ d.stc.dbm.heldBits.length)

/-! ### Mending sets (R566 to R570, R748) -/

/-- Device address of set number `k` (R566). -/
def setDa (k : Nat) : Nat := 4096 * k

/-- COUNT of a set's header. -/
def setCount (d : Dev) (k : Nat) : Nat := hbmWord d (setDa k + 4)

/-- DBM_GEN of a set's header. -/
def setGen (d : Dev) (k : Nat) : Nat := hbmWord d (setDa k + 12) / 65536

/-- PARENT of a set that holds a mending stripe's deficits (MENDING 1). -/
def setParent (d : Dev) (k : Nat) : Option Nat :=
  if (hbmWord d (setDa k + 12)).testBit 15 then some (hbmWord d (setDa k + 16)) else none

/-- The entries of a set as STC reads them (R568). -/
def setEnts (d : Dev) (k : Nat) : List SetEnt :=
  (List.range (setCount d k)).map fun i =>
    let a := setDa k + 32 + 16 * i
    ⟨hbmWord d (a + 4) % 16, hbmWord d (a + 8), hbmWord d (a + 12)⟩

/-- The checks of R748 of one set: it is not 0, its header and entries lie in the DA space, and its header is well formed. -/
def setOk (d : Dev) (k : Nat) : Bool :=
  let h := hbmWord d (setDa k)
  k != 0 && decide (setDa k + 32 ≤ daSpan) && decide (setDa k + 32 + 16 * setCount d k ≤ daSpan) &&
  decide (fld h 31 16 = 0x3DA7 ∧ fld h 15 8 = 1 ∧ 1 ≤ setCount d k ∧ setCount d k ≤ 1048576)

/-- R748 of a ticket's set and its parent. -/
def setChecks (d : Dev) (k : Nat) : Bool :=
  setOk d k &&
  match setParent d k with
  | none => true
  | some p => setOk d p && hbmWord d (setDa p + 16) = 0

/-- R66 and R569: the generations that a set and its parent name are held. -/
def setHeld (d : Dev) (k : Nat) : Bool :=
  (dbmSlotOf d (setGen d k)).isSome &&
  match setParent d k with
  | none => true
  | some p => (dbmSlotOf d (setGen d p)).isSome

/-- The set as latched at a stripe's begin (R270, R295). -/
def readSet (d : Dev) (k : Nat) : MSet :=
  let dead (g : Nat) : List Nat := match dbmSlotOf d g with
    | some i => dbmDead d i
    | none => []
  { gen := setGen d k
    ents := setEnts d k
    parent := (setParent d k).map fun p => (p, setEnts d p)
    dead := dead (setGen d k)
    parentDead := match setParent d k with
      | some p => dead (setGen d p)
      | none => [] }

/-- The serial after `s` (R276). -/
def nextSerial (s : Nat) : Nat := if s = 65535 then 1 else s + 1

/-- STC begins the next ticket's stripe (R294, R295): commit what is pending, latch the generation, assign a serial, read the
mending set; a set whose generation is no longer held turns the stripe into a REJECTED one (R756), which makes no entry even for
frames already sent (R757). -/
def stcBegin (d : Dev) : Dev :=
  let free := match d.stc.cur with
    | none => true
    | some s => decide (s.tkt.n ≤ s.gathered)
  let m := d.stc.dbm
  let want := m.pending || m.heldMap.isSome || m.heldBits != []
  match d.stc.todo with
  | [] => d
  | t :: rest =>
    if !free || !blkRuns d .stc .stc || (want && m.copying) then d
    else
      let d := if want then dbmCommit d else d
      let lost := t.mending && !t.rejected && !setHeld d t.mendSet
      let gen := d.stc.dbm.curGen
      let serial := nextSerial d.stc.serial
      let upd (t : Tkt) : Tkt := { t with gen := some gen, serial := serial, rejected := t.rejected || lost }
      let t := upd t
      let dead := t.swept || tktOver d t.seq
      let st : Stitch :=
        { tkt := t
          b := 8 * 2 ^ fd d (slotReg t.slotB Adr.GLB_SLOT_A Adr.GLB_SLOT_B) 1 0
          scale := fd d (slotReg t.slotB Adr.STC_SCALE_A Adr.STC_SCALE_B) 19 0
          gen := gen, serial := serial, dead := dbmDead d d.stc.dbm.curSlot
          mset := if t.mending && !t.rejected then some (readSet d t.mendSet) else none
          carry := [], rows := 0, gathered := if dead then t.n else 0, ended := dead, died := [] }
      let d := { d with stc := { d.stc with cur := some st, todo := rest, serial := serial } }
      let d := updTkt d t.seq upd
      let d := wr d Adr.STC_STRIPE t.index
      let d := wr d Adr.STC_ROW 0
      let d := wr d Adr.STC_DBM (w32 ((match st.mset with | some k => k.gen | none => 0) * 65536 + gen))
      let d := evt d (Page.stc.base 0) Bit.evt_STC_BEGIN
      if lost then
        let d := { d with
          exp := { d.exp with run := d.exp.run.map fun r => if r.tkt.seq = t.seq then { r with refused := true } else r }
          glr := { d.glr with hist := d.glr.hist.map fun h =>
            if h.2.tseq = t.seq then (h.1, { h.2 with noEntry := true }) else h } }
        expTktErr d Bit.err_EXP_MEND_GEN_LOST t
      else d

/-- Rewrite slot `r` of shot `s` whole (R276, R301). The tag's sector holds the tags of four slots of the shot; where it reads
poisoned, the rewrite stores all four tags in one request, so that the sector's poison goes (DESIGN CHOICE, log entry 89). -/
def mendSlot (d : Dev) (s serial r : Nat) (codes : List (Nat × Nat)) : Dev :=
  if hbmBad d (tagDa d s r) 8 then
    let a := r / 4 * 4
    hbmWrite (hbmWrite d (slotDa d s r) (slotBytes codes)) (tagDa d s a)
      (bytesOfWords ((List.range 4).flatMap fun i => tagWords s serial (a + i)))
  else writeSlot d s serial r codes

/-- Stitch patch row `q` of the current stripe again (R301): every poisoned slot that the row writes and whose shot's gather has
not begun is rewritten. -/
def stcRestitch (d : Dev) (k q : Nat) : Dev :=
  match d.stc.cur, secOf d k with
  | some st, some sec =>
    if st.tkt.seq ≠ k ∨ st.ended then d
    else
      let n := min (st.rows - 256 * q) 256
      ((List.range n).foldl (fun (a : Dev × List (Nat × Int)) i =>
        let u := 256 * q + i
        let o := stitchRow a.1 { st with carry := a.2 } sec u
        let d := (List.range 512).foldl (fun d r =>
          let s := u + effDelay st.tkt r
          if st.gathered ≤ s ∧ (hbmBad d (slotDa d s r) 512 || hbmBad d (tagDa d s r) 8) then
            inc (mendSlot d s st.serial r (rowOutCodes o r)) Adr.STC_CNT_RESTITCH
          else d) a.1
        (d, o.carry)) (d, [])).1
  | _, _ => d

end Sys2Proof.Machine
end

