-- ==== Sys2Proof/Machine/Tag.lean ====
section
/-! DEFINITION. The plate tag (R391 to R397, R751): what TAG sends and how its exchanges end. Its answers arrive through GLR. -/

namespace Sys2Proof.Machine

/-- The stored key that TAG_CTRL.KEYSEL names (R641). -/
def tagKey (d : Dev) : Option (List Byte) := alGet d.nvm.keys (fd d Adr.TAG_CTRL 7 4)

/-- The MAC of a message of R391, its first byte least significant. -/
def tagMac (d : Dev) (label : String) (key : List Byte) (nonce count : Nat) : Nat :=
  leNat (hmac key (ascii label ++ leBytes 8 d.glr.plate ++ leBytes 16 nonce ++ leBytes 4 count))

/-- Whether a MAC received is the right one. An empty key slot makes every MAC wrong. -/
def tagRight (d : Dev) (label : String) (nonce count mac : Nat) : Bool :=
  match tagKey d with
  | some k => tagMac d label k nonce count = mac
  | none => false

/-- Whether GLR_LINK.STATE reads LINKED, TAGGED or READY. -/
def linkUp (d : Dev) : Bool := decide (6 ≤ d.glr.st)

/-- INFO words of a TAG error. -/
def tagErr (d : Dev) (b : Nat) : Dev := err d (Page.tag.base 0) b (w32 d.tag.count) (w32 d.tag.resid)

/-- Send the unit of the outstanding exchange (R392, R393). The MAC of an empty key slot is open. -/
def tagSend (d : Dev) : Dev :=
  match d.tag.x with
  | none => d
  | some x =>
    if x.adv then
      let c := (d.tag.count + 1) % 4294967296
      match tagKey d with
      | some k => emit d (.ctrl 0x21 [x.nonce, c, tagMac d "KQTA" k x.nonce c])
      | none => let (l, d) := freeBytes d 32; emit d (.ctrl 0x21 [x.nonce, c, leNat l])
    else emit d (.ctrl 0x20 [x.nonce])

/-- Begin an exchange with a new nonce (R391). -/
def tagStart (d : Dev) (adv : Bool) : Dev :=
  let n := (Config.nonce d.free).toNat
  let d := { d with free := d.free + 1, tag := { d.tag with x := some ⟨adv, n, 0⟩ } }
  let d := (List.range 4).foldl (fun d i => wr d (Adr.TAG_NONCE i) (w32 (n >>> (32 * i)))) d
  tagSend d

/-- An advance that falls due (R393). -/
def tagAdvance (d : Dev) : Dev :=
  if d.tag.x.isNone && linkUp d && decide (1048576 ≤ d.tag.resid) then
    tagStart { d with tag := { d.tag with resid := d.tag.resid - 1048576 } } true
  else d

/-- The exchange ends: a waiting challenge is sent, or CHAL clears and a due advance follows (R393, R751). -/
def tagEnd (d : Dev) : Dev :=
  let chal := match d.tag.x with
    | some x => !x.adv
    | none => false
  let d := { d with tag := { d.tag with x := none } }
  if d.tag.chalWait then tagStart { d with tag := { d.tag with chalWait := false } } false
  else
    let d := if chal then setFd d Adr.TAG_CTRL 0 0 0 else d
    tagAdvance d

/-- GLR commits a frame FIRE (R393). -/
def tagCount (d : Dev) : Dev := tagAdvance { d with tag := { d.tag with resid := d.tag.resid + 1 } }

/-- A write of 1 to TAG_CTRL.CHAL (R751). -/
def tagChal (d : Dev) : Dev :=
  if !linkUp d then setFd d Adr.TAG_CTRL 0 0 0
  else
    let d := setFd d Adr.TAG_CTRL 0 0 1
    if d.tag.x.isSome then { d with tag := { d.tag with chalWait := true } } else tagStart d false

/-- TAG_COUNT takes a value (R392, R395, R397). -/
def tagSetCount (d : Dev) (c : Nat) : Dev :=
  let d := { d with tag := { d.tag with count := c % 4294967296 } }
  if (rg d Adr.TAG_LIMIT).toNat ≤ c % 4294967296 then tagErr d Bit.err_TAG_TAG_EXPIRED else d

/-- The link goes down (R392, R751): AUTH clears and an outstanding exchange ends with the link. -/
def tagDown (d : Dev) : Dev :=
  setFd { d with tag := { d.tag with auth := false, x := none, chalWait := false } } Adr.TAG_CTRL 0 0 0

/-- TAG_RESP (R392); whether an outstanding challenge ended. -/
def tagResp (d : Dev) (plateId count mac : Nat) : Dev × Bool :=
  match d.tag.x with
  | some x =>
    if x.adv then (d, false)
    else if plateId = d.glr.plate ∧ tagRight d "KQTC" x.nonce count mac then
      (tagEnd (tagSetCount { d with tag := { d.tag with auth := true, resid := 0 } } count), true)
    else (tagEnd (tagErr { d with tag := { d.tag with auth := false } } Bit.err_TAG_TAG_FAIL), true)
  | none => (d, false)

/-- TAG_ACK (R395). -/
def tagAck (d : Dev) (mac : Nat) : Dev :=
  match d.tag.x with
  | some x =>
    let c := (d.tag.count + 1) % 4294967296
    if !x.adv then d
    else if tagRight d "KQTB" x.nonce c mac then
      tagEnd (evt (tagSetCount d c) (Page.tag.base 0) Bit.evt_TAG_ADVANCED)
    else tagEnd (tagErr d Bit.err_TAG_TAG_FAIL)
  | none => d

/-- 100 µs pass with an exchange unanswered (R396); whether the exchange ended. -/
def tagRetry (d : Dev) : Dev × Bool :=
  match d.tag.x with
  | none => (d, false)
  | some x =>
    if x.repeats < 3 then (tagSend { d with tag := { d.tag with x := some { x with repeats := x.repeats + 1 } } }, false)
    else (tagEnd (tagErr d Bit.err_TAG_TAG_TIMEOUT), true)

/-- Whether TAG refuses exposure (R397). -/
def tagRefuses (d : Dev) : Bool :=
  (fd d Adr.TAG_CTRL 1 1 = 1 && !d.tag.auth) || decide ((rg d Adr.TAG_LIMIT).toNat ≤ d.tag.count)

/-- SOFT_RESET of the TAG page. -/
def tagReset (d : Dev) : Dev :=
  setFd { d with tag := { d.tag with auth := false, resid := 0, x := none, chalWait := false } } Adr.TAG_CTRL 0 0 0

end Sys2Proof.Machine
end

