-- ==== Sys2Proof/Machine/Glr.lean ====
section
/-! DEFINITION. The Glaur link (R351 to R389, R752 to R754): lane map, frames and commits, the plate's reports, the
acknowledgement window, bring-up and link-down. -/

namespace Sys2Proof.Machine

/-- Change GLR's state. -/
def setGlr (d : Dev) (f : Glr → Glr) : Dev := { d with glr := f d.glr }

/-- Lane `n`. -/
def lane (d : Dev) (n : Nat) : Lane := nth d.glr.lanes n {}

/-- Change lane `n`. -/
def setLane (d : Dev) (n : Nat) (f : Lane → Lane) : Dev := setGlr d fun g => { g with lanes := modNth g.lanes n f }

/-- Bit `i` of the _CTRL word of the page at `base`: 0 ENABLE, 1 QUIESCE, 2 ISOLATE. -/
def ctrlBit (d : Dev) (base i : Nat) : Bool := bit (rg d (base + oCTRL)) i

/-- Whether lane `n` is neither isolated nor quiesced and is enabled. -/
def laneAllowed (d : Dev) (n : Nat) : Bool :=
  let b := Page.lane.base n
  ctrlBit d b 0 && !ctrlBit d b 1 && !ctrlBit d b 2

/-! ### The lane map (R366 to R373) -/

/-- Live transmit lanes in ascending order. -/
def liveLanes (d : Dev) : List Nat := (List.range 48).filter fun n => (lane d n).live

/-- Lane of packet `k` of frame `lseq` under a list of live lanes (R366, R367). -/
def laneOf (map : List Nat) (lseq k : Nat) : Nat :=
  if 48 ≤ map.length then (if k < 352 then k / 11 else 32 + (k - 352) / 10)
  else nth map ((k + 512 * lseq) % max 1 map.length) 0

/-- Packets of a lane in a frame, in ascending order (R362). -/
def lanePackets (map : List Nat) (lseq n : Nat) : List Nat := (List.range 512).filter fun k => laneOf map lseq k = n

/-- LINK_TMIN with `nl` live lanes (R368). -/
def linkTmin (nl : Nat) : Nat := max 500 ((2162688000 + 103700 * nl - 1) / (103700 * max 1 nl))

/-- Logical row of packet `k` (R379). -/
def rowOfPacket (d : Dev) (k : Nat) : Nat := remapBeam d (1024 * k) / 1024

/-- INFO words of a GLR error: LSEQ and STRIPE_INDEX. -/
def glrErr (d : Dev) (b lseq : Nat) (x : W32) : Dev := err d (Page.glr.base 0) b (w32 lseq) x

/-- Raise an event of the GLR page. -/
def glrEvt (d : Dev) (b : Nat) : Dev := evt d (Page.glr.base 0) b

/-- The map has changed: MAP_CHANGE, and RATE_LIMIT when LINK_TMIN rises above 500 ns. -/
def mapChanged (d : Dev) : Dev :=
  let d := glrEvt d Bit.evt_GLR_MAP_CHANGE
  let slow := decide (500 < linkTmin (liveLanes d).length)
  let was := d.glr.rateLimited
  let d := setGlr d fun g => { g with rateLimited := slow }
  if slow && !was then glrErr d Bit.err_GLR_RATE_LIMIT (d.glr.lseq.getD 0) 0 else d

/-! ### The frame history (R377 ff.) -/

/-- The history entry of frame `lseq`, unless it has been overwritten or never begun; and whether it fails SECDED. -/
def histRead (d : Dev) (lseq : Nat) : Option Hist × Bool × Dev :=
  let (m, d) := injTake d (Page.glr.base 0) false
  let back := match d.glr.lseq with
    | some l => (l + 4294967296 - lseq % 4294967296) % 4294967296
    | none => 4294967295
  match alGet d.glr.hist (lseq % 4096) with
  | some h =>
    if h.ue || decide (2 ≤ m) then (none, true, d)
    else if h.lseq = lseq ∧ back < 4096 then (some h, false, d)
    else (none, false, d)
  | none => (none, false, d)

/-- Whether the stripe of a history entry is not yet sealed (R565). -/
def histOpen (d : Dev) (h : Hist) : Bool :=
  (match d.exp.run with
    | some r => r.tkt.seq = h.tseq
    | none => false) || d.glr.ended.any fun e => e.index = h.index ∧ e.serial = h.serial

/-- Mending entries at a frame of the history (R54), made together; none for a stripe of R757 or one that has sealed (R565). -/
def histEnts (d : Dev) (h : Hist) (l : List EntWords) : Dev :=
  if h.noEntry || !histOpen d h then d
  else addEnts d (l.map fun e => ⟨h.index, entWord1 h.gen h.mending h.slotB e.1 e.2.1, e.2.2.1, e.2.2.2, .glr⟩)

/-- SHOT_ROWS entries for the maximal runs of the rows of some packets, at a frame of the history (R371, R380). -/
def histRows (d : Dev) (h : Hist) (cause : Nat) (packets : List Nat) : List EntWords :=
  rowEnts cause h.shot ((packets.map (rowOfPacket d)).foldl setIns [])

/-! ### Removal of a lane (R369 to R371) -/

/-- A lane leaves the map (R369, R370): the counts of R402 and R403. -/
def laneOut (d : Dev) (n : Nat) : Dev :=
  inc (inc (setLane d n fun l => { l with live := false, pendLive := false }) (Adr.LANE_CNT_LOSS n)) Adr.GLR_CNT_LANE

/-- LANE entries for packets `ks` of frame `l` that a removed lane has not sent (R371). -/
def lostPackets (d : Dev) (l : Nat) (ks : List Nat) : Dev :=
  if ks = [] then d
  else
    let (h, ue, d) := histRead d l
    match h with
    | some h => histEnts d h (histRows d h 8 ks)
    | none => if ue then glrErr d Bit.err_GLR_HIST_UE l 0 else d

/-- Remove a live lane, of whose packets the last `unsent` ones of the frame on the link and of the frame before it have not wholly
left (R362): their rows are lost (R371). -/
def laneDrop (d : Dev) (n unsent : Nat) : Dev :=
  if !(lane d n).live then setLane d n fun l => { l with pendLive := false }
  else
    let d := laneOut d n
    let x := w32 (d.glr.lseq.getD 0)
    let d := match d.glr.lseq with
      | none => d
      | some l =>
        let cur := if d.glr.map.contains n then lanePackets d.glr.map l n else []
        let last := (l + 4294967295) % 4294967296
        let prev := if d.glr.mapPrev.contains n then lanePackets d.glr.mapPrev last n else []
        lostPackets (lostPackets d last (prev.drop (prev.length + cur.length - unsent))) l (cur.drop (cur.length - unsent))
    err d (Page.lane.base n) Bit.err_LANE_LANE_LOST x 0

/-- How many packets have not left is open where no command gives it: none without a stripe in progress; else up to those of the
frame on the link, and with fewer than 48 lanes live one of the frame before it, which R354 and R368 let lag behind. -/
def laneDropFree (d : Dev) (n : Nat) : Dev :=
  if d.exp.run.isNone then laneDrop d n 0
  else
    let (v, d) := takeFree d
    let cur := if d.glr.map.contains n then (lanePackets d.glr.map (d.glr.lseq.getD 0) n).length else 0
    laneDrop d n (v.toNat % (cur + 1 + b2n (decide (d.glr.map.length < 48))))

/-! ### The unacknowledged range (R384 to R387) -/

/-- Whether the range is empty (R386). -/
def unackEmpty (d : Dev) : Bool :=
  decide (2147483648 ≤ (d.glr.unLast + 4294967296 - d.glr.unFirst) % 4294967296)

/-- LSEQ `l` lies beyond GLR_ACK, by how much (R387). -/
def ackAhead (d : Dev) (l : Nat) : Nat :=
  let n := (l + 4294967296 - d.glr.ack) % 4294967296
  if n < 2147483648 then n else 0

/-- Latch the range of frames committed FIRE beyond GLR_ACK (R385). A range already latched stays. -/
def latchUnack (d : Dev) : Dev :=
  if !unackEmpty d then d
  else
    let fired := (d.glr.hist.filter fun h => h.2.commit = 1 ∧ 0 < ackAhead d h.2.lseq).map (·.2.lseq)
    match fired with
    | [] => d
    | f :: rest =>
      let lo := rest.foldl (fun a l => if ackAhead d l < ackAhead d a then l else a) f
      let hi := rest.foldl (fun a l => if ackAhead d a < ackAhead d l then l else a) f
      setGlr d fun g => { g with unFirst := lo, unLast := hi, unackOld := false }

/-- Empty the range (R386, R387). -/
def unackClear (d : Dev) : Dev :=
  setGlr d fun g => { g with unFirst := (g.unLast + 1) % 4294967296, unackOld := false }

/-- ACK_STALL (R384). -/
def ackStall (d : Dev) (l : Nat) : Dev :=
  glrErr (latchUnack d) Bit.err_GLR_ACK_STALL l (match d.exp.run with
    | some r => r.tkt.index
    | none => 0)

/-- Whether committing frame `l` FIRE would pass the window (R384). -/
def ackBlocked (d : Dev) (l : Nat) : Bool := decide (fd d Adr.GLR_ACKWIN 11 0 < ackAhead d l)

/-! ### The link goes down (R389) -/

/-- GLR returns to OFF: the lane map empties (R402). -/
def glrOff (d : Dev) : Dev :=
  let had := liveLanes d != []
  let d := setGlr d fun g => { g with
    st := 0, lclk := false, map := [], mapPrev := [], frames := [], rxMiss := [], rxLost := [], resends := [], buf := []
    ackWant := none, parts := [], dbmAsked := false, half := false, rateLimited := false, leaving := []
    lanes := g.lanes.map fun l => { l with live := false, lock := false, fec := false, pendLive := false } }
  if had then glrEvt d Bit.evt_GLR_MAP_CHANGE else d

/-- The link goes down (R389, R296, R385, R564), raising LINK_DOWN where R389 says so. -/
def linkDownIf (raise : Bool) (d : Dev) : Dev :=
  if !linkUp d then (if d.glr.st = 0 then d else glrOff d)
  else
    let l := d.glr.lseq.getD 0
    let x : W32 := match alGet d.glr.hist (l % 4096) with
      | some h => if h.lseq = l then h.index else 0
      | none => 0
    let d := latchUnack d
    let d := if unackEmpty d then d else setGlr d fun g => { g with unackOld := true }
    let lost := setGlr (glrOff d) fun g => { g with frames := d.glr.frames }
    let d := setDbm (tagDown lost) fun m => { m with
      valid := false, pendMap := false, heldOld := m.heldOld || m.heldMap.isSome }
    let d := if raise then glrErr d Bit.err_GLR_LINK_DOWN l x else d
    let d := if exposing d then halt (abortStripe (muzMoment d) (some 5)) else d
    let d := sealDown d
    setGlr d fun g => { g with frames := [] }

/-- The link goes down under R389. -/
def linkDown (d : Dev) : Dev := linkDownIf true d

/-- The link stays up only with enough live transmit lanes and a return lane (R373, R389). -/
def linkCheck (d : Dev) : Dev :=
  let nl := (liveLanes d).length
  let nr := ((List.range 4).filter fun i => (lane d (48 + i)).live).length
  if linkUp d && (decide (nl < fd d Adr.GLR_CFG 5 0) || nr = 0) then linkDown d else d

/-- Remove several lanes, then bring map and link in line. -/
def lanesDrop (d : Dev) (ns : List Nat) (f : Dev → Nat → Dev) : Dev :=
  let live := ns.filter fun n => (lane d n).live
  if live = [] then ns.foldl f d else linkCheck (mapChanged (ns.foldl f d))

/-! ### Frames and commits (R356 to R363) -/

/-- GLR commits frame `l` (R360): FIRE counts in TAG_RESID (R393). -/
def commitFrame (d : Dev) (fire : Bool) (l : Nat) : Dev :=
  let d := histCommit d l (if fire then 1 else 2)
  if fire then tagCount d else d

/-- A COMMIT unit for frame `l` (R358). -/
def commitUnit (d : Dev) (fire : Bool) (l : Nat) : Dev := commitFrame (emit d (.commit fire l)) fire l

/-- LSEQ of the next frame (R357). -/
def nextLseq (d : Dev) : Nat :=
  match d.glr.lseq with
  | some l => (l + 1) % 4294967296
  | none => 0

/-- A frame begins, or its time comes with none to send: quiesced lanes have finished the frame before it (R370), and lanes that
wait to join are in the map (R372). -/
def mapSettle (d : Dev) : Dev :=
  let d := setGlr d fun g => { g with leaving := [] }
  if d.glr.lanes.any (·.pendLive) then
    mapChanged (setGlr d fun g => { g with lanes := g.lanes.map fun l => { l with live := l.live || l.pendLive, pendLive := false } })
  else d

/-- GLR begins the frame of shot `g` of the running stripe. `commit` is for the frame two before it, when there is one (R360,
R361). -/
def beginFrame (d : Dev) (r : Run) (g : Nat) (commit : Option Bool) : Dev :=
  let d := mapSettle d
  if !linkUp d || d.fcl.halted then d
  else
    let l := nextLseq d
    let map := liveLanes d
    let codes := ((d.glr.frames.find? fun f => f.shot = g).map (·.codes)).getD []
    let t := r.tkt
    let (m, d) := injTake d (Page.glr.base 0) true
    let h : Hist :=
      { lseq := l, index := t.index, shot := g, n := t.n, slotB := t.slotB, mending := t.mending
        gen := tktGen d t, serial := t.serial, tseq := t.seq, commit := 0, noEntry := r.refused, ue := decide (2 ≤ m), map := map }
    let d := setGlr d fun x => { x with
      lanes := map.foldl (fun a n => modNth a n fun y => { y with pkts := (lanePackets map l n).length }) x.lanes
      lseq := some l, map := map, mapPrev := x.map, hist := alSet x.hist (l % 4096) h, frames := x.frames.filter fun f => f.shot != g }
    let c := match commit with
      | some true => 1
      | some false => 2
      | none => 0
    let d := emit d (.frame ⟨l, t.serial, c, map, codes⟩)
    match commit with
    | some fire => commitFrame d fire ((l + 4294967294) % 4294967296)
    | none => d

/-! ### Return messages (R374 to R378) -/

/-- Whether return lane `n` is in use (R754). -/
def retUse (d : Dev) (n : Nat) : Bool := decide (48 ≤ n ∧ n < 52) && (lane d n).live

/-- RSEQ `a` lies before `b` under the half-range rule. -/
def rseqLt (a b : Nat) : Bool := decide (0 < (b + 65536 - a % 65536) % 65536 ∧ (b + 65536 - a % 65536) % 65536 < 32768)

/-- Ask for a range again (R377). -/
def sendResend (d : Dev) (first last : Nat) : Dev :=
  let d := setGlr d fun g => { g with resends := g.resends ++ [⟨first, last, false⟩] }
  emit (inc d Adr.GLR_CNT_RESEND) (.ctrl 0x11 [first, last])

/-- RSEQs `a … b − 1` are missing: GLR asks for them (R377). -/
def rxGap (d : Dev) (a b : Nat) : Dev :=
  let n := (b + 65536 - a) % 65536
  let miss := (List.range n).map fun i => (a + i) % 65536
  sendResend (setGlr d fun g => { g with rxNext := b % 65536, rxMiss := miss.foldl setIns g.rxMiss }) a ((b + 65535) % 65536)

/-- A RESEND is over when none of its range is missing. -/
def rxSettle (d : Dev) : Dev :=
  let wanted (r : Resend) : Bool := d.glr.rxMiss.any fun x => !rseqLt x r.first && !rseqLt r.last x
  setGlr d fun g => { g with resends := g.resends.filter wanted }

/-- GLR_ACK takes the last STATUS once every message before its NEXT_RSEQ is received and translated (R378, R63), and stripes
seal (R564). -/
def ackTake (d : Dev) : Dev :=
  match d.glr.ackWant with
  | none => d
  | some (ack, next) =>
    if d.glr.buf = [] ∧ !rseqLt d.glr.rxNext next ∧ !((d.glr.rxMiss ++ d.glr.rxLost).any fun x => rseqLt x next) then
      let d := setGlr d fun g => { g with ack := ack, ackWant := none }
      let d := if !d.glr.unackOld && !unackEmpty d && lseqLe d.glr.unFirst ack then
          setGlr d fun g => { g with unFirst := (ack + 1) % 4294967296 }
        else d
      sealCheck d
    else d

/-- A message with RSEQ arrives on a lane (R375, R377): whether it is a new one to take. -/
def rxMsg (d : Dev) (n rseq : Nat) : Bool × Dev :=
  if !retUse d n || decide (d.glr.st < 2) then (false, d)
  else if d.glr.rxMiss.contains rseq || d.glr.rxLost.contains rseq then
    (true, rxSettle (setGlr d fun g => { g with rxMiss := setDel g.rxMiss rseq, rxLost := setDel g.rxLost rseq }))
  else if rseq = d.glr.rxNext then (true, setGlr d fun g => { g with rxNext := (rseq + 1) % 65536 })
  else if rseqLt d.glr.rxNext rseq then
    (true, setGlr (rxGap d d.glr.rxNext rseq) fun g => { g with rxNext := (rseq + 1) % 65536 })
  else (false, d)

/-! ### Translation (R379 to R383, R753) -/

/-- The packets of a 512-bit bitmap. -/
def packetsOf (b : Nat) : List Nat := (List.range 512).filter fun k => b.testBit k

/-- The lanes that carried the packets of `l` in a frame are noted as failing in it, each once (R574). -/
def laneFails (d : Dev) (h : Hist) (l : List Nat) : Dev :=
  let lanes := h.map.filter fun n => !d.glr.fails.contains (n, h.lseq) && l.any fun k => laneOf h.map h.lseq k = n
  setGlr d fun g => { g with fails := lanes.map (fun n => (n, h.lseq)) ++ g.fails }

/-- ROW_FAIL (R380, R381, R574). -/
def glrRowFail (d : Dev) (lseq : Nat) (nocommit : Bool) (crc seqf : Nat) : Dev :=
  let d := addReg d Adr.GLR_CNT_ROWFAIL (popcount 512 (crc ||| seqf))
  let (h, ue, d) := histRead d lseq
  match h with
  | none => if ue then glrErr d Bit.err_GLR_HIST_UE lseq 0 else d
  | some h =>
    let d := laneFails d h (packetsOf (crc ||| seqf))
    if h.commit = 2 then d
    else if nocommit then
      glrErr (histEnts d h [(2, 1, w32 h.shot, w32 (511 * 65536))]) Bit.err_GLR_ROW_FAIL lseq h.index
    else if h.commit = 1 then
      glrErr (histEnts d h (histRows d h 1 (packetsOf crc) ++ histRows d h 2 (packetsOf seqf))) Bit.err_GLR_ROW_FAIL lseq h.index
    else d

/-- R60: a dead beam's code is withheld from every frame that has not begun. -/
def beamOff (d : Dev) (beam : Nat) : Dev :=
  let d := setGlr d fun g => { g with frames := g.frames.map fun f =>
    { f with codes := f.codes.filter fun c => remapBeam d c.1 != beam } }
  { d with stc := { d.stc with cur := d.stc.cur.map fun st =>
    if st.ended then st else { st with died := setIns st.died beam } } }

/-- BEAM_SPAN entry from shot `s` of a ticket's stripe whose gather has begun. For the stripe that STC has begun without a gather
yet, the entry is due with its first gather, from shot 0 (DEDUCED, log entry 89). -/
def beamEnt (d : Dev) (t : Tkt) (s beam : Nat) : Dev := stripeEnt d .glr t 0xE 5 (w32 s) (beamWord beam)

/-- Later stripes of the history than ticket number `k`: one entry of each. -/
def laterHist (d : Dev) (k : Nat) : List Hist :=
  d.glr.hist.foldl (fun (a : List Hist) h =>
    if k < h.2.tseq && !(a.any fun x => x.tseq = h.2.tseq) then a ++ [h.2] else a) []

/-- BEAM_DIED (R382, R753). -/
def glrBeamDied (d : Dev) (lseq k j : Nat) : Dev :=
  let beam := remapBeam d (1024 * k + j)
  let (h, ue, d) := histRead d lseq
  let d := if ue then glrErr d Bit.err_GLR_HIST_UE lseq 0 else d
  let d := match h with
    | some h =>
      let later := laterHist d h.tseq
      let d := histEnts d h [(0xE, 5, w32 h.shot, beamWord beam)]
      let d := later.foldl (fun d h => histEnts d h [(0xE, 5, 0, beamWord beam)]) d
      match d.exp.run with
      | some r => if h.tseq < r.tkt.seq && 0 < r.gathered && !(later.any fun h => h.tseq = r.tkt.seq) then beamEnt d r.tkt 0 beam else d
      | none => d
    | none =>
      match d.exp.run with
      | some r => if 0 < r.gathered && decide (r.begun < r.tkt.n) then beamEnt d r.tkt r.begun beam else d
      | none => d
  beamOff (dbmAddBit d beam) beam

/-- DBM_END (R383, R388): a complete and correct map goes to NEXT_SLOT, any other is discarded. -/
def glrDbmEnd (d : Dev) (count crc : Nat) : Dev :=
  let parts := d.glr.parts
  let bytes := parts.flatMap fun p => leBytes 1024 p.2
  let dead := parts.flatMap fun p => ((List.range 8192).filter fun b => p.2.testBit b).map fun b => 8192 * p.1 + b
  let good := parts.length = 64 ∧ dead.length = count ∧ crc32c bytes = crc
  let d := setGlr d fun g => { g with parts := [], dbmAsked := false }
  if good then
    let beams := (dead.map (remapBeam d)).foldl setIns []
    let d := dbmAddMap d beams
    if d.glr.st = 7 then glrEvt (setGlr d fun g => { g with st := 8 }) Bit.evt_GLR_READY else d
  else glrErr d Bit.err_GLR_DBM_BAD (d.glr.lseq.getD 0) 0

/-- Translate one message. -/
def translate (d : Dev) (i : Instr) : Dev :=
  match i with
  | .rowFail _ _ lseq nc crc seqf => glrRowFail d lseq nc crc seqf
  | .beamDied _ _ lseq k j => glrBeamDied d lseq k j
  | .dbmPart _ _ p b => setGlr d fun g => { g with parts := alSet g.parts p (b % 2 ^ 8192) }
  | .dbmEnd _ _ count crc => glrDbmEnd d count crc
  | _ => d

/-- Whether GLR must wait before translating a message (R63, R292). -/
def glrWaits (d : Dev) (i : Instr) : Bool :=
  blkWaits d .glr ||
  match i with
  | .beamDied .. => dbmFull d
  | _ => false

/-- Translate buffered messages while GLR need not wait; then fetch dropped ones again, and take the acknowledgement. -/
def glrDrainN : Nat → Dev → Dev
  | 0, d => d
  | n + 1, d =>
    match d.glr.buf with
    | [] => d
    | i :: rest => if glrWaits d i then d else glrDrainN n (translate (setGlr d fun g => { g with buf := rest }) i)

/-- Ask again for the missing messages that no outstanding RESEND covers (R63). -/
def resendMissing (d : Dev) : Dev :=
  let open_ := d.glr.rxMiss.filter fun x => !(d.glr.resends.any fun r => !rseqLt x r.first && !rseqLt r.last x)
  (runsOf open_).foldl (fun d r => sendResend d r.1 r.2) d

/-- GLR resumes translation. -/
def glrDrain (d : Dev) : Dev :=
  let d := glrDrainN d.glr.buf.length d
  ackTake (if d.glr.buf = [] then resendMissing d else d)

/-- A message to translate arrives: translated at once, buffered, or dropped when 256 are held (R63). -/
def glrTake (d : Dev) (n rseq : Nat) (i : Instr) : Dev :=
  let (new, d) := rxMsg d n rseq
  if !new then d
  else if d.glr.buf = [] ∧ !glrWaits d i then ackTake (translate d i)
  else if d.glr.buf.length < 256 then setGlr d fun g => { g with buf := g.buf ++ [i] }
  else setGlr d fun g => { g with rxMiss := setIns g.rxMiss rseq }

/-! ### Bring-up (R388, R752) -/

/-- Lanes that take part in bring-up and show what `f` asks. -/
def trainCount (d : Dev) (f : Lane → Bool) : Nat := ((List.range 48).filter fun n => laneAllowed d n && f (lane d n)).length

/-- Whether a training step finishes (R752): every lane shows it, or after half of TIMEOUT at least MIN_LANES lanes. -/
def trainStep (d : Dev) (f : Lane → Bool) : Bool :=
  let n := trainCount d f
  n = 48 || (d.glr.half && decide (fd d Adr.GLR_CFG 5 0 ≤ n))

/-- Whether a lane's counts lie within R369: `e` errored symbols in a window of 200 µs and `u` uncorrectable codewords. -/
def withinLimits (d : Dev) (e u : Nat) : Bool :=
  decide (u ≤ fd d Adr.GLR_CFG 19 16) && decide (e * 10 ^ fd d Adr.GLR_CFG 23 20 ≤ 11200000)

/-- Whether lane `n` is within R369 by its last counts. -/
def laneGood (d : Dev) (n : Nat) : Bool := withinLimits d (rg d (Adr.LANE_BER n)).toNat (lane d n).unc

/-- Step 6: lock on every lane moves bring-up to FEC_ALIGN. -/
def tuneDone (d : Dev) : Dev :=
  if d.glr.st = 4 ∧ trainStep d (·.lock) then setGlr d fun g => { g with st := 5 } else d

/-- Steps 8 to 10: LINK_UP with the lanes within R369, which have finished training (R403), every other lane isolated, LSEQ from 0, and
TAG_CHAL (R387, R752). A map from an earlier link no longer sets VALID (R291), and the history holds frames of this link alone, whose
LSEQs start anew (DEDUCED, log entry 89). -/
def glrLinkUp (d : Dev) : Dev :=
  let ok := (List.range 48).filter fun n => laneAllowed d n && (lane d n).lock && (lane d n).fec && laneGood d n
  if d.glr.st ≠ 5 ∨ !d.glr.aligned ∨ !trainStep d (fun l => l.lock && l.fec) ∨ ok.length < fd d Adr.GLR_CFG 5 0 then d
  else
    let d := (List.range 48).foldl (fun d n =>
      if ok.contains n then setLane d n fun l => { l with live := true, good := true, alone := false }
      else
        let b := Page.lane.base n
        setLane (wr d (b + oCTRL) (putBit (rg d (b + oCTRL)) 2 true)) n fun l => { l with live := false, good := false }) d
    let d := setGlr d fun g => { g with
      st := 6, lseq := none, ack := 0xFFFFFFFF, ackWant := none, map := [], mapPrev := [], frames := [], hist := [], fails := [] }
    let d := setDbm d fun m => { m with pendMap := false, heldOld := m.heldMap.isSome }
    let d := ok.foldl (fun d n => evt d (Page.lane.base n) Bit.evt_LANE_TRAINED) d
    let d := emit d (.ctrl 0x01 [sumN (ok.map fun n => 2 ^ n)])
    let d := mapChanged (glrEvt d Bit.evt_GLR_LINKED)
    tagStart d false

/-- Ask the plate for its map (step 11 of R388). -/
def dbmAsk (d : Dev) : Dev := emit (setGlr d fun g => { g with dbmAsked := true }) (.ctrl 0x10 [])

/-- The first tag exchange of a link has ended: TAGGED, and DBM_REQ (R752). -/
def glrTagged (d : Dev) : Dev := if d.glr.st = 6 then dbmAsk (setGlr d fun g => { g with st := 7 }) else d

/-- Setting ENABLE on GLR begins bring-up (R388). -/
def glrEnable (d : Dev) : Dev :=
  if d.glr.st = 0 then setGlr d fun g => { g with st := 1, half := false, aligned := false, lclk := false } else d

/-! ### Lanes in and out of use (R370 to R372, R754) -/

/-- A return lane's use follows its block lock and its _CTRL. -/
def retUpdate (d : Dev) (n : Nat) : Dev :=
  let b := Page.lane.base n
  let usable := (lane d n).lock && ctrlBit d b 0 && !ctrlBit d b 1 && !ctrlBit d b 2
  linkCheck (setLane d n fun l => { l with live := usable })

/-- A transmit lane may join the map at the next frame (R372). -/
def laneJoin (d : Dev) (n : Nat) : Dev :=
  if linkUp d && laneAllowed d n && (lane d n).good && (lane d n).lock && (lane d n).fec && !(lane d n).live then
    setLane d n fun l => { l with pendLive := true }
  else d

/-- QUIESCE of a transmit lane (R370): it is out of the map from the next frame on, and sends the rest of the frame on the link. -/
def laneQuiesce (d : Dev) (n : Nat) : Dev :=
  if (lane d n).live then
    let sending := d.exp.run.isSome && d.glr.map.contains n
    linkCheck (mapChanged (laneOut (setGlr d fun g => { g with leaving := if sending then setIns g.leaving n else g.leaving }) n))
  else setLane d n fun l => { l with pendLive := false }

end Sys2Proof.Machine
end

