-- ==== Sys2Proof/Machine/Operands.lean ====
section
/-! DEFINITION. Who reaches a register (R9, R16 to R20, R488, R489, R734, R742), and the form every command's meaning takes: a
change of the block, the queue left alone. -/

namespace Sys2Proof.Machine

/-- What a command answers. -/
abbrev Answer := Host.Outcome State Fault Refusal

/-- The meaning of a command that changes the block; the output pins follow. -/
def run (s : State) (f : Dev → Dev) : Answer := .next { s with dev := drive (f s.dev) }

/-- The _OWNER bit of a requester. -/
def Req.ownerBit : Req → Nat
  | .host => 0
  | .knl => 1
  | .dbg => 2

/-- The page that owns BAR0 address `a`: its own page, or the owner of the table window it lies in (R734). -/
def pageAt (a : Nat) : Option (Page × Nat) := if inWindow a then some (windowPage a, 0) else pageOf a

/-- Whether the page at `base` grants a requester (R16). -/
def owns (d : Dev) (req : Req) (p : Page) (n : Nat) : Bool := bit (rg d (p.base n + oOWNER)) (Req.ownerBit req)

/-- Whether only KNL reaches the register at `a` (R19, "page privilege"). -/
def knlOnly (a : Nat) : Bool :=
  if inWindow a then false
  else match pageOf a with
    | some (p, _) => match p.row (a % 0x1000) with
      | some r => r.knl
      | none => false
    | none => false

/-- Whether a requester reaches the block register, header register or window word at `a`: an aligned word (R9) of a page that
exists (R488), whose domain is powered (R489, R734) and which grants the requester (R16, R19); not the host in D3hot (R483). -/
def acc (d : Dev) (req : Req) (a : Nat) : Bool :=
  a % 4 = 0 && !(req = .host && d.hlk.cfg.d3) &&
  match pageAt a with
  | none => false
  | some (p, n) => pageOn d p n && owns d req p n && (!knlOnly a || req = .knl)

/-- A command that is a write to `a`: its effect, when the requester reaches the register. -/
def write (d : Dev) (req : Req) (a : Nat) (f : Dev → Dev) : Dev := if acc d req a then f d else d

/-- A write to a register under the access codes of its fields (R11, R12): RW, NV and RWS fields take the value, W1C bits clear,
W1S bits set, and everything else stands. -/
def storeReg (d : Dev) (a : Nat) (v : W32) : Dev :=
  match pageOf a with
  | none => d
  | some (p, _) =>
    match p.row (a % 0x1000) with
    | none => d
    | some r =>
      let m := w32 (r.rw ||| r.nv ||| r.rws)
      wr d a ((((rg d a &&& ~~~m) ||| (v &&& m)) &&& ~~~(v &&& w32 r.w1c)) ||| (v &&& w32 r.w1s))

end Sys2Proof.Machine
end

