-- ==== Sys2Proof/Machine/GlrCmd.lean ====
section
/-! DEFINITION. The commands of the Glaur link, the plate tag and the check-value units (chapter 08). -/

namespace Sys2Proof.Machine

/-! ### Lanes and the plate's messages -/

/-- TRANSMITTER_FAULT (R369, R371). -/
def execTransmitterFault (n unsent : Nat) (s : State) : Answer := run s fun d =>
  if n < 48 then lanesDrop d [n] fun d n => laneDrop d n unsent else d

/-- HELLO (R375, R388): the first message of a link; its RSEQ is where the count of messages begins. -/
def execHello (n rseq : Nat) (body : HelloBody) (s : State) : Answer := run s fun d =>
  if d.glr.st = 2 ∧ retUse d n then
    let d := setGlr d fun g => { g with
      st := 4, rxNext := (rseq + 1) % 65536, rxMiss := [], rxLost := [], resends := [], buf := [], ackWant := none
      plate := body.plateId % 2 ^ 64 }
    (List.range 48).foldl (fun d i => wr d (Adr.LANE_FFE i) (Config.ffePreset 1)) d
  else (rxMsg d n rseq).2

/-- The contents of a LANE_STATUS message (R369, R375). -/
def laneStatus (d : Dev) (lock fec : Nat) (errs uncorr : List Nat) : Dev :=
  if d.glr.st < 4 then d
  else
    let d := (List.range 48).foldl (fun d n =>
      let u := nth uncorr n 0
      let d := setLane d n fun l => { l with lock := lock.testBit n, fec := fec.testBit n, unc := u }
      addReg (wr d (Adr.LANE_BER n) (w32 (nth errs n 0))) (Adr.LANE_CNT_UNCORR n) u) d
    if !linkUp d then glrLinkUp (tuneDone d)
    else
      let bad := (List.range 48).filter fun n =>
        let l := lane d n
        l.live && !(l.lock && l.fec && laneGood d n)
      lanesDrop d bad laneDropFree

/-- LANE_STATUS (R369, R388). -/
def execLaneStatus (n rseq lock fec : Nat) (errs uncorr : List Nat) (s : State) : Answer := run s fun d =>
  let (new, d) := rxMsg d n rseq
  ackTake (if new then laneStatus d lock fec errs uncorr else d)

/-- The new value of an FFE tap (R359, R375). -/
def tapMove (v action : Nat) : Nat :=
  match action with
  | 1 => ofS 8 (satS 8 (toS 8 v + 1))
  | 2 => ofS 8 (satS 8 (toS 8 v - 1))
  | _ => v

/-- TUNE_REQ (R359, R375): while the lane trains, its tap moves and TUNE_ACK answers with the new value. -/
def tuneReq (d : Dev) (n tap action preset : Nat) : Dev :=
  if n < 48 ∧ tap < 4 ∧ (d.glr.st = 4 ∨ (lane d n).alone) then
    let a := Adr.LANE_FFE n
    let hi := 31 - 8 * tap
    let d := if action = 3 then wr d a (Config.ffePreset preset)
      else setFd d a hi (hi - 7) (tapMove (fd d a hi (hi - 7)) action)
    emit d (.ctrl 0x02 [n, tap, fd d a hi (hi - 7)])
  else d

/-- TUNE_REQ as a message. -/
def execTuneReq (n rseq txLane tap action preset : Nat) (s : State) : Answer := run s fun d =>
  let (new, d) := rxMsg d n rseq
  ackTake (if new then tuneReq d txLane tap action preset else d)

/-- ROW_FAIL (R380, R381). -/
def execRowFail (n rseq lseq : Nat) (nocommit : Bool) (crc seqf : Nat) (s : State) : Answer := run s fun d =>
  glrTake d n rseq (.rowFail n rseq lseq nocommit crc seqf)

/-- BEAM_DIED (R382, R753). -/
def execBeamDied (n rseq lseq k j : Nat) (s : State) : Answer := run s fun d =>
  glrTake d n rseq (.beamDied n rseq lseq (k % 512) (j % 1024))

/-- DBM_PART (R383). -/
def execDbmPart (n rseq p bitmap : Nat) (s : State) : Answer := run s fun d =>
  if p < 64 then glrTake d n rseq (.dbmPart n rseq p bitmap) else (rxMsg d n rseq).2

/-- DBM_END (R383). -/
def execDbmEnd (n rseq count crc : Nat) (s : State) : Answer := run s fun d =>
  glrTake d n rseq (.dbmEnd n rseq count crc)

/-- TAG_RESP (R392, R752). -/
def execTagResp (n rseq plateId count mac : Nat) (s : State) : Answer := run s fun d =>
  let (new, d) := rxMsg d n rseq
  if !new then d
  else
    let (d, ended) := tagResp d plateId (count % 2 ^ 32) mac
    ackTake (if ended then glrTagged d else d)

/-- TAG_ACK (R395). -/
def execTagAck (n rseq _count mac : Nat) (s : State) : Answer := run s fun d =>
  let (new, d) := rxMsg d n rseq
  ackTake (if new then tagAck d mac else d)

/-- STATUS (R377, R378): a NEXT_RSEQ beyond the last message received shows what is missing. -/
def execStatus (n ackLseq _firedLseq nextRseq _flags : Nat) (s : State) : Answer := run s fun d =>
  if !retUse d n || decide (d.glr.st < 4) then d
  else
    let next := nextRseq % 65536
    let d := if 6 ≤ d.glr.st then setGlr d fun g => { g with ackWant := some (ackLseq % 2 ^ 32, next) } else d
    ackTake (if rseqLt d.glr.rxNext next then rxGap d d.glr.rxNext next else d)

/-- A return message whose CRC fails (R377): dropped and counted. -/
def execBadmsg (n : Nat) (s : State) : Answer := run s fun d =>
  if retUse d n then inc d Adr.GLR_CNT_BADMSG else d

/-- The range of the oldest RESEND has not arrived within 50 µs (R377). -/
def execResendTimeout (s : State) : Answer := run s fun d =>
  match d.glr.resends with
  | [] => d
  | r :: rest =>
    if r.again then
      let gone := d.glr.rxMiss.filter fun x => !rseqLt x r.first && !rseqLt r.last x
      let d := setGlr d fun g => { g with
        resends := rest, rxMiss := g.rxMiss.filter fun x => !gone.contains x, rxLost := gone.foldl setIns g.rxLost }
      glrErr d Bit.err_GLR_MSG_LOST (d.glr.lseq.getD 0) 0
    else
      let d := setGlr d fun g => { g with resends := rest ++ [{ r with again := true }] }
      emit (inc d Adr.GLR_CNT_RESEND) (.ctrl 0x11 [r.first, r.last])

/-! ### GLR_CMD (R402) -/

/-- A write of GLR_CMD: UNACK_CLR (R386, R387) and DBM_REQ (R388). -/
def glrCmd (d : Dev) (v : W32) : Dev :=
  let d := if bit v 1 then unackClear d else d
  if bit v 0 && decide (7 ≤ d.glr.st) then dbmAsk d else d

/-- UNACK_CLR (R386). -/
def execUnackClr (req : Req) (v : W32) (s : State) : Answer := run s fun d =>
  write d req Adr.GLR_CMD fun d => glrCmd d (v ||| 2)

/-- DBM_REQ (R388). -/
def execDbmReq (req : Req) (v : W32) (s : State) : Answer := run s fun d =>
  write d req Adr.GLR_CMD fun d => glrCmd d (v ||| 1)

/-! ### Bring-up and link-down (R388, R389, R752) -/

/-- LCLK and the lane PLLs lock (R388 step 2). -/
def execLclkLocked (s : State) : Answer := run s fun d =>
  if d.glr.st = 1 ∧ pdState d 11 = .on ∧ pdState d 12 = .on then setGlr d fun g => { g with lclk := true } else d

/-- The return lanes reach block lock (R388 step 3). -/
def execRetLock (s : State) : Answer := run s fun d =>
  if d.glr.st = 1 ∧ d.glr.lclk then
    let d := (List.range 4).foldl (fun d i => retUpdate (setLane d (48 + i) fun l => { l with lock := true }) (48 + i)) d
    setGlr d fun g => { g with st := 2 }
  else d

/-- The FEC lock and error window completes (R388 step 8). -/
def execFecAlign (s : State) : Answer := run s fun d =>
  if d.glr.st = 5 then glrLinkUp (setGlr d fun g => { g with aligned := true }) else d

/-- Half of GLR_TRAIN.TIMEOUT passes (R752). -/
def execTrainHalfTimeout (s : State) : Answer := run s fun d =>
  if 1 ≤ d.glr.st ∧ d.glr.st ≤ 5 then glrLinkUp (tuneDone (setGlr d fun g => { g with half := true })) else d

/-- GLR_TRAIN.TIMEOUT expires before step 10 has finished (R388, R752). -/
def execTrainFail (s : State) : Answer := run s fun d =>
  if 1 ≤ d.glr.st ∧ d.glr.st ≤ 6 then glrErr (linkDownIf false d) Bit.err_GLR_TRAIN_FAIL 0 0 else d

/-- DBM_MS expires without DBM_END (R388). -/
def execDbmMs (s : State) : Answer := run s fun d =>
  if d.glr.dbmAsked then
    glrErr (setGlr d fun g => { g with parts := [], dbmAsked := false }) Bit.err_GLR_DBM_BAD (d.glr.lseq.getD 0) 0
  else d

/-- No valid STATUS arrives for GLR_HB.TIMEOUT (R389). -/
def execGlrHb (s : State) : Answer := run s fun d => if linkUp d then linkDown d else d

/-- Every return lane has lost block lock (R389). -/
def execBlockLockLost (s : State) : Answer := run s fun d =>
  (List.range 4).foldl (fun d i => retUpdate (setLane d (48 + i) fun l => { l with lock := false }) (48 + i)) d

/-- A lane retrained alone finishes training (R372, R752). -/
def execTrained (n : Nat) (s : State) : Answer := run s fun d =>
  let l := lane d n
  if n < 52 ∧ l.alone ∧ !d.testing.contains (Page.lane.base n) ∧ (48 ≤ n ∨ (l.lock ∧ l.fec)) then
    evt (setLane d n fun l => { l with alone := false, good := decide (48 ≤ n) || laneGood d n })
      (Page.lane.base n) Bit.evt_LANE_TRAINED
  else d

/-- One return lane gains or loses block lock (R754). -/
def execReturnLaneBlockLock (n : Nat) (lock : Bool) (s : State) : Answer := run s fun d =>
  if 48 ≤ n ∧ n < 52 ∧ d.glr.lclk then retUpdate (setLane d n fun l => { l with lock := lock }) n else d

/-! ### TAG -/

/-- A write of TAG_CTRL (R404): KEYSEL and REQUIRE are stored, and CHAL starts a challenge (R751). -/
def tagCtrl (d : Dev) (v : W32) : Dev :=
  let d := wr d Adr.TAG_CTRL ((rg d Adr.TAG_CTRL &&& 1) ||| (v &&& 0xF2))
  if bit v 0 then tagChal d else d

/-- CHAL (R751). -/
def execChal (req : Req) (v : W32) (s : State) : Answer := run s fun d =>
  write d req Adr.TAG_CTRL fun d => tagCtrl d (v ||| 1)

/-- 100 µs pass with an exchange unanswered (R396, R752). -/
def execTagRetry (s : State) : Answer := run s fun d =>
  let (d, ended) := tagRetry d
  if ended then glrTagged d else d

/-! ### CHK -/

/-- A write of CHK_CMD (R399). -/
def chkCmd (d : Dev) (n : Nat) (v : W32) : Dev := if bit v 0 then chkBegin d n else d

/-- CHK_START (R399). -/
def execChkStart (req : Req) (n : Nat) (v : W32) (s : State) : Answer := run s fun d =>
  if n < 8 then write d req (Adr.CHK_CMD n) fun d => chkCmd d n (v ||| 1) else d

/-- CHK_D8 (R400). -/
def execChkD8 (req : Req) (n : Nat) (v : W32) (s : State) : Answer := run s fun d =>
  if n < 8 then write d req (Adr.CHK_D8 n) fun d => chkData d n 1 v else d

/-- CHK_D16 (R400). -/
def execChkD16 (req : Req) (n : Nat) (v : W32) (s : State) : Answer := run s fun d =>
  if n < 8 then write d req (Adr.CHK_D16 n) fun d => chkData d n 2 v else d

/-- CHK_D32 (R400). -/
def execChkD32 (req : Req) (n : Nat) (v : W32) (s : State) : Answer := run s fun d =>
  if n < 8 then write d req (Adr.CHK_D32 n) fun d => chkData d n 4 v else d

end Sys2Proof.Machine
end

