-- ==== Sys2Proof/Machine/Hel.lean ====
section
/-! DEFINITION. Heel (R454 to R482): the target's inputs, the control law, modes, microcode, test signals, capture and the DAC
frames. -/

namespace Sys2Proof.Machine

/-- Change HEL. -/
def setHel (d : Dev) (f : Hel → Hel) : Dev := { d with hel := f d.hel }

/-- Raise an event of the HEL page. -/
def helEvt (d : Dev) (b : Nat) : Dev := evt d (Page.hel.base 0) b

/-- An error of HEL: HEL_SAMPLE, and the second word of R482. Any of them is a capture trigger (R479). -/
def helErr (d : Dev) (b : Nat) (i1 : W32) : Dev :=
  err (setHel d fun h => { h with seen := h.seen ||| 4 }) (Page.hel.base 0) b (rg d Adr.HEL_SAMPLE) i1

/-- A cause of R464: SAFE at the next tick, unless HEL is in SAFE or OFF. -/
def helCause (d : Dev) : Dev :=
  if 1 ≤ d.hel.mode ∧ d.hel.mode ≤ 3 then setHel d fun h => { h with safeReq := true } else d

/-- Whether QCLK runs (R467, R683). DESIGN CHOICE (log entry 92): the PMU makes no use of its permission to stop it by itself. -/
def qclk (d : Dev) : Bool := pdOn d 13 && d.pmu.lock.testBit 9

/-- Whether HEL makes ticks: ENABLE is 1 and QCLK runs (R457, R467). -/
def helRuns (d : Dev) : Bool := qclk d && bit (rg d (Page.hel.base 0 + oCTRL)) 0

/-- The slope state becomes `v`; HEL_CNT_SWITCH counts its changes (R482). -/
def helSlope (d : Dev) (v : Int) : Dev :=
  setHel (if v = d.hel.v then d else inc d Adr.HEL_CNT_SWITCH) fun h => { h with v := v }

/-- Whether a stripe is in LEAD or RUN. -/
def inStripe (d : Dev) : Bool := d.exp.run.isSome

/-! ### Inputs (R455, R456, R472, R475) -/

/-- The slot that KLEAD follows (R456). -/
def leadSlotB (d : Dev) : Bool :=
  match d.exp.run, d.exp.queue with
  | some r, _ => r.tkt.slotB
  | none, t :: _ => t.slotB
  | none, [] => d.exp.lastSlotB

/-- RATIO as SPEED takes it (R455). -/
def leadRatio (d : Dev) : Nat :=
  match d.exp.run with
  | some r => r.ratio
  | none => fd d (slotReg (leadSlotB d) Adr.EXP_RATIO_A Adr.EXP_RATIO_B) 24 0

/-- STROBE_WIDTH as KLEAD takes it (R456). -/
def leadWidth (d : Dev) : Nat :=
  match d.exp.run with
  | some r => r.width
  | none => fd d (slotReg (leadSlotB d) Adr.EXP_STROBE_A Adr.EXP_STROBE_B) 9 0

/-- τ8 at time `t` (R455); none while fewer than nine edges have been seen. -/
def tau8 (d : Dev) (t : Nat) : Option Nat :=
  match d.exp.edges with
  | e :: r => if r.length < 8 then none else some (max (e - nth r 7 e) (8 * (t - e)))
  | [] => none

/-- SPEED at time `t` (R455). -/
def helSpeed (d : Dev) (t : Nat) : Int :=
  match tau8 d t with
  | none => 0
  | some τ =>
    if 16777216 ≤ τ then 0
    else
      let inv := fd d Adr.EXP_CFG 4 4 = 1
      let s := roundDiv (68719476736000) (max 1 (leadRatio d * τ))
      if d.exp.lastUp != decide inv then s else -s

/-- KLEAD (R456): L is (2·STROBE_DELAY + STROBE_WIDTH) / 4 ns. -/
def helKlead (d : Dev) : Int := roundDiv (65536 * (2 * fd d Adr.EXP_DELAY 11 0 + leadWidth d : Nat)) 4000

/-- The sampled registers as they stand (R475). -/
def helSampled (d : Dev) : List W32 :=
  [rg d Adr.HEL_SLOPE, rg d Adr.HEL_BAND, rg d Adr.HEL_LEASH, rg d Adr.HEL_RAMP] ++ (List.range 16).map fun i => rg d (Adr.HEL_COEF i)

/-- The sampled values: S, H, LEASH in sp, LEASH_TIME and RAMP_SAFE. -/
def smpS (h : Hel) : Int := bits (nth h.smp 0 0) 15 0
def smpH (h : Hel) : Int := bits (nth h.smp 1 0) 15 0
def smpLeash (h : Hel) : Int := bits (nth h.smp 2 0) 15 0
def smpTime (h : Hel) : Nat := bits (nth h.smp 2 0) 31 24
def smpRamp (h : Hel) : Int := bits (nth h.smp 3 0) 15 0

/-! ### Test signals (R477, R478) -/

/-- A quarter of SIN (R477). -/
def sinQuarter : List Nat :=
  [0, 201, 402, 603, 804, 1005, 1206, 1407, 1608, 1809, 2009, 2210, 2410, 2611, 2811, 3012, 3212, 3412, 3612, 3811, 4011, 4210, 4410, 4609, 4808, 5007, 5205, 5404, 5602, 5800, 5998, 6195]
  ++ [6393, 6590, 6786, 6983, 7179, 7375, 7571, 7767, 7962, 8157, 8351, 8545, 8739, 8933, 9126, 9319, 9512, 9704, 9896, 10087, 10278, 10469, 10659, 10849, 11039, 11228, 11417, 11605, 11793, 11980, 12167, 12353]
  ++ [12539, 12725, 12910, 13094, 13279, 13462, 13645, 13828, 14010, 14191, 14372, 14553, 14732, 14912, 15090, 15269, 15446, 15623, 15800, 15976, 16151, 16325, 16499, 16673, 16846, 17018, 17189, 17360, 17530, 17700, 17869, 18037]
  ++ [18204, 18371, 18537, 18703, 18868, 19032, 19195, 19357, 19519, 19680, 19841, 20000, 20159, 20317, 20475, 20631, 20787, 20942, 21096, 21250, 21403, 21554, 21705, 21856, 22005, 22154, 22301, 22448, 22594, 22739, 22884, 23027]
  ++ [23170, 23311, 23452, 23592, 23731, 23870, 24007, 24143, 24279, 24413, 24547, 24680, 24811, 24942, 25072, 25201, 25329, 25456, 25582, 25708, 25832, 25955, 26077, 26198, 26319, 26438, 26556, 26674, 26790, 26905, 27019, 27133]
  ++ [27245, 27356, 27466, 27575, 27683, 27790, 27896, 28001, 28105, 28208, 28310, 28411, 28510, 28609, 28706, 28803, 28898, 28992, 29085, 29177, 29268, 29358, 29447, 29534, 29621, 29706, 29791, 29874, 29956, 30037, 30117, 30195]
  ++ [30273, 30349, 30424, 30498, 30571, 30643, 30714, 30783, 30852, 30919, 30985, 31050, 31113, 31176, 31237, 31297, 31356, 31414, 31470, 31526, 31580, 31633, 31685, 31736, 31785, 31833, 31880, 31926, 31971, 32014, 32057, 32098]
  ++ [32137, 32176, 32213, 32250, 32285, 32318, 32351, 32382, 32412, 32441, 32469, 32495, 32521, 32545, 32567, 32589, 32609, 32628, 32646, 32663, 32678, 32692, 32705, 32717, 32728, 32737, 32745, 32752, 32757, 32761, 32765, 32766]
  ++ [32767]

/-- SIN[i] = round(32,767·sin(2π·i/1,024)). -/
def sinRom (i : Nat) : Int :=
  let k := i % 512
  let v : Int := nth sinQuarter (if k ≤ 256 then k else 512 - k) 0
  if i % 1024 < 512 then v else -v

/-- POINT of HEL_INJ_CTRL. -/
def injPoint (d : Dev) : Nat := fd d Adr.HEL_INJ_CTRL 5 4

/-- f(k) of a chirp. -/
def chirpF (d : Dev) (k : Nat) : Int :=
  let f0 := (rg d Adr.HEL_INJ_F0).toNat
  let f1 := (rg d Adr.HEL_INJ_F1).toNat
  (f0 : Int) + ((f1 : Int) - f0) * k / (max 1 (rg d Adr.HEL_INJ_LEN).toNat : Nat)

/-- g(k) with phase `phi`. -/
def injVal (d : Dev) (k phi : Nat) : Int :=
  let amp : Int := fd d Adr.HEL_INJ_AMP 23 0
  match fd d Adr.HEL_INJ_CTRL 3 2 with
  | 0 => amp
  | 1 => if (k / max 1 (fd d Adr.HEL_INJ_HALF 15 0)) % 2 = 0 then amp else -amp
  | _ => (amp * sinRom (phi >>> 22) + 16384) / 32768

/-- The injection ends early (R478): STOP clears, and INJ_ABORT counts it. -/
def injAbort (d : Dev) : Dev :=
  let d := setFd d Adr.HEL_INJ_CTRL 1 0 0
  if d.hel.inj then
    helErr (setHel d fun h => { h with inj := false, injG := 0 }) Bit.err_HEL_INJ_ABORT 0
  else d

/-- Whether ARM starts an injection (R477). -/
def injMay (d : Dev) : Bool := !(injPoint d = 0 || inStripe d || d.hel.mode = 0 || d.hel.mode = 4)

/-- The injection's part of a tick (R477): an armed one starts, in place of one that runs. -/
def injTick (d : Dev) : Dev :=
  let armed := fd d Adr.HEL_INJ_CTRL 0 0 = 1
  let d := setFd d Adr.HEL_INJ_CTRL 0 0 0
  if armed && injMay d then
    setHel (setFd d Adr.HEL_INJ_CTRL 1 1 0) fun h =>
      { h with inj := true, injK := 0, injPhi := 0, injG := injVal d 0 0, seen := h.seen ||| 8 }
  else if d.hel.inj then
    if inStripe d then injAbort d
    else
      let k := d.hel.injK + 1
      let phi := (d.hel.injPhi + (chirpF d d.hel.injK).toNat) % 4294967296
      if (rg d Adr.HEL_INJ_LEN).toNat ≤ k then
        helEvt (setHel (setFd d Adr.HEL_INJ_CTRL 1 1 0) fun h => { h with inj := false, injG := 0 }) Bit.evt_HEL_INJ_DONE
      else setHel d fun h => { h with injK := k, injPhi := phi, injG := injVal d k phi }
  else d

/-! ### Modes (R462 to R466) -/

/-- HEL enters SAFE: hold_pending set, injection stopped. -/
def helSafe (d : Dev) : Dev :=
  injAbort (setHel d fun h => { h with mode := 4, hold := true, safeReq := false, acqReq := false, leash := 0, acqLeft := 0 })

/-- HEL enters ACQUIRE. -/
def helAcquire (d : Dev) : Dev :=
  setHel (helSlope d 0) fun h => { h with mode := 2, acqLeft := 16, acqReq := false, encLow := 0, overruns := 0 }

/-- HEL enters HOLD from OFF (R462). -/
def helStart (d : Dev) : Dev :=
  setHel (setFd (helSlope d 0) Adr.HEL_CYC 7 0 0) fun h => { h with
    mode := 1, y := 0, ystage := 0, h := List.replicate 16 0, ticked := false, complete := false, overruns := 0
    encHigh := 0, encLow := 0, safeReq := false, acqReq := false, leash := 0, going := false }

/-- HEL enters OFF as ENABLE clears (R462), with NOT_READY where R466 says so. -/
def helOff (d : Dev) : Dev :=
  let d := injAbort d
  let d := setHel d fun h => { h with mode := 0, going := false, leash := 0, acqLeft := 0 }
  if fd d Adr.HEL_CFG 8 8 = 1 && inStripe d then helErr d Bit.err_HEL_NOT_READY 0 else d

/-- The mode changes of a tick (R462, R464), with ENC_VALID as latched. -/
def helModes (d : Dev) (enc : Bool) : Dev :=
  let d := if d.hel.mode = 0 then helStart d else d
  let d := setHel d fun h => { h with
    encHigh := if enc then min 16 (h.encHigh + 1) else 0 }
  if d.hel.safeReq ∧ 1 ≤ d.hel.mode ∧ d.hel.mode ≤ 3 then helSafe d
  else
    let d := setHel d fun h => { h with safeReq := false }
    match d.hel.mode with
    | 1 => if d.hel.acqReq || (fd d Adr.HEL_CFG 9 9 = 1 && decide (16 ≤ d.hel.encHigh)) then helAcquire d else d
    | 2 =>
      let d := setHel d fun h => { h with acqLeft := h.acqLeft - 1 }
      if d.hel.acqLeft = 0 then helEvt (setHel d fun h => { h with mode := 3 }) Bit.evt_HEL_TRACKING else d
    | _ => d

/-! ### Capture (R479) -/

/-- Word 3 of a capture entry. -/
def capWord3 (d : Dev) (defl : Int) : Nat :=
  d.hel.mode * 2 ^ 29 + b2n d.hel.inj * 2 ^ 27 + b2n (inStripe d) * 2 ^ 26 + ofS 20 defl

/-- The capture's part of a tick: an entry of the sample that begins, and the trigger. -/
def capTick (d : Dev) (defl : Int) : Dev :=
  let seen := d.hel.seen
  let d := setHel d fun h => { h with seen := 0, capCur := none }
  if !d.hel.capArmed then d
  else
    let i := d.hel.capN % 32768
    let a := Adr.HEL_CAP i
    let d := wr (wr (wr (wr d a (rg d Adr.HEL_SAMPLE)) (a + 4) 0x80000000) (a + 8) 0x80000000) (a + 12) (w32 (capWord3 d defl))
    let trig := fd d Adr.HEL_CAP_CTRL 26 24
    let hit := !d.hel.capTrig && (trig = 0 || (decide (trig ≤ 4) && seen.testBit trig))
    let n := d.hel.capN + 1
    let d := setHel d fun h =>
      { h with capCur := some i, capN := n, capFirst := if 32768 ≤ n then n % 32768 else 0 }
    let d := if hit then
        setHel d fun h => { h with capTrig := true, capTrigIdx := i, capLeft := 32768 - fd d Adr.HEL_CAP_CTRL 22 8 }
      else d
    if !d.hel.capTrig then d
    else
      let d := setHel d fun h => { h with capLeft := h.capLeft - 1 }
      if d.hel.capLeft = 0 then
        helEvt (setHel d fun h => { h with capArmed := false, capDone := true }) Bit.evt_HEL_CAP_DONE
      else d

/-! ### The tick (R457 to R460, R480, R481) -/

/-- CRC-8 of R481 over five bytes. -/
def crc8 (l : List Nat) : Nat :=
  l.foldl (fun c b => iter (fun c => if c.testBit 7 then (2 * c % 256) ^^^ 7 else 2 * c % 256) 8 (c ^^^ b)) 0

/-- A DAC frame (R481). -/
def dacFrame (d : Dev) (defl : Int) : Nat :=
  let m := d.hel.mode
  let top := b2n (m = 2 ∨ m = 3) * 128 + b2n (m = 4) * 64 + b2n (m = 1) * 32 + b2n (d.hel.inj && injPoint d = 2) * 16 + d.hel.seq
  let body := top * 2 ^ 32 + ofS 20 defl * 2 ^ 12
  body * 256 + crc8 ((List.range 5).map fun i => (body >>> (8 * (4 - i))) % 256)

/-- The sample before the tick, taken in mode `was`, was not complete (R459): two in a row in ACQUIRE or TRACK latch OVERRUN. -/
def helOverrun (d : Dev) (was : Nat) : Dev :=
  let d := inc d Adr.HEL_CNT_OVERRUN
  let d := match d.hel.capCur with
    | some i => wr d (Adr.HEL_CAP i + 12) (putBit (rg d (Adr.HEL_CAP i + 12)) 28 true)
    | none => d
  let d := setHel d fun h => { h with overruns := if was = 2 ∨ was = 3 then h.overruns + 1 else 0 }
  if 2 ≤ d.hel.overruns ∧ (d.hel.mode = 2 ∨ d.hel.mode = 3) then
    helCause (helErr d Bit.err_HEL_OVERRUN 0)
  else d

/-- Latch the input ports (R472). -/
def helPorts (d : Dev) (t : Nat) (enc : Bool) : List Int :=
  let minus := match d.exp.run with
    | some r => r.tkt.minus
    | none => false
  [wrapS 32 (helSpeed d t), wrapS 32 (helKlead d), d.hel.y, toS 32 d.exp.pos, d.hel.mode, d.hel.injG,
    toS 32 (rg d Adr.HEL_SAMPLE).toNat,
    (b2n (inStripe d) + 2 * b2n enc + 4 * b2n d.hel.inj + 8 * b2n minus : Nat)]

/-- tick(n) of R460 at time `t`, with ENC_VALID as it reads. -/
def helTick (d : Dev) (t : Nat) (enc : Bool) : Dev :=
  if !helRuns d then d
  else
    let d := inc d Adr.HEL_SAMPLE
    let was := d.hel.mode
    let d := helModes d enc
    let d := setHel d fun h => { h with smp := helSampled d }
    let over_ := d.hel.ticked && !d.hel.complete
    let d := if over_ then helOverrun d was else setHel d fun h => { h with overruns := 0 }
    let low := !enc && decide (d.hel.mode = 2 ∨ d.hel.mode = 3) && !inStripe d
    let d := setHel d fun h => { h with encLow := if low then h.encLow + 1 else 0 }
    let d := if 2 ≤ d.hel.encLow then helCause d else d
    let d := injTick d
    let h := d.hel
    let ramp := h.y - h.y.sign * min (h.y.natAbs : Int) (smpRamp h)
    let d :=
      if h.mode = 4 then
        if h.hold then setHel d fun h => { h with hold := false }
        else
          let d := setHel d fun h => { h with y := ramp }
          if ramp = 0 then helEvt (setHel (helSlope d 0) fun h => { h with mode := 1 }) Bit.evt_HEL_SAFE_DONE else d
      else if h.ticked && h.complete then setHel d fun h => { h with y := h.ystage }
      else d
    let g := if d.hel.inj && injPoint d = 2 then d.hel.injG else 0
    let defl := clampI (-524288) 524287 ((d.hel.y + g + 128) / 256)
    let frame := dacFrame d defl
    let d := emit d (.dac frame)
    let d := capTick (setHel d fun h => { h with seq := (h.seq + 1) % 16, frame := frame }) defl
    let d := setHel d fun h => { h with
      ystage := h.y, ports := helPorts d t enc, pc := fd d Adr.HEL_CFG 7 0, cyc := 0, going := true, ticked := true
      complete := false, hysted := false }
    wr d Adr.HEL_Y (w32 (ofS 32 d.hel.y))

/-! ### The law (R460, R461, R465) -/

/-- The leash on the first HYST of a sample (R465). -/
def helLeash (d : Dev) (e : Int) : Dev :=
  if d.hel.mode = 3 ∧ inStripe d then
    if d.hel.hysted then d
    else
      let d := setHel d fun h => { h with leash := if (e.natAbs : Int) ≤ 256 * smpLeash h then 0 else h.leash + 1 }
      if d.hel.leash ≠ 0 ∧ smpTime d.hel ≤ d.hel.leash then
        helCause (helErr d Bit.err_HEL_LEASH (w32 (ofS 32 e)))
      else d
  else setHel d fun h => { h with leash := 0 }

/-- HYST on the value `e` (R460). -/
def helHyst (d : Dev) (e : Int) : Dev :=
  let h := d.hel
  let act := decide (h.mode = 2 ∨ h.mode = 3)
  let e := if h.inj && injPoint d = 1 && act then satS 32 (e + h.injG) else e
  let hb := if h.mode = 2 then 4 * smpH h else smpH h
  let v : Int := if act then (if e > hb then 1 else if e < -hb then -1 else h.v) else h.v
  let d := setHel (helSlope d v) fun h => { h with
    ystage := if act then clampI (-134217728) 134217727 (h.y + v * smpS h) else h.ystage }
  let d := wr d Adr.HEL_ERR_LAST (w32 (ofS 32 e))
  let d := if act && decide ((rg d Adr.HEL_PEAK).toNat < e.natAbs) then wr d Adr.HEL_PEAK (w32 e.natAbs) else d
  setHel (helLeash d e) fun h => { h with hysted := true }

/-- OUT of the value `a` (R460). -/
def helOut (d : Dev) (a : Int) : Dev :=
  if d.hel.mode = 2 ∨ d.hel.mode = 3 then setHel d fun h => { h with ystage := clampI (-134217728) 134217727 a } else d

/-! ### Microcode (R468 to R473) -/

/-- The word at the program's address. -/
def ucWord (d : Dev) : Nat := (rg d (Adr.HEL_UC (d.hel.pc % 256))).toNat

/-- Fields of an instruction (R470). -/
def ucOp (w : Nat) : Nat := fld w 31 27
def ucD (w : Nat) : Nat := fld w 26 23
def ucA (w : Nat) : Nat := fld w 22 19
def ucB (w : Nat) : Nat := fld w 18 15
def ucImm (w : Nat) : Nat := fld w 14 0

/-- A program register; h0 reads 0 (R469). -/
def ucReg (h : Hel) (i : Nat) : Int := if i = 0 then 0 else nth h.h i 0

/-- Write a program register; h0 ignores writes (R469). -/
def ucSet (h : Hel) (i : Nat) (v : Int) : Hel := if i = 0 then h else { h with h := modNth h.h i fun _ => v }

/-- UC_FAULT (R471). -/
def ucFault (d : Dev) : Dev :=
  let pc := d.hel.pc
  helCause (helErr (setHel d fun h => { h with going := false }) Bit.err_HEL_UC_FAULT (w32 pc))

/-- Execute the instruction at the program's address when it is `op` and `cost` QCLK remain before the next tick (R473): `f` is
its action, from the word, and `go` the next address. An uncorrectable word faults instead (R471). -/
def ucExec (d : Dev) (op cost : Nat) (f : Dev → Nat → Dev) (go : Hel → Nat → Nat) : Dev :=
  let w := ucWord d
  if !qclk d || !d.hel.going || ucOp w ≠ op || decide (48 < d.hel.cyc + cost) then d
  else
    let (m, d) := injTake d (Page.hel.base 0) false
    if 2 ≤ m || d.hel.bad.contains (d.hel.pc % 256) then ucFault d
    else
      let pc := go d.hel w
      setHel (f d w) fun h => { h with pc := pc % 256, cyc := h.cyc + cost }

/-- The address after the instruction. -/
def ucNext (h : Hel) (_ : Nat) : Nat := h.pc + 1

/-- Execute an instruction that writes hd. -/
def ucAlu (d : Dev) (op cost : Nat) (f : Hel → Nat → Int) : Dev :=
  ucExec d op cost (fun d w => setHel d fun h => ucSet h (ucD w) (f h w)) ucNext

/-- MUL (R470): the rounded product, shifted and saturated. -/
def ucMul (a b : Int) (sh : Nat) : Int := satS 32 (if sh = 0 then a * b else (a * b + 2 ^ (sh - 1)) / 2 ^ sh)

/-- Store a microcode word (R468): only while ENABLE is 0. -/
def ucStore (d : Dev) (a : Nat) (v : W32) : Dev :=
  if bit (rg d (Page.hel.base 0 + oCTRL)) 0 ∨ 256 ≤ a then d
  else
    let (m, d) := injTake d (Page.hel.base 0) true
    setHel (wr d (Adr.HEL_UC a) v) fun h => { h with bad := if 2 ≤ m then setIns h.bad a else setDel h.bad a }

/-- Load the standard loop from ROM (R468). -/
def ucReload (d : Dev) : Dev :=
  { d with
    regs := d.regs.filter fun e => !decide (Adr.HEL_UC 0 ≤ e.1 ∧ e.1 < Adr.HEL_UC 256)
    hel := { d.hel with bad := [] } }

/-! ### Writes (R462, R468, R477 to R479, R482) -/

/-- A write of HEL_CMD. -/
def helCmd (d : Dev) (v : W32) : Dev :=
  let d := if bit v 3 then wr d Adr.HEL_PEAK 0 else d
  let d := if bit v 2 && !bit (rg d (Page.hel.base 0 + oCTRL)) 0 then ucReload d else d
  let d := if bit v 1 then helCause d else d
  if bit v 0 && d.hel.mode = 1 then setHel d fun h => { h with acqReq := true } else d

/-- A write of HEL_INJ_CTRL: POINT and WAVE are stored, ARM and STOP act (R477, R478). -/
def helInjCtrl (d : Dev) (v : W32) : Dev :=
  let d := wr d Adr.HEL_INJ_CTRL ((rg d Adr.HEL_INJ_CTRL &&& 3) ||| (v &&& 0x3C))
  let d := if bit v 1 && d.hel.inj then injAbort d else d
  if bit v 0 && injMay d then setFd d Adr.HEL_INJ_CTRL 0 0 1 else d

/-- A write of HEL_CAP_CTRL: TRIG and PRE are stored, ARM arms the capture (R479). -/
def helCapCtrl (d : Dev) (v : W32) : Dev :=
  let d := wr d Adr.HEL_CAP_CTRL (v &&& 0x077FFF00)
  if bit v 0 then
    setHel d fun h => { h with
      capArmed := true, capDone := false, capTrig := false, capN := 0, capFirst := 0, capLeft := 0, capCur := none, seen := 0 }
  else d

/-- A write of HEL_CFG (R482): ENTRY only while ENABLE is 0. -/
def helCfg (d : Dev) (v : W32) : Dev :=
  wr d Adr.HEL_CFG (if bit (rg d (Page.hel.base 0 + oCTRL)) 0 then (v &&& 0x300) ||| (rg d Adr.HEL_CFG &&& 0xFF) else v &&& 0x3FF)

/-- SOFT_RESET of the HEL page. -/
def helReset (d : Dev) : Dev :=
  let d := helCause (injAbort d)
  let d := setHel d fun h => { h with capArmed := false, capCur := none }
  wr (wr d Adr.HEL_CNT_OVERRUN 0) Adr.HEL_CNT_SWITCH 0

end Sys2Proof.Machine
end

