-- ==== Sys2Proof/Machine/Pd.lean ====
section
/-! DEFINITION. Requests to switch a power domain (R673 to R679) and the clocks of the domains (R683, R684). -/

namespace Sys2Proof.Machine

/-- Change domain `n`. -/
def setPd (d : Dev) (n : Nat) (f : Pd → Pd) : Dev := { d with pmu := { d.pmu with pd := modNth d.pmu.pd n f } }

/-- The domains that PLL `p` serves. -/
def pllDomains (p : Nat) : List Nat := (List.range 14).filter fun n => pllOf n = p

/-- Start the PLL of a domain (R684). -/
def pllStart (d : Dev) (p : Nat) : Dev := { d with pmu := { d.pmu with run := d.pmu.run ||| 2 ^ p } }

/-- PLL `p` is locked. -/
def pllLock (d : Dev) (p : Nat) : Dev :=
  { d with pmu := { d.pmu with run := d.pmu.run ||| 2 ^ p, lock := d.pmu.lock ||| 2 ^ p } }

/-- PLL `p` is not locked. -/
def pllUnlock (d : Dev) (p : Nat) : Dev :=
  if d.pmu.lock.testBit p then { d with pmu := { d.pmu with lock := d.pmu.lock - 2 ^ p } } else d

/-- PLL `p` stops. -/
def pllStop (d : Dev) (p : Nat) : Dev :=
  let d := pllUnlock d p
  if d.pmu.run.testBit p then { d with pmu := { d.pmu with run := d.pmu.run - 2 ^ p } } else d

/-- A PLL stops when every domain it serves is off (R684). -/
def pllSettle (d : Dev) (p : Nat) : Dev :=
  if (pllDomains p).all fun n => pdState d n = .off then pllStop d p else d

/-- Request `q` for domain `n` acts (R674, R676, R678): 1 on, 2 off, 3 self-refresh. A request that changes nothing is done. -/
def pdAct (d : Dev) (n q : Nat) : Dev :=
  match pdState d n, q with
  | .off, 1 =>
    let d := if n = 5 ∨ n = 6 ∨ n = 11 ∨ n = 12 then standbyLeave d else d
    setPd (pllStart d (pllOf n)) n fun p => { p with st := .switchingOn, fromSr := false }
  | .selfRefresh, 1 => setPd (standbyLeave d) n fun p => { p with st := .switchingOn, fromSr := true }
  | .on, 2 => setPd d n fun p => { p with st := .switchingOff }
  | .selfRefresh, 2 => setPd (standbyLeave d) n fun p => { p with st := .switchingOff }
  | .on, 3 => if n = 9 ∨ n = 10 then setPd d n fun p => { p with st := .selfRefresh } else d
  | _, _ => d

/-- A request reaches the PMU (R673, R676): ignored for domains 0 and 1; it waits while the domain switches. -/
def pdAsk (d : Dev) (n q : Nat) : Dev :=
  if n < 2 ∨ 14 ≤ n then d
  else
    match pdState d n with
    | .switchingOn => setPd d n fun p => { p with wait := p.wait ++ [q] }
    | .switchingOff => setPd d n fun p => { p with wait := p.wait ++ [q] }
    | _ => pdAct d n q

end Sys2Proof.Machine
end

