-- ==== Sys2Proof/Machine/Exp.lean ====
section
/-! DEFINITION. Exposure timing and the muzzle (R406 to R453, R748, R750, R757): stage counts, boundaries, shots, tickets, stripes,
strobes. Times are in 0.5 ns. -/

namespace Sys2Proof.Machine

/-- Change EXP. -/
def setExp (d : Dev) (f : Exp → Exp) : Dev := { d with exp := f d.exp }

/-- Change the running stripe. -/
def setRun (d : Dev) (f : Run → Run) : Dev := setExp d fun e => { e with run := e.run.map f }

/-- Change MUZ. -/
def setMuz (d : Dev) (f : Muz → Muz) : Dev := { d with muz := f d.muz }

/-- Raise an event of the EXP page. -/
def expEvt (d : Dev) (b : Nat) : Dev := evt d (Page.exp.base 0) b

/-- GLR_TMIN.NS (R368): 500 ns with no lane live. -/
def glrTminNs (d : Dev) : Nat :=
  let n := (liveLanes d).length
  if n = 0 then 500 else linkTmin n

/-- TMIN of R419, in ns. -/
def tminNs (d : Dev) : Nat := max (fd d Adr.EXP_TMIN 15 0) (glrTminNs d)

/-- OSREQ of R423. -/
def osReq (d : Dev) : Nat := if 0 < d.exp.osLeft then fd d Adr.EXP_PACE 15 8 else 255

/-- Whether the running stripe is that of ticket number `k`. -/
def running (d : Dev) (k : Nat) : Option Run := d.exp.run.filter fun r => r.tkt.seq = k

/-! ### Stage faults (R409, R418, R424 to R426, R434) -/

/-- FEEDBACK_LOST, FREEZE, REVERSAL or SKIP_LIMIT: muzzle, abort from the first undecided shot with a STOP entry, HALTED, whatever
severity FCL gives the error; feedback loss and freeze also signal HEL (R426). -/
def stageFault (d : Dev) (b : Nat) : Dev :=
  let d := setMuz d fun m => { m with track := true }
  let d := if b = Bit.err_EXP_FEEDBACK_LOST ∨ b = Bit.err_EXP_FREEZE then helCause d else d
  match d.exp.run with
  | some r =>
    if d.muz.supply && b != Bit.err_EXP_SKIP_LIMIT then
      -- R435: the abort falls at the end of the supply muzzle; EXP is in HALTED from now on (R750)
      halt (errHold (setMuz d fun m => { m with supplyBroke := true }) (Page.exp.base 0) b (w32 r.shots) r.tkt.index)
    else
      let d := expErr d b
      if (d.exp.run.filter fun x => x.tkt.seq = r.tkt.seq).isSome then halt (abortStripe (muzMoment d) (some 5)) else halt d
  | none => halt (expErr d b)

/-- Feedback loss (R424): only while a stripe is in LEAD or RUN. -/
def feedbackLost (d : Dev) : Dev := if inStripe d then stageFault d Bit.err_EXP_FEEDBACK_LOST else d

/-! ### Travel and boundaries (R410 to R418) -/

/-- T of the running stripe (R410). -/
def travel (d : Dev) (r : Run) : Int :=
  let diff := toS 48 (d.exp.pos + 2 ^ 48 - r.posGo)
  if r.tkt.minus = (decide (fd d Adr.EXP_CFG 4 4 = 1)) then diff else -diff

/-- Number of pixel boundaries of a stripe: the lead boundaries and one for each shot. -/
def boundaries (r : Run) : Nat := r.goLead + r.tkt.n

/-- The scheduled boundary, if its time has come by `t`, is reached. -/
def schedDue (r : Run) (t : Nat) : Run :=
  match r.sched with
  | some x => if x ≤ t then { r with sched := none, due := r.due ++ [x], nb := r.nb + 1 } else r
  | none => r

/-- T rises to `T` at time `t` (R411, R412, R416). -/
def travelUp (r : Run) (tr : Int) (t : Nat) : Run :=
  let r := schedDue r t
  let r := match r.sched with
    | some _ => { r with sched := none, due := r.due ++ [t], nb := r.nb + 1 }   -- c + 1 reached before the scheduled time
    | none => r
  let r := { r with tau := t - r.tEdge, tEdge := t }
  if tr < r.hwm then r
  else
    let r := { r with hwm := tr }
    let x := r.nb * r.ratio
    if r.nb < boundaries r ∧ ((x / 65536 : Nat) : Int) = tr then
      let f := x % 65536
      if f = 0 then { r with due := r.due ++ [t], nb := r.nb + 1 }
      else { r with sched := some (t + (f * r.tau + 32768) / 65536) }
    else r

/-- T falls at time `t`: a boundary whose time has not come is cancelled (R412). -/
def travelDown (r : Run) (t : Nat) : Run :=
  { schedDue r t with sched := none, tau := t - r.tEdge, tEdge := t }

/-- A count edge at time `t` (R406 to R411, R416 to R418). -/
def countEdge (d : Dev) (up : Bool) (t : Nat) : Dev :=
  let last := d.exp.lastEdge
  let d := setExp d fun e => { e with
    pos := if up then (e.pos + 1) % 2 ^ 48 else (e.pos + 2 ^ 48 - 1) % 2 ^ 48
    lastEdge := some t, edges := (t :: e.edges).take 9, lastUp := up }
  let d := match d.exp.run with
    | none => d
    | some r =>
      let tr := travel d r
      let r := { r with tEdge := last.getD r.tEdge }
      let fwd := up != (r.tkt.minus != decide (fd d Adr.EXP_CFG 4 4 = 1))
      if fwd then setExp d fun e => { e with run := some (travelUp r tr t) }
      else
        let d := inc (setExp d fun e => { e with run := some (travelDown r t) }) Adr.EXP_CNT_BACKLASH
        if tr < r.hwm - fd d Adr.EXP_GUARD 7 0 then stageFault d Bit.err_EXP_REVERSAL else d
  match last with
  | some l => if t - l < 36 then feedbackLost d else d
  | none => d

/-- The stage inputs change at time `t` (R406, R408, R409). In STEP/DIR, `x` is STEP and `y` DIR; in quadrature, A and B. `width`
is how long, in ns, the inputs hold the new levels: shorter pulses than the filter passes are rejected, and the filtered levels
stand. A count needs a rising edge of the filtered STEP. While PD_EXP is off nothing counts, and the levels follow the inputs. -/
def stageInput (d : Dev) (x y : Bool) (width t : Nat) : Dev :=
  if width < 2 * fd d Adr.EXP_CFG 3 0 then d
  else
    let a := d.exp.qA
    let b := d.exp.qB
    let d := setExp d fun e => { e with qA := x, qB := y }
    if pdState d 13 ≠ .on then d
    else match fd d Adr.EXP_CFG 9 8 with
    | 0 => if x && !a then countEdge d y t else d
    | 1 =>
      if a ≠ x ∧ b ≠ y then feedbackLost d
      else if a ≠ x then countEdge d (x != y) t      -- A rises while B is low, or falls while B is high
      else if b ≠ y then countEdge d (x == y) t      -- B rises while A is high, or falls while A is low
      else d
    | _ => d

/-! ### Gather, frames and commits (R360, R414, R431) -/

/-- Gather frames up to `g` of the running stripe that have not been gathered; STC stops during a halt (R614). -/
def gatherTo (d : Dev) (g : Nat) : Dev :=
  match d.exp.run with
  | none => d
  | some r =>
    if g < r.gathered ∨ r.tkt.n ≤ g ∨ d.fcl.halted then d
    else stcGather (setRun d fun r => { r with gathered := g + 1 }) r.tkt g [] 0

/-- LSEQ of frame `f` of a ticket on the link, if it has been sent. -/
def frameLseq (d : Dev) (k f : Nat) : Option Nat :=
  if linkUp d then ((d.glr.hist.find? fun h => h.2.tseq = k && h.2.shot = f).map (·.2.lseq)) else none

/-- Hand frame `g` to GLR, with the commit for the frame two before it (R414). -/
def handOver (d : Dev) (g : Nat) (commit : Option Bool) : Dev :=
  match d.exp.run with
  | none => d
  | some r => setRun (beginFrame d r g commit) fun r => { r with begun := max r.begun (g + 1) }

/-- Commit shot `f` of ticket number `k` with `n` shots (R360, R415): in frame f + 2 when it begins, else as a COMMIT unit. -/
def commitShot (d : Dev) (k n f : Nat) (fire : Bool) : Dev :=
  let d := if f + 2 < n then gatherTo d (f + 2) else d
  let sent := frameLseq d k f
  match running d k with
  | some _ =>
    if f + 2 < n then
      let d := handOver d (f + 2) (if sent.isSome then some fire else none)
      match sent, frameLseq d k (f + 2) with
      | some l, none => if linkUp d then commitUnit d fire l else d
      | _, _ => d
    else
      let d := setGlr d fun g => { g with leaving := [] }
      match sent with
      | some l => if linkUp d then commitUnit d fire l else d
      | none => d
  | none => match sent with
    | some l => commitUnit d fire l
    | none => d

/-! ### Shots (R413 to R423, R427 to R429) -/

/-- Take the next boundary of the running stripe that has been reached, or is the scheduled one: its time. -/
def takeBoundary (d : Dev) : Option (Nat × Run) :=
  match d.exp.run with
  | none => none
  | some r =>
    match r.due, r.sched with
    | t :: rest, _ => some (t, { r with due := rest, next := r.next + 1 })
    | [], some t => some (t, { r with sched := none, nb := r.nb + 1, next := r.next + 1 })
    | [], none => none

/-- A lead boundary (R414, R420, R431). -/
def leadBoundary (d : Dev) : Dev :=
  match takeBoundary d with
  | none => d
  | some (t, r) =>
    let n := r.next - 1
    if r.goLead ≤ n then d
    else
      let last := r.lastB
      let r := { r with
        lastB := some t, lastIv := match last with | some l => t - l | none => r.lastIv
        lastFired := if n + 1 = r.goLead then some t else r.lastFired }
      let d := setExp d fun e => { e with run := some r }
      let k := n + 2 - r.goLead
      if n + 2 < r.goLead ∨ r.tkt.n ≤ k then d else handOver (gatherTo d k) k none

/-- Whether a cause that covers shots is present, or a muzzle holds (R432, R437). -/
def covered (d : Dev) : Bool := d.muz.muzzled || muzCause d || d.muz.momentary

/-- Open the covering entries at shot `f` (R62, R436). -/
def openCover (d : Dev) (f : Nat) : Dev :=
  setMuz d fun m => { m with
    blankFrom := if m.blankPin && m.blankFrom.isNone then some f else m.blankFrom
    whFrom := if m.whBlank && m.whFrom.isNone then some f else m.whFrom
    supplyFrom := if m.supply && m.supplyFrom.isNone then some f else m.supplyFrom }

/-- What EXP decides at a shot's boundary. -/
inductive Decision where
  | fire | skip | blank
  deriving DecidableEq, Repr

/-- After shot `f` has been decided at time `t` and committed: counts, events and the end of the stripe (R415). -/
def shotDone (d : Dev) (k f : Nat) : Dev :=
  let d := if f = 0 then expEvt d Bit.evt_EXP_STRIPE_START else d
  match running d k with
  | some r => if f + 1 = r.tkt.n then endStripe d r else d
  | none => d

/-- More than SKIP_LIMIT skips among the last SKIP_WINDOW boundaries (R422). -/
def skipOver (d : Dev) (r : Run) (f : Nat) : Bool :=
  decide (fd d Adr.EXP_SKIP 7 0 < (r.skips.filter fun s => f < s + fd d Adr.EXP_SKIP 31 16).length)

/-- Shot `f` is decided: EXP_SHOT, the interval and OSREQ's count (R423). -/
def decideShot (d : Dev) (r : Run) (f t : Nat) (dec : Decision) : Dev :=
  let iv := match r.lastB with
    | some l => t - l
    | none => r.lastIv
  let r := { r with
    lastB := some t, lastIv := iv, shots := f + 1
    lastFired := if dec = .fire then some t else r.lastFired
    skips := if dec = .skip then f :: r.skips else r.skips }
  wr (wr (setExp d fun e => { e with run := some r }) Adr.EXP_SHOT (w32 f)) Adr.EXP_PERIOD (w32 iv)

/-- A shot's boundary (R414, R420 to R423, R434 to R437, R384, R300). -/
def shotBoundary (d : Dev) : Dev :=
  match takeBoundary d with
  | none => d
  | some (t, r) =>
    let n := r.next - 1
    if n < r.goLead then d
    else
      let f := n - r.goLead
      let k := r.tkt.seq
      let total := r.tkt.n
      let stop := match r.tkt.stopAt with
        | some a => decide (a ≤ f)
        | none => false
      if stop then sevStop (setExp d fun e => { e with run := some r })
      else
        let d := if 1 < d.exp.osLeft then setExp d fun e => { e with osLeft := e.osLeft - 1 } else d
        if r.refused then shotDone (commitShot (decideShot d r f t .blank) k total f false) k f
        else if covered d then
          shotDone (commitShot (openCover (decideShot d r f t .blank) f) k total f false) k f
        else
          let tmin := tminNs d
          let gap := match r.lastFired with
            | some l => t - l
            | none => t
          let d := if gap ≤ 2 * (tmin * fd d Adr.EXP_OVS 8 0 / 256) then
              expEvt (setExp d fun e => { e with osLeft := 1025 }) Bit.evt_EXP_OVERSPEED
            else d
          if gap < 2 * tmin then
            let d := inc (decideShot d r f t .skip) Adr.EXP_CNT_SKIP
            let d := stripeEnt d .exp r.tkt 3 2 (w32 f) (w32 f)
            let d := commitShot d k total f false
            let d := err d (Page.exp.base 0) Bit.err_EXP_SKIP (w32 f) r.tkt.index
            let d := match running d k with
              | some r => if skipOver d r f then stageFault d Bit.err_EXP_SKIP_LIMIT else d
              | none => d
            shotDone d k f
          else
            let blocked := match frameLseq d k f with
              | some l => ackBlocked d l || !unackEmpty d
              | none => false
            if blocked then
              let d := setExp d fun e => { e with run := some r }
              let d := ackStall d ((frameLseq d k f).getD 0)
              match running d k with
              | some _ => halt (abortStripe (muzMoment d) (some 5))
              | none => d
            else if (frameLseq d k f).isNone then
              shotDone (commitShot (decideShot d r f t .blank) k total f false) k f
            else
              let d := inc (decideShot d r f t .fire) Adr.EXP_CNT_SHOTS
              let d := setMuz (emit d (.mark (if f = 0 then 256 else 64))) fun m => { m with
                pulses := m.pulses ++ [{ shot := f, tkt := r.tkt }] }
              shotDone (commitShot d k total f true) k f

/-! ### STRIPE_GO (R446, R447, R562) -/

/-- The conditions of R446, as EXP_REFUSE shows them. -/
def refuseWhy (d : Dev) : Nat :=
  b2n (!d.stc.dbm.valid) + 2 * b2n (tagRefuses d) + 4 * b2n (!unackEmpty d) + 8 * b2n (d.glr.st != 8) +
  16 * b2n d.exp.halted + 32 * b2n (d.muz.stuck || d.fcl.lvl.any fun l => decide (3 ≤ l)) + 64 * b2n (decide (mendFree d < 16))

/-- Whether a slot is SHADOW (R558). -/
def slotShadow (d : Dev) (b : Bool) : Bool := b != d.glb.activeB && !d.glb.pend

/-- Whether a domain of R448, or the swap's work of R561, is not ready (R449). -/
def wakeLate (d : Dev) : Bool :=
  ([8, 9, 10, 11, 12].any fun n => pdState d n != .on) || !d.pmu.lock.testBit 9 || d.exp.swapWork

/-- The rising edge of STRIPE_GO at time `t` (R413, R428, R438, R446, R447, R562, R466). -/
def stripeGo (d : Dev) (t : Nat) : Dev :=
  if pdState d 13 ≠ .on then d
  else
    match d.exp.run, d.exp.queue with
    | none, k :: _ =>
      let why := refuseWhy d
      let stale := slotShadow d k.slotB
      let refused := decide (why ≠ 0) || stale || k.rejected || k.swept
      let width := fd d (slotReg k.slotB Adr.EXP_STROBE_A Adr.EXP_STROBE_B) 9 0
      let lim := width + 2 * fd d Adr.MUZ_GRACE 7 0
      let r : Run :=
        { tkt := k, refused := refused
          ratio := fd d (slotReg k.slotB Adr.EXP_RATIO_A Adr.EXP_RATIO_B) 24 0
          width := width, goLead := max 2 (fd d Adr.EXP_GO 15 0), posGo := d.exp.pos, hwm := 0, tEdge := t, tau := 0
          nb := 1, sched := none, due := [t], next := 0, shots := 0, lastFired := none, lastB := none, lastIv := 0
          skips := [], begun := 0, gathered := 0 }
      let notReady := fd d Adr.HEL_CFG 8 8 = 1 && d.hel.mode != 3
      let late := wakeLate d
      let d := setExp d fun e => { e with run := some r, goPos := e.pos }
      let d := setMuz d fun m => { m with limit := lim, supplyBroke := false }
      let d := setHel d fun h => { h with seen := h.seen ||| 2, leash := 0 }
      let d := wr (wr (wr d Adr.EXP_STRIPE k.index) Adr.EXP_N (w32 k.n)) Adr.EXP_REFUSE (w32 why)
      let d := if refused && !k.rejected then putEnt d (mkEnt d .exp k 5 2 0 (w32 (k.n - 1))) else d
      let d := if stale then err d (Page.glb.base 0) Bit.err_GLB_SLOT_STALE k.index (w32 (b2n k.slotB)) else d
      let d := if why ≠ 0 then expErr d Bit.err_EXP_REFUSED else d
      let d := if late then expErr d Bit.err_EXP_WAKE_LATE else d
      if notReady then helErr d Bit.err_HEL_NOT_READY 0 else d
    | _, _ => inc d Adr.EXP_CNT_GO_IGNORED

/-! ### Tickets (R443 to R445, R448, R748) -/

/-- A write to EXP_TKT (R443): the eighth word completes the record. -/
def tktWord (d : Dev) (v : W32) : Dev :=
  let w := d.exp.words ++ [v]
  if w.length < 8 then setExp d fun e => { e with words := w }
  else setExp d fun e => { e with words := [], arriving := e.arriving ++ [w] }

/-- The ticket of a record (R47), with the geometry latched (R37). -/
def mkTkt (d : Dev) (w : List W32) : Tkt :=
  let x (i : Nat) : W32 := nth w i 0
  { seq := d.exp.count, index := x 0, fieldId := bits (x 1) 31 16, slotB := bit (x 1) 2, mending := bit (x 1) 1
    minus := bit (x 1) 0, gridId := bits (x 2) 15 0, y0 := toS 32 (x 3).toNat, x0 := toS 32 (x 4).toNat
    len := bits (x 5) 23 0, wakeLead := bits (x 6) 15 0, mendSet := (x 7).toNat
    dmax := fd d Adr.GEOM_DMAX 13 0
    geom := d.regs.filter fun e => decide (Adr.ROW_DELAY 0 ≤ e.1 ∧ e.1 < Adr.GEOM_DMAX)
    rejected := false, gen := none, serial := 0, stopAt := none, swept := false }

/-- The next completed record is accepted (R444, R66, R748, R560). The read of the geometry table uses up an injection of the EXP
page (R603); no rule states what an uncorrectable word of it does. -/
def tktAccept (d : Dev) : Dev :=
  match d.exp.arriving with
  | [] => d
  | w :: rest =>
    if 4 ≤ d.exp.queue.length then d
    else
      let (_, d) := injTake d (Page.exp.base 0) false
      let t := mkTkt d w
      let bad := t.mending && !setChecks d t.mendSet
      let lost := t.mending && !bad && !setHeld d t.mendSet
      let t := { t with rejected := bad || lost }
      let idle := d.exp.queue = []
      let d := setExp d fun e => { e with arriving := rest, queue := e.queue ++ [t], count := e.count + 1 }
      let d := { d with stc := { d.stc with todo := d.stc.todo ++ [t] } }
      let d := if bad then expTktErr d Bit.err_EXP_MEND_SET_BAD t else if lost then expTktErr d Bit.err_EXP_MEND_GEN_LOST t else d
      let d := expEvt d Bit.evt_EXP_ACCEPTED
      if idle then stripeBoundary d else d

/-- EXP asks the PMU to wake the domains of R448 for the head ticket. -/
def expWake (d : Dev) : Dev :=
  if d.exp.queue = [] ∨ d.exp.run.isSome ∨ d.exp.wakeHead then d
  else
    let d := setExp d fun e => { e with wakeHead := true }
    [9, 10, 8, 11, 12].foldl (fun d n => pdAsk d n 1) d

/-! ### HALTED (R441) -/

/-- Whether an abort cause of R434 is present. -/
def abortCause (d : Dev) : Bool :=
  let m := d.muz
  m.abortPin || m.whStop || m.netstop || m.stuck || m.sev3 || m.reset || d.fcl.lvl.any fun l => decide (2 ≤ l)

/-- A write of EXP_CMD (R441, R443). -/
def expCmd (d : Dev) (v : W32) : Dev :=
  let d := if bit v 0 then setExp d fun e => { e with words := [] } else d
  if bit v 1 && d.exp.halted && !abortCause d then
    setMuz (setExp d fun e => { e with halted := false }) fun m => { m with track := false }
  else d

/-- An abort cause with an EXTERNAL entry begins (R434, R750). -/
def externalStop (d : Dev) : Dev := halt (abortStripe (muzUpdate d) (some 6))

/-- A covering cause has ended at the first undecided shot (R62, R434, R436): its entry. -/
def closeOne (d : Dev) (from_ : Option Nat) (cause : Nat) : Dev :=
  match d.exp.run, from_ with
  | some r, some a =>
    if a < r.shots && !r.refused then addEnt d (mkEnt d .exp r.tkt cause 2 (w32 a) (w32 (r.shots - 1))) else d
  | _, _ => d

/-! ### Strobe and watchdog (R427, R432, R438 to R440, R746) -/

/-- STROBE rises for the oldest pulse in progress that is not high yet (R427). While CUT of MUZ's _INJECT reads 1, the pulse reads
to the watchdog as reaching MUZ_LIMIT (R746). -/
def strobeRise (d : Dev) : Dev :=
  match d.muz.pulses with
  | [] => d
  | p :: rest =>
    if p.high then d
    else setMuz d fun m => { m with
      pulses := { p with high := true, cut := bit (rg d (Page.muz.base 0 + oINJECT)) 0 } :: rest }

/-- Pulses have ended: with none in progress, a waiting muzzle begins (R432). -/
def pulseOver (d : Dev) : Dev :=
  if d.muz.momentary && d.muz.pulses = [] then muzBlink (setMuz d fun m => { m with momentary := false }) else muzUpdate d

/-- A strobe reads as reaching MUZ_LIMIT (R438, R746): MUZ cuts it, sets STUCK and records the shot, and an injected CUT is used
up. BLANK_ALL# withholds every later pulse in progress as well (DEDUCED, log entry 89): the STOP entry of R434 runs from the shot
after the cut one. -/
def strobeCut (d : Dev) : Dev :=
  match d.muz.pulses with
  | [] => d
  | p :: _ =>
    if !p.high then d
    else
      let d := if p.cut then wr d (Page.muz.base 0 + oINJECT) 0 else d
      let d := setMuz d fun m => { m with stuck := true, pulses := [] }
      let d := pulseOver (wr (wr d Adr.MUZ_CUT_SHOT (w32 p.shot)) Adr.MUZ_CUT_STRIPE p.tkt.index)
      let d := match running d p.tkt.seq with
        | some _ => halt (abortFrom d (some 5) (some (p.shot + 1)))
        | none =>
          if (d.glr.ended.any fun e => e.index = p.tkt.index ∧ e.serial = p.tkt.serial) ∧ p.shot + 1 < p.tkt.n then
            putEnt d (mkEnt d .exp p.tkt 5 2 (w32 (p.shot + 1)) (w32 (p.tkt.n - 1)))
          else d
      err d (Page.muz.base 0) Bit.err_MUZ_STUCK (w32 p.shot) p.tkt.index

/-- STROBE falls, but for a pulse that reads as reaching MUZ_LIMIT, which the watchdog ends (R427, R432, R746). -/
def strobeFall (d : Dev) : Dev :=
  match d.muz.pulses with
  | [] => d
  | p :: rest =>
    if !p.high then d
    else if p.cut then strobeCut d
    else pulseOver (setMuz d fun m => { m with pulses := rest })

/-- A write of MUZ_CMD (R440). -/
def muzCmd (d : Dev) (v : W32) : Dev :=
  if bit v 0 && d.muz.stuck && !(d.fcl.lvl.any fun l => decide (3 ≤ l)) then
    muzUpdate (setMuz d fun m => { m with stuck := false })
  else d

end Sys2Proof.Machine
end

