-- ==== Sys2Proof/Machine/Look.lean ====
section
/-! DEFINITION. The look-ahead, due rows, and the space that BOB frees (R302, R313 to R317, R334 to R338). -/

namespace Sys2Proof.Machine

/-- Patch rows of a section. -/
def secRows (s : Sec) : Nat := (s.len + 255) / 256

/-- Change the section of ticket number `k`. -/
def setSec (d : Dev) (k : Nat) (f : Sec → Sec) : Dev :=
  { d with secs := d.secs.map fun s => if s.num = k then f s else s }

/-- The ticket of number `k` as EXP or STC holds it. -/
def tktOf (d : Dev) (k : Nat) : Option Tkt :=
  match d.exp.queue.find? fun t => t.seq = k with
  | some t => some t
  | none =>
    match d.stc.todo.find? fun t => t.seq = k with
    | some t => some t
    | none => (d.stc.cur.filter fun s => s.tkt.seq = k).map (·.tkt)

/-- The ticket of a section: as latched where it is accepted, else the words that STRIPE_OPEN copies (R106). -/
def secTkt (d : Dev) (s : Sec) : Tkt := (tktOf d s.num).getD s.tkt

/-! ### Look-ahead (R334 to R337) -/

/-- Qv: leading patch rows with every verdict. -/
def secQv (s : Sec) : Nat := ((List.range (secRows s)).takeWhile fun q => rowVerdicts s q).length

/-- Verified pixel rows of a section. -/
def secVerified (s : Sec) : Nat := min s.len (256 * secQv s)

/-- Verified rows of the sections from number `k` on, while every one before is fully verified. -/
def laFrom : List Sec → Nat → Nat
  | [], _ => 0
  | s :: r, k => if s.num = k then secVerified s + (if secQv s = secRows s then laFrom r (k + 1) else 0) else 0

/-- The number of the stripe at the writing point: the running one, or the next. -/
def nextNum (d : Dev) : Nat :=
  match d.exp.run, d.exp.queue with
  | some r, _ => r.tkt.seq
  | none, t :: _ => t.seq
  | none, [] => d.exp.count

/-- LA_ROWS (R334). -/
def laRows (d : Dev) : Nat :=
  let k := nextNum d
  match d.secs.dropWhile fun s => s.num < k with
  | [] => 0
  | s :: r =>
    if s.num ≠ k then 0
    else
      let ug := match d.exp.run with
        | some x => x.gathered - 1 - emin x.tkt
        | none => 0
      secVerified s - ug + (if secQv s = secRows s then laFrom r (k + 1) else 0)

/-- LA_US (R335), from TMIN of R419. -/
def laUs (d : Dev) : Nat := laRows d * tminNs d / 1000

/-- Whether a stripe is armed or active. -/
def anyStripe (d : Dev) : Bool := d.exp.run.isSome || d.exp.queue != []

/-- REQ (R337). -/
def bobReq (d : Dev) : Nat :=
  let low := fd d Adr.BOB_WM_LOW 23 0
  if low ≤ laUs d ∨ !anyStripe d then 255 else max (fd d Adr.BOB_PACE 7 0) (255 * laUs d / low)

/-- Whether BOB reports the look-ahead below its high watermark (R238). -/
def belowHigh (d : Dev) : Bool := decide (laUs d < fd d Adr.BOB_WM_HIGH 23 0)

/-- LOW and HIGH (R336). -/
def lookCheck (d : Dev) : Dev :=
  let low := anyStripe d && decide (laUs d < fd d Adr.BOB_WM_LOW 23 0)
  let high := !belowHigh d
  let wasLow := d.bob.low
  let wasHigh := d.bob.wasHigh
  let d := { d with bob := { d.bob with low := low, wasHigh := high } }
  let d := if low && !wasLow then evt (inc d Adr.BOB_CNT_LOW) (Page.bob.base 0) Bit.evt_BOB_LOW else d
  if high && !wasHigh then evt d (Page.bob.base 0) Bit.evt_BOB_HIGH else d

/-! ### Due rows (R338) -/

/-- Whether row `u` of the stripe of ticket number `k` is due. -/
def rowDue (d : Dev) (k u : Nat) : Bool :=
  match running d k with
  | some r => decide (256 * (u / 256) + emin r.tkt - fd d Adr.BOB_DUE 15 0 < r.gathered)
  | none => tktOver d k

/-! ### Space (R302, R313 to R317, R442, R546) -/

/-- Whether patch row `q` of section `k` is consumed (R302, R442). -/
def patchRowConsumed (d : Dev) (k q : Nat) : Bool :=
  tktOver d k ||
  match d.stc.cur with
  | some st => if st.tkt.seq = k then rowConsumed st q else decide (k < st.tkt.seq)
  | none => false

/-- Whether a snapshot holds the space of a patch row (R546). -/
def snapHolds (d : Dev) (k q : Nat) : Bool := d.engs.any fun e =>
  match e.job with
  | some j => j.hold = some (k, q)
  | none => false

/-- Whether a raster of patch (p, q) of section `k` is still to come: its report yet gives the patch its verdict and counts (R249). -/
def rasterAhead (d : Dev) (k : Nat) (x : Patch) : Bool :=
  let same (w : Work) : Bool := w.sec = k && w.q = x.q && w.p = x.p
  !x.queued || d.ver.wait.any same || d.ver.rr.any same || d.ver.retry.any same || d.ver.tiles.any fun t => t.work.any same

/-- BOB frees what is consumed: window space (R316) and patch records (R317). Of a patch with a raster still to come the model keeps
the data, its record's units being free. A section of which nothing is left keeps its verdicts only. -/
def bobFree (d : Dev) : Dev :=
  let win := d.bob.win.filter fun w => !patchRowConsumed d w.sec w.q || snapHolds d w.sec w.q
  let spent (s : Sec) (x : Patch) : Bool := patchRowConsumed d s.num x.q
  let units := sumN (d.secs.map fun s => sumN ((s.patches.filter (spent s)).map (·.units)))
  let secs := d.secs.map fun s =>
    let kept := s.patches.filter fun x => !spent s x || (!s.dropped && rasterAhead d s.num x)
    let s := { s with patches := kept.map fun x => if spent s x then { x with units := 0 } else x }
    if tktOver d s.num && s.closed && s.patches = [] && s.todo.isNone then
      { s with pieces := [], rho := [], bad := [], blank := [] }
    else s
  { d with secs := secs, bob := { d.bob with win := win, patchUsed := d.bob.patchUsed - units } }

/-- What BOB does after a step that moves the writing point, a verdict or the tickets. -/
def settle (d : Dev) : Dev := lookCheck (bobFree d)

/-- Bytes of a patch row (R313). -/
def winLen (b : Nat) : Nat := 393216 * b

/-- Whether `len` bytes from the ring's next free offset are free (R313, R315). -/
def winFits (d : Dev) (len : Nat) : Bool :=
  let size := rgnSize d 3
  let a := d.bob.winNext % max 1 size
  decide (len ≤ size) && d.bob.win.all fun w =>
    let o := (w.off + size - a) % max 1 size
    decide (len ≤ o ∧ o + w.len ≤ size)

/-- Reserve the space of patch row `q` of a section (R313, R315). -/
def winReserve (d : Dev) (s : Sec) (q : Nat) : Dev :=
  let size := max 1 (rgnSize d 3)
  let a := d.bob.winNext % size
  { d with bob := { d.bob with
    win := d.bob.win ++ [⟨s.num, q, a, winLen s.b⟩], winNext := (a + winLen s.b) % size } }

/-- Bytes of the window, and of the spool, that are free. -/
def winFreeBytes (d : Dev) : Nat := rgnSize d 3 - sumN (d.bob.win.map (·.len))
def spoolFree (d : Dev) : Nat := rgnSize d 0 - d.bob.spoolUsed

/-- Patch units that are free (R317). -/
def patchFree (d : Dev) : Nat := rgnSize d 2 / 4096 - d.bob.patchUsed

end Sys2Proof.Machine
end

