-- ==== Sys2Proof/Machine/Mc.lean ====
section
/-! DEFINITION. The pseudo-channel controllers (R306, R323 to R331): queues, commands, refresh. Times are in MCLK (0.625 ns). -/

namespace Sys2Proof.Machine

/-- The controller of physical pseudo-channel `p`. -/
def mcPc (d : Dev) (p : Nat) : Pc := (alGet d.bob.pcs p).getD {}

/-- Put a controller. -/
def setPc (d : Dev) (p : Nat) (f : Pc → Pc) : Dev :=
  { d with bob := { d.bob with pcs := alSet d.bob.pcs p (f (mcPc d p)) } }

/-- Bank `k` of a controller. -/
def pcBank (c : Pc) (k : Nat) : Bank := (c.banks.find? fun b => b.k = k).getD { k := k }

/-- Put a bank. -/
def putBank (c : Pc) (b : Bank) : Pc :=
  { c with banks := sortBy (fun x y => decide (x.k ≤ y.k)) (b :: c.banks.filter fun x => x.k != b.k) }

/-- Rotation index, row and sector of a device address (R308, R328). -/
def daBank (da : Nat) : Nat := (da / 1024 / 126) % 48
def daRow (da : Nat) : Nat := da / 1024 / 126 / 48

/-- The latency target of a port in MCLK (R327; 1.6 MCLK to the ns). -/
def portLt (d : Dev) (port : Nat) : Nat := fd d (Adr.BOB_LT port) 15 0

/-- The urgency of a request at MCLK `now` (R327): the age in ns against the target. -/
def urgency (d : Dev) (r : BReq) (now : Nat) : Nat :=
  let age5 := 5 * (now - r.at0)                   -- age in eighths of a ns
  let lt := 8 * portLt d r.port
  if 2 * age5 < lt then 0 else if age5 < lt then 1 else if age5 < 2 * lt then 2 else 3

/-- Whether two queued requests of a bank share a sector with a write among them (R329). -/
def needsOrder (q : List BReq) : Bool :=
  q.any fun a => q.any fun b => a.id != b.id && a.da / 32 = b.da / 32 && (a.wr || b.wr)

/-- A request enters its bank queue (R326, R329). -/
def mcEnter (d : Dev) (p : Nat) (r : BReq) : Dev :=
  let c := mcPc d p
  let b := pcBank c (daBank r.da)
  let clash := b.q.any fun x => x.da / 32 = r.da / 32 && (x.wr || r.wr)
  let d := if clash then inc d (Adr.MC_CNT_INORDER (p / 2)) else d
  setPc d p fun c => putBank c { b with q := b.q ++ [r], inorder := b.inorder || clash }

/-- Whether a request can enter its bank queue now. -/
def mcRoom (d : Dev) (p : Nat) (r : BReq) : Bool := decide ((pcBank (mcPc d p) (daBank r.da)).q.length < 8)

/-- The requests pseudo-channel `p` could admit (R326): each port's oldest, its bank queue having room, the ports in turn after
the last admitted. -/
def mcHeads (d : Dev) (p : Nat) : List BReq :=
  let c := mcPc d p
  ((List.range 15).filterMap fun i => c.held.find? fun h => h.port = (c.rr + 1 + i) % 15).filter fun r => mcRoom d p r

/-- The admission at MCLK `t` (R326): highest urgency first, the ports in turn; one request at most. -/
def mcAdmit (d : Dev) (p t : Nat) : Dev :=
  match (mcHeads d p).filter fun r => decide (r.at0 ≤ t) with
  | [] => d
  | r :: rest =>
    let best := rest.foldl (fun a x => if urgency d a t < urgency d x t then x else a) r
    mcEnter (setPc d p fun c =>
      { c with held := c.held.filter fun h => h.id != best.id, rr := best.port, admitAt := t + 1 }) p best

/-- The next MCLK at which `p` admits a request, given nothing else happens. -/
def mcNext (d : Dev) (p : Nat) : Option Nat :=
  match mcHeads d p with
  | [] => none
  | r :: rest => some (max (mcPc d p).admitAt (rest.foldl (fun a x => min a x.at0) r.at0))

/-- The admissions at MCLKs below `lim`, in order, `n` of them at most. -/
def mcCatchN : Nat → Dev → Nat → Nat → Dev
  | 0, d, _, _ => d
  | n + 1, d, p, lim =>
    match mcNext d p with
    | some t => if t < lim then mcCatchN n (mcAdmit d p t) p lim else d
    | none => d

/-- The admissions at MCLKs below `lim` (R326). The commands carry the time, so admissions are made up to it when a command
names the pseudo-channel (log entry 91). -/
def mcCatch (d : Dev) (p lim : Nat) : Dev := mcCatchN (mcPc d p).held.length d p lim

/-- The physical pseudo-channel that serves a request for `da` (R342): during a migration, chunks below PTR are served from the
target, chunks above it from the source, and none serves the chunk PTR itself. DESIGN CHOICE (log entry 91): a request stays
where its hand-over led it. -/
def mcRoute (d : Dev) (da : Nat) : Option Nat :=
  if d.bob.migBusy ∧ lpcOf da = d.bob.migSrc then
    (if da / 1024 / 126 < d.bob.migPtr then some d.bob.migDst
     else if da / 1024 / 126 = d.bob.migPtr then none else some (pcOf d da))
  else some (pcOf d da)

/-- A port hands over a request (R326, R342): it waits at its pseudo-channel for its admission, or for the copy of its chunk. -/
def mcRequest (d : Dev) (port da : Nat) (wr : Bool) (now : Nat) : Dev :=
  let r : BReq := { id := d.bob.reqNo, port := port, da := da, wr := wr, at0 := now }
  let d := wakeMem { d with bob := { d.bob with reqNo := d.bob.reqNo + 1 } }
  match mcRoute d da with
  | some p => setPc (mcCatch d p now) p fun c => { c with held := c.held ++ [r] }
  | none => { d with bob := { d.bob with migHeld := d.bob.migHeld ++ [r] } }

/-- The next command of a request at its bank (R328). -/
inductive Cmd where
  | pre | act | col
  deriving DecidableEq, Repr

def nextCmd (b : Bank) (r : BReq) : Cmd :=
  match b.opn with
  | none => .act
  | some row => if row = daRow r.da then .col else .pre

/-- The candidate of a bank (R328). -/
def candidate (d : Dev) (p : Nat) (b : Bank) : Option BReq :=
  match b.q with
  | [] => none
  | o :: _ =>
    match b.q.find? fun r => b.opn = some (daRow r.da) with
    | some hit => if b.inorder || decide (fd d (Adr.MC_CFG (p / 2)) 15 8 ≤ b.hits) then some o else some hit
    | none => some o

/-- At least `n` MCLK since a time. -/
def since (t : Option Nat) (n now : Nat) : Bool :=
  match t with
  | some x => decide (x + n ≤ now)
  | none => true

/-- Whether the next command of a candidate meets every timing limit (R350). -/
def timingOk (d : Dev) (p : Nat) (b : Bank) (r : BReq) (now : Nat) : Bool :=
  let c := mcPc d p
  let t0 := Adr.MC_TIM0 (p / 2)
  let t1 := Adr.MC_TIM1 (p / 2)
  match nextCmd b r with
  | .pre => since b.act (fd d t0 23 16) now
  | .col => since b.act (fd d t0 15 8) now && (r.wr || c.banks.all fun x => since x.wrt (fd d t1 7 0) now)
  | .act =>
    since b.pre (fd d t0 7 0) now && since b.act (fd d t0 31 24) now &&
    (c.banks.all fun x => x.k = b.k || since x.act (if x.k % 4 = b.k % 4 then fd d t1 23 16 else fd d t1 15 8) now) &&
    decide ((c.banks.filter fun x => !since x.act (fd d t1 31 24) now).length < 4)

/-- The command that pseudo-channel `p` issues at MCLK `now` (R328). -/
def mcIssue (d : Dev) (p now : Nat) : Dev :=
  let c := mcPc d p
  let n := p / 2
  let s := c.banks.filterMap fun b => (candidate d p b).bind fun r => if timingOk d p b r now then some (b, r) else none
  if s = [] then d
  else
    let u3 := s.filter fun x => urgency d x.2 now = 3
    let dirMax := fd d (Adr.MC_CFG n) 7 0
    let dir1 := if u3 = [] ∧ dirMax ≤ c.dirCnt ∧ s.any (fun x => x.2.wr != c.dirW) then !c.dirW else c.dirW
    let dir2 := if u3 = [] ∧ !(s.any fun x => x.2.wr = dir1) then !dir1 else dir1
    let s := if u3 = [] then s.filter fun x => x.2.wr = dir2 else u3
    let key (x : Bank × BReq) : Nat := 2 * urgency d x.2 now + b2n (x.1.opn = some (daRow x.2.da))
    let top := s.foldl (fun a x => max a (key x)) 0
    let s := s.filter fun x => key x = top
    let far (x : Bank × BReq) : Nat := (x.1.k + 47 - c.ptr) % 48
    match s with
    | [] => d
    | x :: rest =>
      let (b, r) := rest.foldl (fun a y => if far y < far a then y else a) x
      let d := if urgency d r now = 3 then inc d (Adr.MC_CNT_URG3 n) else d
      match nextCmd b r with
      | .pre => setPc d p fun c => putBank { c with dirW := dir2 } { b with opn := none, pre := some now }
      | .act =>
        setPc (inc d (Adr.MC_CNT_ACT n)) p fun c => putBank { c with dirW := dir2, ptr := b.k }
          { b with opn := some (daRow r.da), act := some now, hits := 0, actFor := r.id }
      | .col =>
        let d := inc d (if r.wr then Adr.MC_CNT_WR n else Adr.MC_CNT_RD n)
        let d := if r.id = b.actFor then d else inc d (Adr.MC_CNT_HIT n)
        let older := b.q.takeWhile fun x => x.id != r.id
        let q := b.q.filter fun x => x.id != r.id
        let b := { b with
          q := q
          hits := if older.any (fun x => b.opn != some (daRow x.da)) then b.hits + 1 else b.hits
          rd := if r.wr then b.rd else some now, wrt := if r.wr then some now else b.wrt
          inorder := b.inorder && needsOrder q }
        setPc d p fun c => putBank { c with
          dirW := r.wr, dirCnt := if r.wr = dir2 then c.dirCnt + 1 else 1
          done := if r.acked then c.done else c.done ++ [r] } b

/-- A command slot of pseudo-channel `p` at MCLK `now` (R326, R328): a command for a request admitted before it, and the admission
of this MCLK. -/
def mcSlot (d : Dev) (p now : Nat) : Dev :=
  let d := mcIssue (mcCatch d p now) p now
  if (mcPc d p).admitAt ≤ now then mcAdmit d p now else d

/-- A port's oldest request not yet complete, and whether it can complete now (R323, R325): a read whose column command has been
issued, or a write that has entered its bank queue. -/
def portOldest (d : Dev) (port : Nat) : Option (BReq × Bool) :=
  let all := d.bob.migHeld.map (fun r => (r, false)) ++ d.bob.pcs.flatMap fun c =>
    c.2.held.map (fun r => (r, false)) ++ (c.2.banks.flatMap (·.q)).map (fun r => (r, r.wr)) ++ c.2.done.map fun r => (r, true)
  (all.filter fun r => r.1.port = port && !r.1.acked).foldl (fun (a : Option (BReq × Bool)) r =>
    match a with
    | some x => if r.1.id < x.1.id then some r else some x
    | none => some r) none

/-- The request numbered `id` is complete to its port (R325): a queued write stays in its bank queue, acknowledged. -/
def mcDone (c : Pc) (id : Nat) : Pc :=
  { c with
    done := c.done.filter fun x => x.id != id
    banks := c.banks.map fun b => { b with q := b.q.map fun x => if x.id = id then { x with acked := true } else x } }

/-- EST of R331 after a completion of latency `l` ns. -/
def estNext (est l : Nat) : Nat := ((est : Int) + ((l : Int) - est) / 64).toNat

/-- A request completes to its port (R323, R325, R331), `l` ns after its hand-over: admissions are made up to that MCLK. -/
def mcComplete (d : Dev) (port l : Nat) : Dev :=
  let a := Adr.BOB_LAT_EST port
  let est (d : Dev) : Dev := wr d a (w32 (estNext (fd d a 15 0) (min l 65535)))
  let d := match portOldest d port with
    | some (r, false) => d.bob.pcs.foldl (fun d c => mcCatch d c.1 (r.at0 + (8 * l + 4) / 5 + 1)) d
    | _ => d
  match portOldest d port with
  | some (_, false) => d
  | some (r, true) => est { d with bob := { d.bob with pcs := d.bob.pcs.map fun c => (c.1, mcDone c.2 r.id) } }
  | none => est d

/-- Refresh of one bank: its row closes. -/
def refreshBank (c : Pc) (k now : Nat) : Pc :=
  putBank c { pcBank c k with opn := none, pre := some now, ref := some now, hits := 0 }

/-- The reading of the stack of channel `n` in 1/16 °C (R644). DEDUCED (log entry 91): what a stack reports is what KNL's sensors
read of it. -/
def stackTemp (d : Dev) (n : Nat) : Option Int := (alGet d.knl.sens (8 + n / 16)).map (toS 16)

/-- MC_REF.RATE (R306): doubled above 85 °C, quadrupled above 105 °C. -/
def refRate (d : Dev) (n : Nat) : Nat :=
  match stackTemp d n with
  | some t => if 16 * 105 < t then 2 else if 16 * 85 < t then 1 else 0
  | none => 0

/-- The per-bank refresh interval of `p` expires (R306): REFI_PB at the stack's rate since the last. -/
def mcRefresh (d : Dev) (p now : Nat) : Dev :=
  if since (mcPc d p).refAt (fd d (Adr.MC_REF (p / 2)) 15 0 / 2 ^ refRate d (p / 2)) now then
    setPc d p fun c => { refreshBank c c.refBank now with refBank := (c.refBank + 1) % 48, refAt := some now }
  else d

/-- A refresh-management request naming banks (R306). -/
def mcRfm (d : Dev) (p now : Nat) (banks : List Nat) : Dev :=
  setPc d p fun c => banks.foldl (fun c k => refreshBank c (k % 48) now) c

/-- MC_CFG.IDLE passes after bank `k`'s last column command with no queued request for its open row (R330). -/
def mcIdle (d : Dev) (p k now : Nat) : Dev :=
  let d := mcCatch d p now
  let b := pcBank (mcPc d p) k
  let last := max (b.rd.getD 0) (b.wrt.getD 0)
  if b.opn.isSome ∧ last + fd d (Adr.MC_CFG (p / 2)) 31 16 ≤ now ∧ !(b.q.any fun r => b.opn = some (daRow r.da)) then
    setPc d p fun c => putBank c { b with opn := none, pre := some now }
  else d

end Sys2Proof.Machine
end

