-- ==== Sys2Proof/Machine/Bob.lean ====
section
/-! DEFINITION. The commands of the bobbin (chapter 07) but those of the spool: the mending list, ports, migration, loss. -/

namespace Sys2Proof.Machine

/-- Change BOB. -/
def setBob (d : Dev) (f : Bob → Bob) : Dev := { d with bob := f d.bob }

/-- STRIPE_INDEX of the stripe in progress, or 0. -/
def curIndex (d : Dev) : W32 :=
  match d.exp.run with
  | some r => r.tkt.index
  | none => 0

/-! ### The mending list (R63, R321, R322, R588) -/

/-- The oldest entry that waits is written, when there is room; its block resumes. -/
def mendWaitEnd (d : Dev) : Dev :=
  match d.bob.waitq with
  | [] => d
  | e :: rest =>
    if mendFree d = 0 then d
    else sealCheck (glrDrain (mendStore (setBob d fun b => { b with waitq := rest }) e))

/-- Every entry that waits is written while there is room. -/
def mendWaitAll : Nat → Dev → Dev
  | 0, d => d
  | n + 1, d => if d.bob.waitq = [] ∨ mendFree d = 0 then d else mendWaitAll n (mendWaitEnd d)

/-- BOB_MEND_RD (R63, R321): entries are released. The entries that wait are written by MEND_WAIT_END. -/
def execBobMendRd (req : Req) (v : W32) (s : State) : Answer := run s fun d =>
  write d req Adr.BOB_MEND_RD fun d => wr d Adr.BOB_MEND_RD v

/-- MEND_WAIT_END (R63). -/
def execMendWaitEnd (s : State) : Answer := run s mendWaitEnd

/-- A word of the view window (R322, R588): its value and whether its sector is poisoned. -/
def mendView (d : Dev) (o : Nat) : W32 × Bool :=
  let i := ((rg d Adr.BOB_MEND_VIEW).toNat + o / 16) % max 1 (mendCap d)
  let a := rgnBase d 5 + 16 * i
  if hbmBad d a 16 then (w32 0xFFFFFFFF, true) else (w32 (hbmWord d (a + o % 16)), false)

/-- A read of the view window. -/
def mendViewRead (d : Dev) (o : Nat) : W32 × Dev :=
  let a := rgnBase d 5 + 16 * (((rg d Adr.BOB_MEND_VIEW).toNat + o / 16) % max 1 (mendCap d))
  let (v, bad) := mendView d o
  let d := hbmCe d a 16
  (v, if bad then err d (Page.mei.base 0) Bit.err_MEI_MEND_POISON (w32 (a % 4294967296)) (w32 (a / 4294967296)) else d)

/-- MEND_VIEW_READ (R588). -/
def execMendViewRead (req : Req) (o : Nat) (s : State) : Answer := run s fun d =>
  let a := Adr.MEND_VIEW (o / 4 * 4)
  if o < 0x1000000 then
    if acc d req a then
      let (v, d) := mendViewRead d (o / 4 * 4)
      emit d (.readData req a [v])
    else emit d (.readData req a [0])
  else d

/-! ### Ports and scheduling (R306, R323 to R331) -/

/-- BOB_REQUEST (R326). -/
def execBobRequest (port da : Nat) (wr : Bool) (now : Nat) (s : State) : Answer := run s fun d =>
  if port < 15 ∧ da < daSpan then mcRequest d port da wr now else d

/-- BOB_COMPLETION (R331). -/
def execBobCompletion (port latency : Nat) (s : State) : Answer := run s fun d =>
  if port < 15 then mcComplete d port latency else d

/-- COMMAND_SLOT (R328). -/
def execCommandSlot (pc now : Nat) (s : State) : Answer := run s fun d =>
  if pc < 128 then mcSlot d pc now else d

/-- REFRESH (R306). -/
def execRefresh (pc now : Nat) (s : State) : Answer := run s fun d =>
  if pc < 128 then mcRefresh d pc now else d

/-- REFRESH_MANAGEMENT (R306). -/
def execRefreshManagement (pc now : Nat) (banks : List Nat) (s : State) : Answer := run s fun d =>
  if pc < 128 then mcRfm d pc now banks else d

/-- OPEN_PAGE_IDLE (R330). -/
def execOpenPageIdle (pc k now : Nat) (s : State) : Answer := run s fun d =>
  if pc < 128 ∧ k < 48 then mcIdle d pc k now else d

/-! ### Migration (R341 to R347) -/

/-- State of physical pseudo-channel `p` (R310). -/
def pcState (d : Dev) (p : Nat) : Nat := fd d (Adr.BOB_PCSTATE p) 2 0

/-- Put the state of physical pseudo-channel `p`. -/
def setPcState (d : Dev) (p v : Nat) : Dev := wr d (Adr.BOB_PCSTATE p) (w32 v)

/-- Sectors of logical pseudo-channel `l` from chunk `c` on read poisoned until written (R348). -/
def wipeFrom (d : Dev) (l c : Nat) : Dev :=
  setBob d fun b => { b with wiped := alSet b.wiped l (match alGet b.wiped l with
    | some (c0, good) => (min c0 c, good.filter fun s => s / 32 / 126 < c)
    | none => (c, [])) }

/-- A write of BOB_MIG_CTRL (R341): SRC and DST are stored, and START begins a migration onto a SPARE pseudo-channel. -/
def migCtrl (d : Dev) (v : W32) : Dev :=
  let d := wr d Adr.BOB_MIG_CTRL (v &&& 0x7F7F)
  let src := bits v 6 0
  let dst := bits v 14 8
  if bit v 31 && !d.bob.migBusy && decide (src < 126) && decide (pcState d dst = 1) then
    let p := fd d (Adr.BOB_PCMAP src) 6 0
    let d := setPcState (setPcState d p 2) dst 3
    let d := setBob d fun b => { b with migBusy := true, migPtr := 0, migSrc := src, migDst := dst }
    if d.bob.lost.contains p then wipeFrom d src 0 else d
  else d

/-- MIG_START (R341). -/
def execMigStart (req : Req) (v : W32) (s : State) : Answer := run s fun d =>
  write d req Adr.BOB_MIG_CTRL fun d => migCtrl d (v ||| w32 0x80000000)

/-- Change MEI. -/
def setMei (d : Dev) (f : Mei → Mei) : Dev := { d with mei := f d.mei }

/-- Places of one unit's table: 8 for a pseudo-channel, 4 for an SRAM macro. -/
def rmpPlaces (sram : Bool) (unit : Nat) : List Nat :=
  if sram then (List.range 4).map fun e => 4 * unit + e else (List.range 8).map fun e => 8 * unit + e

/-- The remap entry at a place. -/
def rmpAt (d : Dev) (sram : Bool) (i : Nat) : Option Remap := d.mei.remaps.find? fun r => r.sram = sram && r.index = i

/-- The first free place of a unit's table. -/
def rmpFree (d : Dev) (sram : Bool) (unit : Nat) : Option Nat := (rmpPlaces sram unit).find? fun i => (rmpAt d sram i).isNone

/-- A migrated pseudo-channel takes its remap entries to the target's table, as far as that has places (R597). -/
def rmpMove (d : Dev) (src dst : Nat) : Dev :=
  (d.mei.remaps.filter fun r => !r.sram && r.unit = src).foldl (fun d r =>
    let d := setMei d fun m => { m with remaps := m.remaps.erase r }
    match rmpFree d false dst with
    | some i => setMei d fun m => { m with remaps := m.remaps ++ [{ r with unit := dst, index := i, old := none }] }
    | none => d) d

/-- The end of a migration (R344, R597). -/
def migDone (d : Dev) : Dev :=
  let src := d.bob.migSrc
  let dst := d.bob.migDst
  let p := fd d (Adr.BOB_PCMAP src) 6 0
  let d := setPcState (setPcState (wr d (Adr.BOB_PCMAP src) (w32 dst)) dst 0) p 4
  let d := setBob d fun b => { b with migBusy := false, lost := setDel b.lost p }
  let d := rmpMove d p dst
  evt d (Page.bob.base 0) Bit.evt_BOB_MIG_DONE

/-- MIG_CHUNK (R342, R343): the next chunk is copied; `bad` lists the sectors of it, 0 to 31, that read uncorrectable. -/
def migChunk (d : Dev) (bad : List Nat) : Dev :=
  if !d.bob.migBusy then d
  else
    let c := d.bob.migPtr
    let da := 1024 * (c * 126 + d.bob.migSrc)
    let sick := (List.range 32).filter fun i => bad.contains i || hbmBad d (da + 32 * i) 32
    let d := sick.foldl (fun d i => if daLost d (da + 32 * i) || daWiped d (da / 32 + i) then d else hbmPoison d (da + 32 * i)) d
    let p := if c + 1 = 786432 then d.bob.migDst else (mcRoute (setBob d fun b => { b with migPtr := c + 1 }) da).getD 0
    let d := setPc d p fun x => { x with held := x.held ++ d.bob.migHeld }
    let d := setBob d fun b => { b with migPtr := c + 1, migHeld := [] }
    let d := if sick = [] then d
      else err (addReg d Adr.BOB_CNT_MIGPOISON sick.length) (Page.bob.base 0) Bit.err_BOB_MIG_POISON
        (w32 (fd d (Adr.BOB_PCMAP d.bob.migSrc) 6 0)) (curIndex d)
    if c + 1 = 786432 then migDone d else d

/-- MIG_CHUNK (R342). -/
def execMigChunk (bad : List Nat) (s : State) : Answer := run s fun d => migChunk d bad

/-- A write of BOB_PCSTATE (R346): SPARE on a RETIRED pseudo-channel. -/
def pcStateWrite (d : Dev) (p : Nat) (v : W32) : Dev :=
  if pcState d p = 4 ∧ bits v 2 0 = 1 then setPcState d p 1 else d

/-- BOB_PCSTATE (R346). -/
def execBobPcstate (req : Req) (p : Nat) (v : W32) (s : State) : Answer := run s fun d =>
  if p < 128 then write d req (Adr.BOB_PCSTATE p) fun d => pcStateWrite d p v else d

/-! ### Loss (R348) -/

/-- Physical pseudo-channel `p` is lost. -/
def pcLost (d : Dev) (p : Nat) : Dev :=
  if d.bob.lost.contains p then d
  else
    let index := curIndex d
    let src := d.bob.migBusy && decide (fd d (Adr.BOB_PCMAP d.bob.migSrc) 6 0 = p)
    let d := setBob (setPcState d p 5) fun b => { b with lost := setIns b.lost p }
    let d := if src then wipeFrom d d.bob.migSrc d.bob.migPtr else d
    let d := err d (Page.mc.base (p / 2)) Bit.err_MC_PC_LOST (w32 (p % 2)) 0
    err d (Page.bob.base 0) Bit.err_BOB_PC_LOST (w32 p) index

/-- PC_LOST (R348). -/
def execPcLost (p : Nat) (s : State) : Answer := run s fun d => if p < 128 then pcLost d p else d

/-- CA_PARITY (R348): an error of pseudo-channel `p` at bank `k` and a row, at `us` microseconds; the fourth within 1 ms loses
the pseudo-channel. -/
def caParity (d : Dev) (p k row us : Nat) : Dev :=
  let d := err d (Page.mc.base (p / 2)) Bit.err_MC_CA_PARITY (w32 (k * 256 + p % 2)) (w32 row)
  let l := (us :: (mcPc d p).parity.filter fun t => us < t + 1000).take 4
  let d := setPc d p fun c => { c with parity := l }
  if l.length = 4 then pcLost d p else d

/-- CA_PARITY (R348). -/
def execCaParity (p k row us : Nat) (s : State) : Answer := run s fun d =>
  if p < 128 ∧ k < 48 then caParity d p k row us else d

end Sys2Proof.Machine
end

