-- ==== Sys2Proof/Machine/Inflate.lean ====
section
/-! DEFINITION. The decompressor of the codec (R77 to R80, R534, R535): DEFLATE streams as RFC 1951 defines them, and KQZ frames.
Bit strings stand as lists of bits in the order in which RFC 1951 reads them. -/

namespace Sys2Proof.Machine

/-- The bits of a byte string, each byte's least significant bit first. -/
def bitsOf (l : List Byte) : List Bool := l.flatMap fun b => (List.range 8).map fun i => b.getLsbD i

/-- Take `n` bits, the first one least significant. -/
def takeBits : Nat → List Bool → Option (Nat × List Bool)
  | 0, l => some (0, l)
  | _ + 1, [] => none
  | n + 1, b :: r => (takeBits n r).map fun x => (b2n b + 2 * x.1, x.2)

/-- A prefix code: for each symbol in order its code's length, 0 for a symbol without a code. -/
abbrev Lens := List Nat

/-- Number of codes of length `n`. -/
def lenCount (c : Lens) (n : Nat) : Nat := c.countP fun l => l = n

/-- The codes of RFC 1951, 3.2.2: for each length from 1 to 15 its first code value. -/
def firstCodes (c : Lens) : List (Nat × Nat) :=
  ((List.range 15).foldl (fun (a : List (Nat × Nat) × Nat) i =>
    let n := i + 1
    let code := 2 * (a.2 + (if n = 1 then 0 else lenCount c (n - 1)))
    (a.1 ++ [(n, code)], code)) ([], 0)).1

/-- Whether a set of code lengths is over-subscribed. -/
def overFull (c : Lens) : Bool :=
  decide (32768 < sumN ((List.range 15).map fun i => lenCount c (i + 1) * 2 ^ (14 - i)))

/-- The symbols of length `n`, in order. -/
def symsOf (c : Lens) (n : Nat) : List Nat := (List.range c.length).filter fun s => c.getD s 0 = n

/-- Read one symbol: `fs` lists the lengths still possible with their first codes, `v` is the code read so far. -/
def readSym (c : Lens) : List (Nat × Nat) → Nat → List Bool → Option (Nat × List Bool)
  | [], _, _ => none
  | _, _, [] => none
  | (n, f) :: fs, v, b :: r =>
    let v := 2 * v + b2n b
    if f ≤ v ∧ v < f + lenCount c n then ((symsOf c n)[v - f]?).map fun s => (s, r)
    else readSym c fs v r

/-- Read one symbol of a code. -/
def sym (c : Lens) (l : List Bool) : Option (Nat × List Bool) := readSym c (firstCodes c) 0 l

/-- The fixed codes of RFC 1951, 3.2.6. -/
def fixedLit : Lens := List.replicate 144 8 ++ List.replicate 112 9 ++ List.replicate 24 7 ++ List.replicate 8 8
def fixedDist : Lens := List.replicate 32 5

/-- Base and extra bits of length symbols 257 to 285, and of distance symbols 0 to 29. -/
def lenBase : List (Nat × Nat) :=
  [(3, 0), (4, 0), (5, 0), (6, 0), (7, 0), (8, 0), (9, 0), (10, 0), (11, 1), (13, 1), (15, 1), (17, 1), (19, 2), (23, 2),
   (27, 2), (31, 2), (35, 3), (43, 3), (51, 3), (59, 3), (67, 4), (83, 4), (99, 4), (115, 4), (131, 5), (163, 5), (195, 5),
   (227, 5), (258, 0)]
def distBase : List (Nat × Nat) :=
  [(1, 0), (2, 0), (3, 0), (4, 0), (5, 1), (7, 1), (9, 2), (13, 2), (17, 3), (25, 3), (33, 4), (49, 4), (65, 5), (97, 5),
   (129, 6), (193, 6), (257, 7), (385, 7), (513, 8), (769, 8), (1025, 9), (1537, 9), (2049, 10), (3073, 10), (4097, 11),
   (6145, 11), (8193, 12), (12289, 12), (16385, 13), (24577, 13)]

/-- Copy `n` bytes from `dist` bytes back; the output stands newest byte first. -/
def copyBack : Nat → Nat → List Byte → List Byte
  | 0, _, o => o
  | n + 1, dist, o => copyBack n dist (o.getD (dist - 1) 0 :: o)

/-- The symbols of a block up to its end: output newest byte first, and the bits that follow. -/
def inflateSyms (lit dist : Lens) : Nat → List Bool → List Byte → Option (List Byte × List Bool)
  | 0, _, _ => none
  | f + 1, l, o =>
    match sym lit l with
    | none => none
    | some (s, l) =>
      if s < 256 then inflateSyms lit dist f l (byte s :: o)
      else if s = 256 then some (o, l)
      else
        match lenBase[s - 257]? with
        | none => none
        | some (lb, le) =>
          match takeBits le l with
          | none => none
          | some (lx, l) =>
            match sym dist l with
            | none => none
            | some (ds, l) =>
              match distBase[ds]? with
              | none => none
              | some (db, de) =>
                match takeBits de l with
                | none => none
                | some (dx, l) =>
                  if o.length < db + dx then none
                  else inflateSyms lit dist f l (copyBack (lb + lx) (db + dx) o)

/-- The code lengths of a dynamic block, `n` of them in all (RFC 1951, 3.2.7); newest first. -/
def readLens (c : Lens) (n : Nat) : Nat → List Bool → List Nat → Option (List Nat × List Bool)
  | 0, _, _ => none
  | f + 1, l, acc =>
    if acc.length = n then some (acc, l)
    else if n < acc.length then none
    else
      match sym c l with
      | none => none
      | some (s, l) =>
        if s < 16 then readLens c n f l (s :: acc)
        else
          let (k, base, v) := if s = 16 then (2, 3, acc.head?) else if s = 17 then (3, 3, some 0) else (7, 11, some 0)
          match takeBits k l, v with
          | some (x, l), some v => readLens c n f l (List.replicate (base + x) v ++ acc)
          | _, _ => none

/-- Order of the code length code lengths. -/
def clOrder : List Nat := [16, 17, 18, 0, 8, 7, 9, 6, 10, 5, 11, 4, 12, 3, 13, 2, 14, 1, 15]

/-- Take `n` fields of three bits. -/
def take3 : Nat → List Bool → Option (List Nat × List Bool)
  | 0, l => some ([], l)
  | n + 1, l =>
    match takeBits 3 l with
    | none => none
    | some (v, l) => (take3 n l).map fun x => (v :: x.1, x.2)

/-- The two codes of a dynamic block. -/
def readCodes (l : List Bool) : Option ((Lens × Lens) × List Bool) :=
  match takeBits 14 l with
  | none => none
  | some (h, l) =>
    let hlit := h % 32 + 257
    let hdist := h / 32 % 32 + 1
    let hclen := h / 1024 + 4
    if 286 < hlit then none
    else
      match take3 hclen l with
      | none => none
      | some (cl, l) =>
        let c : Lens := (List.range 19).map fun s => ((clOrder.zip cl).find? fun x => x.1 = s).elim 0 (·.2)
        if overFull c then none
        else
          match readLens c (hlit + hdist) (hlit + hdist + 1) l [] with
          | none => none
          | some (ls, l) =>
            let ls := ls.reverse
            let lit := ls.take hlit
            let dist := ls.drop hlit
            if overFull lit ∨ overFull dist then none else some ((lit, dist), l)

/-- Drop the bits up to the next byte boundary, given how many bits the whole stream had. -/
def alignBits (l : List Bool) : List Bool := l.drop (l.length % 8)

/-- The body of a block of kind `k` (RFC 1951, 3.2.4 to 3.2.7). -/
def inflateBody (k : Nat) (l : List Bool) (o : List Byte) : Option (List Byte × List Bool) :=
  match k with
  | 0 =>
    match takeBits 32 (alignBits l) with
    | none => none
    | some (w, l) =>
      let n := w % 65536
      if w / 65536 ≠ 65535 - n ∨ l.length < 8 * n then none
      else
        let bytes := (List.range n).map fun i => byte (((takeBits 8 (l.drop (8 * i))).elim 0 (·.1)))
        some (bytes.reverse ++ o, l.drop (8 * n))
  | 1 => inflateSyms fixedLit fixedDist l.length l o
  | 2 =>
    match readCodes l with
    | none => none
    | some ((lit, dist), l) => inflateSyms lit dist l.length l o
  | _ => none

/-- Blocks up to the one with BFINAL: output newest byte first, and the bits left. -/
def inflateBlocks : Nat → List Bool → List Byte → Option (List Byte × List Bool)
  | 0, _, _ => none
  | f + 1, l, o =>
    match takeBits 3 l with
    | none => none
    | some (h, l) =>
      match inflateBody (h / 2) l o with
      | none => none
      | some (o, l) => if h % 2 = 1 then some (o, l) else inflateBlocks f l o

/-- The original of a DEFLATE stream that meets R79: its final block ends within the last byte, whose unused bits are 0. -/
def inflate (l : List Byte) : Option (List Byte) :=
  match inflateBlocks (8 * l.length) (bitsOf l) [] with
  | none => none
  | some (o, rest) => if rest.length < 8 ∧ rest.all (fun b => !b) then some o.reverse else none

/-- What a KQZ frame decodes to (R80, R532). -/
inductive Kqz where
  | ok (l : List Byte)
  | badCrc
  | badFormat
  deriving DecidableEq, Repr

/-- Decode the KQZ frame at the front of a payload, for a block of RAW_LEN `raw` (R77 to R80, R532). -/
def kqzDecode (p : List Byte) (raw : Nat) : Kqz :=
  let w (o : Nat) : Nat := leNat ((p.drop o).take 4)
  if fld (w 0) 31 16 ≠ 0x9E5A ∨ fld (w 0) 15 8 ≠ 1 ∨ w 8 ≠ raw then .badFormat
  else
    match inflate ((p.drop 12).take (w 4)) with
    | none => .badFormat
    | some o =>
      if o.length ≠ w 8 then .badFormat
      else if crc32c o ≠ w (12 + 4 * ((w 4 + 3) / 4)) then .badCrc
      else .ok o

/-- The stored DEFLATE blocks of LEVEL 0 (R536). -/
def deflateStored : Nat → List Byte → List Byte
  | 0, _ => []
  | f + 1, l =>
    let c := l.take 65535
    let rest := l.drop 65535
    byte (b2n (rest = [])) :: leBytes 2 c.length ++ leBytes 2 (65535 - c.length) ++ c ++
      (if rest = [] then [] else deflateStored f rest)

/-- A KQZ frame of LEVEL `level` around a DEFLATE stream (R77). -/
def kqzFrame (level : Nat) (comp orig : List Byte) : List Byte :=
  leBytes 4 (0x9E5A0100 + 16 * level) ++ leBytes 4 comp.length ++ leBytes 4 orig.length ++ comp ++
    List.replicate ((4 - comp.length % 4) % 4) 0 ++ leBytes 4 (crc32c orig)

end Sys2Proof.Machine
end

