-- ==== Sys2Proof/Machine/Deflate.lean ====
section
/-! DEFINITION. The compressor of the codec at LEVEL 1 to 9 (R79, R536, R537): what a stream of the engine must meet, and one
compressor that meets it. -/

namespace Sys2Proof.Machine

/-! ### Bits and codes -/

/-- The `n` low bits of `v`, least significant first. -/
def lowBits (n v : Nat) : List Bool := (List.range n).map v.testBit

/-- The bytes of a bit string, the unused high bits of the last one 0 (R79). -/
def packBits (l : List Bool) : List Byte :=
  (List.range ((l.length + 7) / 8)).map fun i => byte (sumN ((List.range 8).map fun k => b2n (l.getD (8 * i + k) false) * 2 ^ k))

/-- The code of symbol `s`, its most significant bit first (RFC 1951, 3.2.2). -/
def codeBits (c : Lens) (s : Nat) : List Bool :=
  let n := nth c s 0
  let code := (alGet (firstCodes c) n).getD 0 + ((List.range s).filter fun x => nth c x 0 = n).length
  (List.range n).map fun i => code.testBit (n - 1 - i)

/-! ### Matches: a window of 32 KiB, a 15-bit hash of the next three bytes, chains searched to the level's depth (R536) -/

/-- A literal or a copy of `len` bytes from `dist` back. -/
inductive Tok where
  | lit (b : Byte)
  | copy (len dist : Nat)
  deriving DecidableEq, Repr

/-- Chain depth of a level, and whether it matches lazily (R536). -/
def chainDepth (level : Nat) : Nat := nth [0, 4, 8, 16, 32, 64, 128, 256, 1024, 4096] level 4096
def lazyLevel (level : Nat) : Bool := decide (4 ≤ level)

/-- The hash of the three bytes at `p`. DESIGN CHOICE (log entry 94): R536 gives its width. -/
def hash3 (l : List Byte) (p : Nat) : Nat :=
  let at_ (i : Nat) : Nat := (nth l (p + i) 0).toNat
  (at_ 0 * 1024 ^^^ at_ 1 * 32 ^^^ at_ 2) % 32768

/-- Length of the match of position `q` at `p`, to `n` bytes at most. -/
def matchLen (l : List Byte) (p q : Nat) : Nat → Nat
  | 0 => 0
  | n + 1 => if nth l p 0 = nth l q 0 then matchLen l (p + 1) (q + 1) n + 1 else 0

/-- The longest match at `p` within the block that ends at `e`, the nearest of equals: its length and distance, length 0 for none. -/
def bestMatch (l : List Byte) (depth p e : Nat) : Nat × Nat :=
  if e < p + 3 then (0, 0)
  else
    let chain := (((List.range (min p 32768)).map fun i => p - 1 - i).filter fun q => hash3 l q = hash3 l p).take depth
    let best := chain.foldl (fun (a : Nat × Nat) q =>
      let n := matchLen l p q (min 258 (e - p))
      if a.1 < n then (n, p - q) else a) (0, 0)
    if best.1 < 3 then (0, 0) else best

/-- The tokens of the bytes from `p` to `e`. -/
def lzTokens (l : List Byte) (level e : Nat) : Nat → Nat → List Tok
  | 0, _ => []
  | f + 1, p =>
    if e ≤ p then []
    else
      let m := bestMatch l (chainDepth level) p e
      let wait := lazyLevel level && decide (m.1 < (bestMatch l (chainDepth level) (p + 1) e).1)
      if m.1 = 0 || wait then .lit (nth l p 0) :: lzTokens l level e f (p + 1)
      else .copy m.1 m.2 :: lzTokens l level e f (p + m.1)

/-! ### Blocks -/

/-- The entry of a base table for `v`: its index, and the extra bits. -/
def baseOf (t : List (Nat × Nat)) (v : Nat) : Nat × List Bool :=
  let i := (t.filter fun e => e.1 ≤ v).length - 1
  let e := nth t i (0, 0)
  (i, lowBits e.2 (v - e.1))

/-- The literal or length symbol of a token, and its distance symbol. -/
def tokLit : Tok → Nat
  | .lit b => b.toNat
  | .copy len _ => 257 + (baseOf lenBase len).1
def tokDist : Tok → Option Nat
  | .lit _ => none
  | .copy _ dist => some (baseOf distBase dist).1

/-- A token under two codes. -/
def tokBits (lit dist : Lens) : Tok → List Bool
  | .lit b => codeBits lit b.toNat
  | .copy len far =>
    let x := baseOf lenBase len
    let y := baseOf distBase far
    codeBits lit (257 + x.1) ++ x.2 ++ codeBits dist y.1 ++ y.2

/-- The symbols of a block under two codes. -/
def symBits (lit dist : Lens) (t : List Tok) : List Bool := t.flatMap (tokBits lit dist) ++ codeBits lit 256

/-- Merging of the two lightest groups of symbols: each merge makes the codes of both groups one bit longer. -/
def huffMerge : Nat → List (Nat × List Nat) → List Nat → List Nat
  | 0, _, up => up
  | f + 1, nodes, up =>
    match sortBy (fun x y => decide (x.1 ≤ y.1)) nodes with
    | a :: b :: r => huffMerge f ((a.1 + b.1, a.2 ++ b.2) :: r) (a.2 ++ b.2 ++ up)
    | _ => up

/-- Code lengths of at most `lim` for symbol frequencies; where the code is deeper, the frequencies are halved. -/
def huffLens (lim : Nat) : Nat → List Nat → Lens
  | 0, fr => fr.map fun _ => lim
  | f + 1, fr =>
    let nodes := ((List.range fr.length).filter fun s => decide (0 < nth fr s 0)).map fun s => (nth fr s 0, [s])
    let up := huffMerge nodes.length nodes []
    let c := (List.range fr.length).map fun s =>
      if nth fr s 0 = 0 then 0 else max 1 (up.countP fun x => x = s)
    if c.all fun n => n ≤ lim then c else huffLens lim f (fr.map fun n => (n + 1) / 2)

/-- Symbol frequencies. -/
def freqs (n : Nat) (l : List Nat) : List Nat := (List.range n).map fun s => l.countP fun x => x = s

/-- A fixed block (RFC 1951, 3.2.6), without its BFINAL bit. -/
def fixedBlock (t : List Tok) : List Bool := lowBits 2 1 ++ symBits fixedLit fixedDist t

/-- A dynamic block (RFC 1951, 3.2.7), without its BFINAL bit; its code lengths stand one by one. -/
def dynBlock (t : List Tok) : List Bool :=
  let lit := huffLens 15 20 (freqs 286 (256 :: t.map tokLit))
  let dist := huffLens 15 20 (freqs 30 (t.filterMap tokDist))
  let ls := lit ++ dist
  let cl := huffLens 7 20 (freqs 19 ls)
  lowBits 2 2 ++ lowBits 5 29 ++ lowBits 5 29 ++ lowBits 4 15 ++ clOrder.flatMap (fun s => lowBits 3 (nth cl s 0)) ++
    ls.flatMap (codeBits cl) ++ symBits lit dist t

/-- Fixed or dynamic, whichever is shorter (R536). -/
def lzBlock (t : List Tok) : List Bool :=
  let a := fixedBlock t
  let b := dynBlock t
  if b.length < a.length then b else a

/-- The stream of a level in blocks of up to 65,536 original bytes, the last one with BFINAL (R79, R536). -/
def lzDeflate (level : Nat) (l : List Byte) : List Byte :=
  let n := max 1 ((l.length + 65535) / 65536)
  packBits ((List.range n).flatMap fun i =>
    let e := min l.length (65536 * (i + 1))
    (decide (i + 1 = n)) :: lzBlock (lzTokens l level e (e + 1) (65536 * i)))

/-! ### What an engine's stream meets -/

/-- Whether the blocks of a stream are fixed or dynamic ones of up to 65,536 original bytes (R536). -/
def blocksFit : Nat → List Bool → List Byte → Bool
  | 0, _, _ => false
  | f + 1, l, o =>
    match takeBits 3 l with
    | none => false
    | some (h, l) =>
      match inflateBody (h / 2) l o with
      | none => false
      | some (o', l) => decide (1 ≤ h / 2 ∧ o'.length ≤ o.length + 65536) && (decide (h % 2 = 1) || blocksFit f l o')

/-- The stream of an engine (R79, R536, R537). R537 leaves the bits to the engine, and they are open here: any stream with the blocks
of R536 that decodes to the input under R79 and R80, the same for the same input and LEVEL; where the open value is no such
stream, the one above. -/
def deflated (level : Nat) (l : List Byte) : List Byte :=
  let c := Config.deflate level l
  if inflate c = some l ∧ blocksFit (8 * c.length) (bitsOf c) [] then c else lzDeflate level l

end Sys2Proof.Machine
end

