-- ==== Sys2Proof/Machine/ExpCmd.lean ====
section
/-! DEFINITION. The commands of the stitcher and the dead-beam map (chapter 06), and of exposure timing and the muzzle
(chapter 09). Each settles what BOB watches: the look-ahead and the space that is consumed. -/

namespace Sys2Proof.Machine

/-- The meaning of a command that may move the writing point, a verdict or a ticket. -/
def runS (s : State) (f : Dev → Dev) : Answer := run s fun d => settle (f d)

/-! ### Stitching, gather and begin -/

/-- STITCH_ROW (R265): `fault` 0, or the word of the latched map with one copy (1) or both copies (2) uncorrectable. -/
def execStitchRow (fault : Nat) (s : State) : Answer := runS s fun d => stcStitch d fault

/-- Whether the gather of the next frame may begin (R431): frames 0 and 1 before their lead boundaries, frame f + 2 not before
the boundary of shot f − 1. -/
def gatherMay (r : Run) : Bool :=
  decide (r.gathered < r.tkt.n) &&
  (decide (r.gathered < 2) || (decide (r.goLead ≤ r.next) && decide (r.gathered ≤ r.shots + 2)))

/-- GATHER (R279, R431). STC gathers nothing during a halt (R614). -/
def execGather (late : List Nat) (fault : Nat) (s : State) : Answer := runS s fun d =>
  match d.exp.run with
  | none => d
  | some r =>
    if gatherMay r && !d.fcl.halted then
      stcGather (setRun d fun r => { r with gathered := r.gathered + 1 }) r.tkt r.gathered late fault
    else d

/-- BEGIN (R294). -/
def execBegin (s : State) : Answer := runS s stcBegin

/-! ### The dead-beam map (R288 to R293) -/

/-- A write of DBM_COMMIT (R293). -/
def dbmCommitWrite (d : Dev) (v : W32) : Dev := if bit v 0 && !d.stc.dbm.copying then dbmCommit d else d

/-- DBM_COMMIT. -/
def execDbmCommit (req : Req) (v : W32) (s : State) : Answer := run s fun d =>
  write d req Adr.DBM_COMMIT fun d => dbmCommitWrite d (v ||| 1)

/-- A write of a bitmap word (R289): only of NEXT_SLOT, and while COPYING reads 0. -/
def dbmBitsWrite (d : Dev) (slot word : Nat) (v : W32) : Dev :=
  if slot = d.stc.dbm.nextSlot ∧ !d.stc.dbm.copying then
    setDbm (tableStored (wr d (Adr.DBM_BITS slot word) v) (Adr.DBM_BITS slot word)) fun m => { m with pending := true }
  else d

/-- DBM_BITMAP_WRITE (R289). -/
def execDbmBitmapWrite (req : Req) (slot word : Nat) (v : W32) (s : State) : Answer := run s fun d =>
  if slot < 9 ∧ word < 16384 then write d req (Adr.DBM_BITS slot word) fun d => dbmBitsWrite d slot word v else d

/-- COPY_DONE (R290, R292): messages that waited for a place are translated. STC copies nothing during a halt (R614). -/
def execCopyDone (s : State) : Answer := runS s fun d => if d.stc.dbm.copying && !d.fcl.halted then glrDrain (dbmCopied d) else d

/-! ### The stage (R406 to R426) -/

/-- COUNT_EDGE (R406): the inputs take new levels at time `t` and hold them for `width` ns. -/
def execCountEdge (x y : Bool) (width t : Nat) (s : State) : Answer := runS s fun d => stageInput d x y width t

/-- LOSS_OF_INPUT_SWING (R409). -/
def execLossOfInputSwing (s : State) : Answer := runS s feedbackLost

/-- ENC_VALID_LOW (R424). -/
def execEncValidLow (s : State) : Answer := runS s feedbackLost

/-- STRIPE_GO (R447). -/
def execStripeGo (t : Nat) (s : State) : Answer := runS s fun d => stripeGo d t

/-- LEAD_BOUNDARY (R414). -/
def execLeadBoundary (s : State) : Answer := runS s leadBoundary

/-- SHOT_BOUNDARY (R420). -/
def execShotBoundary (s : State) : Answer := runS s shotBoundary

/-- OSREQ_EXPIRY (R423). -/
def execOsreqExpiry (s : State) : Answer := run s fun d =>
  if d.exp.osLeft = 1 then setExp d fun e => { e with osLeft := 0 } else d

/-- FREEZE (R425). -/
def execFreeze (s : State) : Answer := runS s fun d => if inStripe d then stageFault d Bit.err_EXP_FREEZE else d

/-! ### Strobe and watchdog (R427, R438, R439, R746) -/

/-- STROBE_RISE (R427). -/
def execStrobeRise (s : State) : Answer := run s strobeRise

/-- STROBE_FALL (R427, R432). -/
def execStrobeFall (s : State) : Answer := run s strobeFall

/-- STROBE_CUT (R438). -/
def execStrobeCut (s : State) : Answer := runS s strobeCut

/-- CALIBRATION (R439): the delay chain counts `cells` in 160 ns, and passes or not. -/
def calibrate (d : Dev) (pass : Bool) (cells : W32) : Dev :=
  let d := wr d Adr.MUZ_CAL cells
  if pass then d
  else err d (Page.muz.base 0) Bit.err_MUZ_CAL_FAIL (rg d Adr.MUZ_CUT_SHOT) (rg d Adr.MUZ_CUT_STRIPE)

/-- CALIBRATION (R439). -/
def execCalibration (pass : Bool) (cells : W32) (s : State) : Answer := runS s fun d => calibrate d pass cells

/-! ### Muzzle causes (R434) -/

/-- ABORT_ASSERTED (R434). -/
def execAbortAsserted (s : State) : Answer := runS s fun d =>
  if d.muz.abortPin then d else externalStop (setMuz d fun m => { m with abortPin := true })

/-- ABORT_RELEASED (R434). -/
def execAbortReleased (s : State) : Answer := run s fun d => muzUpdate (setMuz d fun m => { m with abortPin := false })

/-- BLANK_REQ_ASSERTED (R434). -/
def execBlankReqAsserted (s : State) : Answer := run s fun d => muzUpdate (setMuz d fun m => { m with blankPin := true })

/-- BLANK_REQ_RELEASED (R434). -/
def execBlankReqReleased (s : State) : Answer := runS s fun d =>
  let a := d.muz.blankFrom
  closeOne (muzUpdate (setMuz d fun m => { m with blankPin := false, blankFrom := none })) a 6

/-- CLEAR_STUCK (R440). -/
def execClearStuck (req : Req) (v : W32) (s : State) : Answer := run s fun d =>
  write d req Adr.MUZ_CMD fun d => muzCmd d (v ||| 1)

/-- A write of MUZ's _INJECT (R746): CUT is W1S. -/
def muzInject (d : Dev) (v : W32) : Dev :=
  let a := Page.muz.base 0 + oINJECT
  wr d a (rg d a ||| (v &&& 1))

/-- MUZ_INJECT_CUT (R746). -/
def execMuzInjectCut (req : Req) (v : W32) (s : State) : Answer := run s fun d =>
  write d req (Page.muz.base 0 + oINJECT) fun d => muzInject d (v ||| 1)

/-! ### Tickets, RESUME and PACE (R441, R443, R444, R448, R450) -/

/-- RESUME (R441). -/
def execResume (req : Req) (v : W32) (s : State) : Answer := run s fun d =>
  write d req Adr.EXP_CMD fun d => expCmd d (v ||| 2)

/-- TKT_CLR (R443). -/
def execTktClr (req : Req) (v : W32) (s : State) : Answer := run s fun d =>
  write d req Adr.EXP_CMD fun d => expCmd d (v ||| 1)

/-- EXP_TKT (R443). -/
def execExpTkt (req : Req) (v : W32) (s : State) : Answer := run s fun d => write d req Adr.EXP_TKT fun d => tktWord d v

/-- ACCEPTED (R444). -/
def execAccepted (s : State) : Answer := runS s fun d => if pdState d 13 = .on then tktAccept d else d

/-- WAKE (R448). -/
def execWake (s : State) : Answer := run s expWake

/-- RATE of R451. -/
def paceRate (d : Dev) : Nat := min (bobReq d) (min (osReq d) (fd d Adr.EXP_PACE 7 0))

/-- A PACE frame (R450): its 16 bits, with odd parity. -/
def paceFrame (d : Dev) : Nat :=
  let w := 0xA000 + 16 * (paceRate d % 256) + 8 * b2n d.muz.muzzled + 4 * b2n (inStripe d) + 2 * b2n d.exp.halted
  w + b2n (popcount 16 w % 2 = 0)

/-- PACE_FRAME (R450): the frames run while PD_EXP is on. -/
def execPaceFrame (s : State) : Answer := run s fun d =>
  if pdState d 13 = .on then emit (setFd d Adr.EXP_PACE 31 24 (paceRate d)) (.pace (paceFrame d)) else d

end Sys2Proof.Machine
end

