-- ==== Sys2Proof/Machine/Spl.lean ====
section
/-! DEFINITION. The spool and parser (chapter 02): blocks and their checks, sequence numbers, NAKs and their end, the request
queue, and the stream's position. -/

namespace Sys2Proof.Machine

/-- Change SPL. -/
def setSpl (d : Dev) (f : Spl → Spl) : Dev := { d with spl := f d.spl }

/-- An error of SPL (R129): the BLOCK_SEQ and CONTENT_ID concerned. -/
def splErr (d : Dev) (b seq : Nat) (cid : W32) : Dev := err d (Page.spl.base 0) b (w32 seq) cid

/-- The distance from sequence number `b` up to `a`, modulo 2^32. -/
def sdist (a b : Nat) : Nat := (a + 4294967296 - b % 4294967296) % 4294967296

/-- The sequence number after `n`. -/
def seqNext (n : Nat) : Nat := (n + 1) % 4294967296

/-- The lowest number from `n` on that the line does not hold. -/
def nextFrom (l : List (Nat × Item)) : Nat → Nat → Nat
  | 0, n => n
  | f + 1, n => if (alGet l n).isSome then nextFrom l f (seqNext n) else n

/-- NEXT_SEQ (R115). -/
def nextSeq (d : Dev) : Nat :=
  nextFrom d.spl.line d.spl.line.length (if d.spl.cur.isSome then seqNext d.spl.pos else d.spl.pos)

/-- Whether a sequence number has been received or given up (R115): it lies behind NEXT_SEQ, or ahead of it in the line. -/
def seqTaken (d : Dev) (n : Nat) : Bool := (alGet d.spl.line n).isSome || decide (2147483648 ≤ sdist n (nextSeq d))

/-- The block of an item that SPL holds. -/
def Item.blk : Item → Option SBlk
  | .held b => some b
  | .gone _ => none
  | .lost => none

/-- The blocks of the line that SPL holds, by sequence number. -/
def heldBlks (d : Dev) : List (Nat × SBlk) := d.spl.line.filterMap fun x => x.2.blk.map fun b => (x.1, b)

/-! ### The request queue (R125, R126) -/

/-- Post a request entry. DESIGN CHOICE where the entry that REQ_OVERFLOW drops is a REFETCH (log entry 86): _ERR_INFO captures the
BLOCK_SEQ and CONTENT_ID of the block that XPD is at, or its number and 0. -/
def postReq (d : Dev) (kind reason : Nat) (w1 w2 : W32) : Dev :=
  if 64 ≤ d.spl.reqs.length then
    let (s, c) := match d.spl.cur with
      | some b => (b.seq, b.cid)
      | none => (d.spl.pos, 0)
    let d := setSpl d fun s => { s with ovf := true }
    if kind = 1 then splErr d Bit.err_SPL_REQ_OVERFLOW w1.toNat w2 else splErr d Bit.err_SPL_REQ_OVERFLOW s c
  else
    let first := d.spl.reqs = []
    let d := setSpl d fun s => { s with reqs := s.reqs ++ [(w32 (kind * 268435456 + reason * 16777216), w1, w2)] }
    if first then evt d (Page.spl.base 0) Bit.evt_SPL_REQ else d

/-- A read of SPL_REQ_W2 removes the oldest entry. -/
def reqPop (d : Dev) : Dev := setSpl d fun s => { s with reqs := s.reqs.drop 1 }

/-! ### Blocks (R72 to R76) -/

/-- The word at byte offset `o` of a byte string. -/
def hw (l : List Byte) (o : Nat) : Nat := leNat ((l.drop o).take 4)

/-- The multiple of 16 at or above `n`. -/
def ceil16 (n : Nat) : Nat := (n + 15) / 16 * 16

/-- Whether a block's header is damaged (R74, R76). -/
def hdrBad (l : List Byte) : Bool :=
  decide (fld (hw l 0) 31 16 ≠ 0x5B1C) || decide (fld (hw l 0) 15 8 ≠ 1) ||
  decide (fld (hw l 12) 31 28 = 0 ∨ 3 < fld (hw l 12) 31 28) || decide (1 < fld (hw l 12) 27 24) ||
  decide (hw l 16 ≠ l.length) || decide (hw l 16 < 48 ∨ 4198400 < hw l 16 ∨ hw l 16 % 16 ≠ 0)

/-- Bytes of a KQZ frame from its header (R77). -/
def kqzLen (p : List Byte) : Nat := 16 + 4 * ((hw p 4 + 3) / 4)

/-- Bytes of a block's payload. -/
def payLen (l : List Byte) : Nat := if fld (hw l 12) 27 24 = 0 then hw l 20 else kqzLen (l.drop 32)

/-- Whether a block is damaged (R73, R75, R76). -/
def blkBad (l : List Byte) : Bool :=
  hdrBad l || decide (ceil16 (36 + payLen l) ≠ l.length) ||
  (((l.drop (32 + payLen l)).take (l.length - 36 - payLen l)).any fun b => b != 0) ||
  ((wordsOf l).foldl (· + ·) 0 != 0)

/-- A block from its bytes (R74). -/
def blkOf (l : List Byte) : SBlk :=
  let c := hw l 12
  let pay := (l.drop 32).take (payLen l)
  { seq := hw l 4, cid := w32 (hw l 8), btype := fld c 31 28, kqz := decide (fld c 27 24 = 1)
    refetch := decide (fld c 31 28 = 2) && c.testBit 1, sopen := c.testBit 2, sclose := c.testBit 3
    infLo := toS 32 (hw l 24), infHi := toS 32 (hw l 28), len := l.length, rawLen := hw l 20
    payload := if fld c 27 24 = 1 then pay else []
    recs := if fld c 27 24 = 1 then none else some (wordsOf pay) }

/-- A block without its data. -/
def SBlk.bare (b : SBlk) : SBlk := { b with payload := [], recs := none }

/-! ### Spool space (R319, R320, R530) -/

/-- A block's spool space, its decoded records' included, is freed. -/
def spoolDrop (d : Dev) (b : SBlk) : Dev :=
  { d with bob := { d.bob with spoolUsed := d.bob.spoolUsed - (b.len + b.resv) } }

/-- The spool reserve in bytes (R319, R349). -/
def spoolRsv (d : Dev) : Nat := 1048576 * fd d Adr.BOB_SPOOL_RSV 7 0

/-- Whether the spool has room for an arriving block (R319). -/
def spoolRoom (d : Dev) (l : List Byte) : Bool :=
  let need :=
    if hdrBad l then l.length
    else
      let b := blkOf l
      if b.refetch ∨ b.seq = nextSeq d then b.len else b.len + spoolRsv d
  decide (need ≤ spoolFree d)

/-! ### NAKs (R117 to R119) -/

/-- A NAK: the number opens, unless it is open already, and its entry is posted. -/
def postNak (d : Dev) (seq : Nat) (hdr : Option SBlk) (reason : Nat) : Dev :=
  let d := if d.spl.naks.any fun n => n.seq = seq then d
    else setSpl d fun s => { s with naks := s.naks ++ [⟨seq, hdr⟩] }
  postReq d 1 reason (w32 seq) (match hdr with | some b => b.cid | none => 0)

/-- A received block is no good (R118): it counts as not received. The stream goes on from here by `splGo`. -/
def splReject (d : Dev) (b : SBlk) (reason : Nat) : Dev :=
  postNak (setSpl (spoolDrop d b) fun s => { s with line := alDel s.line b.seq }) b.seq (some b.bare) reason

/-! ### The stream's position -/

/-- A cell becomes undefined; its record stays while a refetch is open. -/
def undefine (l : List Cell) (id : Nat) : List Cell :=
  l.filterMap fun c =>
    if c.id = id then (if c.refetch then some { c with defd := false, bad := false, boxBad := false, recs := [] } else none) else some c

/-- XPD passes a given-up number (R124): where it may have carried a LIB block, an open definition becomes undefined, and the LIB
records up to the next CELL_OPEN are discarded. -/
def passGone (d : Dev) (hdr : Option SBlk) : Dev :=
  let hit := match hdr with
    | some b => decide (b.btype = 2)
    | none => true
  let d := setSpl d fun s => { s with line := alDel s.line s.pos, pos := seqNext s.pos, skip := 0 }
  if hit then
    let cells := match d.xpd.defn with
      | some c => undefine d.xpd.cells c.id
      | none => d.xpd.cells
    { d with xpd := { d.xpd with cells := cells, defn := none, deaf := true } }
  else d

/-- Bring the stream forward: leave a block whose records are consumed, pass given-up numbers, take up the next block. -/
def splNext : Nat → Dev → Dev
  | 0, d => d
  | n + 1, d =>
    match d.spl.cur with
    | some b =>
      if b.recs = some [] then
        splNext n (spoolDrop (setSpl d fun s => { s with cur := none, last := some b.bare, pos := seqNext s.pos, skip := 0 }) b)
      else d
    | none =>
      match alGet d.spl.line d.spl.pos with
      | none => d
      | some .lost => d
      | some (.gone h) => splNext n (passGone d h)
      | some (.held b) =>
        match b.recs with
        | none => d
        | some w =>
          if !blkRuns d .spl .spl then d
          else if b.bad then splReject d b 5
          else splNext n (setSpl d fun s => { s with
            cur := some { b with recs := some (w.drop s.skip) }, line := alDel s.line s.pos, skip := 0 })

/-- Split record words into records (R81); the fuel bounds their number. -/
def records : Nat → List W32 → List (List W32)
  | 0, _ => []
  | _ + 1, [] => []
  | f + 1, h :: t =>
    let n := bits h 31 10
    if bits h 9 8 = 0 ∧ 1 ≤ n ∧ n ≤ t.length + 1 then (h :: t).take n :: records f ((h :: t).drop n) else []

/-- The spooled data of the block that XPD is at reads poisoned (R118): the words already processed are not processed again when
a new copy comes. -/
def curPoison (d : Dev) : Dev :=
  match d.spl.cur with
  | none => d
  | some b =>
    let left := match b.recs with
      | some w => w.length
      | none => 0
    let d := setSpl (spoolDrop d b) fun s => { s with cur := none, skip := b.rawLen / 4 - left }
    postNak d b.seq (some b.bare) 5

/-- The record at the front of the stream (R81): its words. -/
def headRec (d : Dev) : Option (List W32) :=
  match d.spl.cur with
  | some b =>
    match b.recs with
    | some (h :: t) =>
      let n := bits h 31 10
      if bits h 9 8 = 0 ∧ 1 ≤ n ∧ n ≤ t.length + 1 then some ((h :: t).take n) else none
    | _ => none
  | none => none

/-- The record type of the front record. -/
def recType (w : List W32) : Nat := bits (nth w 0 0) 7 0

/-- Word `i` of a record. -/
def rw (w : List W32) (i : Nat) : W32 := nth w i 0

/-- Word `i` of a record as a signed number. -/
def rwS (w : List W32) (i : Nat) : Int := toS 32 (nth w i 0).toNat

/-! ### Sections and tickets -/

/-- The section that is open at the stream's position. -/
def openSec (d : Dev) : Option Sec := d.secs.find? fun s => !s.closed

/-- The ticket that the words of a STRIPE_OPEN copy (R105, R106). -/
def openTkt (num : Nat) (w : List W32) : Tkt :=
  let x (i : Nat) : W32 := nth w (i + 1) 0
  { seq := num, index := x 0, fieldId := bits (x 1) 31 16, slotB := bit (x 1) 2, mending := bit (x 1) 1
    minus := bit (x 1) 0, gridId := bits (x 2) 15 0, y0 := toS 32 (x 3).toNat, x0 := toS 32 (x 4).toNat
    len := bits (x 5) 23 0, wakeLead := 0, mendSet := (x 7).toNat, dmax := 0, geom := []
    rejected := false, gen := none, serial := 0, stopAt := none, swept := false }

/-- Row bands that a job slot names (R557). -/
def slotBands (d : Dev) (b : Bool) : Nat := 8 * 2 ^ fd d (slotReg b Adr.GLB_SLOT_A Adr.GLB_SLOT_B) 1 0

/-- The STRIPE_OPEN record of a block whose records are decoded. -/
def openRec (b : SBlk) : Option (List W32) :=
  match b.recs with
  | some w => (records w.length w).find? fun r => recType r = 0x30
  | none => none

/-- The headers that SPL knows from the stream's position up to sequence number `n`, in stream order: of the block XPD is at, with
the flags that its remaining records leave, of blocks held or given up, and of rejected blocks whose numbers are open. -/
def knownTo (d : Dev) (n : Nat) : List SBlk :=
  let at_ (k : Nat) (b : SBlk) : Nat × SBlk := (sdist k d.spl.pos, b)
  let cur := match d.spl.cur with
    | some b =>
      let has (ty : Nat) : Bool := match b.recs with
        | some w => (records w.length w).any fun r => recType r = ty
        | none => false
      [{ b with sopen := has 0x30, sclose := has 0x34 }]
    | none => []
  let line := d.spl.line.filterMap fun x => match x.2 with
    | .held b => some (at_ x.1 b)
    | .gone h => h.map (at_ x.1)
    | .lost => none
  let naks := d.spl.naks.filterMap fun x => x.hdr.map (at_ x.seq)
  cur ++ ((sortBy (fun a b => decide (a.1 ≤ b.1)) (line ++ naks)).filter fun x => x.1 < sdist n d.spl.pos).map (·.2)

/-- The section number that an interior STRIPE block of sequence number `n` belongs to, and the section's STRIPE_OPEN record where
SPL holds it decoded. DEDUCED (log entry 86): where no section known to SPL is open there, a missing number carries its SOPEN. -/
def secAt (d : Dev) (n : Nat) : Nat × Option (List W32) :=
  let fin := (knownTo d n).foldl (fun (a : Bool × Nat × Option (List W32)) b =>
    match b.sopen, b.sclose with
    | true, c => (a.1 || !c, a.2.1 + 1, openRec b)
    | false, true => (false, a.2.1, none)
    | false, false => a) ((openSec d).isSome, d.spl.opens, none)
  if fin.1 then (fin.2.1 - 1, fin.2.2) else (fin.2.1, none)

/-- What is known of section number `k`: its ticket and its row bands, of the section, of an accepted ticket, or of its STRIPE_OPEN
record (R106). -/
def secKnown (d : Dev) (k : Nat) (w : Option (List W32)) : Option (Tkt × Nat) :=
  match secOf d k with
  | some s => some (secTkt d s, s.b)
  | none =>
    let t := match tktOf d k with
      | some t => some t
      | none => w.map (openTkt k)
    t.map fun t => (t, slotBands d t.slotB)

/-- The stripe rows of a ticket whose writing-frame rows lie from `lo` to `hi`, in ascending Y. -/
def rowsIn (t : Tkt) (lo hi : Int) : List Nat :=
  let a := max lo (if t.minus then t.y0 - (t.len : Int) + 1 else t.y0)
  let b := min hi (if t.minus then t.y0 else t.y0 + (t.len : Int) - 1)
  if b < a then []
  else (rangeI a (b - a + 1).toNat).map fun y => (if t.minus then t.y0 - y else y - t.y0).toNat

/-- Stripe rows of a section send code 0 on every pass. -/
def blankRows (d : Dev) (k : Nat) (rows : List Nat) : Dev := setSec d k fun s => { s with blank := rows.foldl setIns s.blank }

/-- One PIXEL_SPAN entry over every track for each stripe row (R56). -/
def spanEnts (d : Dev) (blk : Blk) (t : Tkt) (b cause : Nat) (rows : List Nat) : Dev :=
  stripeEnts d blk t (rows.map fun u => (cause, 3, w32 (ofS 32 (rowY t u)), w32 ((1024 * b - 1) * 65536)))

/-- PIXEL_SPAN entries over stripe rows of a section, whose codes are 0 from then on. -/
def spanRows (d : Dev) (blk : Blk) (s : Sec) (cause : Nat) (rows : List Nat) : Dev :=
  spanEnts (blankRows d s.num rows) blk (secTkt d s) s.b cause rows

/-! ### Codec engines (R527, R533) -/

/-- Engine `n`. -/
def engOf (d : Dev) (n : Nat) : Eng := nth d.engs n {}

/-- Change engine `n`. -/
def setEng (d : Dev) (n : Nat) (f : Eng → Eng) : Dev := { d with engs := modNth d.engs n f }

/-- The eight engines. -/
def engines : List Nat := List.range 8

/-- Engine `n` is readmitted, or takes the inbound role: it may decode again the frame that it abandoned (R533). -/
def engBack (d : Dev) (n : Nat) : Dev :=
  let f (b : SBlk) : SBlk := { b with avoid := b.avoid.filter fun m => m != n }
  setSpl d fun s => { s with
    refs := s.refs.map f
    line := s.line.map fun x => (x.1, match x.2 with
      | .held b => .held (f b)
      | i => i) }

/-- Roles take effect on engines without a frame or job (R527). -/
def roleSettle (d : Dev) : Dev :=
  engines.foldl (fun d n =>
    let e := engOf d n
    let out := bit (rg d Adr.CDC_ROLE) n
    if e.frame.isSome || e.job.isSome || e.out = out then d
    else
      let d := setEng d n fun e => { e with out := out }
      if out then d else engBack d n) d

/-! ### Give-up (R119 to R124, R761, R762) -/

/-- STREAM_LOST (R123, R762). The numbers of the blocks dropped stay received (R115). -/
def streamLost (d : Dev) (seq : Nat) (cid : W32) : Dev :=
  let d := ((heldBlks d).map (·.2) ++ d.spl.refs).foldl spoolDrop d
  let d := setSpl d fun s => { s with
    line := s.line.map fun x => (x.1, match x.2 with
      | .held _ => .lost
      | i => i)
    refs := [], naks := [], gaps := 0, lost := true }
  let d := roleSettle { d with engs := d.engs.map fun e => { e with frame := none } }
  splErr d Bit.err_SPL_STREAM_LOST seq cid

/-- The rows `lo` to `hi` of section number `k` are lost with the stream (R121): their entries are made now. Where neither the
section, its ticket nor its STRIPE_OPEN record has reached the block, no rule gives their stripe, and they wait for it (log entry 86). -/
def lostRows (d : Dev) (k : Nat × Option (List W32)) (lo hi : Int) : Dev :=
  match secKnown d k.1 k.2 with
  | some (t, b) =>
    let rows := rowsIn t lo hi
    let d := if (secOf d k.1).isSome then blankRows d k.1 rows
      else setSpl d fun s => { s with owed := s.owed ++ [(k.1, lo, hi, true)] }
    spanEnts d .spl t b 11 rows
  | none => setSpl d fun s => { s with owed := s.owed ++ [(k.1, lo, hi, false)] }

/-- The nearest received blocks before and after a number (R122). -/
def nearBefore (d : Dev) (n : Nat) : Option SBlk :=
  let l := (heldBlks d).filter fun x => sdist x.1 d.spl.pos < sdist n d.spl.pos
  match (sortBy (fun a b => decide (sdist b.1 d.spl.pos ≤ sdist a.1 d.spl.pos)) l).head? with
  | some x => some x.2
  | none => match d.spl.cur with
    | some b => some b
    | none => d.spl.last
def nearAfter (d : Dev) (n : Nat) : Option SBlk :=
  let l := (heldBlks d).filter fun x => sdist n d.spl.pos < sdist x.1 d.spl.pos
  ((sortBy (fun a b => decide (sdist a.1 d.spl.pos ≤ sdist b.1 d.spl.pos)) l).head?).map (·.2)

/-- A sequence number is given up (R119, R121 to R123). -/
def giveUp (d : Dev) (n : Nat) : Dev :=
  let hdr := ((d.spl.naks.find? fun x => x.seq = n).map (·.hdr)).getD none
  let cid := match hdr with
    | some b => b.cid
    | none => 0
  let before := nearBefore d n
  let after := nearAfter d n
  let k := secAt d n
  let d := setSpl d fun s => { s with naks := s.naks.filter (fun x => x.seq != n), line := alSet s.line n (.gone hdr) }
  let d := splErr (inc d Adr.SPL_CNT_GIVEUP) Bit.err_SPL_GIVEUP n cid
  match hdr with
  | some b =>
    if b.btype = 3 ∧ !b.sopen ∧ !b.sclose then lostRows d k b.infLo b.infHi
    else if b.btype = 2 then d
    else streamLost d n cid
  | none =>
    match before, after with
    | some a, some b =>
      if a.btype = 3 ∧ b.btype = 3 ∧ !a.sclose ∧ !b.sopen then lostRows d k (min a.infLo b.infLo) (max a.infHi b.infHi)
      else streamLost d n cid
    | _, _ => streamLost d n cid

/-- The first stripe row of a section that PXC has not released, in the order of u (R761). -/
def firstOwed (s : Sec) : Nat := 1024 * (s.released - s.selvBins)

/-- Whether the number at which XPD has stopped must be given up because a row is due (R119, R761). -/
def nakDue (d : Dev) : Bool :=
  d.spl.cur.isNone && (d.spl.naks.any fun x => x.seq = d.spl.pos) &&
  match openSec d with
  | some s => decide (firstOwed s < s.len) && rowDue d s.num (firstOwed s)
  | none => rowDue d d.spl.opens 0

/-- Bring the stream forward, and give up the number at which it stops as long as a row that it holds up is due (R119). -/
def splLoop : Nat → Dev → Dev
  | 0, d => splNext (2 * d.spl.line.length + 2) d
  | n + 1, d =>
    let d := splNext (2 * d.spl.line.length + 2) d
    if nakDue d then splLoop n (giveUp d d.spl.pos) else d

/-- Bring the stream forward as far as it goes; a halt of the data path stops it with its state held (R614). -/
def splGo (d : Dev) : Dev := if d.fcl.halted then d else splLoop (d.spl.naks.length + d.spl.line.length + 1) d

/-- The front record is consumed. -/
def recDone (d : Dev) (w : List W32) : Dev :=
  splGo (setSpl d fun s => { s with cur := s.cur.map fun b => { b with recs := b.recs.map fun r => r.drop w.length } })

/-! ### Arrival (R115 to R117, R120) -/

/-- A block that SPL accepts into the stream (R115, R117, R120). -/
def splAccept (d : Dev) (b : SBlk) : Dev :=
  let gap := decide (b.seq ≠ nextSeq d)
  let d := setSpl d fun s => { s with
    line := alSet s.line b.seq (.held b), naks := s.naks.filter (fun x => x.seq != b.seq)
    top := if sdist (seqNext b.seq) s.top < 2147483648 then seqNext b.seq else s.top
    gaps := s.gaps + b2n gap }
  splGo { d with bob := { d.bob with spoolUsed := d.bob.spoolUsed + b.len } }

/-- The missing numbers of R117: from NEXT_SEQ up, below the highest number accepted, without an open NAK. -/
def missing (d : Dev) : List Nat :=
  let n := nextSeq d
  let k := sdist d.spl.top n
  if 2147483648 ≤ k then []
  else ((List.range k).map fun i => (n + i) % 4294967296).filter fun m =>
    !seqTaken d m && !(d.spl.naks.any fun x => x.seq = m)

/-- GAP_WAIT expires (R117), which it does not during a halt (R614). -/
def gapWait (d : Dev) : Dev :=
  if d.spl.gaps = 0 ∨ d.fcl.halted then d
  else
    let d := setSpl d fun s => { s with gaps := s.gaps - 1 }
    splGo ((missing d).foldl (fun d n => postNak d n none 2) d)

/-- SPL_NAK_HOLD of the open NAK of a number expires (R119), which it does not during a halt (R614). -/
def nakHold (d : Dev) (n : Nat) : Dev :=
  if !d.fcl.halted && d.spl.naks.any fun x => x.seq = n then splGo (giveUp d n) else d

end Sys2Proof.Machine
end

