-- ==== Sys2Proof/Machine/Xpd.lean ====
section
/-! DEFINITION. Expansion, flattening and alteration (chapter 03): figures, placements, the cell cache, chords and their way
through subdivision, warp and clip. -/

namespace Sys2Proof.Machine

/-- round(a / b) of R7 for a divisor of either sign. -/
def rdiv (a b : Int) : Int := if b < 0 then roundDiv (-a) (-b) else roundDiv a b

/-! ### Figures (R94 to R96) -/

/-- A contour as a record holds it: its start, and for each edge the control and end points. -/
structure Cont where
  start : Pt
  edges : List (List Pt)
  deriving DecidableEq, Repr

/-- `n` points given as deltas of `sz` bytes from `p`. -/
def readPts (p : Pt) (sz : Nat) : Nat → List Byte → List Pt
  | 0, _ => []
  | n + 1, l =>
    (p.1 + toS (8 * sz) (leNat (l.take sz)), p.2 + toS (8 * sz) (leNat ((l.drop sz).take sz))) :: readPts p sz n (l.drop (2 * sz))

/-- `n` edge items from point `p` on: the edges and the bytes that follow; the fuel bounds the items by the bytes at hand. -/
def readEdges : Nat → Nat → Pt → List Byte → Option (List (List Pt) × List Byte)
  | _, 0, _, l => some ([], l)
  | 0, _ + 1, _, _ => none
  | _ + 1, _ + 1, _, [] => none
  | f + 1, n + 1, p, op :: l =>
    let k := op.toNat / 64
    let sz := if op.toNat.testBit 5 then 4 else 2
    let len := 2 * sz * (k + 1)
    if k = 3 ∨ l.length < len then none
    else
      let pts := readPts p sz (k + 1) l
      (readEdges f n (pts.getLastD p) (l.drop len)).map fun x => (pts :: x.1, x.2)

/-- `n` contours. -/
def readConts : Nat → List Byte → Option (List Cont)
  | 0, _ => some []
  | n + 1, l =>
    let p : Pt := (toS 32 (hw l 4), toS 32 (hw l 8))
    let body := l.drop 12
    if l.length < 12 then none
    else
      match readEdges body.length (hw l 0) p body with
      | none => none
      | some (es, rest) =>
        let used := body.length - rest.length
        (readConts n (rest.drop ((4 - used % 4) % 4))).map fun cs => ⟨p, es⟩ :: cs

/-- The SELV flag and the contours of a FIGURE record. -/
def figure (w : List W32) : Option (Bool × List Cont) :=
  (readConts (bits (rw w 1) 31 16) (bytesOfWords (w.drop 2))).map fun c => (bit (rw w 1) 0, c)

/-! ### Placement (R100, R103, R139, R140) -/

/-- A placement: the matrix a b / c d of its orientation, and its offset. -/
structure Place where
  a : Int
  b : Int
  c : Int
  d : Int
  dx : Int
  dy : Int
  deriving DecidableEq, Repr

/-- Matrix of an ORIENT value (R103). -/
def orient (o : Nat) : Int × Int × Int × Int :=
  nth [(1, 0, 0, 1), (0, -1, 1, 0), (-1, 0, 0, -1), (0, 1, -1, 0), (1, 0, 0, -1), (0, 1, 1, 0), (-1, 0, 0, 1), (0, -1, -1, 0)]
    o (1, 0, 0, 1)

/-- A placed point. -/
def Place.pt (t : Place) (p : Pt) : Pt := (t.a * p.1 + t.b * p.2 + t.dx, t.c * p.1 + t.d * p.2 + t.dy)

/-- Placement of an ORIENT and an offset under placement `t`. -/
def Place.under (t : Place) (o : Nat) (off : Pt) : Place :=
  let (a, b, c, d) := orient o
  let p := t.pt off
  ⟨t.a * a + t.b * c, t.a * b + t.b * d, t.c * a + t.d * c, t.c * b + t.d * d, p.1, p.2⟩

/-- Whether a placement mirrors. -/
def Place.mirrors (t : Place) : Bool := decide (t.a * t.d - t.b * t.c < 0)

/-- The placed bounding box: lowest X and Y, highest X and Y. -/
def Place.box (t : Place) (b : Int × Int × Int × Int) : Int × Int × Int × Int :=
  let p := t.pt (b.1, b.2.1)
  let q := t.pt (b.2.2.1, b.2.2.2)
  (min p.1 q.1, min p.2 q.2, max p.1 q.1, max p.2 q.2)

/-! ### Flattening (R150 to R153) -/

/-- The smallest k with 16·4^k ≥ d. -/
def flatK (d : Nat) : Nat := ((List.range 33).find? fun k => decide (d ≤ 16 * 4 ^ k)).getD 33

/-- The L1 size of a second difference. -/
def diff2 (a b c : Pt) : Nat := (a.1 - 2 * b.1 + c.1).natAbs + (a.2 - 2 * b.2 + c.2).natAbs

/-- The vertices of an edge from `p` with the given control and end points. -/
def flatten (p : Pt) (e : List Pt) : List Pt :=
  match e with
  | [p1, p2] =>
    let k := flatK (diff2 p p1 p2)
    let n := 2 ^ k
    (List.range n).map fun j =>
      let i : Int := (j : Int) + 1
      let a : Int := (n : Int) - i
      let f (x0 x1 x2 : Int) : Int := roundDiv (a ^ 2 * x0 + 2 * a * i * x1 + i ^ 2 * x2) (4 ^ k : Nat)
      (f p.1 p1.1 p2.1, f p.2 p1.2 p2.2)
  | [p1, p2, p3] =>
    let k := flatK (3 * max (diff2 p p1 p2) (diff2 p1 p2 p3))
    let n := 2 ^ k
    (List.range n).map fun j =>
      let i : Int := (j : Int) + 1
      let a : Int := (n : Int) - i
      let f (x0 x1 x2 x3 : Int) : Int :=
        roundDiv (a ^ 3 * x0 + 3 * a ^ 2 * i * x1 + 3 * a * i ^ 2 * x2 + i ^ 3 * x3) (8 ^ k : Nat)
      (f p.1 p1.1 p2.1 p3.1, f p.2 p1.2 p2.2 p3.2)
  | _ => e

/-- A chord. -/
abbrev Chord := Pt × Pt

/-- A contour of chords with its SELV flag. -/
abbrev Chain := Bool × List Chord

/-- The closed chain of chords through vertices, the closing one last. -/
def closed : List Pt → List Chord
  | [] => []
  | p :: r => (p :: r).zip (r ++ [p])

/-- The vertices of a placed contour (R140, R153). DESIGN CHOICE (log entry 87): a reversed contour starts at the vertex at which the
original ends, the one before its closing edge. -/
def contPts (t : Place) (c : Cont) : List Pt :=
  let v := (c.edges.foldl (fun (a : List Pt × Pt) e =>
    let e := e.map t.pt
    (a.1 ++ flatten a.2 e, e.getLastD a.2)) ([t.pt c.start], t.pt c.start)).1
  if t.mirrors then v.reverse else v

/-- The chains of a placed figure. -/
def figChains (t : Place) (selv : Bool) (c : List Cont) : List Chain := c.map fun x => (selv, closed (contPts t x))

/-- A list of chains cut off after `n` chords, the open contour closed by a straight chord (R148, R164, R205). -/
def cutShort : Nat → List Chain → List Chain
  | _, [] => []
  | n, (s, l) :: r =>
    if l.length ≤ n then (s, l) :: cutShort (n - l.length) r
    else if n = 0 then []
    else
      match l.head?, (l.take n).getLast? with
      | some f, some e => [(s, l.take n ++ [(e.2, f.1)])]
      | _, _ => []

/-- Number of chords of a list of chains. -/
def chordCount (l : List Chain) : Nat := sumN (l.map fun c => c.2.length)

/-! ### Sections (R110, R141) -/

/-- NBINS of a section. -/
def secBins (s : Sec) : Nat := 2 * s.selvBins + (s.len + 1023) / 1024

/-- XL, XH, YL, YH of a section. -/
def kept (d : Dev) (s : Sec) : Int × Int × Int × Int :=
  let t := secTkt d s
  let sx : Int := s.selvX
  let sb : Int := s.selvBins
  let nb : Int := secBins s
  let b : Int := s.b
  (256 * (t.x0 - 64 * sx), 256 * (t.x0 + 1024 * b + 64 * sx),
   if s.minus then 256 * (t.y0 + 1 - 1024 * (nb - sb)) else 256 * (t.y0 - 1024 * sb),
   if s.minus then 256 * (t.y0 + 1 + 1024 * sb) else 256 * (t.y0 + 1024 * (nb - sb)))

/-! ### The cell cache (R130 to R137) -/

/-- Change XPD. -/
def setXpd (d : Dev) (f : Xpd → Xpd) : Dev := { d with xpd := f d.xpd }

/-- An error of XPD (R170). -/
def xpdErr (d : Dev) (b id : Nat) : Dev :=
  err d (Page.xpd.base 0) b (w32 id) (match openSec d with | some s => (secTkt d s).index | none => 0)

/-- The directory's record of a cell. -/
def cellOf (d : Dev) (id : Nat) : Option Cell := d.xpd.cells.find? fun c => c.id = id

/-- Change the record of a cell. -/
def setCell (d : Dev) (id : Nat) (f : Cell → Cell) : Dev :=
  setXpd d fun x => { x with cells := x.cells.map fun c => if c.id = id then f c else c }

/-- Bytes of a definition (R130). -/
def cellBytes (c : Cell) : Nat := if c.defd then 64 + 4 * sumN (c.recs.map (·.length)) else 0

/-- Bytes of the cell cache in use. -/
def cacheUsed (d : Dev) : Nat := sumN (d.xpd.cells.map cellBytes)

/-- Cells in states DEFINED, POISONED or OPEN. -/
def dirUsed (d : Dev) : Nat :=
  d.xpd.cells.countP (fun c => c.defd && !c.refetch && !d.xpd.defn.any fun o => o.id = c.id) + b2n d.xpd.defn.isSome

/-- State of a cell (R134). -/
def cellState (d : Dev) (id : Nat) : Nat :=
  if d.xpd.defn.any fun c => c.id = id then 3
  else match cellOf d id with
    | none => 0
    | some c => if c.refetch then 4 else if !c.defd then 0 else if c.bad then 2 else 1

/-- A CELL_REFETCH, unless one is open (R136). DESIGN CHOICE (log entry 87): W2 is 0 for a cell that no LIB block has defined, or that
was dropped; R125 names no value. -/
def cellRefetch (d : Dev) (id reason : Nat) : Dev :=
  match cellOf d id with
  | some c => if c.refetch then d
    else postReq (setCell d id fun c => { c with refetch := true }) 2 reason (w32 id) c.cid
  | none => postReq (setXpd d fun x => { x with cells := x.cells ++ [{ id := id, box := (0, 0, 0, 0), cid := 0, refetch := true }] })
      2 reason (w32 id) 0

/-- A cell is marked POISONED (R135, R148): an open one through the records stored so far. -/
def cellPoison (d : Dev) (id : Nat) : Dev :=
  let mark (d : Dev) : Dev := cellRefetch (xpdErr d Bit.err_XPD_CELL_POISON id) id 8
  match d.xpd.defn.filter (fun c => c.id = id), cellOf d id with
  | some c, _ => if c.bad then d else mark (setXpd d fun x => { x with defn := some { c with bad := true } })
  | none, some c => if !c.defd ∨ c.bad then d else mark (setCell d id fun c => { c with bad := true })
  | none, none => d

/-- The directory box of a cell reads poisoned (R142). -/
def cellBoxPoison (d : Dev) (id : Nat) : Dev :=
  cellPoison (setCell d id fun c => { c with boxBad := c.boxBad || c.defd }) id

/-- A definition is complete (R131, R132, R759): stored, or discarded for want of room. `fresh` marks one from a REFETCH block. An
injected write of the XPD page spoils its directory box (R603, R604). A definition with poison in its records makes a POISONED cell,
whose refetch stays open (R135). DESIGN CHOICE (log entry 87): with neither room nor a directory entry free, only CACHE_FULL is set. -/
def cellDefine (d : Dev) (c : Cell) (fresh : Bool) : Dev :=
  let old := cellOf d c.id
  let freed := match old with
    | some o => cellBytes o
    | none => 0
  let (inj, d) := injTake d (Page.xpd.base 0) true
  let c := { c with defd := true, boxBad := decide (2 ≤ inj), refetch := c.bad && old.any fun o => o.refetch }
  let space := decide (cacheUsed d - freed + cellBytes c ≤ rgnSize d 1)
  let room := decide (d.xpd.cells.countP (fun x => x.defd && x.id != c.id) < 1048576)
  if space && room then
    let d := setXpd d fun x => { x with cells := x.cells.filter (fun o => o.id != c.id) ++ [c] }
    if c.bad then cellRefetch d c.id 8
    else match d.xpd.wait with
    | some (id, _) =>
      if id = c.id then evt (setXpd d fun x => { x with wait := none }) (Page.xpd.base 0) Bit.evt_XPD_RESOLVED else d
    | none => d
  else
    let d := match old with
      | some o =>
        if o.refetch ∨ fresh then setCell d c.id fun o => { o with defd := false, bad := false, recs := [] }
        else setXpd d fun x => { x with cells := x.cells.filter fun o => o.id != c.id }
      | none => d
    xpdErr d (if space then Bit.err_XPD_DIR_FULL else Bit.err_XPD_CACHE_FULL) c.id

/-- CELL_OPEN: the cell that a record opens, in a block of the given CONTENT_ID. -/
def cellBegin (w : List W32) (cid : W32) : Cell :=
  { id := (rw w 1).toNat, box := (rwS w 2, rwS w 3, rwS w 4, rwS w 5), cid := cid }

/-- The definitions of a REFETCH block replace the cached cells (R127, R137). -/
def refetchCells (d : Dev) (cid : W32) (w : List W32) : Dev :=
  ((records w.length w).foldl (fun (a : Dev × Option Cell) r =>
    match recType r, a.2 with
    | 0x10, _ => (a.1, some (cellBegin r cid))
    | 0x11, some c => if (rw r 1).toNat = c.id then (cellDefine a.1 c true, none) else a
    | 0x11, none => a
    | 0, _ => a
    | _, some c => (a.1, some { c with recs := c.recs ++ [r] })
    | _, none => a) (d, none)).1

/-! ### Expansion (R138 to R142) -/

/-- What the walk through a placed cell has found so far. -/
structure Walk where
  out : List Chain
  culls : List Nat                      -- for each placed cell culled, the chords before it
  miss : Option (Nat × Nat)             -- a cell that cannot be read, and REASON (R145)
  seen : List Nat                       -- cells read
  deriving DecidableEq, Repr

/-- Placed cells culled, of all and of those before chord `n` was read. -/
def Walk.culled (a : Walk) : Nat := a.culls.length
def Walk.culledTo (a : Walk) (n : Nat) : Nat := a.culls.countP fun k => k ≤ n

/-- Whether a placed box, widened by `m` sp, misses the kept region (R142). DESIGN CHOICE (log entry 87): a box that only touches the
region overlaps it, as a chord on a bound is inside it (R169). -/
def boxMisses (k : Int × Int × Int × Int) (m : Int) (b : Int × Int × Int × Int) : Bool :=
  decide (b.2.2.1 + m < k.1 ∨ k.2.1 < b.1 - m ∨ b.2.2.2 + m < k.2.2.1 ∨ k.2.2.2 < b.2.1 - m)

/-- The placements of a PLACE or ARRAY record (R101, R102, R138): ORIENT and offsets in order. -/
def placements (w : List W32) : List Pt :=
  let x := rwS w 3
  let y := rwS w 4
  if recType w = 0x21 then [(x, y)]
  else
    (List.range (bits (rw w 5) 31 16)).flatMap fun j => (List.range (bits (rw w 5) 15 0)).map fun i =>
      (x + (i : Int) * rwS w 6 + (j : Int) * rwS w 8, y + (i : Int) * rwS w 7 + (j : Int) * rwS w 9)

/-- Whether the box of a cell can be read (R142). -/
def boxReads (d : Dev) (id : Nat) : Option Cell :=
  if d.xpd.defn.any fun c => c.id = id then none else (cellOf d id).filter fun c => c.defd && !c.boxBad

/-- Expand a placed cell depth-first (R138 to R142). A placement of an open cell is one of an absent cell (R131). -/
def walk (d : Dev) (k : Int × Int × Int × Int) (m : Int) : Nat → Nat → Place → Bool → Walk → Walk
  | 0, _, _, _, a => a
  | f + 1, id, t, selv, a =>
    if a.miss.isSome then a
    else
      match boxReads d id with
      | none =>
        let open_ := d.xpd.defn.any fun c => c.id = id
        { a with miss := some (id, if !open_ && (cellOf d id).any fun c => c.defd then 8 else 9) }
      | some c =>
        if boxMisses k m (t.box c.box) then { a with culls := a.culls ++ [chordCount a.out] }
        else if c.bad then { a with miss := some (id, 8) }
        else
          c.recs.foldl (fun a w =>
            if recType w = 0x20 then
              match figure w with
              | some (s, cs) => { a with out := a.out ++ figChains t (selv || s) cs }
              | none => a
            else
              (placements w).foldl (fun a off =>
                walk d k m f (rw w 1).toNat (t.under (bits (rw w 2) 2 0) off) (selv || bit (rw w 2) 3) a) a)
            { a with seen := a.seen ++ [id] }

/-- The placement at the origin in force (R108, R139). -/
def originPlace (s : Sec) : Place := ⟨1, 0, 0, 1, 256 * s.orx, 256 * s.ory⟩

/-- CULL_MARGIN and INFL of a section's slot. -/
def cullMargin (d : Dev) (s : Sec) : Nat := fd d (slotReg s.slotB Adr.XPD_CFG_A Adr.XPD_CFG_B) 31 16
def inflRows (d : Dev) (s : Sec) : Nat := fd d (slotReg s.slotB Adr.XPD_CFG_A Adr.XPD_CFG_B) 15 0

/-- The stripe rows of an influence range around Y extents in sp. -/
def inflRange (d : Dev) (s : Sec) (lo hi : Int) : List Nat :=
  rowsIn (secTkt d s) (lo / 256 - inflRows d s) (hi / 256 + inflRows d s)

/-- The influence range of a top-level instance (R142 ff., R760). -/
def instRows (d : Dev) (s : Sec) (id : Nat) (t : Place) : List Nat :=
  match boxReads d id with
  | some c => let b := t.box c.box; inflRange d s b.2.1 b.2.2.2
  | none => let k := secTkt d s; rowsIn k (k.y0 - k.len) (k.y0 + k.len)

/-- The influence range of chords. -/
def chordRows (d : Dev) (s : Sec) (l : List Chain) : List Nat :=
  let ys := l.flatMap fun c => c.2.flatMap fun x => [x.1.2, x.2.2]
  match ys with
  | [] => []
  | y :: r => inflRange d s (r.foldl min y) (r.foldl max y)

/-! ### Alteration (R155 to R169) -/

/-- A word of the grid memory's bank as a signed number. -/
def gridS (d : Dev) (bank o : Nat) : Int := toS 32 (rg d (Adr.GRID_MEM (0x100000 * bank + o))).toNat

/-- The bank of a section's FIELD_ID in force (R154, R160). -/
def secBank (s : Sec) : Nat := 2 * b2n s.slotB + s.fieldId / 32768

/-- locate of R167. -/
def locate (u : Int) (n : Nat) : Nat × Int :=
  if u < 0 then (0, 0)
  else if ((n - 1 : Nat) : Int) * 1048576 ≤ u then (n - 2, 1048576)
  else ((u / 1048576).toNat, u % 1048576)

/-- grid of R167. -/
def gridAt (d : Dev) (bank g : Nat) (v : Pt) : Pt :=
  let e := 0x2000 + 16 * g
  let base := fld (rg d (Adr.GRID_MEM (0x100000 * bank + e))).toNat 16 0
  let w1 := (rg d (Adr.GRID_MEM (0x100000 * bank + e + 4))).toNat
  let nx := fld w1 8 0
  let ny := fld w1 24 16
  if nx = 0 then (0, 0)
  else
    let (i, fx) := locate (v.1 - 256 * gridS d bank (e + 8)) nx
    let (j, fy) := locate (v.2 - 256 * gridS d bank (e + 12)) ny
    let node (i j c : Nat) : Int := gridS d bank (0x3000 + 8 * (base + j * nx + i) + 4 * c)
    let g (c : Nat) : Int :=
      roundDiv (node i j c * ((1048576 - fx) * (1048576 - fy)) + node (i + 1) j c * (fx * (1048576 - fy)) +
        node i (j + 1) c * ((1048576 - fx) * fy) + node (i + 1) (j + 1) c * (fx * fy)) 1099511627776
    (g 0, g 1)

/-- Window offsets of the node words that the warp of a point reads (R158, R167). -/
def nodeWords (d : Dev) (s : Sec) (p : Pt) : List Nat :=
  let bank := secBank s
  let e := 0x2000 + 16 * (s.gridId % 256)
  let base := fld (rg d (Adr.GRID_MEM (0x100000 * bank + e))).toNat 16 0
  let w1 := (rg d (Adr.GRID_MEM (0x100000 * bank + e + 4))).toNat
  let nx := fld w1 8 0
  if nx = 0 then []
  else
    let o (i : Nat) : Int := 256 * gridS d bank (32 * (s.fieldId % 256) + 4 * i)
    let i := (locate (p.1 - o 6 - 256 * gridS d bank (e + 8)) nx).1
    let j := (locate (p.2 - o 7 - 256 * gridS d bank (e + 12)) (fld w1 24 16)).1
    [(i, j), (i + 1, j), (i, j + 1), (i + 1, j + 1)].flatMap fun x =>
      let a := 0x100000 * bank + 0x3000 + 8 * (base + x.2 * nx + x.1)
      [a, a + 4]

/-- Window offsets of the words of the field entry and the directory entry in force. -/
def fieldWords (s : Sec) : List Nat :=
  let b := 0x100000 * secBank s
  (List.range 8).map (fun i => b + 32 * (s.fieldId % 256) + 4 * i) ++ (List.range 4).map fun i => b + 0x2000 + 16 * (s.gridId % 256) + 4 * i

/-- warp of R167 with the field and grid in force. -/
def warp (d : Dev) (s : Sec) (p : Pt) : Pt :=
  let bank := secBank s
  let f (i : Nat) : Int := gridS d bank (32 * (s.fieldId % 256) + 4 * i)
  let v : Pt := (p.1 - 256 * f 6, p.2 - 256 * f 7)
  let ax := roundDiv (f 0 * v.1 + f 1 * v.2) 1073741824
  let ay := roundDiv (f 2 * v.1 + f 3 * v.2) 1073741824
  let g := gridAt d bank (s.gridId % 256) v
  (256 * f 6 + ax + f 4 + g.1, 256 * f 7 + ay + f 5 + g.2)

/-- Pieces of a chord (R165, R166). -/
def subPieces (seg : Nat) (c : Chord) : Nat :=
  let m := max (c.2.1 - c.1.1).natAbs (c.2.2 - c.1.2).natAbs
  if seg = 0 then 1 else max 1 ((m + 256 * seg - 1) / (256 * seg))

/-- A chord divided (R165). -/
def subdivide (seg : Nat) (c : Chord) : List Chord :=
  let p := subPieces seg c
  let at_ (q : Nat) : Pt :=
    if q = p then c.2
    else (c.1.1 + roundDiv ((q : Int) * (c.2.1 - c.1.1)) p, c.1.2 + roundDiv ((q : Int) * (c.2.2 - c.1.2)) p)
  (List.range p).map fun q => (at_ q, at_ (q + 1))

/-- One clip stage on a chord (R168, R169): the chords that leave it, before zero lengths drop. `y` selects the axis. -/
def clipChord (y : Bool) (l : Int) (side : Int) (c : Chord) : List Chord :=
  let ax (p : Pt) : Int := if y then p.2 else p.1
  let ot (p : Pt) : Int := if y then p.1 else p.2
  let mk (o : Int) : Pt := if y then (o, l) else (l, o)
  let a := c.1
  let b := c.2
  let ina := decide (0 ≤ side * (ax a - l))
  let inb := decide (0 ≤ side * (ax b - l))
  if ina && inb then [c]
  else if !ina && !inb then [(mk (ot a), mk (ot b))]
  else
    let x := mk (ot a + rdiv ((l - ax a) * (ot b - ot a)) (ax b - ax a))
    if ina then [(a, x), (x, mk (ot b))] else [(mk (ot a), x), (x, b)]

/-- One clip stage on chains, and how many chords it changes. -/
def clipStage (y : Bool) (l side : Int) (cs : List Chain) : List Chain × Nat :=
  (cs.map fun c => (c.1, (c.2.flatMap (clipChord y l side)).filter fun x => x.1 != x.2),
   sumN (cs.map fun c => c.2.countP fun x => clipChord y l side x != [x]))

/-- What ALT delivers of an item: chains, and its two counts. -/
structure Altered where
  out : List Chain
  subs : Nat
  clips : Nat
  deriving DecidableEq, Repr

/-- MAX_SEG of a section's slot. -/
def maxSeg (d : Dev) (s : Sec) : Nat := fd d (slotReg s.slotB Adr.ALT_MAX_SEG_A Adr.ALT_MAX_SEG_B) 15 0

/-- Chords divided under R165, of chords whose pieces follow the first `n`: up to the one whose piece ALT stops at. -/
def divided (seg : Nat) : List Chord → Nat → Option Nat → Nat
  | [], _, _ => 0
  | c :: r, n, cut =>
    let p := subPieces seg c
    if cut.any fun k => k < n then 0 else b2n (decide (1 < p)) + divided seg r (n + p) cut

/-- Alter the chains of an item (R165 to R169); with `cut`, ALT reads poisoned grid memory after that many chords (R164). -/
def alter (d : Dev) (s : Sec) (l : List Chain) (cut : Option Nat) : Altered :=
  let seg := maxSeg d s
  let subs := divided seg (l.flatMap (·.2)) 0 cut
  let warped : List Chain := l.map fun c => (c.1, (c.2.flatMap (subdivide seg)).map fun x => (warp d s x.1, warp d s x.2))
  let warped := match cut with
    | some n => cutShort n warped
    | none => warped
  let k := kept d s
  let (l, n1) := clipStage false k.1 1 warped
  let (l, n2) := clipStage false k.2.1 (-1) l
  let (l, n3) := clipStage true k.2.2.1 1 l
  let (l, n4) := clipStage true k.2.2.2 (-1) l
  ⟨l.filter fun c => c.2 != [], subs, n1 + n2 + n3 + n4⟩

/-- A field boundary (R161). -/
def fieldBoundary (d : Dev) (s : Sec) : Dev :=
  let d := wr d Adr.ALT_CUR (w32 (s.fieldId * 65536 + s.gridId))
  let d := setFd d Adr.ALT_BANK (b2n s.slotB) (b2n s.slotB) (s.fieldId / 32768)
  let d := wr d Adr.ALT_STRIPE (secTkt d s).index
  evt d (Page.alt.base 0) Bit.evt_ALT_FIELD_CHANGE

end Sys2Proof.Machine
end

