-- ==== Sys2Proof/Machine/Bst.lean ====
section
/-! DEFINITION. Basting and proximity correction (chapter 04): pieces, cell and patch areas, carry pieces, densities,
modulations, bands and their release. -/

namespace Sys2Proof.Machine

/-- INFO words of a BST or PXC error: the cell, and the STRIPE_INDEX. -/
def cellErr (d : Dev) (p : Page) (b : Nat) (s : Sec) (k j : Nat) : Dev :=
  err d (p.base 0) b (w32 (k % 8192 * 65536 + j % 65536)) (secTkt d s).index

/-! ### The grid (R172 to R174) -/

/-- NCX and NCY. -/
def secNcx (s : Sec) : Nat := 16 * s.b + 2 * s.selvX
def secNcy (s : Sec) : Nat := 16 * secBins s

/-- Cell column of patch column `p`, and cell row of patch row `q`. -/
def patchK (s : Sec) (p : Nat) : Nat := s.selvX + 4 * p
def patchJ (s : Sec) (q : Nat) : Nat := 16 * s.selvBins + 4 * q

/-! ### Cutting (R177 to R179) -/

/-- The grid lines strictly between `a` and `b`, in order from `a` to `b`, for lines at `o` + 16,384·n. -/
def linesBetween (o a b : Int) : List Int :=
  let lo := min a b
  let hi := max a b
  let first := (lo - o) / 16384 + 1
  let last := (hi - o - 1) / 16384
  let l := (rangeI first (last - first + 1).toNat).map fun n => o + 16384 * n
  if a ≤ b then l else l.reverse

/-- Consecutive pairs. -/
def pairs : List Pt → List (Pt × Pt)
  | a :: b :: r => (a, b) :: pairs (b :: r)
  | _ => []

/-- A chord cut at the grid whose lines start at (XL, YL). -/
def cutChord (xl yl : Int) (c : Chord) : List (Pt × Pt) :=
  let a := c.1
  let b := c.2
  let xs := (linesBetween xl a.1 b.1).map fun x => (x, a.2 + rdiv ((x - a.1) * (b.2 - a.2)) (b.1 - a.1))
  (pairs ([a] ++ xs ++ [b])).flatMap fun pq =>
    let p := pq.1
    let q := pq.2
    let ys := (linesBetween yl p.2 q.2).map fun y => (p.1 + rdiv ((y - p.2) * (q.1 - p.1)) (q.2 - p.2), y)
    pairs ([p] ++ ys ++ [q])

/-- Cell column and row of a piece (R179). -/
def pieceCell (d : Dev) (s : Sec) (x : Pt × Pt) : Nat × Nat :=
  let k := kept d s
  (((min x.1.1 x.2.1 - k.1) / 16384).toNat,
   (if s.minus then (k.2.2.2 - max x.1.2 x.2.2) / 16384 else (min x.1.2 x.2.2 - k.2.2.1) / 16384).toNat)

/-- The piece of two points, with its cell (R179); none for a piece with equal Y at both ends (R178). -/
def mkPiece (d : Dev) (s : Sec) (selv : Bool) (x : Pt × Pt) : Option Piece :=
  if x.1.2 = x.2.2 then none
  else
    let c := pieceCell d s x
    some { u := x.1, v := x.2, selv := selv, k := c.1, j := c.2 }

/-! ### Areas (R180 to R184) -/

/-- loc and wid of R180. -/
def pieceLoc (xl : Int) (p : Piece) : Int := (p.u.1 + p.v.1 - 2 * (xl + 16384 * p.k)) * (p.v.2 - p.u.2)
def pieceWid (p : Piece) : Int := 32768 * (p.v.2 - p.u.2)

/-- A_all and A_win of cell (k, j) from the pieces of its row (R181). -/
def cellArea (xl : Int) (row : List Piece) (k : Nat) : Int × Int :=
  row.foldl (fun a p =>
    let x := if p.k = k then pieceLoc xl p else if k < p.k then pieceWid p else 0
    (a.1 + x, if p.selv then a.2 else a.2 + x)) (0, 0)

/-- The pieces of cell row `j`. -/
def rowPieces (s : Sec) (j : Nat) : List Piece := s.pieces.filter fun p => p.j = j

/-- AP of patch (p, q) (R184). -/
def patchArea (d : Dev) (s : Sec) (p q : Nat) : Int :=
  let xl := (kept d s).1
  128 * sumI ((List.range 4).flatMap fun i =>
    let row := rowPieces s (patchJ s q + i)
    (List.range 4).map fun m => (cellArea xl row (patchK s p + m)).2)

/-- Carry pieces of a patch (R186): pieces without SELV right of its edge, merged by height. -/
def carryPieces (d : Dev) (s : Sec) (p q : Nat) : List (Pt × Pt) :=
  let kc := patchK s p + 4
  let xr := (kept d s).1 + 16384 * (kc : Int)
  let ps := s.pieces.filter fun x => !x.selv && decide (kc ≤ x.k ∧ patchJ s q ≤ x.j ∧ x.j < patchJ s q + 4)
  let ys := (sortBy (fun a b => decide (a ≤ b)) (ps.flatMap fun x => [x.u.2, x.v.2])).foldr
    (fun y l => if l.head? = some y then l else y :: l) []
  let w (a b : Int) : Int := sumI (ps.map fun x =>
    if min x.u.2 x.v.2 ≤ a ∧ b ≤ max x.u.2 x.v.2 then (if x.u.2 < x.v.2 then 1 else -1) else 0)
  let spans := ((ys.zip (ys.drop 1)).foldl (fun (l : List (Int × Int × Int)) x =>
    let v := w x.1 x.2
    match l with
    | (a, b, v0) :: r => if b = x.1 ∧ v0 = v then (a, x.2, v) :: r else (x.1, x.2, v) :: l
    | [] => [(x.1, x.2, v)]) []).reverse
  spans.flatMap fun x =>
    List.replicate x.2.2.natAbs (if 0 < x.2.2 then ((xr, x.1), (xr, x.2.1)) else ((xr, x.2.1), (xr, x.1)))

/-- A poisoned word: which, and its cell. -/
abbrev BadWord := CellWord × Nat × Nat

/-- Whether BST keeps a word. -/
def bstWord : CellWord → Bool
  | .la | .lw | .wa | .ww => true
  | .rho | .m1 | .m2 => false

/-- Whether A_win of cell (k, j) derives from a poisoned word (R181, R204). -/
def areaBad (s : Sec) (k j : Nat) : Bool := s.bad.any fun
  | (.lw, c, r) => decide (r = j ∧ c = k)
  | (.ww, c, r) => decide (r = j ∧ k < c)
  | _ => false

/-- The record of patch (p, q) (R185, R204, R317). -/
def mkPatch (d : Dev) (s : Sec) (p q : Nat) : Patch × Nat :=
  let k0 := patchK s p
  let j0 := patchJ s q
  let own := (s.pieces.filter fun x =>
    !x.selv && decide (k0 ≤ x.k ∧ x.k < k0 + 4 ∧ j0 ≤ x.j ∧ x.j < j0 + 4)).map fun x => (x.u, x.v)
  let carry := carryPieces d s p q
  ({ q := q, p := p, edges := own ++ carry, ap := patchArea d s p q
     apBad := (List.range 16).any fun i => areaBad s (k0 + i % 4) (j0 + i / 4)
     units := (256 + 16 * (own.length + carry.length) + 4095) / 4096 }, carry.length)

/-! ### Poison (R203, R204) -/

/-- RMAX of R197. -/
def rmaxOf (p : PxcPar) : Nat :=
  max ((p.terms.map fun t => t.2.1).foldl max 0) (if p.etaF = 0 then 0 else 16 * (p.radF + 1))

/-- REACH and LAG (R197, R201). -/
def reachOf (p : PxcPar) : Nat := 64 * (2 * rmaxOf p + 1)
def lagOf (p : PxcPar) : Nat := 1 + 2 * rmaxOf p / 16

/-- A word of cell (k, j) reads uncorrectable (R203). -/
def poisonCell (d : Dev) (num : Nat) (pg : Page) (blk : Blk) (b : Nat) (w : BadWord) : Dev :=
  let (_, k, j) := w
  match secOf d num with
  | none => d
  | some s =>
    match s.par with
    | none => d
    | some par =>
      let r := reachOf par
      let base := 1024 * s.selvBins
      let lo := 64 * j - (base + r)
      let hi := min s.len (64 * j + 64 + r - base)
      let d := cellErr (setSec d num fun s => { s with bad := s.bad ++ [w] }) pg b s k j
      spanRows d blk s 10 ((List.range (hi - lo)).map fun i => lo + i)

/-- An injected error of the page acts on the first word that BST or PXC reads (R603), else the upset of the command does. -/
def pageUpset (d : Dev) (pg : Page) (first : BadWord) (acc : Option BadWord) : Option BadWord × Dev :=
  let (hit, d) := injAny d (pg.base 0)
  (if hit then some first else acc, d)

/-! ### Bands (R188, R200) -/

/-- Density of a cell (R188). -/
def density (a : Int) : Nat := (clampI 0 65536 (roundDiv a 8192)).toNat

/-- The densities of a band that differ from 0. -/
def bandRho (d : Dev) (s : Sec) (b : Nat) : List ((Nat × Nat) × Nat) :=
  let xl := (kept d s).1
  (List.range 16).flatMap fun i =>
    let j := 16 * b + i
    let row := rowPieces s j
    if row = [] then []
    else (List.range (secNcx s)).filterMap fun k =>
      let v := density (cellArea xl row k).1
      if v = 0 then none else some ((k, j), v)

/-- The patches of band `b`, patch rows ascending and within one its columns. -/
def bandPatches (s : Sec) (b : Nat) : List (Nat × Nat) :=
  if b < s.selvBins then []
  else ((List.range 4).map fun i => 4 * (b - s.selvBins) + i).flatMap fun q =>
    if q < secRows s then (List.range (4 * s.b)).map fun p => (q, p) else []

/-- Write patch records while the PATCH region has room (R317, R318). -/
def writePatches : Nat → Dev → Nat → Dev
  | 0, d, _ => d
  | f + 1, d, num =>
    match secOf d num with
    | none => d
    | some s =>
      match s.todo with
      | some ((q, p) :: rest) =>
        let (x, carry) := mkPatch d s p q
        if patchFree d < x.units then d
        else
          let d := setSec d num fun s => { s with patches := s.patches ++ [x], todo := some rest }
          let d := { d with bob := { d.bob with patchUsed := d.bob.patchUsed + x.units } }
          let d := addReg (inc d Adr.BST_CNT_PATCHES) Adr.BST_CNT_CARRY carry
          let d := wr d Adr.BST_LAST_PATCH (w32 (q % 65536 * 65536 + p))
          let d := wr (wr d Adr.BST_LAST_AREA_LO (w32 (ofS 64 x.ap))) Adr.BST_LAST_AREA_HI (w32 (ofS 64 x.ap / 4294967296))
          writePatches f d num
      | _ => d

/-- Begin the completion of a section's next band. -/
def bandBegin (d : Dev) (num : Nat) (acc : Option BadWord) : Dev :=
  match secOf d num with
  | none => d
  | some s =>
    let b := s.bands
    let (hit, d) := pageUpset d .bst (.la, 0, 16 * b) (acc.filter fun c => c.2.2 / 16 = b)
    let d := match hit with
      | some w => poisonCell d num .bst .bst Bit.err_BST_ACC_POISON w
      | none => d
    setSec d num fun s => { s with todo := some (bandPatches s b) }

/-- End the completion of a band once every record of it is written. -/
def bandEnd (d : Dev) (num : Nat) : Dev :=
  match secOf d num with
  | none => d
  | some s =>
    if s.todo = some [] then
      let b := s.bands
      let rho := bandRho d s b
      let d := setSec d num fun s => { s with
        todo := none, bands := b + 1, rho := s.rho ++ rho, pieces := s.pieces.filter fun p => decide (16 * (b + 1) ≤ p.j) }
      let d := setFd d Adr.BST_BAND 31 16 (b + 1)
      let d := evt d (Page.bst.base 0) Bit.evt_BST_BAND_DONE
      if b + 1 = secBins s then evt d (Page.bst.base 0) Bit.evt_BST_SECTION_DONE else d
    else d

/-- Complete the bands of a section below `upto` (R200), as far as the patch records find room. -/
def bandsUpTo : Nat → Dev → Nat → Nat → Option BadWord → Dev
  | 0, d, _, _, _ => d
  | f + 1, d, num, upto, acc =>
    match secOf d num with
    | none => d
    | some s =>
      if s.dropped then d
      else
        let go (d : Dev) : Dev :=
          let d := bandEnd (writePatches (16 * s.b + 1) d num) num
          match secOf d num with
          | some x => if x.todo.isSome then d else bandsUpTo f d num upto acc
          | none => d
        if s.todo.isSome then go d
        else if s.bands < upto then go (bandBegin d num acc)
        else d

/-- Complete what a section has to complete: the band at hand, and every band once it is closed. -/
def bandsGo (d : Dev) (num : Nat) (acc : Option BadWord) : Dev :=
  match secOf d num with
  | none => d
  | some s => bandsUpTo (secBins s + 1) d num (if s.closed then secBins s else 0) acc

/-! ### The proximity model (R189 to R194) -/

/-- The latched parameters of a slot (R199). -/
def pxcLatch (d : Dev) (b : Bool) : PxcPar :=
  let reg := slotReg b
  let tap (i : Nat) : Nat := fd d (Adr.PXC_TAP i) 16 0
  let base := if b then 320 else 0
  let n := min 4 (fd d (reg Adr.PXC_CFG_A Adr.PXC_CFG_B) 2 0)
  let term (t : Nat) (hi lo : Nat) : Nat := fd d (reg (Adr.PXC_TERM_A t) (Adr.PXC_TERM_B t)) hi lo
  { terms := (List.range n).map fun t => (term t 15 0, term t 21 16, (List.range 33).map fun i => tap (base + 64 * t + i))
    etaF := fd d (reg Adr.PXC_FOG_A Adr.PXC_FOG_B) 15 0
    radF := fd d (reg Adr.PXC_FOG_A Adr.PXC_FOG_B) 19 16
    tapF := (List.range 9).map fun i => tap (base + 256 + i)
    mMin := fd d (reg Adr.PXC_MLIM_A Adr.PXC_MLIM_B) 11 0
    mMax := fd d (reg Adr.PXC_MLIM_A Adr.PXC_MLIM_B) 27 16 }

/-- T of R189. -/
def pxcT (p : PxcPar) : Nat := 32768 + 8 * (sumN (p.terms.map fun t => t.1) + p.etaF)

/-- An array on a grid: a value for each column and row, 0 outside. -/
abbrev Grid := Int → Int → Int

/-- conv of R189 on a grid of `nx` columns and `ny` rows. -/
def convAt (a : Grid) (tap : List Nat) (rad : Nat) (nx ny : Nat) (k j : Int) : Int :=
  let ds := rangeI (-(rad : Int)) (2 * rad + 1)
  let t (i : Int) : Int := (tap.getD i.natAbs 0 : Nat)
  let inside (k j : Int) : Bool := decide (0 ≤ k ∧ k < nx ∧ 0 ≤ j ∧ j < ny)
  let h (j : Int) : Int := if inside k j then roundDiv (sumI (ds.map fun e => t e * a (k + e) j)) 65536 else 0
  roundDiv (sumI (ds.map fun e => t e * h (j + e))) 65536

/-- side of R189: super-cell pair and weight. -/
def side (n : Int) : Int × Int := if 8 ≤ n % 16 then (n / 16, 2 * (n % 16) - 15) else (n / 16 - 1, 2 * (n % 16) + 17)

/-- One iteration of R189 at cell (k, j), before its clamp; `m` and `rho` are arrays over the section's cells. -/
def pxcRaw (p : PxcPar) (s : Sec) (m rho : Grid) (k j : Int) : Int :=
  let nx := secNcx s
  let ny := secNcy s
  let q (k j : Int) : Int := if 0 ≤ k ∧ k < nx ∧ 0 ≤ j ∧ j < ny then roundDiv (m k j * rho k j) 1024 else 0
  let short := sumI (p.terms.map fun t => (t.1 : Int) * convAt q t.2.2 t.2.1 nx ny k j)
  let nsx := (nx + 15) / 16
  let nsy := secBins s
  let fog : Int :=
    if p.etaF = 0 then 0
    else
      let qf (sx r : Int) : Int :=
        if 0 ≤ sx ∧ sx < nsx ∧ 0 ≤ r ∧ r < nsy then
          roundDiv (sumI ((List.range 256).map fun i => q (16 * sx + (i % 16 : Nat)) (16 * r + (i / 16 : Nat)))) 256
        else 0
      let cf (sx r : Int) : Int :=
        convAt qf p.tapF p.radF nsx nsy (clampI 0 (nsx - 1) sx) (clampI 0 (nsy - 1) r)
      let (s0, wx) := side k
      let (r0, wy) := side j
      p.etaF * roundDiv ((32 - wx) * (32 - wy) * cf s0 r0 + wx * (32 - wy) * cf (s0 + 1) r0 +
        (32 - wx) * wy * cf s0 (r0 + 1) + wx * wy * cf (s0 + 1) (r0 + 1)) 1024
  let den := 32768 + roundDiv (short + fog) 4096
  (2048 * (pxcT p : Int) + den) / (2 * den)

/-- The densities of a section as an array. -/
def rhoGrid (s : Sec) : Grid := fun k j =>
  if k < 0 ∨ j < 0 then 0 else (((s.rho.find? fun r => r.1 = (k.toNat, j.toNat)).map (·.2)).getD 0 : Nat)

/-- m2 of cell (k, j), before and after its clamp. -/
def modulation (s : Sec) (p : PxcPar) (k j : Nat) : Int × Nat :=
  let rho := rhoGrid s
  let m1 : Grid := fun k j => clampI p.mMin p.mMax (pxcRaw p s (fun _ _ => 1024) rho k j)
  let raw := pxcRaw p s m1 rho k j
  (raw, (clampI p.mMin p.mMax raw).toNat)

/-- An interval of cells along one axis. -/
abbrev Iv := Int × Int

/-- The cells along one axis, of `n` cells and `ns` super-cells, that one iteration of R189 reads for the cells of an interval: those
in reach of the terms in use, or those of the fog term's super-cells. -/
def iterIv (p : PxcPar) (fog : Bool) (n ns : Nat) (x : Iv) : Iv :=
  let top : Int := (n : Int) - 1
  if fog then
    let sup (i : Int) : Int := clampI 0 ((ns : Int) - 1) i
    let rad : Int := (p.radF : Nat)
    (16 * sup (sup (side x.1).1 - rad), min top (16 * sup (sup ((side x.2).1 + 1) + rad) + 15))
  else
    let rad : Int := ((p.terms.map fun t => t.2.1).foldl max 0 : Nat)
    (max 0 (x.1 - rad), min top (x.2 + rad))

/-- The rectangles of cells that one iteration reads for those of a rectangle. -/
def iterRects (p : PxcPar) (s : Sec) (r : Iv × Iv) : List (Iv × Iv) :=
  ((if p.terms = [] then [] else [false]) ++ (if p.etaF = 0 then [] else [true])).map fun f =>
    (iterIv p f (secNcx s) ((secNcx s + 15) / 16) r.1, iterIv p f (secNcy s) (secBins s) r.2)

/-- Whether the density of a cell of a rectangle derives from a poisoned word (R181, R204). -/
def rhoBadIn (r : Iv × Iv) (w : BadWord) : Bool :=
  let row := decide (r.2.1 ≤ w.2.2 ∧ (w.2.2 : Int) ≤ r.2.2)
  match w.1 with
  | .la | .rho => row && decide (r.1.1 ≤ w.2.1 ∧ (w.2.1 : Int) ≤ r.1.2)
  | .wa => row && decide (r.1.1 < w.2.1)
  | _ => false

/-- Whether the modulation of cell (k, j) derives from a poisoned word (R189, R204): each iteration reads the density and the modulation
before it of the cells in its reach. -/
def modBadAt (s : Sec) (p : PxcPar) (k j : Nat) : Bool :=
  let one := iterRects p s (((k : Int), (k : Int)), ((j : Int), (j : Int)))
  let two := one.flatMap (iterRects p s)
  let hit (r : Iv × Iv) (w : BadWord) : Bool :=
    decide (r.1.1 ≤ w.2.1 ∧ (w.2.1 : Int) ≤ r.1.2 ∧ r.2.1 ≤ w.2.2 ∧ (w.2.2 : Int) ≤ r.2.2)
  s.bad.any fun w => match w.1 with
    | .m2 => decide (w.2 = (k, j))
    | .m1 => one.any fun r => hit r w
    | _ => (one ++ two).any fun r => rhoBadIn r w

/-- The 36 cells of a patch's modulations in the writing frame's order (R194). -/
def patchCells (s : Sec) (x : Patch) : List (Nat × Nat) :=
  let clip (n : Nat) (i : Int) : Nat := (clampI 0 ((n : Int) - 1) i).toNat
  (List.range 36).map fun i =>
    let c : Int := (i % 6 : Nat)
    let r : Int := (i / 6 : Nat)
    (clip (secNcx s) (patchK s x.p - 1 + c),
     clip (secNcy s) (if s.minus then patchJ s x.q + 4 - r else patchJ s x.q - 1 + r))

/-- The modulations of the patches of band `b`. -/
def releasePatches (s : Sec) (p : PxcPar) (b : Nat) : Sec :=
  { s with patches := s.patches.map fun x =>
      if !x.queued && b = s.selvBins + x.q / 4 then
        let cells := patchCells s x
        { x with
          queued := true, mods := cells.map fun c => (modulation s p c.1 c.2).2
          modBad := cells.any fun c => modBadAt s p c.1 c.2 }
      else x }

/-- Cells of band `b` whose m2 the limits changed. -/
def clampCount (s : Sec) (p : PxcPar) (b : Nat) : Nat :=
  sumN ((List.range 16).map fun i => (List.range (secNcx s)).countP fun k =>
    let m := modulation s p k (16 * b + i)
    m.1 != (m.2 : Int))

/-- The section that PXC works on: the first latched one that is not released whole (R202). -/
def pxcSec (d : Dev) : Option Sec := d.secs.find? fun s => s.par.isSome && decide (s.released < secBins s)

/-- PXC releases the next band of its section when R201 allows: its patches wait for dispatch. -/
def pxcRelease (d : Dev) (acc : Option BadWord) : Dev :=
  match pxcSec d with
  | none => d
  | some s =>
    match s.par with
    | none => d
    | some p =>
      let b := s.released
      if !blkRuns d .pxc .pxc || !(decide (b + lagOf p < s.bands) || decide (s.bands = secBins s)) then d
      else
        let (hit, d) := pageUpset d .pxc (.rho, 0, 16 * b) acc
        let d := match hit with
          | some w => poisonCell d s.num .pxc .pxc Bit.err_PXC_ARR_POISON w
          | none => d
        match secOf d s.num with
        | none => d
        | some s =>
          let works := (s.patches.filter fun x => !x.queued && b = s.selvBins + x.q / 4).map fun x => ({ sec := s.num, q := x.q, p := x.p } : Work)
          let d := addReg d Adr.PXC_CNT_CLAMP (clampCount s p b)
          let d := setSec d s.num fun s => { releasePatches s p b with released := b + 1 }
          let d := { d with ver := { d.ver with wait := d.ver.wait ++ works } }
          let d := wr d Adr.PXC_BAND (w32 ((b + 1) % 65536 * 65536 + b % 65536))
          let d := evt d (Page.pxc.base 0) Bit.evt_PXC_RELEASED
          -- the densities that no later band reads are dropped
          let rm := 2 * rmaxOf p
          setSec d s.num fun s => { s with rho := if b + 1 = secBins s then [] else s.rho.filter fun r => decide (16 * b ≤ r.1.2 + 16 + rm) }

/-- PXC takes up the next section's STRIPE_OPEN (R199, R202). -/
def pxcTake (d : Dev) : Dev :=
  if (pxcSec d).isSome || !blkRuns d .pxc .pxc || !blkRuns d .bst .bst then d
  else
    match d.secs.find? fun s => s.par.isNone && !s.dropped with
    | none => d
    | some s =>
      let par := pxcLatch d s.slotB
      let d := setSec d s.num fun s => { s with par := some par, b := slotBands d s.slotB }
      let x := (secTkt d s).index
      let ncx := 16 * slotBands d s.slotB + 2 * s.selvX
      let d := wr (wr d Adr.BST_POS x) Adr.BST_BAND 0
      let d := wr d Adr.BST_GRID (w32 (ncx % 8192 * 65536 + secBins s % 65536))
      let d := wr (wr d Adr.PXC_POS x) Adr.PXC_BAND 0
      evt d (Page.pxc.base 0) Bit.evt_PXC_LATCHED

/-- SOFT_RESET of BST or PXC abandons the section in progress (R206, R207). -/
def secAbandon (d : Dev) (blk : Blk) : Dev :=
  match pxcSec d with
  | none => d
  | some s =>
    let u := firstOwed s
    let gone := s.patches.filter fun x => !x.queued
    let d := { d with bob := { d.bob with patchUsed := d.bob.patchUsed - sumN (gone.map (·.units)) } }
    let q0 := u / 256
    let d := setSec d s.num fun s => { s with
      dropped := true, pieces := [], todo := none, rho := [], released := secBins s
      patches := s.patches.filter (·.queued)
      verd := s.verd ++ (List.range (secRows s - q0)).flatMap fun i => (List.range (4 * s.b)).map fun p => ((q0 + i, p), Verd.withheld) }
    spanRows d blk s 15 ((List.range (s.len - u)).map fun i => u + i)

end Sys2Proof.Machine
end

