-- ==== Sys2Proof/Machine/Geo.lean ====
section
/-! DEFINITION. The stream's records on their way through expansion, alteration and basting (chapters 02 to 04): what each record
type does when it stands at the stream's position. -/

namespace Sys2Proof.Machine

/-! ### An item: ALT and BST (R161 to R169, R177 to R179, R200, R205) -/

/-- The word of BST, and of PXC, that an upset names. -/
def upBst : Upset → Option BadWord
  | .acc w k j => if bstWord w then some (w, k, j) else none
  | _ => none
def upPxc : Upset → Option BadWord
  | .acc w k j => if bstWord w then none else some (w, k, j)
  | _ => none

/-- An upset after `c` chords have passed the stage it concerns. -/
def upAfter (u : Upset) (x a o : Nat) : Upset :=
  match u with
  | .cell i n => .cell i (n - x)
  | .grid n f => .grid (n - a) f
  | .chord n => .chord (n - o)
  | u => u

/-- Chords of chains once divided (R165). -/
def altChords (d : Dev) (s : Sec) (l : List Chain) : Nat :=
  sumN (l.map fun c => sumN (c.2.map (subPieces (maxSeg d s))))

/-- The first chord of chains, once divided, at which ALT reads a word of the grid memory that an injected write spoilt (R604). -/
def gridSpoilt (d : Dev) (s : Sec) (l : List Chain) : Option (Nat × Nat) :=
  if d.xpd.gridBad = [] then none
  else
    let bad (o : Nat) : Bool := d.xpd.gridBad.contains o
    match (fieldWords s).find? bad with
    | some o => some (0, o)
    | none =>
      let cs := l.flatMap fun c => c.2.flatMap (subdivide (maxSeg d s))
      let at_ (c : Chord) : Option Nat := (nodeWords d s c.1 ++ nodeWords d s c.2).find? bad
      (((List.range cs.length).zip cs).find? fun x => (at_ x.2).isSome).map fun x => (x.1, (at_ x.2).getD 0)

/-- The chord where ALT reads poisoned grid memory, and the window offset (R164): an armed injection acts on the first word of
the field entry, which ALT reads first. -/
def gridCut (d : Dev) (s : Sec) (l : List Chain) (u : Upset) : Option (Nat × Nat) :=
  if l = [] then none
  else if 2 ≤ (injTake d (Page.alt.base 0) false).1 then some (0, secBank s * 0x100000 + 32 * (s.fieldId % 256))
  else match u with
    | .grid n f => if n < altChords d s l then some (n, f) else gridSpoilt d s l
    | _ => gridSpoilt d s l

/-- ALT closes an item that read poisoned grid memory (R164). -/
def gridPoison (d : Dev) (s : Sec) (l : List Chain) (rows : Option (List Nat)) (n f : Nat) : Dev :=
  let d := err d (Page.alt.base 0) Bit.err_ALT_GRID_POISON (w32 f) (secTkt d s).index
  let got := cutShort (n + 1) (l.map fun c => (c.1, c.2.flatMap (subdivide (maxSeg d s))))
  spanRows d .alt s 10 (rows.getD (chordRows d s got))

/-- BST closes an item whose chord `n` it received poisoned (R205). -/
def chordPoison (d : Dev) (s : Sec) (out : List Chain) (rows : Option (List Nat)) (n : Nat) : Dev :=
  let k := kept d s
  let c := match ((out.flatMap (·.2)).drop n).head? with
    | some c => pieceCell d s (((cutChord k.1 k.2.2.1 c).head?).getD c)
    | none => (0, 0)
  spanRows (cellErr d .bst Bit.err_BST_CHORD_POISON s c.1 c.2) .bst s 10 (rows.getD (chordRows d s (cutShort (n + 1) out)))

/-- BST cuts what ALT delivered of an item. -/
def cutItem (d : Dev) (s : Sec) (out : List Chain) : Dev :=
  let k := kept d s
  let l := out.flatMap fun c => c.2.flatMap fun x => (cutChord k.1 k.2.2.1 x).map fun y => (c.1, y)
  let d := if out = [] then d else setFd d Adr.BST_BAND 15 0 s.bin
  let d := addReg d Adr.BST_CNT_PIECES l.length
  setSec d s.num fun s => { s with
    pieces := s.pieces ++ l.filterMap fun x => mkPiece d s x.1 x.2, cutBand := if out = [] then s.cutBand else s.bin }

/-- An item goes through ALT into BST. `rows` is its influence range where it is an instance. Answers whether it is done, or
BST waits for patch records first, and what is left of the upset. -/
def itemEmit (d : Dev) (num : Nat) (l : List Chain) (rows : Option (List Nat)) (u : Upset) : Dev × Bool × Upset :=
  match secOf d num with
  | none => (d, true, u)
  | some s =>
    if s.dropped then (d, true, u)
    else
      let cut := gridCut d s l u
      let a := alter d s l (cut.map (·.1))
      let d := if a.out = [] then d else bandsUpTo (secBins s + 1) d num s.bin (upBst u)
      match secOf d num with
      | none => (d, true, u)
      | some s =>
        if s.todo.isSome then (d, false, u)
        else
          let d := if l = [] then d else (injTake d (Page.alt.base 0) false).2
          let d := addReg (addReg d Adr.ALT_CNT_SUBDIV a.subs) Adr.ALT_CNT_CLIP a.clips
          let n := chordCount a.out
          let bad := match u with
            | .chord m => if m < n then some m else none
            | _ => none
          let d := cutItem d s (match bad with | some m => cutShort m a.out | none => a.out)
          let d := match cut with
            | some (m, f) => gridPoison d s l rows m f
            | none => d
          let d := match bad with
            | some m => chordPoison d s a.out rows m
            | none => d
          let hit := cut.isSome || bad.isSome
          (d, true, if hit then .none else upAfter u 0 (altChords d s l) n)

/-! ### Instances (R142 to R149, R760) -/

/-- Chords that a poisoned read of an instance's cells lets through (R145, R148): none where the upset does not fall in it. -/
def cellCut (a : Walk) (u : Upset) : Option (Nat × Nat) :=
  match u with
  | .cell id n => if a.seen.contains id && decide (n < chordCount a.out) then some (id, n) else none
  | _ => none

/-- An instance that needs a cell which cannot be read before any chord has left XPD (R145, R760). -/
def instWait (d : Dev) (id reason culls : Nat) (rows : List Nat) : Dev × Bool :=
  let d := cellRefetch d id reason
  if rows = [] then (inc (addReg d Adr.XPD_CNT_CULLED culls) Adr.XPD_CNT_SKIPPED, true)
  else (evt (setXpd d fun x => { x with wait := some (id, reason), waitCulls := culls }) (Page.xpd.base 0) Bit.evt_XPD_WAIT, false)

/-- An instance is cut short after a chord has left XPD (R148). DESIGN CHOICE (log entry 87): INST_LOST captures the poisoned cell, be
it the instance's own or a nested one. -/
def instCut (d : Dev) (s : Sec) (id : Nat) (rows : List Nat) : Dev :=
  let d := cellPoison (inc d Adr.XPD_CNT_FAILED) id
  spanRows (xpdErr d Bit.err_XPD_INST_LOST id) .xpd s 10 rows

/-- Expand the instance of a PLACE or ARRAY record at an offset. An injection of the XPD page makes the directory box of the placed
cell fail (R603). DESIGN CHOICE (log entry 87): XPD looks through the whole instance before a chord leaves it, so that a nested cell
already ABSENT or POISONED makes it wait (R145) wherever it stands, and cells culled before a wait count once, when the instance is
done with. -/
def placeInst (d : Dev) (s : Sec) (w : List W32) (off : Pt) (u : Upset) : Dev × Bool × Upset :=
  let id := (rw w 1).toNat
  let t := (originPlace s).under (bits (rw w 2) 2 0) off
  let rows := instRows d s id t
  let (inj, d) := injTake d (Page.xpd.base 0) false
  let d := setXpd (if 2 ≤ inj then setCell d id fun c => { c with boxBad := c.boxBad || c.defd } else d) fun x => { x with waitCulls := 0 }
  let d := match u with
    | .box k => setCell d k fun c => { c with boxBad := c.boxBad || c.defd }
    | _ => d
  let a := walk d (kept d s) (256 * (cullMargin d s : Int)) 15 id t (bit (rw w 2) 3) ⟨[], [], none, []⟩
  match a.miss with
  | some (m, reason) =>
    let (d, done) := instWait (if reason = 8 then cellPoison d m else d) m reason a.culled rows
    (d, done, u)
  | none =>
    match cellCut a u with
    | some (m, 0) =>
      let (d, done) := instWait (cellPoison d m) m 8 (a.culledTo 0) rows
      (d, done, .none)
    | some (m, n) =>
      let (d, done, u) := itemEmit d s.num (cutShort n a.out) (some rows) u
      if done then (instCut (addReg d Adr.XPD_CNT_CULLED (a.culledTo n)) s m rows, true, .none) else (d, false, u)
    | none =>
      let (d, done, u) := itemEmit d s.num a.out (some rows) u
      if done then (addReg d Adr.XPD_CNT_CULLED a.culled, true, upAfter u (chordCount a.out) 0 0) else (d, false, u)

/-- Expand the elements of a record that remain (R138). -/
def placeGo : List Pt → Dev → Nat → List W32 → Upset → Dev
  | [], d, _, w, _ => recDone (setXpd d fun x => { x with elem := 0 }) w
  | off :: r, d, num, w, u =>
    match secOf d num with
    | none => recDone (setXpd d fun x => { x with elem := 0 }) w
    | some s =>
      let (d, done, u) := placeInst d s w off u
      if done then placeGo r (setXpd d fun x => { x with elem := x.elem + 1 }) num w u else d

/-! ### Records -/

/-- Block type of the block at the stream's position. -/
def curType (d : Dev) : Nat := ((d.spl.cur.map (·.btype)).getD 0)

/-- What a record of one of the types does when it stands at the stream's position and XPD takes it: in a block that may carry it
(R82), at its length. XPD waits at an instance (R145); a poisoned spooled block is NAKed (R118). -/
def withRec (d : Dev) (typ : Nat) (blocks : List Nat) (len : Nat) (u : Upset) (f : Dev → List W32 → Dev) : Dev :=
  let d := splGo d
  match headRec d with
  | none => d
  | some w =>
    if recType w ≠ typ ∨ !blocks.contains (curType d) ∨ (len ≠ 0 ∧ w.length ≠ len) ∨ !blkRuns d .xpd .xpd ∨ d.xpd.wait.isSome then d
    else if (d.spl.cur.any fun b => b.bad) || u = .spool then curPoison d
    else f d w

/-- A record of the open section: consumed without effect where no section is open or it was abandoned; it waits until BST and
PXC have taken the section up (R199) and every band due is complete. -/
def withSec (d : Dev) (w : List W32) (f : Dev → Sec → Dev) : Dev :=
  match openSec d with
  | none => recDone d w
  | some s =>
    if s.dropped then recDone d w
    else if s.par.isNone || s.todo.isSome || !blkRuns d .alt .alt || !blkRuns d .bst .bst then d
    else f d s

/-- PAD (R82). -/
def recPad (d : Dev) (u : Upset) : Dev := withRec d 0x00 [1, 2, 3] 0 u recDone

/-- CELL_OPEN (R88, R131). -/
def recCellOpen (d : Dev) (u : Upset) : Dev := withRec d 0x10 [2] 6 u fun d w =>
  let cid := (d.spl.cur.map (·.cid)).getD 0
  recDone (setXpd d fun x => { x with defn := some (cellBegin w cid), deaf := false }) w

/-- CELL_CLOSE (R131, R132, R759): one that ends no open definition is discarded (R124). -/
def recCellClose (d : Dev) (u : Upset) : Dev := withRec d 0x11 [2] 2 u fun d w =>
  match d.xpd.defn with
  | none => recDone d w
  | some c =>
    let c := { c with cid := (d.spl.cur.map (·.cid)).getD c.cid }
    if (rw w 1).toNat = c.id then recDone (cellDefine (setXpd d fun x => { x with defn := none }) c false) w else d

/-- CELL_DROP (R133): discarded between a loss and the next CELL_OPEN (R124). -/
def recCellDrop (d : Dev) (u : Upset) : Dev := withRec d 0x12 [2] 2 u fun d w =>
  let id := (rw w 1).toNat
  recDone (if d.xpd.deaf then d else setXpd d fun x => { x with cells := x.cells.filter fun c => !(c.id = id && c.defd) }) w

/-- A record inside a cell definition is stored with it; outside one it is discarded (R124). -/
def recLib (d : Dev) (w : List W32) : Dev :=
  recDone (setXpd d fun x => { x with defn := x.defn.map fun c => { c with recs := c.recs ++ [w] } }) w

/-- FIGURE (R94 to R96). -/
def recFigure (d : Dev) (u : Upset) : Dev := withRec d 0x20 [2, 3] 0 u fun d w =>
  match figure w with
  | none => d
  | some (selv, cs) =>
    if curType d = 2 then recLib d w
    else withSec d w fun d s =>
      let (d, done, _) := itemEmit d s.num (figChains (originPlace s) selv cs) none u
      if done then recDone d w else d

/-- A PLACE or ARRAY record (R101, R102). -/
def placeRec (d : Dev) (w : List W32) (u : Upset) : Dev :=
  if curType d = 2 then recLib d w
  else withSec d w fun d s => placeGo ((placements w).drop d.xpd.elem) d s.num w u

/-- PLACE (R101). -/
def recPlace (d : Dev) (u : Upset) : Dev := withRec d 0x21 [2, 3] 5 u fun d w => placeRec d w u

/-- ARRAY (R102). -/
def recArray (d : Dev) (u : Upset) : Dev := withRec d 0x22 [2, 3] 10 u fun d w => placeRec d w u

/-- The rows that a section owes to lost blocks are blank; entries not yet made are made (R121). -/
def oweRows (d : Dev) (s : Sec) : Dev :=
  let mine := d.spl.owed.filter fun o => o.1 = s.num
  let d := setSpl d fun p => { p with owed := p.owed.filter fun o => o.1 != s.num }
  mine.foldl (fun d o =>
    let rows := rowsIn (secTkt d s) o.2.1 o.2.2.1
    if o.2.2.2 then blankRows d s.num rows else spanRows d .spl s 11 rows) d

/-- A SNAP job that waits for a section with this STRIPE_INDEX takes its row under its hold (R545, R546). -/
def snapMatch (d : Dev) (num : Nat) (index : W32) : Dev :=
  { d with engs := d.engs.map fun e => { e with job := e.job.map fun j =>
    if j.kind = 1 ∧ j.waiting ∧ j.hold.isNone ∧ j.src % 4294967296 = index.toNat then
      { j with hold := some (num, j.src / 4294967296 % 16777216) }
    else j } }

/-- STRIPE_OPEN (R105, R106, R161). -/
def recStripeOpen (d : Dev) (u : Upset) : Dev := withRec d 0x30 [3] 12 u fun d w =>
  if !blkRuns d .alt .alt then d
  else
    let num := d.spl.opens
    let t := openTkt num w
    let s : Sec :=
      { num := num, slotB := t.slotB, b := slotBands d t.slotB, minus := t.minus, len := t.len, tkt := t
        selvBins := bits (rw w 9) 31 24, reachBins := bits (rw w 9) 23 16, selvX := bits (rw w 9) 13 0
        orx := rwS w 10, ory := rwS w 11, fieldId := t.fieldId, gridId := t.gridId }
    let d := setSpl d fun p => { p with opens := num + 1 }
    let d := { d with secs := d.secs.map (fun s => { s with closed := true }) ++ [s] }
    recDone (fieldBoundary (oweRows (snapMatch d num t.index) s) s) w

/-- BIN (R111): the items after it belong to its bin. -/
def recBin (d : Dev) (u : Upset) : Dev := withRec d 0x31 [3] 2 u fun d w => withSec d w fun d s =>
  recDone (setSec d s.num fun s => { s with bin := bits (rw w 1) 15 0 }) w

/-- ORIGIN (R108). -/
def recOrigin (d : Dev) (u : Upset) : Dev := withRec d 0x32 [3] 3 u fun d w => withSec d w fun d s =>
  recDone (setSec d s.num fun s => { s with orx := rwS w 1, ory := rwS w 2 }) w

/-- FIELD (R109, R161). -/
def recField (d : Dev) (u : Upset) : Dev := withRec d 0x33 [3] 2 u fun d w => withSec d w fun d s =>
  let s := { s with fieldId := bits (rw w 1) 31 16, gridId := bits (rw w 1) 15 0 }
  recDone (fieldBoundary (setSec d s.num fun x => { x with fieldId := s.fieldId, gridId := s.gridId }) s) w

/-- STRIPE_CLOSE (R114, R129, R200): the section closes; BST completes its bands as patch records find room. -/
def recStripeClose (d : Dev) (u : Upset) : Dev := withRec d 0x34 [3] 2 u fun d w =>
  let close (d : Dev) (n : Nat) : Dev :=
    evt (setSec d n fun s => { s with closed := true }) (Page.spl.base 0) Bit.evt_SPL_SECTION_DONE
  match openSec d with
  | none => recDone d w
  | some s =>
    if s.dropped then recDone (close d s.num) w
    else withSec d w fun d s => recDone (bandsGo (close d s.num) s.num (upBst u)) w

/-- XPD goes on with the instance it stands at once a wait has ended. -/
def xpdResume (d : Dev) : Dev :=
  let d := splGo d
  match headRec d with
  | none => d
  | some w =>
    if curType d = 3 ∧ (recType w = 0x21 ∨ recType w = 0x22) ∧ blkRuns d .xpd .xpd ∧ d.xpd.wait.isNone then placeRec d w .none
    else d

/-- A change that may resolve XPD's wait (R146): XPD goes on when it does. -/
def xpdResolve (d : Dev) (f : Dev → Dev) : Dev :=
  let w := d.xpd.wait.isSome
  let d := f d
  if w && d.xpd.wait.isNone then xpdResume d else d

/-- BST has found space for a patch record (R187, R317): it goes on, and with it the item that waited. -/
def patchAllocated (d : Dev) : Dev :=
  match d.secs.find? fun s => s.todo.isSome with
  | none => d
  | some s =>
    let d := if s.closed then bandsGo d s.num none else bandEnd (writePatches (16 * s.b + 1) d s.num) s.num
    if s.closed then d
    else match secOf d s.num with
      | some x => if x.todo.isSome then d else xpdResume (recFigure d .none)
      | none => d

/-! ### Deadlines (R119, R147, R761) -/

/-- The waiting instance is lost (R147). DESIGN CHOICE (log entry 87): INST_LOST captures the cell awaited. -/
def instLost (d : Dev) : Dev :=
  match d.xpd.wait, headRec d, openSec d with
  | some (id, reason), some w, some s =>
    let off := nth (placements w) d.xpd.elem (0, 0)
    let rows := instRows d s (rw w 1).toNat ((originPlace s).under (bits (rw w 2) 2 0) off)
    let d := addReg d Adr.XPD_CNT_CULLED d.xpd.waitCulls
    let d := inc (setXpd d fun x => { x with wait := none, waitCulls := 0, elem := x.elem + 1 }) Adr.XPD_CNT_SKIPPED
    let d := spanRows (xpdErr d Bit.err_XPD_INST_LOST id) .xpd s (if reason = 8 then 10 else 11) rows
    xpdResume d
  | _, _, _ => d

/-- Whether the deadline of the waiting instance has passed (R145): the first row of its influence range is due. -/
def waitDue (d : Dev) : Bool :=
  match d.xpd.wait, headRec d, openSec d with
  | some _, some w, some s =>
    let off := nth (placements w) d.xpd.elem (0, 0)
    match instRows d s (rw w 1).toNat ((originPlace s).under (bits (rw w 2) 2 0) off) with
    | [] => true
    | u :: r => rowDue d s.num (r.foldl min u)
  | _, _, _ => false

/-- A row becomes due (R338): a waiting instance, or the number at which the stream stands, is given up; nothing falls due
during a halt (R614). -/
def rowDueGo (d : Dev) : Dev :=
  if d.fcl.halted then d else splGo (if waitDue d then instLost d else d)

end Sys2Proof.Machine
end

