-- ==== Sys2Proof/Machine/GeoCmd.lean ====
section
/-! DEFINITION. The commands of the pattern stream, of expansion and alteration, and of basting and proximity (chapters 02 to 04,
and the spool's part of chapter 07). -/

namespace Sys2Proof.Machine

/-! ### Blocks (R72 to R76, R115 to R117, R127, R128, R319, R762) -/

/-- A block has reached SPL whole. -/
def blockTake (d : Dev) (l : List Byte) : Dev :=
  if d.spl.lost then inc d Adr.SPL_CNT_DISCARD
  else if blkBad l then postReq (inc d Adr.SPL_CNT_DAMAGED) 1 1 (w32 (hw l 4)) (w32 (hw l 8))
  else
    let b := blkOf l
    if b.refetch then
      match b.recs with
      | some w => xpdResolve d fun d => refetchCells d b.cid w
      | none => { setSpl d fun s => { s with refs := s.refs ++ [b] } with bob := { d.bob with spoolUsed := d.bob.spoolUsed + b.len } }
    else if seqTaken d b.seq then inc d Adr.SPL_CNT_DISCARD
    else splAccept d b

/-- Channel `n`. -/
def chanOf (d : Dev) (n : Nat) : Chan := nth d.chans n {}

/-- Change channel `n`. -/
def setChan (d : Dev) (n : Nat) (f : Chan → Chan) : Dev := { d with chans := modNth d.chans n f }

/-- Whether channel `n` runs a descriptor that carries a block to SPL (R503, R504). -/
def chanSpools (d : Dev) (n : Nat) : Bool :=
  let c := chanOf d n
  decide (c.cstate = .run ∧ c.phase = .xfer) && !c.given && bits (nth c.desc 0 0) 25 24 = 0 && bits (nth c.desc 0 0) 23 20 = 0 &&
  bit (rg d Adr.SPL_CFG) n

/-- SPL takes a channel's block when it runs and the spool has room (R319); else the transfer waits. After STREAM_LOST it is
discarded at once (R762). -/
def blockTry (d : Dev) (n : Nat) (l : List Byte) : Dev :=
  if d.spl.lost ∨ (blkRuns d .spl .spl ∧ spoolRoom d l) then
    setChan (blockTake d l) n fun c => { c with block := none, given := true }
  else setChan d n fun c => { c with block := some l }

/-- BLOCK (R115): the bytes of the block that channel `ch` has read whole. -/
def execBlock (ch : Nat) (data : List Byte) (s : State) : Answer := runS s fun d =>
  if chanSpools d ch ∧ (chanOf d ch).block.isNone ∧ data.length = (nth (chanOf d ch).desc 1 0).toNat then blockTry d ch data else d

/-- SPOOL_GRANT (R319): the transfer of channel `ch` that waits for spool space. -/
def execSpoolGrant (ch : Nat) (s : State) : Answer := runS s fun d =>
  match (chanOf d ch).block with
  | some l => if chanSpools d ch then blockTry d ch l else d
  | none => d

/-- GAP_WAIT (R117). -/
def execGapWait (s : State) : Answer := run s gapWait

/-- SPL_NAK_HOLD (R119): the hold of the open NAK of sequence number `seq`. -/
def execSplNakHold (seq : Nat) (s : State) : Answer := runS s fun d => nakHold d seq

/-- The words of the oldest request entry (R125, R129). -/
def reqWord (d : Dev) (i : Nat) : W32 :=
  match d.spl.reqs.head? with
  | some r => nth [r.1, r.2.1, r.2.2] i 0
  | none => 0

/-- SPL_REQ_W2 (R129). -/
def execSplReqW2 (req : Req) (s : State) : Answer := run s fun d =>
  if acc d req Adr.SPL_REQ_W2 then reqPop (emit d (.readData req Adr.SPL_REQ_W2 [reqWord d 2]))
  else emit d (.readData req Adr.SPL_REQ_W2 [0])

/-! ### Records (R81 to R83) -/

/-- PAD (R82). -/
def execPad (u : Upset) (s : State) : Answer := runS s fun d => recPad d u

/-- CELL_OPEN (R88). -/
def execCellOpen (u : Upset) (s : State) : Answer := runS s fun d => recCellOpen d u

/-- CELL_CLOSE (R131). -/
def execCellClose (u : Upset) (s : State) : Answer := runS s fun d => recCellClose d u

/-- CELL_DROP (R133). -/
def execCellDrop (u : Upset) (s : State) : Answer := runS s fun d => recCellDrop d u

/-- FIGURE (R94). -/
def execFigure (u : Upset) (s : State) : Answer := runS s fun d => recFigure d u

/-- PLACE (R101). -/
def execPlace (u : Upset) (s : State) : Answer := runS s fun d => recPlace d u

/-- ARRAY (R102). -/
def execArray (u : Upset) (s : State) : Answer := runS s fun d => recArray d u

/-- STRIPE_OPEN (R105). -/
def execStripeOpen (u : Upset) (s : State) : Answer := runS s fun d => recStripeOpen d u

/-- BIN (R111). -/
def execBin (u : Upset) (s : State) : Answer := runS s fun d => recBin d u

/-- ORIGIN (R108). -/
def execOrigin (u : Upset) (s : State) : Answer := runS s fun d => recOrigin d u

/-- FIELD (R109). -/
def execField (u : Upset) (s : State) : Answer := runS s fun d => recField d u

/-- STRIPE_CLOSE (R114). -/
def execStripeClose (u : Upset) (s : State) : Answer := runS s fun d => recStripeClose d u

/-! ### Expansion (R170) -/

/-- A write of XPD_QUERY starts a lookup. DESIGN CHOICE (log entry 87): while BUSY reads 1, STATE keeps the result before it. -/
def xpdQuery (d : Dev) (v : W32) : Dev := setXpd (wr d Adr.XPD_QUERY v) fun x => { x with qBusy := true }

/-- XPD_QUERY (R170). -/
def execXpdQuery (req : Req) (v : W32) (s : State) : Answer := run s fun d => write d req Adr.XPD_QUERY fun d => xpdQuery d v

/-- XPD_LOOKUP_DONE (R170). -/
def execXpdLookupDone (s : State) : Answer := run s fun d =>
  if d.xpd.qBusy then
    let q := cellState d (rg d Adr.XPD_QUERY).toNat
    setXpd d fun x => { x with qBusy := false, qState := q }
  else d

/-! ### Basting and proximity -/

/-- PATCH_RECORD_ALLOCATED (R317). -/
def execPatchRecordAllocated (s : State) : Answer := runS s fun d => if blkRuns d .bst .bst then patchAllocated d else d

/-- LATCHED (R199). -/
def execLatched (s : State) : Answer := runS s pxcTake

/-- RELEASED (R201); `u` names a word of PXC's arrays that reads uncorrectable. -/
def execReleased (u : Upset) (s : State) : Answer := runS s fun d => pxcRelease d (upPxc u)

/-- ROW_DUE (R338). -/
def execRowDue (s : State) : Answer := runS s rowDueGo

end Sys2Proof.Machine
end

