-- ==== Sys2Proof/Machine/Ras.lean ====
section
/-! DEFINITION. What a raster tile computes of a patch (R208 to R219): fragments, areas, coverage, modulation, doses, and the
patch report. -/

namespace Sys2Proof.Machine

/-! ### Cutting at pixel lines (R209, R210) -/

/-- The multiples of `step` strictly between `a` and `b`, in order from `a` to `b`. -/
def linesOf (step a b : Int) : List Int :=
  let lo := min a b
  let hi := max a b
  let first := lo / step + 1
  let last := (hi - 1) / step
  let l := (rangeI first (last - first + 1).toNat).map fun n => step * n
  if a ≤ b then l else l.reverse

/-- A piece cut into fragments on the grid (16·x, 8·y), with its counts NXI and NYI (R210). -/
def cutPx (u v : Pt) : List (Pt × Pt) × Nat × Nat :=
  let xs := (linesOf 256 u.1 v.1).map fun x => (16 * x, rdiv (8 * u.2 * (v.1 - u.1) + 8 * (x - u.1) * (v.2 - u.2)) (v.1 - u.1))
  (pairs ([(16 * u.1, 8 * u.2)] ++ xs ++ [(16 * v.1, 8 * v.2)])).foldl (fun a pq =>
    let p := pq.1
    let q := pq.2
    let ys := (linesOf 2048 p.2 q.2).map fun y => (rdiv (p.1 * (q.2 - p.2) + (y - p.2) * (q.1 - p.1)) (q.2 - p.2), y)
    (a.1 ++ pairs ([p] ++ ys ++ [q]), a.2.1, a.2.2 + ys.length)) ([], xs.length, 0)

/-- Fragments that R211 keeps, with pixel column and row. -/
def keptFrags (l : List (Pt × Pt)) : List (Nat × Nat × Pt × Pt) :=
  (l.filter fun f => f.1.2 != f.2.2).map fun f =>
    ((min f.1.1 f.2.1 / 4096).toNat, (min f.1.2 f.2.2 / 2048).toNat, f)

/-! ### Areas (R211, R212) -/

/-- LOC and WID of a fragment of column `i`. -/
def fragLoc (i : Nat) (f : Pt × Pt) : Int := (f.1.1 + f.2.1 - 8192 * i) * (f.2.2 - f.1.2)
def fragWid (f : Pt × Pt) : Int := 8192 * (f.2.2 - f.1.2)

/-- The areas a[0 … 255] of a pixel row from its fragments (R212). -/
def rowAreas (row : List (Nat × Nat × Pt × Pt)) : List Int :=
  let loc (i : Nat) : Int := sumI ((row.filter fun f => f.1 = i).map fun f => fragLoc i f.2.2)
  let wid (i : Nat) : Int := sumI ((row.filter fun f => f.1 = i).map fun f => fragWid f.2.2)
  (((List.range 256).reverse).foldl (fun (a : List Int × Int) i =>
    (wrapS 40 (loc i + a.2) :: a.1, a.2 + wid i)) ([], wid 256)).1

/-! ### Coverage, modulation, dose (R195, R214 to R216) -/

/-- c_raw of an area. -/
def cRaw (a : Int) : Int := (a + 32768) / 65536

/-- Cell pair and weight of a pixel along one axis (R195). -/
def pside (n p : Nat) : Int × Nat := if 32 ≤ p then (n, 2 * p - 63) else ((n : Int) - 1, 2 * p + 65)

/-- The four modulations and two weights of local pixel (i, r). -/
def pixMods (mods : List Nat) (i r : Nat) : List Nat × Nat × Nat :=
  let (k0, wx) := pside (i / 64) (i % 64)
  let (j0, wy) := pside (r / 64) (r % 64)
  let m (k j : Int) : Nat := nth mods (6 * (j + 1) + (k + 1)).toNat 0
  ([m k0 j0, m (k0 + 1) j0, m k0 (j0 + 1), m (k0 + 1) (j0 + 1)], wx, wy)

/-- The four weights of R215. -/
def pixWeights (wx wy : Nat) : List Nat := [(128 - wx) * (128 - wy), wx * (128 - wy), (128 - wx) * wy, wx * wy]

/-- Sw of R215. -/
def pixSw (x : List Nat × Nat × Nat) : Nat := sumN (((pixWeights x.2.1 x.2.2).zip x.1).map fun z => z.1 * z.2)

/-! ### The report (R218, R219) -/

/-- A patch report beside its doses. -/
structure Rep where
  asum : Int := 0
  csum : Int := 0
  nxi : Nat := 0
  nyi : Nat := 0
  nfrac : Nat := 0
  frag : Nat := 0
  rmMain : Nat := 0
  rpMain : Nat := 0
  rmRes : Nat := 0
  rpRes : Nat := 0
  doses : List (List Nat) := []         -- D by local row, in ascending pixel column
  deriving DecidableEq, Repr

/-- Add one pixel to a report's sums; the dose that leaves the datapath stands in `wrong` where the datapath errs. -/
def repPixel (mods : List Nat) (wrong : List (Nat × Nat)) (r : Nat) (x : Rep × List Nat) (z : Nat × Int) : Rep × List Nat :=
  let i := z.1
  let a := z.2
  let cr := cRaw a
  let c := (clampI 0 256 cr).toNat
  let px := pixMods mods i r
  let sw := pixSw px
  let m := (sw + 8192) / 16384
  let rm := (sw + 8192) % 16384
  let t := c * m + 128
  let dose := (alGet wrong (256 * r + i)).getD (t / 256)
  let res := sumN (((pixWeights px.2.1 px.2.2).zip px.1).map fun w => (w.1 % 255) * (w.2 % 255)) + 32
  ({ x.1 with
    asum := x.1.asum + a, csum := x.1.csum + cr, nfrac := x.1.nfrac + b2n (a % 65536 != 0)
    rmMain := (x.1.rmMain + 64 * m + rm) % 255
    rpMain := (x.1.rpMain + dose + t % 256) % 255
    rmRes := (x.1.rmRes + res) % 255
    rpRes := (x.1.rpRes + (c % 255) * (m % 255) + 128) % 255 }, dose :: x.2)

/-- Raster a patch: its local edge list, its modulations, and the pixels whose dose the datapath errs in. -/
def rasterPatch (edges : List (Pt × Pt)) (mods : List Nat) (wrong : List (Nat × Nat)) : Rep :=
  let cuts := edges.map fun e => cutPx e.1 e.2
  let frags := keptFrags (cuts.flatMap (·.1))
  let start : Rep :=
    { nxi := sumN (cuts.map (·.2.1)), nyi := sumN (cuts.map (·.2.2)), frag := frags.length }
  let rep := (List.range 256).foldl (fun x r =>
    let row := frags.filter fun f => f.2.1 = r
    let areas := if row = [] then List.replicate 256 0 else rowAreas row
    let (y, ds) := ((List.range 256).zip areas).foldl (repPixel mods wrong r) (x, [])
    { y with doses := ds.reverse :: y.doses }) start
  { rep with csum := wrapS 32 rep.csum, doses := rep.doses.reverse }

/-- The 384 bytes of a row of doses (R314). -/
def doseBytes : List Nat → List Byte
  | a :: b :: r => byte (a % 256) :: byte (a / 256 % 16 + 16 * (b % 16)) :: byte (b / 16) :: doseBytes r
  | _ => []

/-! ### The patch in its stripe (R209, R217) -/

/-- The edge list of a patch in the patch-local frame. -/
def localEdges (t : Tkt) (x : Patch) : List (Pt × Pt) :=
  let ox : Int := 256 * (t.x0 + 256 * (x.p : Int))
  let oy : Int := 256 * (if t.minus then t.y0 - 256 * (x.q : Int) - 255 else t.y0 + 256 * (x.q : Int))
  x.edges.map fun e => ((e.1.1 - ox, e.1.2 - oy), (e.2.1 - ox, e.2.2 - oy))

/-- The patch's stripe rows that lie within the stripe, in ascending u. -/
def patchUs (t : Tkt) (q : Nat) : List Nat := (List.range (min 256 (t.len - 256 * q))).map fun i => 256 * q + i

/-- First local row within the stripe, and how many there are (R217). -/
def patchLocal (t : Tkt) (q : Nat) : Nat × Nat :=
  let n := min 256 (t.len - 256 * q)
  (if t.minus then 256 - n else 0, n)

/-- Write a byte string at an offset of the window ring. -/
def winWrite (d : Dev) (off : Nat) (l : List Byte) : Dev :=
  let size := max 1 (rgnSize d 3)
  let off := off % size
  let d := hbmWrite d (rgnBase d 3 + off) (l.take (size - off))
  if l.length ≤ size - off then d else hbmWrite d (rgnBase d 3) (l.drop (size - off))

/-- Store the poison code over `n` bytes at an offset of the window ring. -/
def winPoison (d : Dev) (off n : Nat) : Dev :=
  let size := max 1 (rgnSize d 3)
  (List.range (n / 32)).foldl (fun d i => hbmPoison d (rgnBase d 3 + (off + 32 * i) % size)) d

/-- Write the doses of a patch into its place in the bobbin window (R217, R314); `bad` doses carry the poison code (R585). -/
def writeDoses (d : Dev) (t : Tkt) (w : WinRow) (p : Nat) (rep : Rep) (bad : Bool) : Dev :=
  let (r0, n) := patchLocal t w.q
  let off := w.off + 98304 * p + 384 * r0
  let d := winWrite d off (((rep.doses.drop r0).take n).flatMap doseBytes)
  if bad then winPoison d off (384 * n) else d

/-! ### The four checks (R220) -/

/-- A report as VER receives it, with the upsets of R250 applied: AREA, ROUND, RESIDUE. -/
def injectRep (r : Rep) (area round res : Bool) : Rep :=
  let flip (n : Nat) : Nat := if n % 2 = 0 then n + 1 else n - 1
  { r with
    asum := if area then r.asum + 1099511627776 else r.asum
    csum := if round then (if r.csum % 2 = 0 then r.csum + 1 else r.csum - 1) else r.csum
    rpRes := if res then flip r.rpRes else r.rpRes }

def boundArea (r : Rep) : Nat := 4097 * r.nxi + 2049 * r.nyi
def boundRound (r : Rep) : Nat := 32768 * r.nfrac
def areaOk (r : Rep) (ap : Int) : Bool := decide ((r.asum - ap).natAbs ≤ boundArea r)
def roundOk (r : Rep) : Bool := decide ((65536 * r.csum - r.asum).natAbs ≤ boundRound r)
def resmOk (r : Rep) : Bool := r.rmMain = r.rmRes
def respOk (r : Rep) : Bool := r.rpMain = r.rpRes

/-- KIND of a mismatch (R251): the lowest code among the failures, 0 when the raster passes. -/
def mmKind (r : Rep) (ap : Int) (ue : Bool) : Nat :=
  if !areaOk r ap then 1 else if !roundOk r then 2 else if !resmOk r then 3 else if !respOk r then 4 else if ue then 5 else 0

end Sys2Proof.Machine
end

