-- ==== Sys2Proof/Machine/Ver.lean ====
section
/-! DEFINITION. The verifier and dispatcher (R220 to R251, R755): tiles in service, dispatch, reports and verdicts, timeouts,
fencing, sleep. -/

namespace Sys2Proof.Machine

/-- Change VER. -/
def setVer (d : Dev) (f : Ver → Ver) : Dev := { d with ver := f d.ver }

/-- Tile `n`. -/
def tileOf (d : Dev) (n : Nat) : Tile := nth d.ver.tiles n {}

/-- Change tile `n`. -/
def setTile (d : Dev) (n : Nat) (f : Tile → Tile) : Dev := setVer d fun v => { v with tiles := modNth v.tiles n f }

/-- ROLE of tile `n`: 0 OUT, 1 ACTIVE, 2 SPARE. -/
def tileRole (d : Dev) (n : Nat) : Nat := fd d (Adr.RAS_ROLE n) 1 0

/-- A control bit of a page: 0 ENABLE, 1 QUIESCE, 2 ISOLATE. -/
def ctl (d : Dev) (p : Page) (n i : Nat) : Bool := bit (rg d (p.base n + oCTRL)) i

/-- Whether tile `n` is in service (R251). -/
def tileInSvc (d : Dev) (n : Nat) : Bool :=
  ctl d .ras n 0 && !ctl d .ras n 2 && !d.testing.contains (Page.ras.base n) && (tileRole d n = 1 || tileRole d n = 2)

/-- Whether a tile may take a patch: in service, not quiesced. -/
def tileTakes (d : Dev) (n : Nat) : Bool := tileInSvc d n && !ctl d .ras n 1

/-- Whether tile `n` is awake and idle (R237): it holds no patch, or one that is being scanned, as `scan` says by tile. -/
def tileIdle (d : Dev) (scan n : Nat) : Bool :=
  let t := tileOf d n
  t.awake && (t.work = [] || (t.work.length = 1 && scan.testBit n))

/-- Whether tile `n` is asleep without a patch. -/
def tileAsleep (d : Dev) (n : Nat) : Bool := !(tileOf d n).awake && (tileOf d n).work = []

/-- The 34 tiles. -/
def tiles : List Nat := List.range 34

/-- The tile that a first raster goes to (R237). -/
def firstTile (d : Dev) (scan : Nat) : Option Nat :=
  let ok (n : Nat) : Bool := tileTakes d n && tileRole d n = 1
  match tiles.find? fun n => ok n && tileIdle d scan n with
  | some n => some n
  | none => tiles.find? fun n => ok n && tileAsleep d n

/-- The tile that a second raster goes to (R224, R232). -/
def secondTile (d : Dev) (scan : Nat) (avoid : List Nat) : Option Nat :=
  let ok (r n : Nat) : Bool := tileTakes d n && tileRole d n = r && !avoid.contains n
  match tiles.find? fun n => ok 2 n && tileIdle d scan n with
  | some n => some n
  | none => match tiles.find? fun n => ok 2 n && tileAsleep d n with
    | some n => some n
    | none => match tiles.find? fun n => ok 1 n && tileIdle d scan n with
      | some n => some n
      | none => tiles.find? fun n => ok 1 n && tileAsleep d n

/-- Whether another in-service tile could take a second raster at some time (R226): a quiesced one takes no more (R242). -/
def secondCould (d : Dev) (avoid : List Nat) : Bool := tiles.any fun n => tileTakes d n && !avoid.contains n

/-- INFO words of a VER error (R251). -/
def verErr (d : Dev) (b : Nat) (w : Work) (tile : Nat) : Dev :=
  let x := match secOf d w.sec with
    | some s => (secTkt d s).index
    | none => 0
  err d (Page.ver.base 0) b x (w32 (w.q % 65536 * 65536 + tile * 256 + w.p))

/-- An error of a tile's page: the patch, and the STRIPE_INDEX. -/
def rasErr (d : Dev) (n b : Nat) (w : Option Work) : Dev :=
  let x := match w with
    | some w => match secOf d w.sec with
      | some s => (secTkt d s).index
      | none => 0
    | none => 0
  err d (Page.ras.base n) b (match w with | some w => w32 (w.q % 65536 * 65536 + w.p) | none => 0) x

/-! ### Taking patches back, fencing (R233 to R235, R243) -/

/-- Put a raster back in the queue of its attempt, ahead of the others. -/
def requeue (d : Dev) (w : Work) : Dev :=
  let w := { w with ue := false }
  setVer d fun v =>
    if w.second then { v with retry := w :: v.retry }
    else if w.rr then { v with rr := w :: v.rr }
    else { v with wait := w :: v.wait }

/-- VER takes back every patch a tile holds (R243). -/
def takeBack (d : Dev) (n : Nat) : Dev :=
  let l := (tileOf d n).work
  l.reverse.foldl requeue (setTile d n fun t => { t with work := [] })

/-- An ACTIVE tile has left service (R235), with raster `w` concerned where it held one. DESIGN CHOICE (log entry 88): with none,
NO_SPARE captures a STRIPE_INDEX and a patch of 0. -/
def promote (d : Dev) (n : Nat) (w : Option Work) : Dev :=
  if fd d Adr.VER_CFG 0 0 = 0 then d
  else match tiles.find? fun m => m != n && tileInSvc d m && tileRole d m = 2 with
    | some m => evt (wr d (Adr.RAS_ROLE m) 1) (Page.ver.base 0) Bit.evt_VER_ROLE_CHANGE
    | none => match w with
      | some w => verErr d Bit.err_VER_NO_SPARE w n
      | none => err d (Page.ver.base 0) Bit.err_VER_NO_SPARE 0 (w32 (n * 256))

/-- VER fences tile `n` (R233), for the sake of raster `w`. -/
def fence (d : Dev) (n : Nat) (w : Work) : Dev :=
  let active := tileRole d n = 1
  let a := Page.ras.base n + oCTRL
  let d := wr (wr d a (putBit (rg d a) 2 true)) (Adr.RAS_ROLE n) 0
  let d := evt d (Page.ver.base 0) Bit.evt_VER_ROLE_CHANGE
  let d := verErr (rasErr d n Bit.err_RAS_FENCED (some w)) Bit.err_VER_TILE_FENCED w n
  let d := takeBack d n
  if active then promote d n (some w) else d

/-! ### Dispatch (R237, R238, R247, R315) -/

/-- Whether an injection of its page is set that no raster of the tile runs with yet (R755). -/
def tileInj (d : Dev) (n : Nat) : Bool :=
  bits (rg d (Page.ras.base n + oINJECT)) 2 0 != 0 && !(tileOf d n).work.any fun w => w.ue

/-- A tile takes a raster: RAS_CUR shows it, it runs at once in a tile that is awake, and a sleeping tile is woken; its power domain is
switched on when it is off (R240). -/
def giveTile (d : Dev) (n : Nat) (w : Work) : Dev :=
  let w := { w with ue := (tileOf d n).awake && tileInj d n }
  let d := setTile d n fun t => { t with work := t.work ++ [w] }
  match Page.ras.domain n with
  | some k => if (tileOf d n).awake || pdState d k = .on then d else pdAsk d k 1
  | none => d

/-- Whether a second raster could be dispatched now, which goes ahead of every first one (R224). -/
def retryReady (d : Dev) (scan : Nat) : Bool := d.ver.retry.any fun w => (secondTile d scan w.avoid).isSome

/-- VER dispatches a first raster (R237, R238): a re-raster of R247 before all others, else the first released patch, whose row's
space is reserved when it is the row's first (R315) and the row is not consumed already (R316): such doses go nowhere. -/
def verDispatch (d : Dev) (scan : Nat) : Dev :=
  if !blkRuns d .ver .ver || retryReady d scan then d
  else
    match d.ver.rr with
    | w :: r =>
      match firstTile d scan with
      | some n => giveTile (inc (setVer d fun v => { v with rr := r }) Adr.VER_CNT_POISON_RR) n w
      | none => d
    | [] =>
      match d.ver.wait with
      | [] => d
      | w :: r =>
        match secOf d w.sec, firstTile d scan with
        | some s, some n =>
          if !belowHigh d then d
          else if (winOf d w.sec w.q).isSome ∨ patchRowConsumed d w.sec w.q then giveTile (setVer d fun v => { v with wait := r }) n w
          else if winFits d (winLen s.b) then giveTile (winReserve (setVer d fun v => { v with wait := r }) s w.q) n w
          else d
        | _, _ => d

/-! ### Verdicts (R223 to R231) -/

/-- A patch gets its verdict. -/
def putVerd (d : Dev) (w : Work) (v : Verd) : Dev :=
  setSec d w.sec fun s => { s with verd := s.verd.filter (fun x => x.1 != (w.q, w.p)) ++ [((w.q, w.p), v)] }

/-- The patch's stripe rows that a flag names: all, or on the path of R247 those not yet stitched. -/
def flagRows (d : Dev) (t : Tkt) (w : Work) : List Nat :=
  let rows := patchUs t w.q
  if !w.rr then rows
  else match d.stc.cur with
    | some st => if st.tkt.seq = t.seq then rows.filter fun u => decide (st.rows ≤ u) else if t.seq < st.tkt.seq then [] else rows
    | none => if tktOver d t.seq then [] else rows

/-- PIXEL_SPAN entries over a patch's tracks (R225, R228). -/
def patchEnts (d : Dev) (t : Tkt) (w : Work) (cause : Nat) (rows : List Nat) : Dev :=
  stripeEnts d .ver t (rows.map fun u => (cause, 3, w32 (ofS 32 (rowY t u)), w32 ((256 * w.p + 255) * 65536 + 256 * w.p)))

/-- A patch is flagged (R225, R226). -/
def flagPatch (d : Dev) (w : Work) (tile : Nat) : Dev :=
  match secOf d w.sec with
  | none => d
  | some s =>
    let t := secTkt d s
    let rows := flagRows d t w
    let d := verErr (inc (putVerd d w .withheld) Adr.VER_CNT_FLAGGED) Bit.err_VER_FLAGGED w tile
    patchEnts d t w 9 rows

/-- The mismatch capture (R251). -/
def mmCapture (d : Dev) (w : Work) (tile kind : Nat) (diff : Int) (bound : Nat) : Dev :=
  let x := match secOf d w.sec with
    | some s => (secTkt d s).index
    | none => 0
  let d := wr (wr d Adr.VER_MM_STRIPE x) Adr.VER_MM_PATCH (w32 (w.q % 65536 * 65536 + w.p))
  let d := wr d Adr.VER_MM_KIND (w32 (b2n w.second * 65536 + tile * 256 + kind))
  let d := wr (wr d Adr.VER_MM_DIFF_LO (w32 (ofS 64 diff))) Adr.VER_MM_DIFF_HI (w32 (ofS 64 diff / 4294967296))
  let d := wr (wr d Adr.VER_MM_BOUND_LO (w32 bound)) Adr.VER_MM_BOUND_HI (w32 (bound / 4294967296))
  evt d (Page.ver.base 0) Bit.evt_VER_MISMATCH

/-- The fields of VER's _INJECT that act on a report of raster `w` (R250). -/
def verInj (d : Dev) (w : Work) : Nat :=
  let v := fd d (Page.ver.base 0 + oINJECT) 3 0
  match d.ver.injOn with
  | none => v
  | some x => if w.second ∧ x.sec = w.sec ∧ x.q = w.q ∧ x.p = w.p then v else 0

/-- What becomes of VER's injection after a report it acted on: with BOTH, and a second raster to come, it waits for it. -/
def verInjAfter (d : Dev) (w : Work) (acted second : Bool) : Dev :=
  if !acted then d
  else if fd d (Page.ver.base 0 + oINJECT) 3 3 = 1 ∧ second ∧ d.ver.injOn.isNone then
    setVer d fun v => { v with injOn := some w }
  else setVer (wr d (Page.ver.base 0 + oINJECT) 0) fun v => { v with injOn := none }

/-- VER's injection no longer waits for the second raster of `w`, which will not be run (R226, R250). -/
def verInjDrop (d : Dev) (w : Work) : Dev :=
  if d.ver.injOn.any fun x => x.sec = w.sec && x.q = w.q && x.p = w.p then
    setVer (wr d (Page.ver.base 0 + oINJECT) 0) fun v => { v with injOn := none }
  else d

/-- A mismatch (R224 to R226): a second raster, or the flag. -/
def mismatch (d : Dev) (w : Work) (tile : Nat) : Dev :=
  let d := inc d (Adr.RAS_CNT_MISMATCH tile)
  if w.second ∨ !secondCould d (tile :: w.avoid) then flagPatch d w tile
  else setVer d fun v => { v with retry := v.retry ++ [{ w with second := true, avoid := [tile], ue := false }] }

/-- Whether the confirmed mismatches of tile `n` have reached SUSPECT_LIMIT (R234): a tile that VER has fenced already, at or above it,
is not fenced again. -/
def suspect (d : Dev) (n : Nat) : Bool :=
  let c := (rg d (Adr.RAS_CNT_CONFIRMED n)).toNat
  let lim := fd d Adr.VER_CFG 11 8
  decide (c = lim) || (decide (lim < c) && !(ctl d .ras n 2 && tileRole d n = 0))

/-- A raster passes (R223, R225, R234, R247, R301). -/
def passPatch (d : Dev) (w : Work) : Dev :=
  let d := inc (putVerd d w .released) (if w.second then Adr.VER_CNT_PASS2 else Adr.VER_CNT_PASS1)
  let d := match w.second, w.avoid.head? with
    | true, some n =>
      let d := inc d (Adr.RAS_CNT_CONFIRMED n)
      if suspect d n then fence d n w else d
    | _, _ => d
  if w.rr then stcRestitch d w.sec w.q else d

/-- A patch is withheld without verification (R227, R228). -/
def withholdPatch (d : Dev) (w : Work) : Dev := inc (putVerd d w .withheld) Adr.VER_CNT_WITHHELD

/-- VER takes the report of raster `w` from tile `n` (R220, R224 to R228, R250): `store` writes the doses of a re-raster that passes
(R247). DESIGN CHOICE (log entry 88): the patch whose report meets STATE_UE is withheld, and its rows take PIXEL_SPAN entries with CAUSE
POISON, so that R53 holds of them; the rules give the error and the stop of exposure alone. -/
def verReport (d : Dev) (n : Nat) (w : Work) (t : Tkt) (x : Patch) (rep : Rep) (ue edge state : Bool) (store : Dev → Dev) : Dev :=
  let inj := verInj d w
  if state || edge || x.apBad || x.modBad then
    let d := verInjAfter d w (inj != 0) false
    if state then patchEnts (verErr (putVerd d w .withheld) Bit.err_VER_STATE_UE w n) t w 10 (flagRows d t w)
    else if edge then patchEnts (verErr (withholdPatch d w) Bit.err_VER_EDGE_POISON w n) t w 10 (patchUs t w.q)
    else withholdPatch d w
  else
    let rep := injectRep rep (inj.testBit 0) (inj.testBit 1) (inj.testBit 2)
    let kind := mmKind rep x.ap ue
    let acted := inj != 0
    if kind = 0 then passPatch (store (verInjAfter d w acted false)) w
    else
      let diff := if kind = 1 then rep.asum - x.ap else if kind = 2 then 65536 * rep.csum - rep.asum else 0
      let bound := if kind = 1 then boundArea rep else if kind = 2 then boundRound rep else 0
      let d := mmCapture d w n kind diff bound
      let second := !w.second && secondCould d (n :: w.avoid)
      mismatch (verInjAfter d w acted second) w n

/-- The report of the patch that tile `n` is scanning arrives (R217, R218). -/
def patchReport (d : Dev) (n : Nat) (u : TileUpset) : Dev :=
  match (tileOf d n).work with
  | [] => d
  | w :: rest =>
    if !(tileOf d n).awake || !pageClocked d .ras n || !blkRuns d .ver .ver then d
    else
      let d := setTile d n fun t => { t with work := rest }
      let (hit, d) := if w.ue then injAny d (Page.ras.base n) else (false, d)
      match secOf d w.sec with
      | none => d
      | some s =>
        match s.patches.find? fun x => x.q = w.q && x.p = w.p with
        | none => d
        | some x =>
          let t := secTkt d s
          let rep := rasterPatch (localEdges t x) x.mods u.wrong
          let rep := { rep with
            asum := rep.asum + u.dArea, csum := wrapS 32 (rep.csum + u.dCov), rmMain := (rep.rmMain + u.dRm) % 255 }
          let edge := x.edgeBad || u.edge
          let ue := hit || u.acc
          let store (d : Dev) : Dev := match winOf d w.sec w.q with
            | some r => writeDoses d t r w.p rep (edge || x.modBad)
            | none => d
          let d := if w.rr then d else store d
          let d := inc d (Adr.RAS_CNT_PATCH n)
          let d := wr (wr (wr d (Adr.RAS_LAST_FRAG n) (w32 rep.frag)) (Adr.RAS_LAST_NXI n) (w32 rep.nxi)) (Adr.RAS_LAST_NYI n) (w32 rep.nyi)
          let d := if ue then rasErr d n Bit.err_RAS_ACC_UE (some w) else d
          verReport d n w t x rep ue edge u.state fun d => if w.rr then store d else d

/-- VER dispatches a second raster (R224, R226). -/
def secondRaster (d : Dev) (scan : Nat) : Dev :=
  if !blkRuns d .ver .ver then d
  else
    match d.ver.retry.find? fun w => (secondTile d scan w.avoid).isSome || !secondCould d w.avoid with
    | none => d
    | some w =>
      let d := setVer d fun v => { v with retry := v.retry.erase w }
      match secondTile d scan w.avoid with
      | some n => giveTile d n w
      | none => verInjDrop (flagPatch d w ((w.avoid.head?).getD 0)) w

/-- A tile has not reported in time (R232); during a halt no such timer runs (R614). -/
def verTimeout (d : Dev) (n : Nat) : Dev :=
  match d.fcl.halted, (tileOf d n).work with
  | true, _ => d
  | _, [] => d
  | false, w :: rest =>
    let d := mmCapture d w n 6 0 0
    let w' := if w.second then { w with avoid := w.avoid ++ [n] } else w
    fence (setTile d n fun t => { t with work := w' :: rest }) n w

/-- VER dispatches a patch again whose doses the scrubber poisoned (R247): one that is released and not in the array already. -/
def poisonReraster (d : Dev) (k q p : Nat) : Dev :=
  match secOf d k with
  | none => d
  | some s =>
    let w : Work := ⟨k, q, p, false, true, [], false⟩
    let same (x : Work) : Bool := x.sec = k && x.q = q && x.p = p
    if secVerd s p q = some .released ∧ s.patches.any (fun x => x.q = q && x.p = p) ∧
        !(d.ver.rr.any same || d.ver.retry.any same || d.ver.tiles.any fun t => t.work.any same) then
      setVer d fun v => { v with rr := v.rr ++ [w] }
    else d

/-! ### Commands -/

/-- DISPATCH (R237): `scan` has bit n set when tile n's only patch is being scanned. -/
def execDispatch (scan : Nat) (s : State) : Answer := runS s fun d => verDispatch d scan

/-- SECOND_RASTER (R224). -/
def execSecondRaster (scan : Nat) (s : State) : Answer := runS s fun d => secondRaster d scan

/-- PATCH_REPORT (R220). -/
def execPatchReport (tile : Nat) (u : TileUpset) (s : State) : Answer := runS s fun d =>
  if tile < 34 then patchReport d tile u else d

/-- VER_TIMEOUT (R232). -/
def execVerTimeout (tile : Nat) (s : State) : Answer := runS s fun d => if tile < 34 then verTimeout d tile else d

/-- TILE_CLOCK_STOP (R239): the tile's clock has run for `us` microseconds. The idle time does not run out during a halt (R614). -/
def execTileClockStop (tile us : Nat) (s : State) : Answer := run s fun d =>
  if tile < 34 ∧ !d.fcl.halted ∧ (tileOf d tile).awake ∧ (tileOf d tile).work = [] then
    setTile (addReg d (Adr.RAS_CNT_AWAKE tile) us) tile fun t => { t with awake := false }
  else d

/-- A tile's clock stops, the time that it has run not being known (R249). -/
def tileStop (d : Dev) (n : Nat) : Dev :=
  if (tileOf d n).awake then setTile (addFree d (Adr.RAS_CNT_AWAKE n)) n fun t => { t with awake := false } else d

/-- A tile wakes, and runs the first raster that it holds (R239, R755). -/
def tileWake (d : Dev) (n : Nat) : Dev :=
  if (tileOf d n).awake then d
  else
    let ue := tileInj d n
    setTile d n fun t => { t with awake := true, work := modNth t.work 0 fun w => { w with ue := ue } }

/-- TILE_WAKE (R239): while its domain is on. -/
def execTileWake (tile : Nat) (s : State) : Answer := run s fun d =>
  if tile < 34 ∧ (tileOf d tile).work ≠ [] ∧ pageOn d .ras tile then tileWake d tile else d

/-- The tiles of a raster domain. -/
def rasTiles (dom : Nat) : List Nat := tiles.filter fun n => Page.ras.domain n = some dom

/-- PD_IDLE (R240, R241, R681): every tile of raster domain `dom`, 5 or 6, has been stopped for VER_PD_IDLE. -/
def execPdIdle (dom : Nat) (s : State) : Answer := run s fun d =>
  if (dom = 5 ∨ dom = 6) ∧ fd d Adr.VER_PD_IDLE 15 0 ≠ 0 ∧ (rasTiles dom).all (tileAsleep d) ∧ !d.pmu.plan.testBit (dom - 5) ∧ pdState d dom = .on ∧
      fd d (Adr.PMU_PD dom) 5 4 = 1 then pdAsk d dom 2
  else d

/-- A write of RAS_TEST (R245). -/
def rasTest (d : Dev) (n : Nat) (v : W32) : Dev :=
  if bit v 0 && ctl d .ras n 0 && ctl d .ras n 2 && !d.testing.contains (Page.ras.base n) then wr d (Adr.RAS_TEST n) (w32 0x80000000) else d

/-- RAS_TEST_START (R245). -/
def execRasTestStart (req : Req) (tile : Nat) (v : W32) (s : State) : Answer := run s fun d =>
  if tile < 34 then write d req (Adr.RAS_TEST tile) fun d => rasTest d tile (v ||| 1) else d

/-- TEST_DONE (R245). -/
def execTestDone (tile : Nat) (pass : Bool) (s : State) : Answer := run s fun d =>
  if tile < 34 ∧ bit (rg d (Adr.RAS_TEST tile)) 31 then
    let d := evt (wr d (Adr.RAS_TEST tile) (if pass then 6 else 4)) (Page.ras.base tile) Bit.evt_RAS_TEST_DONE
    if pass then d else rasErr d tile Bit.err_RAS_TEST_FAIL none
  else d

/-- A write of VER's _INJECT (R250): W1S. -/
def verInject (d : Dev) (v : W32) : Dev :=
  let a := Page.ver.base 0 + oINJECT
  wr d a (rg d a ||| (v &&& 15))

/-- VER_INJECT (R250). -/
def execVerInject (req : Req) (v : W32) (s : State) : Answer := run s fun d =>
  write d req (Page.ver.base 0 + oINJECT) fun d => verInject d v

end Sys2Proof.Machine
end

