-- ==== Sys2Proof/Machine/Cdc.lean ====
section
/-! DEFINITION. The codec (chapter 12): roles, dispatch and decoding of frames, outbound jobs and dose snapshots. -/

namespace Sys2Proof.Machine

/-- Whether engine `n` is in service (R554). -/
def engInSvc (d : Dev) (n : Nat) : Bool :=
  pageOn d .cdcE n && ctl d .cdcE n 0 && !ctl d .cdcE n 2 && !d.testing.contains (Page.cdcE.base n)

/-! ### Inbound frames (R529 to R533) -/

/-- Whether a frame is being decoded. -/
def decoding (d : Dev) (ref : Bool) (k : Nat) : Bool := d.engs.any fun e => e.frame = some (ref, k)

/-- KQZ blocks that wait for an engine, in the order of R529: whether a REFETCH block, its BLOCK_SEQ or place in `refs`, the block. -/
def frameQueue (d : Dev) : List (Bool × Nat × SBlk) :=
  let refs := ((List.range d.spl.refs.length).zip d.spl.refs).filterMap fun x =>
    if decoding d true x.1 then none else some (true, x.1, x.2)
  let held := (heldBlks d).filterMap fun x =>
    if x.2.recs.isNone && !decoding d false x.1 then some (false, x.1, x.2) else none
  let n := nextSeq d
  refs ++ sortBy (fun a b => decide (sdist a.2.1 n ≤ sdist b.2.1 n)) held

/-- Change a block that waits for a decoder. -/
def setBlk (d : Dev) (ref : Bool) (k : Nat) (f : SBlk → SBlk) : Dev :=
  setSpl d fun s =>
    if ref then { s with refs := modNth s.refs k f }
    else match alGet s.line k with
      | some (.held b) => { s with line := alSet s.line k (.held (f b)) }
      | _ => s

/-- The block of a frame. -/
def blkAt (d : Dev) (ref : Bool) (k : Nat) : Option SBlk :=
  if ref then d.spl.refs[k]?
  else match alGet d.spl.line k with
    | some (.held b) => some b
    | _ => none

/-- Spool that the reservation of a block needs free (R530). DEDUCED (log entry 86): the block that came at NEXT_SEQ is one that
NEXT_SEQ has since passed, so a block ahead of no gap, like a REFETCH block, needs no more than RAW_LEN. -/
def resvNeed (d : Dev) (x : Bool × Nat × SBlk) : Nat :=
  x.2.2.rawLen + (if x.1 ∨ 2147483648 ≤ sdist x.2.1 (nextSeq d) then 0 else spoolRsv d)

/-- The engine for a block (R529, R551). -/
def engFor (d : Dev) (b : SBlk) : Option Nat := engines.find? fun n =>
  let e := engOf d n
  engInSvc d n && !ctl d .cdcE n 1 && !e.out && e.frame.isNone && e.job.isNone && b.avoid != some n

/-- Whether CDC works: powered, its clock running, and not halted (R614, R689). -/
def cdcRuns (d : Dev) : Bool := pageClocked d .cdcG 0 && !d.fcl.halted

/-- An error of the CDC global page. -/
def cdcErr (d : Dev) (b : Nat) (x : SBlk) : Dev := err d (Page.cdcG.base 0) b (w32 x.seq) x.cid

/-- CDC dispatches the first waiting block whose reservation can be made (R529, R530, R533). -/
def cdcDispatch (d : Dev) : Dev :=
  let d := roleSettle d
  if !cdcRuns d then d
  else
    match frameQueue d with
    | [] => d
    | x :: r =>
      if engines.all fun n => !engInSvc d n || (engOf d n).out then cdcErr d Bit.err_CDCG_NO_ENGINE x.2.2
      else
        match (x :: r).find? fun y => decide (resvNeed d y ≤ spoolFree d) && (engFor d y.2.2).isSome with
        | none => d
        | some (ref, k, b) =>
          match engFor d b with
          | none => d
          | some n =>
            let d := setBlk d ref k fun b => { b with resv := b.rawLen }
            let d := { d with bob := { d.bob with spoolUsed := d.bob.spoolUsed + b.rawLen } }
            setEng d n fun e => { e with frame := some (ref, k) }

/-- An engine gives its frame back, to be decoded again from the beginning by another (R551, R552). -/
def frameBack (d : Dev) (n : Nat) : Dev :=
  match (engOf d n).frame with
  | none => d
  | some (ref, k) =>
    let d := match blkAt d ref k with
      | some b =>
        let d := setBlk d ref k fun b => { b with resv := 0, avoid := some n }
        { d with bob := { d.bob with spoolUsed := d.bob.spoolUsed - b.resv } }
      | none => d
    roleSettle (setEng d n fun e => { e with frame := none })

/-- A REFETCH block leaves. -/
def refDone (d : Dev) (k : Nat) (b : SBlk) : Dev :=
  let d := spoolDrop (setSpl d fun s => { s with refs := s.refs.take k ++ s.refs.drop (k + 1) }) b
  { d with engs := d.engs.map fun e => match e.frame with
    | some (true, j) => if k < j then { e with frame := some (true, j - 1) } else e
    | _ => e }

/-- A frame fails (R532): the NAK. A REFETCH block takes no part in sequencing, so no number opens. -/
def frameFail (d : Dev) (ref : Bool) (k : Nat) (b : SBlk) (reason : Nat) : Dev :=
  if ref then postReq (refDone d k b) 1 reason (w32 b.seq) b.cid else splGo (splReject d b reason)

/-- A frame passes (R531, R533): its records are handed on. -/
def framePass (d : Dev) (ref : Bool) (k : Nat) (b : SBlk) (l : List Byte) : Dev :=
  if ref then xpdResolve (refDone d k b) fun d => refetchCells d b.cid (wordsOf l)
  else splGo (setBlk d false k fun b => { b with recs := some (wordsOf l), payload := [] })

/-- An engine's memories read uncorrectable while it decodes (R551). -/
def frameUe (d : Dev) (n : Nat) : Dev :=
  match (engOf d n).frame with
  | none => d
  | some (ref, k) =>
    let s := match blkAt d ref k with
      | some b => w32 b.seq
      | none => 0
    frameBack (err d (Page.cdcE.base n) Bit.err_CDCE_ENG_UE s (rg d (Adr.CDC_JOB_DST_LO n))) n

/-- Engine `n` finishes the frame it decodes (R531, R532). -/
def frameDecoded (d : Dev) (n : Nat) : Dev :=
  match (engOf d n).frame with
  | none => d
  | some (ref, k) =>
    let (hit, d) := injAny d (Page.cdcE.base n)
    if hit then frameUe d n
    else
      let b := blkAt d ref k
      let d := roleSettle (setEng d n fun e => { e with frame := none })
      match b with
      | none => d
      | some b =>
        let d := addReg (inc d (Adr.CDC_CNT_WORK n)) (Adr.CDC_CNT_IN n) b.payload.length
        if b.bad then frameFail (addFree d (Adr.CDC_CNT_OUT n)) ref k b 5
        else
          match kqzDecode b.payload b.rawLen with
          | .ok l =>
            let d := addReg64 (inc d Adr.CDC_CNT_FRAMES) Adr.CDC_CNT_OUT_LO Adr.CDC_CNT_OUT_HI l.length
            framePass (addReg d (Adr.CDC_CNT_OUT n) l.length) ref k b l
          | .badCrc =>
            let d := cdcErr (inc (addReg d (Adr.CDC_CNT_OUT n) b.rawLen) Adr.CDC_CNT_CRC) Bit.err_CDCG_KQZ_CRC b
            frameFail d ref k b 3
          | .badFormat =>
            let d := cdcErr (inc (addFree d (Adr.CDC_CNT_OUT n)) Adr.CDC_CNT_FORMAT) Bit.err_CDCG_KQZ_FORMAT b
            frameFail d ref k b 4

/-! ### Outbound jobs (R536 to R551) -/

/-- Whether patch row `q` of a section has been freed (R316, R547). -/
def rowFreed (d : Dev) (s : Sec) (q : Nat) : Bool := patchRowConsumed d s.num q && (winOf d s.num q).isNone

/-- What a SNAP job of a STRIPE_INDEX and patch row finds: a section (R545), or that its row is gone (R547), or nothing yet. -/
inductive SnapFound where
  | row (k : Nat)
  | gone
  | nothing
  deriving DecidableEq, Repr

def snapFind (d : Dev) (index : W32) (q : Nat) : SnapFound :=
  match d.secs.filter fun s => (secTkt d s).index = index with
  | [] => .nothing
  | l =>
    match l.find? fun s => !(decide (q < secRows s) && rowFreed d s q) with
    | some s => if q < secRows s then .row s.num else .gone
    | none => .gone

/-- End a job (R550): RESULT, OUT and ORIG_CRC, valid for OK and STORED only. -/
def jobEnd (d : Dev) (n result : Nat) (good : Option (Nat × Nat)) : Dev :=
  let dst := match (engOf d n).job with
    | some j => w32 j.dst
    | none => 0
  let d := setEng d n fun e => { e with job := none }
  let d := setFd d (Adr.CDC_JOB_STAT n) 7 0 result
  let d := match good with
    | some (out, crc) => wr (wr d (Adr.CDC_JOB_OUT n) (w32 out)) (Adr.CDC_JOB_CRC n) (w32 crc)
    | none =>
      let (a, d) := takeFree d
      let (b, d) := takeFree d
      wr (wr d (Adr.CDC_JOB_OUT n) (w32 a.toNat)) (Adr.CDC_JOB_CRC n) (w32 b.toNat)
  let d := evt (inc d (Adr.CDC_CNT_WORK n)) (Page.cdcE.base n) Bit.evt_CDCE_JOB_DONE
  let d := if 3 ≤ result ∧ result ≤ 8 ∧ result ≠ 7 then err d (Page.cdcE.base n) Bit.err_CDCE_JOB_FAIL (w32 result) dst else d
  roleSettle d

/-- End a job whose bytes at DST are invalid (R539, R540, R547 to R549, R551). -/
def jobSpoil (d : Dev) (n result : Nat) : Dev :=
  match (engOf d n).job with
  | none => d
  | some j =>
    let (l, d) := freeBytes d j.dstMax
    let d := addFree (addFree (hbmWrite d j.dst l) (Adr.CDC_CNT_IN n)) (Adr.CDC_CNT_OUT n)
    jobEnd d n result none

/-- Header of a dose snapshot (R544). -/
def snapHead (d : Dev) (s : Sec) (q : Nat) : List Byte :=
  let t := secTkt d s
  let held (p : Nat) : Bool := secVerd s p q = some .withheld && decide (p < 4 * s.b)
  bytesOfWords [w32 (0x5E1A0100 + s.b), t.index, w32 q, w32 (4 * b2n t.mending + 2 * b2n t.minus + b2n t.slotB)] ++
    List.replicate 16 0 ++
    (List.range 32).map fun i => byte (sumN ((List.range 8).map fun k => b2n (held (8 * i + k)) * 2 ^ k))

/-- The original of a SNAP job (R544, R545), or none where a dose reads poisoned (R547). -/
def snapData (d : Dev) (s : Sec) (q : Nat) : Option (List Byte) :=
  match winOf d s.num q with
  | none => some (snapHead d s q ++ List.replicate (winLen s.b) 0)
  | some w =>
    let patch (p : Nat) : List Byte × Bool :=
      if secVerd s p q = some .released then
        let rows := (List.range 256).map fun r => doseRow d w p r
        (rows.flatMap (·.1), rows.any (·.2))
      else (List.replicate 98304 0, false)
    let l := (List.range (4 * s.b)).map patch
    if l.any (·.2) then none else some (snapHead d s q ++ l.flatMap (·.1))

/-- The words of KNL SRAM that `n` bytes from `a` touch read poisoned. -/
def sramBad (d : Dev) (a n : Nat) : Bool := n != 0 && d.knl.sramBad.any fun w => decide (a / 4 ≤ w ∧ w ≤ (a + n - 1) / 4)

/-- The original of a job (R542), or none where it reads poisoned (R547, R548). -/
def jobData (d : Dev) (j : Job) : Option (List Byte) :=
  match j.kind with
  | 0 => if hbmBad d j.src j.len then none else some (hbmRead d j.src j.len)
  | 1 => match j.hold with
    | some (k, q) => match secOf d k with
      | some s => snapData d s q
      | none => none
    | none => none
  | 2 =>
    let a := j.src % 4294967296
    if j.req = .knl then (if sramBad d a j.len then none else some (d.knl.sram.readN a j.len))
    else some (List.replicate j.len 0)
  | _ => none

/-- Length of a frame by its COMP_LEN, and its padded length (R538). -/
def frameLen (c : Nat) : Nat := 16 + 4 * ((c + 3) / 4)

/-- What compressing an original comes to (R539, R540): RESULT, and the frame of RESULT OK or STORED. -/
def compress (j : Job) (l : List Byte) : Nat × List Byte :=
  let put (result level : Nat) (c : List Byte) : Nat × List Byte :=
    if j.dstMax < ceil16 (frameLen c.length) then (4, []) else (result, kqzFrame level c l)
  let stored := deflateStored (l.length / 65535 + 1) l
  if j.level = 0 then put 1 0 stored
  else
    let c := deflated j.level l
    if c.length < l.length then put 1 j.level c
    else if j.dstMax < ceil16 (frameLen (l.length - 1)) then (4, [])
    else if j.fallback then put 2 0 stored
    else (3, [])

/-- A job reads its source and writes its frame (R541, R550). -/
def jobDone (d : Dev) (n : Nat) : Dev :=
  match (engOf d n).job with
  | none => d
  | some j =>
    if j.waiting then d
    else
      let (hit, d) := injAny d (Page.cdcE.base n)
      if hit then jobSpoil (err d (Page.cdcE.base n) Bit.err_CDCE_ENG_UE 8 (w32 j.dst)) n 8
      else
        match jobData d j with
        | none => jobSpoil d n 5
        | some l =>
          let d := if j.kind = 0 then hbmCe d j.src j.len else d
          let (r, f) := compress j l
          if 3 ≤ r then jobSpoil d n r
          else
            let d := hbmWrite d j.dst (f ++ List.replicate (ceil16 f.length - f.length) 0)
            let d := if r = 1 then addReg (addReg d (Adr.CDC_CNT_IN n) l.length) (Adr.CDC_CNT_OUT n) (ceil16 f.length)
              else addFree (addFree d (Adr.CDC_CNT_IN n)) (Adr.CDC_CNT_OUT n)
            jobEnd d n r (some (f.length, crc32c l))

/-- Start a job (R541, R545 to R547). -/
def jobGo (d : Dev) (req : Req) (n : Nat) : Dev :=
  let e := engOf d n
  if !engInSvc d n || ctl d .cdcE n 1 || !e.out || e.job.isSome || e.frame.isSome then d
  else
    let c := rg d (Adr.CDC_JOB_CTRL n)
    let j : Job :=
      { kind := bits c 18 16, level := bits c 3 0, fallback := bit c 19
        src := (rg d (Adr.CDC_JOB_SRC_LO n)).toNat + 4294967296 * (rg d (Adr.CDC_JOB_SRC_HI n)).toNat
        len := (rg d (Adr.CDC_JOB_LEN n)).toNat
        dst := (rg d (Adr.CDC_JOB_DST_LO n)).toNat + 4294967296 * (rg d (Adr.CDC_JOB_DST_HI n)).toNat
        dstMax := (rg d (Adr.CDC_JOB_DST_MAX n)).toNat, req := req, waiting := false, hold := none }
    if j.kind ≠ 1 then setEng d n fun e => { e with job := some j }
    else
      let q := j.src / 4294967296 % 16777216
      match snapFind d (w32 j.src) q with
      | .gone => jobEnd (setEng d n fun e => { e with job := some j }) n 6 none
      | .nothing => setEng d n fun e => { e with job := some { j with waiting := true } }
      | .row k =>
        let ready := match secOf d k with
          | some s => rowVerdicts s q
          | none => false
        setEng d n fun e => { e with job := some { j with waiting := !ready, hold := some (k, q) } }

/-- A waiting SNAP job begins to read (R545), or its section has no such row (R547). -/
def snapReady (d : Dev) (n : Nat) : Dev :=
  match (engOf d n).job with
  | none => d
  | some j =>
    match j.waiting, j.hold with
    | true, some (k, q) =>
      match secOf d k with
      | none => d
      | some s =>
        if secRows s ≤ q then jobEnd d n 6 none
        else if rowVerdicts s q then setEng d n fun e => { e with job := some { j with waiting := false } }
        else d
    | _, _ => d

/-- A write of CDC_JOB_CTRL (R541, R549, R555): ABORT, the fields, then GO. -/
def jobCtrl (d : Dev) (req : Req) (n : Nat) (v : W32) : Dev :=
  let d := if bit v 30 then jobSpoil d n 7 else d
  let d := storeReg d (Adr.CDC_JOB_CTRL n) v
  if bit v 31 then jobGo d req n else d

/-- An engine is fenced, or its page soft-reset (R552, R555). -/
def engAbandon (d : Dev) (n : Nat) : Dev := roleSettle (jobSpoil (frameBack d n) n 7)

/-! ### Commands -/

/-- CDC_ROLE (R527). -/
def execCdcRole (req : Req) (v : W32) (s : State) : Answer := run s fun d =>
  write d req Adr.CDC_ROLE fun d => roleSettle (storeReg d Adr.CDC_ROLE v)

/-- CDC_DISPATCH (R529). -/
def execCdcDispatch (s : State) : Answer := run s cdcDispatch

/-- FRAME_DECODED (R532). -/
def execFrameDecoded (n : Nat) (s : State) : Answer := runS s fun d => if n < 8 ∧ cdcRuns d then frameDecoded d n else d

/-- ENG_UE (R551): of a frame, or of a job. -/
def execEngUe (n : Nat) (s : State) : Answer := runS s fun d =>
  if n < 8 ∧ cdcRuns d then
    match (engOf d n).job with
    | some j => jobSpoil (err d (Page.cdcE.base n) Bit.err_CDCE_ENG_UE 8 (w32 j.dst)) n 8
    | none => frameUe d n
  else d

/-- JOB_GO (R541). -/
def execJobGo (req : Req) (n : Nat) (v : W32) (s : State) : Answer := runS s fun d =>
  if n < 8 then write d req (Adr.CDC_JOB_CTRL n) fun d => jobCtrl d req n (v ||| w32 0x80000000) else d

/-- SNAP_READY (R545). -/
def execSnapReady (n : Nat) (s : State) : Answer := runS s fun d => if n < 8 ∧ cdcRuns d then snapReady d n else d

/-- JOB_ABORT (R549). -/
def execJobAbort (req : Req) (n : Nat) (v : W32) (s : State) : Answer := runS s fun d =>
  if n < 8 then write d req (Adr.CDC_JOB_CTRL n) fun d => jobCtrl d req n (v ||| w32 0x40000000) else d

/-- JOB_DONE (R550). -/
def execJobDone (n : Nat) (s : State) : Answer := runS s fun d => if n < 8 ∧ cdcRuns d then jobDone d n else d

end Sys2Proof.Machine
end

