-- ==== Sys2Proof/Machine/Sig.lean ====
section
/-! DEFINITION. SHA-384 and the verification of ECDSA signatures on P-384 (FIPS 186-5), by which ROM checks an image (R625, R626). -/

namespace Sys2Proof.Machine

/-- A 64-bit word. -/
abbrev W64 := BitVec 64

/-- The round constants of SHA-384. -/
def shaK64 : List W64 :=
  [0x428A2F98D728AE22, 0x7137449123EF65CD, 0xB5C0FBCFEC4D3B2F, 0xE9B5DBA58189DBBC, 0x3956C25BF348B538]
  ++ [0x59F111F1B605D019, 0x923F82A4AF194F9B, 0xAB1C5ED5DA6D8118, 0xD807AA98A3030242, 0x12835B0145706FBE]
  ++ [0x243185BE4EE4B28C, 0x550C7DC3D5FFB4E2, 0x72BE5D74F27B896F, 0x80DEB1FE3B1696B1, 0x9BDC06A725C71235]
  ++ [0xC19BF174CF692694, 0xE49B69C19EF14AD2, 0xEFBE4786384F25E3, 0x0FC19DC68B8CD5B5, 0x240CA1CC77AC9C65]
  ++ [0x2DE92C6F592B0275, 0x4A7484AA6EA6E483, 0x5CB0A9DCBD41FBD4, 0x76F988DA831153B5, 0x983E5152EE66DFAB]
  ++ [0xA831C66D2DB43210, 0xB00327C898FB213F, 0xBF597FC7BEEF0EE4, 0xC6E00BF33DA88FC2, 0xD5A79147930AA725]
  ++ [0x06CA6351E003826F, 0x142929670A0E6E70, 0x27B70A8546D22FFC, 0x2E1B21385C26C926, 0x4D2C6DFC5AC42AED]
  ++ [0x53380D139D95B3DF, 0x650A73548BAF63DE, 0x766A0ABB3C77B2A8, 0x81C2C92E47EDAEE6, 0x92722C851482353B]
  ++ [0xA2BFE8A14CF10364, 0xA81A664BBC423001, 0xC24B8B70D0F89791, 0xC76C51A30654BE30, 0xD192E819D6EF5218]
  ++ [0xD69906245565A910, 0xF40E35855771202A, 0x106AA07032BBD1B8, 0x19A4C116B8D2D0C8, 0x1E376C085141AB53]
  ++ [0x2748774CDF8EEB99, 0x34B0BCB5E19B48A8, 0x391C0CB3C5C95A63, 0x4ED8AA4AE3418ACB, 0x5B9CCA4F7763E373]
  ++ [0x682E6FF3D6B2B8A3, 0x748F82EE5DEFB2FC, 0x78A5636F43172F60, 0x84C87814A1F0AB72, 0x8CC702081A6439EC]
  ++ [0x90BEFFFA23631E28, 0xA4506CEBDE82BDE9, 0xBEF9A3F7B2C67915, 0xC67178F2E372532B, 0xCA273ECEEA26619C]
  ++ [0xD186B8C721C0C207, 0xEADA7DD6CDE0EB1E, 0xF57D4F7FEE6ED178, 0x06F067AA72176FBA, 0x0A637DC5A2C898A6]
  ++ [0x113F9804BEF90DAE, 0x1B710B35131C471B, 0x28DB77F523047D84, 0x32CAAB7B40C72493, 0x3C9EBE0A15C9BEBC]
  ++ [0x431D67C49C100D4C, 0x4CC5D4BECB3E42B6, 0x597F299CFC657E2A, 0x5FCB6FAB3AD6FAEC, 0x6C44198C4A475817]

/-- The initial hash value of SHA-384. -/
def shaH384 : List W64 :=
  [0xCBBB9D5DC1059ED8, 0x629A292A367CD507, 0x9159015A3070DD17, 0x152FECD8F70E5939]
  ++ [0x67332667FFC00B31, 0x8EB44A8768581511, 0xDB0C2E0D64F98FA7, 0x47B5481DBEFA4FA4]

/-- Rotation right. -/
def ror64 (x : W64) (n : Nat) : W64 := (x >>> n) ||| (x <<< (64 - n))

/-- The message schedule: `n` further words after the sixteen most recent, held latest first. -/
def shaExpand64 : Nat → List W64 → List W64
  | 0, w => w
  | n + 1, w =>
    let a := nth w 1 0
    let b := nth w 14 0
    let s1 := ror64 a 19 ^^^ ror64 a 61 ^^^ (a >>> 6)
    let s0 := ror64 b 1 ^^^ ror64 b 8 ^^^ (b >>> 7)
    shaExpand64 n ((nth w 15 0 + s0 + nth w 6 0 + s1) :: w)

/-- One round on the eight working variables. -/
def shaRound64 (v : List W64) (kw : W64) : List W64 :=
  match v with
  | [a, b, c, d, e, f, g, h] =>
    let s1 := ror64 e 14 ^^^ ror64 e 18 ^^^ ror64 e 41
    let ch := (e &&& f) ^^^ (~~~e &&& g)
    let t1 := h + s1 + ch + kw
    let s0 := ror64 a 28 ^^^ ror64 a 34 ^^^ ror64 a 39
    let maj := (a &&& b) ^^^ (a &&& c) ^^^ (b &&& c)
    [t1 + s0 + maj, a, b, c, d + t1, e, f, g]
  | v => v

/-- One block of 128 bytes. -/
def shaBlock64 (h : List W64) (b : List Byte) : List W64 :=
  let w := (chunks 8 16 b).map fun x => BitVec.ofNat 64 (beNat x)
  let ws := (shaExpand64 64 w.reverse).reverse
  let v := (List.zipWith (· + ·) shaK64 ws).foldl shaRound64 h
  List.zipWith (· + ·) h v

/-- The padding of a message of `n` bytes. -/
def shaPad128 (n : Nat) : List Byte := byte 0x80 :: List.replicate ((239 - n % 128) % 128) 0 ++ beBytes 16 (8 * n)

/-- SHA-384 of a byte string. -/
def sha384 (m : List Byte) : List Byte :=
  let p := m ++ shaPad128 m.length
  (((chunks 128 (p.length / 128) p).foldl shaBlock64 shaH384).take 6).flatMap fun w => beBytes 8 w.toNat

/-! ### The curve -/

/-- The field prime, the order, the coefficient b and the base point of P-384. -/
def p384P : Nat := 2 ^ 384 - 2 ^ 128 - 2 ^ 96 + 2 ^ 32 - 1
def p384N : Nat := 0xFFFFFFFFFFFFFFFFFFFFFFFFFFFFFFFFFFFFFFFFFFFFFFFFC7634D81F4372DDF581A0DB248B0A77AECEC196ACCC52973
def p384B : Nat := 0xB3312FA7E23EE7E4988E056BE3F82D19181D9C6EFE8141120314088F5013875AC656398D8A2ED19D2A85C8EDD3EC2AEF
def p384Gx : Nat := 0xAA87CA22BE8B05378EB1C71EF320AD746E1D3B628BA79B9859F741E082542A385502F25DBF55296C3A545E3872760AB7
def p384Gy : Nat := 0x3617DE4A96262C6F5D9E98BF9292DC29F8F41DBD289A147CE9DA3113B5F0B8C00A60B1CE1D7E819D7A431D7C90EA0E5F

/-- a − b modulo `m`, for a, b < m. -/
def subMod (m a b : Nat) : Nat := (a + m - b) % m

/-- x^e modulo `m` by the low `n` bits of e, least significant first. -/
def powMod (m : Nat) : Nat → Nat → Nat → Nat
  | 0, _, _ => 1
  | n + 1, x, e => let r := powMod m n (x * x % m) (e / 2); if e % 2 = 1 then x * r % m else r

/-- The inverse modulo the prime `m` (Fermat). -/
def invMod (m x : Nat) : Nat := powMod m 384 x (m - 2)

/-- A point in Jacobian coordinates; Z = 0 is the point at infinity. -/
abbrev JPt := Nat × Nat × Nat

/-- Twice a point. -/
def jDbl (q : JPt) : JPt :=
  let (x, y, z) := q
  let p := p384P
  let a := 3 * (subMod p x (z * z % p)) * (x + z * z % p) % p
  let y2 := y * y % p
  let s := 4 * x * y2 % p
  let x' := subMod p (a * a % p) (2 * s % p)
  (x', subMod p (a * subMod p s x' % p) (8 * y2 * y2 % p), 2 * y * z % p)

/-- The sum of two points. -/
def jAdd (q r : JPt) : JPt :=
  let (x1, y1, z1) := q
  let (x2, y2, z2) := r
  let p := p384P
  if z1 = 0 then r
  else if z2 = 0 then q
  else
    let z1s := z1 * z1 % p
    let z2s := z2 * z2 % p
    let u1 := x1 * z2s % p
    let u2 := x2 * z1s % p
    let s1 := y1 * z2 * z2s % p
    let s2 := y2 * z1 * z1s % p
    if u1 = u2 then (if s1 = s2 then jDbl q else (1, 1, 0))
    else
      let h := subMod p u2 u1
      let w := subMod p s2 s1
      let h2 := h * h % p
      let h3 := h * h2 % p
      let v := u1 * h2 % p
      let x3 := subMod p (subMod p (w * w % p) h3) (2 * v % p)
      (x3, subMod p (w * subMod p v x3 % p) (s1 * h3 % p), h * z1 * z2 % p)

/-- k times a point by the low `n` bits of k. -/
def jMul : Nat → Nat → JPt → JPt
  | 0, _, _ => (1, 1, 0)
  | n + 1, k, q => let r := jMul n (k / 2) (jDbl q); if k % 2 = 1 then jAdd q r else r

/-- Whether (x, y) lies on the curve. -/
def onCurve (x y : Nat) : Bool :=
  decide (x < p384P ∧ y < p384P) && (y * y % p384P = (x * x * x + (p384P - 3) * x + p384B) % p384P)

/-- Whether signature `sig`, r then s, verifies for the digest `h` under the uncompressed public key `key` (FIPS 186-5). -/
def ecdsaVerify (key h sig : List Byte) : Bool :=
  let x := beNat ((key.drop 1).take 48)
  let y := beNat ((key.drop 49).take 48)
  let r := beNat (sig.take 48)
  let s := beNat ((sig.drop 48).take 48)
  decide ((nth key 0 0).toNat = 4 ∧ key.length = 97) && onCurve x y &&
  decide (0 < r ∧ r < p384N ∧ 0 < s ∧ s < p384N) &&
  (let w := invMod p384N s
   let (qx, _, qz) := jAdd (jMul 384 (beNat h * w % p384N) (p384Gx, p384Gy, 1)) (jMul 384 (r * w % p384N) (x, y, 1))
   qz != 0 && decide (qx * invMod p384P (qz * qz % p384P) % p384P % p384N = r))

end Sys2Proof.Machine
end

