-- ==== Sys2Proof/Machine/Dma.lean ====
section
/-! DEFINITION. The host link, the whistle page and the DMA channels (chapter 11): chains, parking, halts, resets. -/

namespace Sys2Proof.Machine

/-- Every word of the page at `base` takes its reset value, and its first-error capture is released. -/
def pageClear (d : Dev) (base : Nat) : Dev :=
  { d with
    regs := d.regs.filter fun e => decide (e.1 < base ∨ base + 0x1000 ≤ e.1)
    infoHeld := setDel d.infoHeld base }

/-! ### Channels (R502 to R521) -/

/-- Page base of channel `n`. -/
def chBase (n : Nat) : Nat := Page.dmaCh.base n

/-- Whether channel `n` answers doorbells: enabled, tested, not isolated (R521). -/
def chInSvc (d : Dev) (n : Nat) : Bool :=
  decide (n < 16) && pageOn d .dmaCh n && bit (rg d (chBase n + oCTRL)) 0 && !bit (rg d (chBase n + oCTRL)) 2 &&
  !d.testing.contains (chBase n)

/-- Whether channel `n` fetches nothing more (R519, R521). -/
def chStops (d : Dev) (n : Nat) : Bool := bit (rg d (chBase n + oCTRL)) 1 || bit (rg d (chBase n + oCTRL)) 2

/-- An error of channel `n`: the address of the descriptor concerned (R526). -/
def chErr (d : Dev) (n b a : Nat) : Dev := err d (chBase n) b (w32 a) (w32 (a / 4294967296))

/-- Channel `n` halts at descriptor `a` (R505, R511, R516): HALT_CAUSE and the error bit. -/
def chHalt (d : Dev) (n cause b a : Nat) : Dev :=
  let d := setChan d n fun c => { c with cstate := .halted, cause := cause, cur := a, held := false }
  chErr (evt d (chBase n) Bit.evt_DMACH_HALTED) n b a

/-- Channel `n` reads descriptor `a`, its first read or the re-read of R508, once QUIESCE and D3hot let it (R505, R516, R519, R483). With the link
down no fetch can be answered (R486). -/
def chRead (d : Dev) (n : Nat) (ph : Phase) (a : Nat) : Dev :=
  let d := setChan d n fun c => { c with cstate := .run, phase := ph, cur := a, cause := 0, held := false, block := none, given := false,
                                           sent := 0, badAt := none, reads := 0, asked := false }
  if a % 64 ≠ 0 then chHalt d n 4 Bit.err_DMACH_LINK_ALIGN a
  else if chStops d n || d.hlk.cfg.d3 then setChan d n fun c => { c with held := true }
  else if !d.hlk.up then chHalt d n 2 Bit.err_DMACH_FETCH_FAIL a
  else d

/-- The next descriptor of the fetched one. -/
def descNext (c : Chan) : Nat := (nth c.desc 6 0).toNat + 4294967296 * (nth c.desc 7 0).toNat

/-- Channel `n` parks on its descriptor (R508), or re-reads it at once when a doorbell is pending (R509). -/
def chPark (d : Dev) (n : Nat) : Dev :=
  let c := chanOf d n
  if c.dbPend then chRead (setChan d n fun c => { c with dbPend := false }) n .reread c.cur
  else evt (setChan d n fun c => { c with cstate := .parked, phase := .none, held := false }) (chBase n) Bit.evt_DMACH_PARKED

/-- Whether the endpoint may send requests: the link up (R486), and D0 (R483). -/
def linkOut (d : Dev) : Bool := d.hlk.up && !d.hlk.cfg.d3

/-- A posted write of a status to host memory, without Relaxed Ordering (R522); dropped while the link is down (R486). -/
def hostPut (d : Dev) (a : Nat) (l : List Byte) : Dev := if linkOut d then emit d (.hostWrite a l false false false) else d

/-- Max_Payload_Size and Max_Read_Request_Size in bytes (R483). -/
def maxPayload (d : Dev) : Nat := 128 * 2 ^ min 2 d.hlk.cfg.mps
def maxRead (d : Dev) : Nat := 128 * 2 ^ min 5 d.hlk.cfg.mrrs

/-- `len` bytes from `a` cut at the multiples of `u`, as offset and length. -/
def pieces (u a len : Nat) : List (Nat × Nat) :=
  (List.range ((a + len + u - 1) / u - a / u)).map fun i =>
    let lo := max a (u * (a / u + i))
    (lo - a, min (a + len) (u * (a / u + i) + u) - lo)

/-- Whether data TLPs carry No Snoop (R483, R525). -/
def dmaNs (d : Dev) : Bool := d.hlk.cfg.ns && bit (rg d Adr.DMA_CFG) 0

/-- A posted write of data to host memory, with the attributes of R483. -/
def hostData (d : Dev) (a : Nat) (l : List Byte) (ep : Bool) : Dev :=
  if linkOut d then emit d (.hostWrite a l ep d.hlk.cfg.ro (dmaNs d)) else d

/-- The descriptor of channel `n` is complete (R507 to R513): its write-back, counters and events, then on along the chain. -/
def chComplete (d : Dev) (n code done : Nat) : Dev :=
  let c := chanOf d n
  let d := hostPut d (c.cur + 0x30) (bytesOfWords [w32 (2147483648 + code), w32 done, timNs d, timS d])
  let d := inc d (Adr.DMA_CNT_DESC n)
  let d2h := bits (nth c.desc 0 0) 25 24 = 1
  let d := addReg64 d (Adr.DMA_CNT_BYTES_LO n) (Adr.DMA_CNT_BYTES_HI n) done
  let d := addReg64 d (if d2h then Adr.DMA_BYTES_D2H_LO else Adr.DMA_BYTES_H2D_LO)
    (if d2h then Adr.DMA_BYTES_D2H_HI else Adr.DMA_BYTES_H2D_HI) done
  let d := if code = 1 then d
    else
      let d := evt (inc d (Adr.DMA_CNT_BAD n)) (chBase n) Bit.evt_DMACH_BAD
      chErr d n (if code = 6 then Bit.err_DMACH_ALIGN else Bit.err_DMACH_BAD) c.cur
  let d := if bit (nth c.desc 0 0) 30 then evt d (chBase n) Bit.evt_DMACH_DONE else d
  let d := setChan d n fun c => { c with
    hops := (c.hops + 1) % 65536, block := none, given := false, sent := 0, badAt := none, reads := 0 }
  if bit (nth c.desc 0 0) 31 then chPark d n
  else if fd d (Adr.DMA_HOPS n) 15 0 ≤ c.hops + 1 then
    chHalt (setChan d n fun c => { c with phase := .fetch }) n 1 Bit.err_DMACH_HOPS_EXCEEDED (descNext c)
  else chRead d n .fetch (descNext c)

/-- A doorbell (R506, R508, R509, R511, R517). -/
def chDoorbell (d : Dev) (n : Nat) : Dev :=
  if !chInSvc d n then d
  else
    let c := chanOf d n
    let d := setChan d n fun c => { c with hops := 0 }
    match c.cstate with
    | .idle => chRead d n .fetch c.head
    | .run => setChan d n fun c => { c with dbPend := true }
    | .parked => chRead d n .reread c.cur
    | .halted => chRead d n (if c.phase = .reread then .reread else .fetch) c.cur

/-- A write of DMA_HEAD, LO or HI (R506). -/
def chHead (d : Dev) (n : Nat) (hi : Bool) (v : W32) : Dev :=
  if (chanOf d n).cstate = .run then d
  else
    let d := wr d (if hi then Adr.DMA_HEAD_HI n else Adr.DMA_HEAD_LO n) v
    setChan d n fun c => { c with
      cstate := .idle, phase := .none, cause := 0, held := false
      head := if hi then (rg d (Adr.DMA_HEAD_LO n)).toNat + 4294967296 * v.toNat else c.head }

/-- The words of a descriptor have come (R505, R507, R508): whether the descriptor buffer reads uncorrectable. -/
def chWords (d : Dev) (n : Nat) (ws : List W32) (ue : Bool) : Dev :=
  let c := chanOf d n
  let (hit, d) := injAny d (chBase n)
  if ue ∨ hit then chHalt d n 5 Bit.err_DMACH_DESC_UE c.cur
  else if c.phase = .reread then
    let w0 := nth ws 0 0
    let d := setChan d n fun c => { c with
      desc := modNth (modNth (modNth c.desc 0 fun x => putBit x 31 (bit w0 31)) 6 fun _ => nth ws 6 0) 7 fun _ => nth ws 7 0 }
    if bit w0 31 then chPark d n else chRead d n .fetch (descNext (chanOf d n))
  else
    let d := setChan d n fun c => { c with
      phase := .xfer, desc := (ws ++ List.replicate 16 0).take 16, sent := 0, badAt := none, reads := 0, asked := false }
    if ((nth ws 1 0).toNat % 16 ≠ 0) ∨ ((nth ws 2 0).toNat % 16 ≠ 0) ∨ ((nth ws 4 0).toNat % 16 ≠ 0) then chComplete d n 6 0
    else d

/-- Whether channel `n` waits for the words of a descriptor. -/
def chFetching (d : Dev) (n : Nat) : Bool :=
  let c := chanOf d n
  decide (c.cstate = .run) && !c.held && decide (c.phase = .fetch ∨ c.phase = .reread)

/-- Whether channel `n` runs the transfer of its descriptor. -/
def chMoving (d : Dev) (n : Nat) : Bool := decide ((chanOf d n).cstate = .run) && decide ((chanOf d n).phase = .xfer)

/-- The device-side writes that channel `n` may have issued when it is cut off (R520): of a transfer from the host, of bytes whose
read requests have gone out. -/
def chLate (d : Dev) (n : Nat) : List Late :=
  let c := chanOf d n
  let w := nth c.desc 0 0
  if chMoving d n && decide (bits w 25 24 = 0 ∧ 1 ≤ bits w 23 20 ∧ bits w 23 20 ≤ 3 ∧ 0 < c.sent) then
    [⟨n, bits w 23 20, (nth c.desc 4 0).toNat + 4294967296 * (nth c.desc 5 0).toNat, c.sent⟩]
  else []

/-- The transfer stops and its channel goes to IDLE (R520): its counters and DMA_CUR are open values until the next doorbell. -/
def chCut (d : Dev) (n : Nat) : Dev :=
  let d := { d with hlk := { d.hlk with late := d.hlk.late ++ chLate d n } }
  let (v0, d) := takeFree d
  let (v1, d) := takeFree d
  let (v2, d) := takeFree d
  let (v3, d) := takeFree d
  let d := wr (wr d (Adr.DMA_CNT_DESC n) (w32 v0.toNat)) (Adr.DMA_CNT_BAD n) (w32 v1.toNat)
  let d := wr (wr d (Adr.DMA_CNT_BYTES_LO n) (w32 v2.toNat)) (Adr.DMA_CNT_BYTES_HI n) (w32 (v2.toNat / 4294967296))
  setChan d n fun c => { c with
    cstate := .idle, phase := .none, cur := v3.toNat, hops := v1.toNat / 4294967296 % 65536, dbPend := false, held := false
    block := none, given := false, cause := 0, sent := 0, badAt := none, reads := 0, asked := false }

/-- QUIESCE of a channel is cleared (R519), or D3hot is left: what it would have fetched is fetched. -/
def chResume (d : Dev) (n : Nat) : Dev :=
  let c := chanOf d n
  if c.cstate = .run ∧ c.held ∧ !chStops d n ∧ !d.hlk.cfg.d3 then chRead d n c.phase c.cur else d

/-- ISOLATE of a channel is cleared (R521): a channel that had come to rest is in IDLE. -/
def chReadmit (d : Dev) (n : Nat) : Dev :=
  let c := chanOf d n
  if c.cstate = .run ∧ !c.held then d
  else setChan d n fun c => { c with cstate := .idle, phase := .none, held := false, cause := 0, dbPend := false }

/-- SOFT_RESET of a channel page, taken only at rest: its counters, hop count and DB_PEND are cleared. -/
def chSoftReset (d : Dev) (n : Nat) : Dev :=
  let c := chanOf d n
  if c.cstate = .run ∧ !c.held then d
  else
    let d := [Adr.DMA_CNT_DESC n, Adr.DMA_CNT_BAD n, Adr.DMA_CNT_BYTES_LO n, Adr.DMA_CNT_BYTES_HI n].foldl (fun d a => wr d a 0) d
    setChan d n fun c => { c with cstate := .idle, phase := .none, held := false, cause := 0, dbPend := false, hops := 0 }

/-! ### Resets and the link (R485, R486, R524) -/

/-- HLK, every DMA channel and the configuration state are reset (R485), as a Function Level Reset does it. -/
def hlkReset (d : Dev) : Dev :=
  let link := rg d Adr.HLK_LINK
  let late := d.hlk.late ++ (List.range 16).flatMap (chLate d)
  let d := (List.range 16).foldl (fun d n => pageClear d (chBase n)) (pageClear d (Page.hlk.base 0))
  wr { d with
    chans := List.replicate 16 {}, bar2 := []
    testing := d.testing.filter fun b => decide (b < 0x20000 ∨ 0x30000 ≤ b)
    hlk := { d.hlk with msixPend := [], aer := 0, cfg := {}, late := late } } Adr.HLK_LINK link

/-- PERST# resets the endpoint and retrains the link (R485). -/
def hlkPerst (d : Dev) : Dev := wr { hlkReset d with hlk := { (hlkReset d).hlk with up := false } } Adr.HLK_LINK 0

/-- The H2D read of channel `n` fails after `done` bytes; the bytes `l` have reached its target. -/
def chFail (put : Dev → Nat → List Byte → Dev) (d : Dev) (n code done : Nat) (l : List Byte) : Dev :=
  chComplete (put d n l) n code done

/-- An error of HLK (R524). -/
def hlkErr (d : Dev) (b : Nat) : Dev := err d (Page.hlk.base 0) b (rg d Adr.HLK_LINK) d.hlk.aer

/-- The link reaches L0 at rate `gen` and width `width` (R524): after a recovery or a training. -/
def linkUpAt (d : Dev) (gen width : Nat) (flit : Bool) : Dev :=
  if !pdOn d 1 ∨ width < 8 ∨ gen < 3 then d
  else
    let d := if d.hlk.up then inc d Adr.HLK_CNT_RECOV else d
    let d := { d with hlk := { d.hlk with up := true } }
    let d := wr d Adr.HLK_LINK (w32 (2147483648 + b2n flit * 1073741824 + width % 32 * 65536 + gen % 16))
    let d := evt d (Page.hlk.base 0) Bit.evt_HLK_LINK_UP
    if gen < 6 ∨ width < 16 then hlkErr d Bit.err_HLK_DOWNTRAINED else d

/-- Whether a TLP can arrive: on VC0, or on VC1 once host software has enabled it (R499). VC1's credits, eight headers and eight data
units, are back at once, since HLK acts on each write as it arrives (R495). -/
def vcOpen (d : Dev) (vc1 : Bool) : Bool := !vc1 || d.hlk.cfg.vc1

/-- A TLP has come on VC1 (R499, R524). -/
def vc1Seen (d : Dev) (vc1 : Bool) : Dev := if vc1 then inc d Adr.HLK_CNT_VC1 else d

/-- The header log of AER takes the header of the TLP when no uncorrectable error stands (R483): its four words are the requester's,
open here. -/
def aerLog (d : Dev) : Dev :=
  if d.hlk.aer = 0 then
    let (v, d) := takeFree d
    let (w, d) := takeFree d
    { d with hlk := { d.hlk with cfg := { d.hlk.cfg with
      hdr := [w32 v.toNat, w32 (v.toNat / 4294967296), w32 w.toNat, w32 (w.toNat / 4294967296)] } } }
  else d

/-- A request that HLK does not serve: logged as an Unsupported Request, an uncorrectable error of AER (its status bit 20). -/
def hlkUr (d : Dev) : Dev :=
  let d := aerLog (inc d Adr.HLK_CNT_UR)
  hlkErr { d with hlk := { d.hlk with aer := putBit d.hlk.aer 20 true } } Bit.err_HLK_AER_UNCORR

/-! ### The whistle page (R495 to R501) -/

/-- A write of WH_CMD. -/
def whCmd (d : Dev) (v : W32) : Dev :=
  if bits v 31 16 ≠ 0x57E1 then { d with hlk := { d.hlk with whStray := d.hlk.whStray + 1 } }
  else
    let d := { d with hlk := { d.hlk with whCnt := d.hlk.whCnt + 1 } }
    let blank := bit v 0 || (d.muz.whBlank && !bit v 1)
    let stop := bit v 2 || (d.muz.whStop && !bit v 3)
    let stopNew := stop && !d.muz.whStop
    let ends := d.muz.whBlank && !blank
    let a := d.muz.whFrom
    let d := setMuz d fun m => { m with whBlank := blank, whStop := stop, whFrom := if ends then none else m.whFrom }
    let d := muzUpdate d
    let d := if ends then closeOne d a 6 else d
    if stopNew then externalStop d else d

/-- WH_STAT (R501). -/
def whStat (d : Dev) (expState : Nat) : W32 :=
  w32 (b2n d.muz.whStop * 2147483648 + b2n d.muz.whBlank * 1073741824 + b2n d.muz.muzzled * 536870912 +
    (if pdState d 13 = .on then expState else 0))

/-- A whistle command: a posted write of WH_CMD on VC0 or VC1 with bit `b` set (R495, R499). It arrives while the link is up. -/
def whRow (d : Dev) (b : Nat) (v : W32) (vc1 : Bool) : Dev :=
  if vcOpen d vc1 then settle (whCmd (vc1Seen d vc1) (putBit v b true)) else settle d

/-! ### BAR4 and the bobbin as the host reads it (R490 to R492, R518) -/

/-- Whether a device address lies in a region whose layout the block keeps to itself: SPOOL, CELL or PATCH. -/
def daInner (d : Dev) (a : Nat) : Bool :=
  (List.range 3).any fun i => decide (rgnBase d i ≤ a ∧ a < rgnBase d i + rgnSize d i)

/-- Bytes of the bobbin as a reader outside the data path gets them: those of the internal layouts are open values. -/
def daRead (d : Dev) (da n : Nat) : List Byte × Dev :=
  let l := hbmRead d da n
  if (List.range 3).any fun i => decide (da < rgnBase d i + rgnSize d i ∧ rgnBase d i < da + n) then
    let (f, d') := freeBytes d n
    (((List.range n).zip (l.zip f)).map fun x => if daInner d (da + x.1) then x.2.2 else x.2.1, d')
  else (l, d)

/-- A BAR4 TLP at offset `o` (R490): a write of bytes, or a read of `n` bytes whose completion carries EP when poison was met. -/
def bar4Access (d : Dev) (o : Nat) (wdata : Option (List Byte)) (n : Nat) : Dev :=
  let da := 1048576 * fd d Adr.HLK_BAR4 16 0 + o
  let d := wakeMem d
  match wdata with
  | some l => hbmWrite d da l
  | none =>
    let (inj, d) := hbmInjRead d da n
    let ep := inj || hbmBad d da n
    let (l, d) := daRead d da n
    emit d (.bar4Data l ep)

/-! ### Commands of the link -/

/-- BLANK_SET (R498). -/
def execBlankSet (v : W32) (vc1 : Bool) (s : State) : Answer := run s fun d => whRow d 0 v vc1

/-- BLANK_CLR (R497). -/
def execBlankClr (v : W32) (vc1 : Bool) (s : State) : Answer := run s fun d => whRow d 1 v vc1

/-- STOP_SET (R498). -/
def execStopSet (v : W32) (vc1 : Bool) (s : State) : Answer := run s fun d => whRow d 2 v vc1

/-- STOP_CLR (R497). -/
def execStopClr (v : W32) (vc1 : Bool) (s : State) : Answer := run s fun d => whRow d 3 v vc1

/-- PERST (R485). -/
def execPerst (s : State) : Answer := run s hlkPerst

/-- FLR (R485). -/
def execFlr (s : State) : Answer := run s hlkReset

/-- LINK_UP (R524). -/
def execLinkUp (gen width : Nat) (flit : Bool) (s : State) : Answer := runS s fun d => linkUpAt d gen width flit

/-- BAR4_ACCESS (R490 to R492): on VC1, and in D3hot, it is an Unsupported Request (R499, R483). -/
def execBar4Access (o : Nat) (wdata : Option (List Byte)) (n : Nat) (vc1 : Bool) (s : State) : Answer := runS s fun d =>
  if !vcOpen d vc1 then d
  else if vc1 || d.hlk.cfg.d3 then hlkUr (vc1Seen d vc1)
  else bar4Access d o wdata n

/-- DMA_HEAD (R506): the LO word, or the HI word that completes the address. -/
def execDmaHead (req : Req) (n : Nat) (hi : Bool) (v : W32) (s : State) : Answer := run s fun d =>
  if n < 16 then write d req (if hi then Adr.DMA_HEAD_HI n else Adr.DMA_HEAD_LO n) fun d => chHead d n hi v else d

/-- DMA_DB (R509). -/
def execDmaDb (req : Req) (n : Nat) (s : State) : Answer := runS s fun d =>
  if n < 16 then write d req (Adr.DMA_DB n) fun d => chDoorbell d n else d

/-- A write of DMA_DISABLE (R520): reserved on channels 0 to 11. -/
def chDisable (d : Dev) (n : Nat) (v : W32) : Dev := if bit v 0 ∧ 12 ≤ n ∧ n < 16 then chCut d n else d

/-- DISABLE (R520). -/
def execDisable (req : Req) (n : Nat) (s : State) : Answer := run s fun d =>
  if n < 16 then write d req (Adr.DMA_DISABLE n) fun d => chDisable d n 1 else d

/-- What a read of host memory for a descriptor returns. -/
def execDescriptorFetched (n : Nat) (res : Fetch) (s : State) : Answer := runS s fun d =>
  if n < 16 ∧ chFetching d n then
    match res with
    | .words ws ue => chWords d n ws ue
    | .bad => chHalt d n 3 Bit.err_DMACH_FETCH_FAIL (chanOf d n).cur
  else d

/-- FETCH_TIMEOUT (R516). -/
def execFetchTimeout (n : Nat) (s : State) : Answer := runS s fun d =>
  if n < 16 ∧ chFetching d n then chHalt d n 2 Bit.err_DMACH_FETCH_FAIL (chanOf d n).cur else d

end Sys2Proof.Machine
end

