-- ==== Sys2Proof/Machine/Mei.lean ====
section
/-! DEFINITION. Scrubbing, tracking and remapping (R579 to R598, R604, R605). Addresses of units: for HBM the word that
MEI_RMP_ENT1 shows, bank rotation index in [29:24], row in [23:10], sector in [4:0]; for SRAM the word address. -/

namespace Sys2Proof.Machine

/-- An error of MEI about a unit: its address in the form of MEI_LAST_UE (R618). -/
def meiErr (d : Dev) (b lo hi : Nat) : Dev := err d (Page.mei.base 0) b (w32 lo) (w32 hi)

/-! ### Remap entries (R595 to R598, R618) -/

/-- The logical pseudo-channel that a physical one serves. -/
def pcLogical (d : Dev) (p : Nat) : Option Nat := (List.range 126).find? fun l => fd d (Adr.BOB_PCMAP l) 6 0 = p

/-- The device address of the sector that MEI_RMP_ENT1 names as `a` in pseudo-channel `p`, when that one serves addresses (R307,
R308). -/
def rmpDa (d : Dev) (p a : Nat) : Option Nat :=
  (pcLogical d p).map fun l => 1024 * (126 * (a / 1024 % 16384 * 48 + a / 16777216) + l) + 32 * (a % 32)

/-- An address of a unit is due for remapping (R595, R597): the entry is installed, or the table is full. -/
def rmpInstall (d : Dev) (sram : Bool) (unit a : Nat) (poisoned : Bool) (lo hi : Nat) : Dev :=
  match rmpFree d sram unit with
  | some i =>
    let old := if sram then none else (rmpDa d unit a).map fun da => (hbmRead d da 32, d.poison.contains (da / 32))
    let d := setMei d fun m => { m with
      remaps := m.remaps ++ [{ sram := sram, index := i, poisoned := poisoned, unit := unit, addr := a, old := old }]
      track := m.track.filter fun t => !(t.sram = sram && t.unit = unit && t.addr = a) }
    evt (inc d Adr.MEI_CNT_REMAP) (Page.mei.base 0) Bit.evt_MEI_REMAP_ADDED
  | none => meiErr d Bit.err_MEI_REMAP_FULL lo hi

/-- A retired HBM entry's address is served from its own storage again (R595): what it held at the switch, or, where the model does
not know that, open values. DEDUCED (log entry 98). -/
def rmpRestore (d : Dev) (r : Remap) : Dev :=
  match r.sram, rmpDa d r.unit r.addr with
  | false, some da =>
    match r.old with
    | some (l, bad) => { d with
        hbm := d.hbm.write da l, poison := if bad then setIns d.poison (da / 32) else setDel d.poison (da / 32) }
    | none =>
      let (f, d) := freeBytes d 32
      { d with hbm := d.hbm.write da f, poison := setDel d.poison (da / 32) }
  | _, _ => d

/-- A KNL write of 0 to VALID retires the entry that MEI_RMP_SEL names (R618). -/
def rmpRetire (d : Dev) (v : W32) : Dev :=
  if bit v 31 then d
  else
    let w := rg d Adr.MEI_RMP_SEL
    let gone := rmpAt d (bit w 31) (bits w 15 0)
    let d := setMei d fun m => { m with remaps := m.remaps.filter fun r => !(r.sram = bit w 31 && r.index = bits w 15 0) }
    match gone with
    | some r => rmpRestore d r
    | none => d

/-! ### The tracker (R594, R596) -/

/-- The tracker's entry to give up: the lowest count, the oldest among equals. -/
def trkVictim (l : List Track) : Option Track :=
  l.foldl (fun a t => match a with
    | some x => if t.count < x.count then some t else some x
    | none => some t) none

/-- A scrub read of an address was corrected. An injection of the MEI page is used up by the tracker's decode or store (R603); no
rule states a consumer that an uncorrectable tracker word would reach. -/
def trkCorrected (d : Dev) (sram : Bool) (unit a lo hi : Nat) : Dev :=
  let is (t : Track) : Bool := t.sram = sram && t.unit = unit && t.addr = a
  let k := fd d Adr.MEI_CE_K 3 0
  let (_, d) := injTake d (Page.mei.base 0) false
  let (_, d) := injTake d (Page.mei.base 0) true
  let d := match d.mei.track.find? is with
    | some _ => setMei d fun m => { m with track := m.track.map fun t => if is t then { t with count := min k (t.count + 1), seen := true } else t }
    | none =>
      let t : Track := ⟨sram, unit, a, 1, true⟩
      if d.mei.track.length < 256 then setMei d fun m => { m with track := m.track ++ [t] }
      else
        let d := match trkVictim d.mei.track with
          | some x => setMei d fun m => { m with track := m.track.erase x ++ [t] }
          | none => d
        meiErr (inc d Adr.MEI_CNT_TRK_DROP) Bit.err_MEI_TRACK_FULL lo hi
  if d.mei.track.any fun t => is t && decide (k ≤ t.count) then rmpInstall d sram unit a false lo hi else d

/-- The pass of a memory ends: entries that it has not seen are dropped. -/
def trkPass (d : Dev) (mine : Track → Bool) : Dev :=
  setMei d fun m => { m with track := (m.track.filter fun t => !mine t || t.seen).map fun t => if mine t then { t with seen := false } else t }

/-- The time and place of the last uncorrectable find (R591). -/
def lastUe (d : Dev) (lo hi : Nat) : Dev :=
  wr (wr (wr (wr d Adr.MEI_LAST_UE_LO (w32 lo)) Adr.MEI_LAST_UE_HI (w32 hi)) Adr.MEI_LAST_UE_S (timS d)) Adr.MEI_LAST_UE_NS (timNs d)

/-- A scrub read of a unit was uncorrectable, and the poison code is in place (R591, R593, R596). -/
def scrubUe (d : Dev) (sram : Bool) (unit a lo hi : Nat) : Dev :=
  let d := meiErr (lastUe (inc d Adr.MEI_CNT_UE) lo hi) Bit.err_MEI_SCRUB_UE lo hi
  if d.mei.track.any fun t => t.sram = sram && t.unit = unit && t.addr = a then rmpInstall d sram unit a true lo hi else d

/-! ### The HBM scrubber (R589 to R592) -/

/-- The owner of a poisoned sector of the bobbin window or the pass queue is told (R247, R301, R591). -/
def tellWindow (d : Dev) (da : Nat) : Dev :=
  let size := max 1 (rgnSize d 3)
  let at_ (w : WinRow) : Nat := (da - rgnBase d 3 + size - w.off % size) % size
  match d.bob.win.find? fun w => decide (at_ w < w.len) with
  | some w => poisonReraster d w.sec w.q (at_ w / 98304)
  | none => d

/-- Rows of the slots that a sector of a frame of the pass queue touches: a slot's codes, or four tags (R273, R274). -/
def pqRows (o : Nat) : List Nat := if o < 262144 then [o / 512] else (List.range 4).map fun i => (o - 262144) / 8 + i

def tellQueue (d : Dev) (da : Nat) : Dev :=
  match d.stc.cur with
  | none => d
  | some st =>
    let n := max 1 (pqDepth d)
    let o := da - rgnBase d 4
    let s := st.gathered + (o / 266240 + n - st.gathered % n) % n
    (pqRows (o % 266240)).foldl (fun d r =>
      let e := effDelay st.tkt r
      if r < 512 ∧ e ≤ s ∧ s - e < st.rows then
        (List.range (4 * st.b)).foldl (fun d p => poisonReraster d st.tkt.seq ((s - e) / 256) p) d
      else d) d

/-- The owner of a sector is told that it is poisoned (R591). `item` names what the layouts of SPOOL, CELL and PATCH, the block's
own, keep there. -/
def tellOwner (d : Dev) (da : Nat) (item : ScrubItem) : Dev :=
  match (List.range 7).find? fun i => decide (rgnBase d i ≤ da ∧ da < rgnBase d i + rgnSize d i), item with
  | some 0, .spool seq => setSpl d fun s => { s with line := s.line.map fun x => match x.2 with
      | .held b => if x.1 = seq then (x.1, .held { b with bad := true }) else x
      | _ => x }
  | some 0, .refetch i => setSpl d fun s => { s with refs := modNth s.refs i fun b => { b with bad := true } }
  | some 1, .cell id => cellPoison d id
  | some 1, .box id => cellBoxPoison d id
  | some 2, .patch k q p => setSec d k fun s => { s with
      patches := s.patches.map fun x => if x.q = q ∧ x.p = p then { x with edgeBad := true } else x }
  | some 3, _ => tellWindow d da
  | some 4, _ => tellQueue d da
  | some 5, _ => meiErr d Bit.err_MEI_MEND_POISON (da % 4294967296) (da / 4294967296)
  | _, _ => d

/-- The scrubber handles the sector it has reached in pseudo-channel `p` (R590 to R592): `found` says what the world outside made
of it. -/
def scrubSector (d : Dev) (p c x : Nat) (found : Option SectorUpset) : Dev :=
  let a := c % 48 * 16777216 + c / 48 * 1024 + x
  let da := match pcLogical d p with
    | some l => some (1024 * (126 * c + l) + 32 * x)
    | none => none
  let n := match da with
    | some k => k / 32
    | none => daSpan
  let mode := ((d.mei.badSectors.find? fun s => s.1 = n).map (·.2)).getD 0
  let ue := mode = 2 || mode = 4 || found.any fun f => f.ue
  let ce := mode = 1 || found.isSome
  let (lo, hi) := match da with
    | some k => (k % 4294967296, k / 4294967296)
    | none => (0, 0)
  let clean (d : Dev) : Dev := setMei d fun m => { m with badSectors := m.badSectors.filter fun s => s.1 != n }
  if ue then
    let d := clean d
    let d := match da with
      | some k => tellOwner (hbmPoison d k) k ((found.map (·.item)).getD .none)
      | none => d
    scrubUe d false p a lo hi
  else if d.poison.contains n || (da.isSome && daWiped d n) then inc d Adr.MEI_CNT_POISON
  else if ce then trkCorrected (inc (clean d) Adr.MEI_CNT_CE) false p a lo hi
  else d

/-- SCRUB_READ (R589): every pseudo-channel in service or spare reads the sector at MEI_SCRUB_POS. -/
def scrubRead (d : Dev) (ups : List SectorUpset) : Dev :=
  if fd d Adr.MEI_SCRUB 15 0 = 0 ∨ pdState d 9 ≠ .on ∨ pdState d 10 ≠ .on ∨ !d.mei.initTest then d
  else
    let c := fd d Adr.MEI_SCRUB_POS 19 0
    let x := fd d Adr.MEI_SCRUB_POS 24 20
    let d := (List.range 128).foldl (fun d p =>
      if pcState d p < 2 then scrubSector d p c x (ups.find? fun u => u.pc = p) else d) d
    if x < 31 then wr d Adr.MEI_SCRUB_POS (w32 ((x + 1) * 1048576 + c))
    else if c < 786431 then wr d Adr.MEI_SCRUB_POS (w32 (c + 1))
    else
      let d := inc (wr (trkPass d fun t => !t.sram) Adr.MEI_SCRUB_POS 0) Adr.MEI_SCRUB_PASS
      evt d (Page.mei.base 0) Bit.evt_MEI_PASS_DONE

/-! ### The SRAM scrubbers (R593) -/

/-- SRAM_SCRUB: word `w` of macro `m` read clean, corrected, uncorrectable or poisoned; `last` ends the macro's pass. -/
def sramScrub (d : Dev) (m w : Nat) (found : WordFound) (home : WordHome) (last : Bool) : Dev :=
  let hi := 2147483648
  let lo := m % 4096 * 65536 + w % 65536
  let d := match found with
    | .clean => d
    | .corrected => trkCorrected (inc d Adr.MEI_CNT_CE) true (m % 4096) (w % 65536) lo hi
    | .uncorrectable =>
      let d := match home with
        | .kennel k => { d with knl := { d.knl with sramBad := if k < 131072 then setIns d.knl.sramBad k else d.knl.sramBad } }
        | .severity s => if s < 32 then sevUe d s else d
        | .other => d
      scrubUe d true (m % 4096) (w % 65536) lo hi
    | .poisoned => inc d Adr.MEI_CNT_POISON
  if last then trkPass d fun t => t.sram && t.unit = m % 4096 else d

/-! ### On-die counts and injection (R582, R605) -/

/-- ODE_POLL (R582): the four stacks' counts. -/
def odePoll (d : Dev) (counts : List Nat) : Dev :=
  let top := (counts.take 4).foldl max 0
  let d := setFd d Adr.MEI_ODE 31 16 (min top 65535)
  if fd d Adr.MEI_ODE 15 0 < top then meiErr d Bit.err_MEI_ODE_HIGH 0 0 else d

/-- A write of MEI_INJ_CTRL (R605): GO inverts check bits of the stored sector at MEI_INJ_ADDR. -/
def meiInj (d : Dev) (v : W32) : Dev :=
  let d := storeReg d Adr.MEI_INJ_CTRL v
  let m := bits v 2 0
  let da := (rg d Adr.MEI_INJ_ADDR_LO).toNat + 4294967296 * (rg d Adr.MEI_INJ_ADDR_HI).toNat
  if !bit v 31 ∨ daSpan ≤ da ∨ m = 0 ∨ 3 < m then d
  else
    let d := wakeMem d
    let d := if m = 1 then d else hbmPoison d da
    if m = 3 then d
    else setMei d fun x => { x with badSectors := x.badSectors.filter (fun s => s.1 != da / 32) ++ [(da / 32, m)] }

/-! ### Commands -/

/-- SCRUB_READ (R589). -/
def execScrubRead (ups : List SectorUpset) (s : State) : Answer := runS s fun d => scrubRead d ups

/-- SRAM_SCRUB (R593). -/
def execSramScrub (m w : Nat) (found : WordFound) (home : WordHome) (last : Bool) (s : State) : Answer := runS s fun d =>
  sramScrub d m w found home last

/-- ODE_POLL (R582). -/
def execOdePoll (counts : List Nat) (s : State) : Answer := runS s fun d => odePoll d counts

/-- MEI_INJ_GO (R605). -/
def execMeiInjGo (req : Req) (v : W32) (s : State) : Answer := run s fun d =>
  write d req Adr.MEI_INJ_CTRL fun d => meiInj d (putBit v 31 true)

/-- REMAP_ENTRY_RETIRE (R618): KNL only. -/
def execRemapEntryRetire (req : Req) (v : W32) (s : State) : Answer := run s fun d =>
  write d req Adr.MEI_RMP_ENT0 fun d => if req = .knl then rmpRetire d (putBit v 31 false) else d

end Sys2Proof.Machine
end

