-- ==== Sys2Proof/Machine/Fcl.lean ====
section
/-! DEFINITION. Fault collection (R606 to R619) and the job slots (R556 to R565). -/

namespace Sys2Proof.Machine

/-- Change FCL. -/
def setFcl (d : Dev) (f : Fcl → Fcl) : Dev := { d with fcl := f d.fcl }

/-- A write of FCL_STATUS_LO (R610): the bits whose lines are inactive clear, with their levels. -/
def fclStatus (d : Dev) (v : W32) : Dev :=
  let off := (List.range 32).filter fun s => bit v s && bit d.fcl.status s && !srcLine d s
  setFcl d fun f => { f with
    status := off.foldl (fun w s => putBit w s false) f.status
    lvl := off.foldl (fun l s => modNth l s fun _ => 0) f.lvl }

/-- The severity word that a write of `v` stores for source `s` (R608): never below a floor, 0 at bits that no chapter defines. -/
def sevStored (s : Nat) (v : W32) : W32 :=
  (sourcePage s).errs.foldl (fun w e => setBits w (2 * e.1 + 1) (2 * e.1) (max (bits v (2 * e.1 + 1) (2 * e.1)) (if e.2.2 then e.2.1 else 0))) 0

/-- A write of FCL_SEV of source `s` (R608, R619): it rewrites the word, which an injection on the write spoils again (R603). -/
def fclSev (d : Dev) (s : Nat) (v : W32) : Dev :=
  let d := wr d (Adr.FCL_SEV s) (sevStored s v)
  let d := if d.fcl.sevUe.testBit s then setFcl d fun f => { f with sevUe := f.sevUe - 2 ^ s } else d
  let (m, d) := injTake d (Page.fcl.base 0) true
  if 2 ≤ m then sevUe d s else d

/-- Word `i` of the oldest log entry, 0 when the FIFO is empty (R619). -/
def fclLogWord (d : Dev) (i : Nat) : W32 :=
  match d.fcl.log with
  | [] => 0
  | e :: _ => if i = 0 then e.1 else if i = 1 then e.2.1 else e.2.2

/-- A read of FCL_LOG_W2 removes the oldest entry (R613). -/
def fclPop (d : Dev) : Dev := setFcl d fun f => { f with log := f.log.drop 1 }

/-- Whether FCL or MEI holds the errors that keep BARK low (R616). -/
def barkHeld (d : Dev) : Bool :=
  bit (rg d (Page.mei.base 0 + oERRLATCH)) Bit.err_MEI_CHECKER_FAIL || bit (rg d (Page.fcl.base 0 + oERRLATCH)) Bit.err_FCL_LINE_FAIL

/-- Whether a source's level reads 3. -/
def sev3Held (d : Dev) : Bool := d.fcl.lvl.any fun l => decide (3 ≤ l)

/-- A write of FCL_CMD (R615, R616): RESTART ends a halt, and each block goes on from its held state at its next command; BARK
waits for its half-period boundary. -/
def fclCmd (d : Dev) (v : W32) : Dev :=
  if bit v 0 && d.fcl.halted && !sev3Held d && !d.muz.stuck then
    muzUpdate { d with fcl := { d.fcl with halted := false, barkArm := true }, muz := { d.muz with sev3 := false } }
  else d

/-- A half-period boundary of the BARK grid (R616). -/
def barkTick (d : Dev) : Dev :=
  if !d.fcl.barkGrid then d
  else if barkHeld d ∨ (!d.fcl.barkRun ∧ !d.fcl.barkArm) then
    setFcl d fun f => { f with bark := false, barkRun := false }
  else setFcl d fun f => { f with bark := !f.bark, barkRun := true, barkArm := false }

/-! ### Job slots (R558 to R561, R749) -/

/-- A write of GLB_JOB_SWAP (R559). -/
def jobSwap (d : Dev) (v : W32) : Dev :=
  if d.glb.pend then (if bit v 1 then { d with glb := { d.glb with pend := false } } else d)
  else if bit v 0 then { d with glb := { d.glb with pend := true } } else d

/-! ### Commands -/

/-- FCL_STATUS (R610). -/
def execFclStatus (req : Req) (v : W32) (s : State) : Answer := run s fun d => write d req Adr.FCL_STATUS_LO fun d => fclStatus d v

/-- FCL_SEV (R608): the severity word of source `src`. -/
def execFclSev (req : Req) (src : Nat) (v : W32) (s : State) : Answer := runS s fun d =>
  if src < 32 then write d req (Adr.FCL_SEV src) fun d => fclSev d src v else d

/-- FCL_LOG_W2 (R613): a read. -/
def execFclLogW2 (req : Req) (s : State) : Answer := run s fun d =>
  if acc d req Adr.FCL_LOG_W2 then fclPop (emit d (.readData req Adr.FCL_LOG_W2 [fclLogWord d 2]))
  else emit d (.readData req Adr.FCL_LOG_W2 [0])

/-- RESTART (R615). -/
def execRestart (req : Req) (v : W32) (s : State) : Answer := runS s fun d =>
  write d req Adr.FCL_CMD fun d => fclCmd d (putBit v 0 true)

/-- BARK (R616). -/
def execBark (s : State) : Answer := run s barkTick

/-- JOB_SWAP_GO (R559). -/
def execJobSwapGo (req : Req) (v : W32) (s : State) : Answer := run s fun d =>
  write d req Adr.GLB_JOB_SWAP fun d => jobSwap d (putBit v 0 true)

/-- JOB_SWAP_CANCEL (R559). -/
def execJobSwapCancel (req : Req) (v : W32) (s : State) : Answer := run s fun d =>
  write d req Adr.GLB_JOB_SWAP fun d => jobSwap d (putBit v 1 true)

/-- The work of a swap is done (R561): the PMU takes the raster plan of the new ACTIVE slot's BCODE (R681). -/
def swapWorkDone (d : Dev) : Dev :=
  if !d.exp.swapWork then d
  else
    let i := 2 * fd d (slotReg d.glb.activeB Adr.GLB_SLOT_A Adr.GLB_SLOT_B) 1 0
    let d := { d with pmu := { d.pmu with plan := fd d Adr.PMU_RASPLAN (i + 1) i } }
    setExp d fun e => { e with swapWork := false }

/-- SWAP_WORK_DONE (R561). -/
def execSwapWorkDone (s : State) : Answer := run s swapWorkDone

end Sys2Proof.Machine
end

