-- ==== Sys2Proof/Machine/Nvm.lean ====
section
/-! DEFINITION. The non-volatile store (R634 to R641, R670). -/

namespace Sys2Proof.Machine

/-- Change NVM. -/
def setNvm (d : Dev) (f : Nvm → Nvm) : Dev := { d with nvm := f d.nvm }

/-- An error of NVM (R670): the MRAM offset and the KIND. -/
def nvmErr (d : Dev) (b off kind : Nat) : Dev := err d (Page.nvm.base 0) b (w32 off) (w32 kind)

/-! ### Areas kept as two copies (R634, R635): 0 NVREG, 1 BOOT, 2 + k key slot k -/

/-- MRAM offset of copy `c` of an area, and the bytes of one copy. -/
def nvSize (area : Nat) : Nat := if area = 0 then 65536 else if area = 1 then 256 else 64
def nvOff (area c : Nat) : Nat :=
  if area = 0 then 0x1000 + 65536 * c else if area = 1 then 0x21000 + 256 * c else 0x21200 + 128 * (area - 2) + 64 * c

/-- The two copies of an area; none where a copy is not valid. -/
def nvCopies (d : Dev) (area : Nat) : Option NvCopy × Option NvCopy := (alGet d.nvm.copies area).getD (none, none)

/-- The copy in force: which, and what it holds. -/
def nvNewest (d : Dev) (area : Nat) : Option (Nat × NvCopy) :=
  match nvCopies d area with
  | (some a, some b) => if lseqLe a.seq b.seq then some (1, b) else some (0, a)
  | (some a, none) => some (0, a)
  | (none, some b) => some (1, b)
  | (none, none) => none

/-- The copy that a store writes: the one that does not hold the newest valid content. -/
def nvTarget (d : Dev) (area : Nat) : Nat :=
  match nvNewest d area with
  | some (0, _) => 1
  | _ => 0

/-- Put copy `c` of an area. -/
def nvPut (d : Dev) (area c : Nat) (x : Option NvCopy) : Dev :=
  let (a, b) := nvCopies d area
  setNvm d fun n => { n with copies := alSet n.copies area (if c = 0 then (x, b) else (a, x)) }

/-- Store an area: the other copy, with the sequence number one higher. -/
def nvStoreArea (d : Dev) (area : Nat) (data : List Byte) (regs : List (Nat × W32)) (rmps : List Remap) : Dev :=
  let seq := match nvNewest d area with
    | some (_, x) => (x.seq + 1) % 4294967296
    | none => 1
  nvPut d area (nvTarget d area) (some ⟨seq, data, regs, rmps⟩)

/-- The bytes of a copy (R635): its content, the sequence number, the CRC-32C of everything before. -/
def nvBytes (area : Nat) (x : NvCopy) : List Byte :=
  let body := (x.data ++ List.replicate (nvSize area - 8 - x.data.length) 0).take (nvSize area - 8) ++ leBytes 4 x.seq
  body ++ leBytes 4 (crc32c body)

/-! ### The boot record (R626, R627, R629, R630) -/

/-- The boot record in force: its three words; one that was never stored has PREF A, TRY_STATE NONE, SVN_MIN 0, nothing revoked. -/
def bootRec (d : Dev) : W32 × W32 × W32 :=
  match nvNewest d 1 with
  | some (_, x) => (w32 (leNat (x.data.take 4)), w32 (leNat ((x.data.drop 4).take 4)), w32 (leNat ((x.data.drop 8).take 4)))
  | none => (w32 0x4B420000, 0, 0)

/-- SVN_MIN in force. -/
def svnMin (d : Dev) : Nat := (bootRec d).2.1.toNat

/-- What a STORE BOOT may store of three words (R630), and whether it held a field back. -/
def bootKeep (d : Dev) (r : W32 × W32 × W32) : (W32 × W32 × W32) × Bool :=
  let old := bootRec d
  let low := decide (r.2.1.toNat < old.2.1.toNat)
  let clears := bits old.2.2 3 0 &&& bits r.2.2 3 0 != bits old.2.2 3 0
  ((r.1, if low then old.2.1 else r.2.1, if clears then setBits r.2.2 3 0 (bits old.2.2 3 0) else r.2.2), low || clears)

/-- The bytes of a boot record. -/
def bootBytes (r : W32 × W32 × W32) : List Byte := bytesOfWords [r.1, r.2.1, r.2.2]

/-! ### Stores (R635 to R639) -/

/-- The NV fields as the registers hold them, where they differ from reset (R638). -/
def nvSnap (d : Dev) : List (Nat × W32) := d.regs.filterMap fun e =>
  if inWindow e.1 then none
  else match pageOf e.1 with
    | none => none
    | some (p, _) => match p.row (e.1 % 0x1000) with
      | some r => if e.1 % 0x1000 < 0x100 ∨ r.nv = 0 then none else some (e.1, e.2 &&& w32 r.nv)
      | none => none

/-- TIM_EPOCH and TIM_EPOCH_HI take the current seconds (R638). -/
def loadEpoch (d : Dev) : Dev := wr (wr d Adr.TIM_EPOCH (timS d)) Adr.TIM_EPOCH_HI (w32 (d.tim.sec / 4294967296 % 65536))

/-- NVM_BUF as bytes. -/
def nvBuf (d : Dev) (words : Nat) : List Byte := bytesOfWords ((List.range words).map fun i => (alGet d.nvm.buf i).getD 0)

/-- A store of KIND, INDEX begins (R637, R638). A reserved KIND or a place outside its area starts nothing. -/
def nvStart (d : Dev) (kind index : Nat) : Dev :=
  let off := (rg d Adr.NVM_OFF).toNat / 512 * 512
  let go (d : Dev) (j : NvJob) : Dev := setNvm d fun n => { n with job := some j }
  match kind with
  | 1 => let d := loadEpoch d; go d ⟨1, 0, 0, [], nvSnap d, d.mei.remaps⟩
  | 2 =>
    let b := nvBuf d 3
    let (r, held) := bootKeep d (w32 (leNat (b.take 4)), w32 (leNat ((b.drop 4).take 4)), w32 (leNat ((b.drop 8).take 4)))
    go (if held then inc d Adr.NVM_CNT_REJECT else d) ⟨2, 0, 0, bootBytes r, [], []⟩
  | 3 => go d ⟨3, index, 0, nvBuf d 8, [], []⟩
  | 4 => if index < 8 then go d ⟨4, index, 0, nvBuf d 128, [], []⟩ else d
  | 5 => if off + 512 ≤ 114688 then go d ⟨5, index, off, nvBuf d 128, [], []⟩ else d
  | 6 => if off + 512 ≤ 266240 then go d ⟨6, index, off, nvBuf d 128, [], []⟩ else d
  | _ => d

/-- Area, of those kept as two copies, that a store writes. -/
def jobArea (j : NvJob) : Option Nat := if j.kind = 1 then some 0 else if j.kind = 2 then some 1 else if j.kind = 3 then some (2 + j.index) else none

/-- MRAM offset of a store's target. -/
def jobOff (d : Dev) (j : NvJob) : Nat :=
  match jobArea j with
  | some a => nvOff a (nvTarget d a)
  | none => if j.kind = 4 then 0x22000 + 512 * j.index else if j.kind = 5 then 0x23000 + j.off else 0x3F000 + j.off

/-- What a store writes stands in the MRAM. -/
def nvWrite (d : Dev) (j : NvJob) : Dev :=
  match jobArea j with
  | some a =>
    let d := nvStoreArea d a j.data j.regs j.rmps
    if j.kind = 3 then setNvm d fun n => { n with keys := alSet n.keys j.index j.data } else d
  | none => setNvm d fun n => { n with mram := n.mram.write (jobOff d j) j.data }

/-- A store finishes (R635, R670); `ok` says whether it read back as written. -/
def nvFinish (d : Dev) (j : NvJob) (ok : Bool) : Dev :=
  let off := jobOff d j
  let d := if ok then nvWrite d j
    else match jobArea j with
      | some a => nvPut d a (nvTarget d a) none
      | none =>
        let (l, d) := freeBytes d 512
        setNvm d fun n => { n with mram := n.mram.write off l }
  let d := setNvm d fun n => { n with job := none }
  let d := inc (wr d Adr.NVM_STAT (w32 (b2n ok * 536870912 + j.kind))) Adr.NVM_CNT_STORE
  let d := if ok then d else nvmErr d Bit.err_NVM_VERIFY_FAIL off j.kind
  emit (evt d (Page.nvm.base 0) Bit.evt_NVM_DONE) (.plic 5)

/-- A store that ROM or hardware makes on its own: it starts and finishes. -/
def nvNow (d : Dev) (j : NvJob) : Dev :=
  let old := d.nvm.job
  let d := nvFinish d j true
  setNvm d fun n => { n with job := old }

/-- STORE BOOT of three words by ROM or hardware (R627, R629, R630). -/
def bootStore (d : Dev) (r : W32 × W32 × W32) : Dev :=
  let (r, held) := bootKeep d r
  nvNow (if held then inc d Adr.NVM_CNT_REJECT else d) ⟨2, 0, 0, bootBytes r, [], []⟩

/-- A write of NVM_CMD (R637). -/
def nvmCmd (d : Dev) (v : W32) : Dev :=
  if bits v 31 16 ≠ 0x5354 ∨ d.nvm.job.isSome then inc d Adr.NVM_CNT_REJECT else nvStart d (bits v 11 8) (bits v 3 0)

/-- A reset cuts a store off (R635, R636, R639): its copy is not valid; a block written in place mixes old bytes and new. -/
def nvCut (d : Dev) : Dev :=
  match d.nvm.job with
  | none => d
  | some j =>
    let d := match jobArea j with
      | some a => nvPut d a (nvTarget d a) none
      | none =>
        let off := jobOff d j
        let (pick, d) := freeBytes d 512
        let old := d.nvm.mram.readN off 512
        let mix := ((List.range 512).map fun i => if (nth pick i 0).toNat % 2 = 1 then nth j.data i 0 else nth old i 0)
        setNvm d fun n => { n with mram := n.mram.write off mix }
    setNvm d fun n => { n with job := none }

/-! ### Restore at boot (R640, R743) -/

/-- One NV word is restored: its NV fields, with R347 for BOB_PCSTATE. -/
def nvRestoreWord (d : Dev) (e : Nat × W32) : Dev :=
  match pageOf e.1 with
  | none => d
  | some (p, _) => match p.row (e.1 % 0x1000) with
    | none => d
    | some r =>
      let v := if Adr.BOB_PCSTATE 0 ≤ e.1 ∧ e.1 < Adr.BOB_PCSTATE 128 then
          (if bits e.2 2 0 = 2 then setBits e.2 2 0 0 else if bits e.2 2 0 = 3 then setBits e.2 2 0 1 else e.2)
        else e.2
      wr d e.1 ((rg d e.1 &&& ~~~w32 r.nv) ||| (v &&& w32 r.nv))

/-- Areas of which exactly one copy is valid, with the other's offset. -/
def nvHalf (d : Dev) : List Nat := (List.range 18).filterMap fun a =>
  match nvCopies d a with
  | (some _, none) => some (nvOff a 1)
  | (none, some _) => some (nvOff a 0)
  | _ => none

/-- NVM control restores every NV field, and takes the boot record and the keys from their valid copies. -/
def nvRestore (d : Dev) : Dev :=
  let d := match nvNewest d 0 with
    | some (_, x) => setMei (x.regs.foldl nvRestoreWord d) fun m => { m with remaps := x.rmps.map fun r => { r with old := none } }
    | none => nvmErr d Bit.err_NVM_NVREG_LOST (nvOff 0 0) 1
  let keys := (List.range 16).filterMap fun k => (nvNewest d (2 + k)).map fun x => (k, x.2.data)
  let d := setNvm d fun n => { n with keys := keys }
  (nvHalf d).foldl (fun d off =>
    nvmErr d Bit.err_NVM_COPY_BAD off (if off < 0x21000 then 1 else if off < 0x21200 then 2 else 3)) d

/-! ### Reading the MRAM (R634, R641, R670) -/

/-- The word that NVM_RD_DATA shows: NVREG's layout is not given, and a copy that is not valid holds open values. -/
def nvRead (d : Dev) : W32 × Dev :=
  let a := (rg d Adr.NVM_RD_ADDR).toNat % 524288
  if a < 0x1000 then (w32 (leNat ((List.range 4).map fun i => Config.factory (a + i))), d)
  else if a < 0x21000 then
    let (v, d) := takeFree d
    (w32 v.toNat, d)
  else if a < 0x21200 then
    let c := nvCopies d 1
    match (if (a - 0x21000) / 256 = 0 then c.1 else c.2) with
    | some x => (w32 (leNat (((nvBytes 1 x).drop ((a - 0x21000) % 256)).take 4)), d)
    | none =>
      let (v, d) := takeFree d
      (w32 v.toNat, d)
  else if a < 0x21A00 then (0, d)
  else (d.nvm.mram.readW a, d)

/-! ### Commands -/

/-- A keyed write of NVM_CMD. -/
def nvmKeyed (kind index : Nat) : W32 := w32 (0x53540000 + kind * 256 + index % 16)

/-- STORE_REGS (R638). -/
def execStoreRegs (req : Req) (s : State) : Answer := run s fun d => write d req Adr.NVM_CMD fun d => nvmCmd d (nvmKeyed 1 0)

/-- STORE_BOOT (R630). -/
def execStoreBoot (req : Req) (s : State) : Answer := run s fun d => write d req Adr.NVM_CMD fun d => nvmCmd d (nvmKeyed 2 0)

/-- STORE_KEY (R637). -/
def execStoreKey (req : Req) (index : Nat) (s : State) : Answer := run s fun d =>
  write d req Adr.NVM_CMD fun d => nvmCmd d (nvmKeyed 3 index)

/-- STORE_CRASH (R637). -/
def execStoreCrash (req : Req) (index : Nat) (s : State) : Answer := run s fun d =>
  write d req Adr.NVM_CMD fun d => nvmCmd d (nvmKeyed 4 index)

/-- STORE_LOG (R637). -/
def execStoreLog (req : Req) (s : State) : Answer := run s fun d => write d req Adr.NVM_CMD fun d => nvmCmd d (nvmKeyed 5 0)

/-- STORE_USER (R637). -/
def execStoreUser (req : Req) (s : State) : Answer := run s fun d => write d req Adr.NVM_CMD fun d => nvmCmd d (nvmKeyed 6 0)

/-- NVM_DONE (R635, R639): the store that runs finishes, verified or not; while a supply warning freezes it, it does not. -/
def execNvmDone (ok : Bool) (s : State) : Answer := run s fun d =>
  match d.nvm.job with
  | some j => if d.pmu.warn then d else nvFinish d j ok
  | none => d

end Sys2Proof.Machine
end

