-- ==== Sys2Proof/Machine/Tim.lean ====
section
/-! DEFINITION. The time base (R648 to R654, R661 to R664, R669). -/

namespace Sys2Proof.Machine

/-- Change TIM. -/
def setTim (d : Dev) (f : Tim → Tim) : Dev := { d with tim := f d.tim }

/-- An error of TIM (R669): the seconds and nanoseconds. -/
def timErr (d : Dev) (b : Nat) : Dev := err d (Page.tim.base 0) b (timS d) (timNs d)

/-- Whether ACLK drives TIM (R649, R682): NCLK is stopped while PLL_N is not locked. -/
def timSleeps (d : Dev) : Bool := !d.pmu.lock.testBit 10

/-- What one period adds to {ns, fraction} (R648, R649): 4·(2^32 + RATE) of NCLK, 160·(2^32 + RATE) of ACLK. -/
def timStep (d : Dev) (ns : Nat) : Nat := ns * (4294967296 + toS 32 (rg d Adr.TIM_RATE).toNat).toNat

/-- One second begins (R652 to R654): the pulse of PPS_OUT, and HOLD_S. -/
def secondBegins (d : Dev) : Dev :=
  let d := if bit (rg d Adr.TIM_PPS) 31 then setTim d fun t => { t with pps := true } else d
  if bit (rg d Adr.TIM_STAT) 30 then setFd d Adr.TIM_STAT 15 0 (min 65535 (fd d Adr.TIM_STAT 15 0 + 1)) else d

/-- Kennel-away and the watchdog run on by `ns` nanoseconds (R624, R631). -/
def kennelTime (d : Dev) (ns : Nat) : Dev :=
  { d with knl := { d.knl with
    awayNs := if d.knl.away then d.knl.awayNs + ns else d.knl.awayNs
    wdogNs := d.knl.wdogNs + ns } }

/-- TIM advances by `n` periods of `ns` nanoseconds, over at most one carry (R648, R649). -/
def timAdvance (d : Dev) (ns n : Nat) : Dev :=
  let x := d.tim.ns * 4294967296 + d.tim.frac + n * timStep d ns
  let one := 1000000000 * 4294967296
  let d := kennelTime d (n * ns)
  if x < one then setTim d fun t => { t with ns := x / 4294967296, frac := x % 4294967296 }
  else
    secondBegins (setTim d fun t => { t with
      sec := (t.sec + 1) % 281474976710656, ns := (x - one) / 4294967296, frac := (x - one) % 4294967296 })

/-- The period of the clock that drives TIM, in ns. -/
def timPeriod (d : Dev) : Nat := if timSleeps d then 160 else 4

/-- TIM reaches its next carry (R654): the fewest periods that bring it there. -/
def secondCarry (d : Dev) : Dev :=
  let p := timPeriod d
  let left := 1000000000 * 4294967296 - (d.tim.ns * 4294967296 + d.tim.frac)
  let st := max 1 (timStep d p)
  timAdvance d p ((left + st - 1) / st)

/-- What passes in time while no command waits (DESIGN CHOICE, log entry 1): one ACLK period of 160 ns (R682), which moves TIM on (R649) and the times
of kennel-away and of the watchdog, and in which the check-value units feed their FIFOs; nothing while the block is held in reset. -/
def idleTime (d : Dev) : Dev := if d.pmu.seq = .off then d else chkTicks (timAdvance d 160 1)

/-- A step (R651): TIM_STEP_S seconds and TIM_STEP_NS nanoseconds are added in one clock. -/
def timJump (d : Dev) : Dev :=
  let ns := (d.tim.sec : Int) * 1000000000 + d.tim.ns +
    toS 32 (rg d Adr.TIM_STEP_S).toNat * 1000000000 + toS 32 (rg d Adr.TIM_STEP_NS).toNat
  setTim d fun t => { t with sec := ofS 48 (ns / 1000000000), ns := (ns % 1000000000).toNat }

/-- Hardware sets TIME_UNTRUSTED (R652). -/
def untrust (d : Dev) : Dev :=
  let d := setFd d Adr.TIM_STAT 31 31 1
  timErr d Bit.err_TIM_UNTRUSTED

/-- A write of TIM_CMD (R651 to R653): STEP, then TRUST, then HOLD. -/
def timCmd (d : Dev) (v : W32) : Dev :=
  let d := if bit v 0 then timJump d else d
  let d := if bit v 1 then wr d Adr.TIM_STAT (rg d Adr.TIM_STAT &&& w32 0x3FFF0000) else d
  if bit v 2 then setFd d Adr.TIM_STAT 30 30 1 else d

/-- A read of TIM_NS latches the seconds (R650): the nanoseconds. -/
def timNsRead (d : Dev) : W32 × Dev :=
  (timNs d, wr (wr d Adr.TIM_S_LO (timS d)) Adr.TIM_S_HI (w32 (d.tim.sec / 4294967296 % 65536)))

/-- Words of the oldest stamp (R669): TIM_TSQ_ID, _S, _NS, zero when the queue is empty. -/
def tsqWord (d : Dev) (i : Nat) : W32 :=
  match d.tim.tsq with
  | [] => 0
  | (id, sec, ns) :: _ =>
    if i = 0 then w32 (sec / 4294967296 % 65536 * 65536 + id % 65536) else if i = 1 then w32 sec else w32 ns

/-- A read of TIM_TSQ_NS removes the oldest stamp (R663). -/
def tsqPop (d : Dev) : Dev := setTim d fun t => { t with tsq := t.tsq.drop 1 }

/-- A write of TIM_OS_CORR_HI (R661). -/
def osCorrHi (d : Dev) (v : W32) : Dev := setFd (wr d Adr.TIM_OS_CORR_HI v) Adr.TIM_OS_STAT 30 30 1

/-! ### Commands -/

/-- SECOND_CARRY (R654). -/
def execSecondCarry (s : State) : Answer := run s fun d => if d.pmu.seq = .off then d else secondCarry d

/-- PPS_OUT_END (R654). -/
def execPpsOutEnd (s : State) : Answer := run s fun d =>
  if d.tim.pps then setTim d fun t => { t with pps := false } else d

/-- PPS_IN (R654): an edge, rising or falling. -/
def execPpsIn (rising : Bool) (s : State) : Answer := run s fun d =>
  if rising = bit (rg d Adr.TIM_PPS) 30 then d
  else evt (wr (wr d Adr.TIM_PPSIN_NS (timNs d)) Adr.TIM_PPSIN_S (timS d)) (Page.tim.base 0) Bit.evt_TIM_PPS_IN

/-- TIM_NS (R650): a read. -/
def execTimNs (req : Req) (s : State) : Answer := run s fun d =>
  if acc d req Adr.TIM_NS then
    let (v, d) := timNsRead d
    emit d (.readData req Adr.TIM_NS [v])
  else emit d (.readData req Adr.TIM_NS [0])

/-- STEP (R651). -/
def execStep (req : Req) (v : W32) (s : State) : Answer := run s fun d =>
  write d req Adr.TIM_CMD fun d => timCmd d (putBit v 0 true)

/-- TRUST (R652). -/
def execTrust (req : Req) (v : W32) (s : State) : Answer := run s fun d =>
  write d req Adr.TIM_CMD fun d => timCmd d (putBit v 1 true)

/-- HOLD (R653). -/
def execHold (req : Req) (v : W32) (s : State) : Answer := run s fun d =>
  write d req Adr.TIM_CMD fun d => timCmd d (putBit v 2 true)

/-- HOLD_MAX (R652): HOLD_S has reached HOLD_MAX. -/
def execHoldMax (s : State) : Answer := runS s fun d =>
  if bit (rg d Adr.TIM_STAT) 30 ∧ fd d Adr.TIM_HOLD 15 0 ≤ fd d Adr.TIM_STAT 15 0 ∧ !bit (rg d Adr.TIM_STAT) 31 then untrust d else d

/-- TIM_OS_CORR_HI (R661). -/
def execTimOsCorrHi (req : Req) (v : W32) (s : State) : Answer := run s fun d =>
  write d req Adr.TIM_OS_CORR_HI fun d => osCorrHi d v

/-- TIM_TSQ_NS (R663): a read. -/
def execTimTsqNs (req : Req) (s : State) : Answer := run s fun d =>
  if acc d req Adr.TIM_TSQ_NS then tsqPop (emit d (.readData req Adr.TIM_TSQ_NS [tsqWord d 2]))
  else emit d (.readData req Adr.TIM_TSQ_NS [0])

end Sys2Proof.Machine
end

