-- ==== Sys2Proof/Machine/Knl.lean ====
section
/-! DEFINITION. The management core: boot, kennel-away, watchdog, mailbox, sensors (R620 to R633, R642 to R647, R668). Of the
standard firmware this file holds what the chapter says it does on a mailbox command, and Firmware.lean what it does of its own. -/

namespace Sys2Proof.Machine

/-- Change KNL. -/
def setKnl (d : Dev) (f : Knl → Knl) : Dev := { d with knl := f d.knl }

/-- An error of KNL (R668): KNL_CNT_BOOT, and mcause or a sensor index. -/
def knlErr (d : Dev) (b : Nat) (i1 : W32) : Dev := err d (Page.knl.base 0) b (rg d Adr.KNL_CNT_BOOT) i1

/-! ### KNL SRAM (R620 to R622, R586) -/

/-- Bytes of KNL SRAM. -/
def sramSpan : Nat := 524288

/-- Store bytes in KNL SRAM; a word that the write covers whole loses its poison, and an injected write spoils the first word
(R603, R604). -/
def sramWrite (d : Dev) (a : Nat) (l : List Byte) : Dev :=
  let l := l.take (sramSpan - a)
  let d := setKnl d fun k => { k with
    sram := k.sram.write a l
    sramBad := k.sramBad.filter fun w => !decide (a ≤ 4 * w ∧ 4 * w + 4 ≤ a + l.length) }
  if l = [] then d
  else
    let (m, d) := injTake d (Page.knl.base 0) true
    if 2 ≤ m then setKnl d fun k => { k with sramBad := setIns k.sramBad (a / 4) } else d

/-- Bytes of KNL SRAM; ROM's scratch at 0x7_E000 holds open values (R621). -/
def sramRead (d : Dev) (a n : Nat) : List Byte × Dev :=
  let l := d.knl.sram.readN a n
  if a + n ≤ 0x7E000 ∨ sramSpan ≤ a then (l, d)
  else
    let (f, d) := freeBytes d n
    (((List.range n).zip (l.zip f)).map fun x => if 0x7E000 ≤ a + x.1 ∧ a + x.1 < sramSpan then x.2.2 else x.2.1, d)

/-! ### Images (R625, R626) -/

/-- The word at offset `o` of a header. -/
def hdrW (h : List Byte) (o : Nat) : Nat := leNat ((h.drop o).take 4)

/-- The bytes of a header from offset `o`. -/
def hdrB (h : List Byte) (o n : Nat) : List Byte := (h.drop o).take n

/-- Whether the first rule of R626 holds: MAGIC, HDR_VERSION and the field ranges of R625. -/
def hdrOk (h : List Byte) : Bool :=
  decide (h.length = 512 ∧ hdrW h 0 = 0x4B514657 ∧ hdrW h 4 = 1) &&
  decide (16 ≤ hdrW h 0x10 ∧ hdrW h 0x10 ≤ 393216 ∧ hdrW h 0x10 % 16 = 0 ∧ hdrW h 0x14 < hdrW h 0x10 ∧ hdrW h 0x18 ≤ 3) &&
  (hdrB h 0x1C 4 ++ hdrB h 0xB1 207 ++ hdrB h 0x1E0 32).all fun b => b = 0

/-- The check of an image in the order of R626, but for BAD: 0 valid, 4 its SVN is too low, 3 any other failure. -/
def imageCheck (d : Dev) (h body : List Byte) : Nat :=
  if !hdrOk h then 3
  else if sha384 (hdrB h 0x50 97) ≠ Config.rootHash (hdrW h 0x18) ∨ bit (bootRec d).2.2 (hdrW h 0x18) then 3
  else if hdrW h 0xC < svnMin d then 4
  else if sha384 body ≠ hdrB h 0x20 48 then 3
  else if ecdsaVerify (hdrB h 0x50 97) (sha384 (h.take 0x180)) (hdrB h 0x180 96) then 0
  else 3

/-- Header and body of the image in flash slot `s` (0 A, 1 B). -/
def flashImage (d : Dev) (s : Nat) : List Byte × List Byte :=
  let h := d.knl.flash.readN (0x100000 * s) 512
  (h, d.knl.flash.readN (0x100000 * s + 512) (min 393216 (hdrW h 0x10)))

/-- Whether image `s` is valid (R626). -/
def imageValid (d : Dev) (s : Nat) : Bool :=
  let (h, b) := flashImage d s
  imageCheck d h b = 0 && !bit (bootRec d).1 (6 + s)

/-- Pages of the resources that the firmware repairs (R573): tiles, transmit lanes, codec engines, DMA channels, and BOB's page for
its pseudo-channels. -/
def repairPages : List (Page × Nat) :=
  (List.range 34).map (.ras, ·) ++ (List.range 48).map (.lane, ·) ++ engines.map (.cdcE, ·) ++ (List.range 16).map (.dmaCh, ·) ++ [(.bob, 0)]

/-- The sequences that the firmware runs from their first step once it boots (R576): those of the pages whose _OWNER reads 0x0000_0002.
Where no value was saved, the page's reset value stands for it. -/
def repairsAgain (d : Dev) : List Repair :=
  (repairPages.filter fun x => rg d (x.1.base x.2 + oOWNER) = 2).map fun x =>
    match d.knl.repairs.find? fun r => r.base = x.1.base x.2 with
    | some r => { r with step := 0 }
    | none => ⟨x.1.base x.2, w32 (ownerReset x.1 x.2), 0⟩

/-- The core runs an image: its body stands at SRAM offset 0. -/
def runImage (d : Dev) (s : Nat) (h body : List Byte) : Dev :=
  let d := sramWrite d 0 body
  let d := wr (wr d Adr.KNL_FWVER (w32 (hdrW h 8))) Adr.KNL_FWSVN (w32 (hdrW h 0xC))
  setKnl d fun k => { k with phase := 2, slot := s, repairs := repairsAgain d }

/-- Run the image of a flash slot. -/
def runSlot (d : Dev) (s : Nat) : Dev :=
  let (h, b) := flashImage d s
  runImage d s h b

/-! ### Boot (R627, R628) -/

/-- RECOVERY: the host may reach the KNL page and DMA channel 12. -/
def recovery (d : Dev) : Dev :=
  let a := Page.knl.base 0 + oOWNER
  let b := Page.dmaCh.base 12 + oOWNER
  let d := wr d a (putBit (rg d a) 0 true)
  let d := wr d b (putBit (rg d b) 0 true)
  knlErr (setKnl d fun k => { k with phase := 3 }) Bit.err_KNL_NO_IMAGE 0

/-- The boot record's part of R627: whether the TRY image is to be tried. -/
def romTry (d : Dev) : Dev × Option Nat :=
  let r := bootRec d
  let t := bits r.1 3 3
  match bits r.1 5 4 with
  | 1 =>
    let d := bootStore d (setBits r.1 5 4 2, r.2)
    (d, if imageValid d t then some t else none)
  | 2 => (bootStore d (setBits (putBit r.1 (6 + t) true) 5 4 0, r.2), none)
  | _ => (d, none)

/-- ROM boots the core. -/
def romBoot (d : Dev) : Dev :=
  let d := inc (setKnl d fun k => { k with phase := 1, slot := 0, nmi := false, cmd := none, wdogNs := 0 }) Adr.KNL_CNT_BOOT
  let d := wr (wr d Adr.KNL_FWVER 0) Adr.KNL_FWSVN 0
  let (d, t) := romTry d
  match t with
  | some s => runSlot d s
  | none =>
    let p := bits (bootRec d).1 2 2
    if imageValid d p then runSlot d p
    else if imageValid d (1 - p) then knlErr (runSlot d (1 - p)) Bit.err_KNL_BOOT_FALLBACK 0
    else recovery d

/-! ### Kennel-away, watchdog, crash records (R624, R631, R632, R643) -/

/-- Kennel-away begins; one in force goes on. -/
def awayBegin (d : Dev) : Dev := if d.knl.away then d else setKnl d fun k => { k with away := true, awayNs := 0 }

/-- Kennel-away ends: firmware has booted. -/
def awayEnd (d : Dev) : Dev :=
  evt (setKnl d fun k => { k with away := false }) (Page.knl.base 0) Bit.evt_KNL_BOOTED

/-- A core reset other than power-on and PORST# (R631). -/
def coreReset (d : Dev) : Dev := romBoot (awayBegin d)

/-- ROM's crash handler writes a crash record (R643): its first word and its CRC are given; the rest, the core's own registers among
it, are open values here. -/
def crashRecord (d : Dev) : Dev :=
  let (l, d) := freeBytes d 504
  let (m, d) := takeFree d
  let body := leBytes 4 0x43520001 ++ l
  let d := nvNow d ⟨4, (rg d Adr.KNL_CNT_BOOT).toNat % 8, 0, body ++ leBytes 4 (crc32c body), [], []⟩
  knlErr d Bit.err_KNL_CRASH (w32 m.toNat)

/-- The watchdog interrupt (R624); `handled` when ROM's handler writes the record and resets the core. -/
def watchdog (d : Dev) (handled : Bool) : Dev :=
  if !pdOn d 0 ∨ fd d Adr.KNL_WDOG 15 0 = 0 ∨ d.knl.nmi ∨ d.knl.phase = 0 then d
  else
    let d := awayBegin (knlErr d Bit.err_KNL_WDOG 0)
    let d := setKnl d fun k => { k with wdogNs := max k.wdogNs (fd d Adr.KNL_WDOG 15 0 * 1000000) }
    if handled then coreReset (crashRecord d) else setKnl d fun k => { k with nmi := true }

/-- A write of KNL_CMD (R629, R631): CONFIRM, AWAY_END, AWAY, REBOOT in this order. -/
def knlCmd (d : Dev) (v : W32) : Dev :=
  if bits v 31 16 ≠ 0x4B4E then d
  else
    let r := bootRec d
    let t := bits r.1 3 3
    let d := if bit v 3 ∧ d.knl.phase = 2 ∧ d.knl.slot = t ∧ t ≠ bits r.1 2 2 then
        bootStore d (setBits (setBits r.1 2 2 t) 5 4 0, (if r.2.1.toNat < (rg d Adr.KNL_FWSVN).toNat then rg d Adr.KNL_FWSVN else r.2.1), r.2.2)
      else d
    let d := if bit v 2 then awayEnd d else d
    let d := if bit v 1 then awayBegin d else d
    if bit v 0 then coreReset d else d

/-- A core access to a poisoned SRAM word (R622), or to one that an injection makes uncorrectable (R603): a load, a fetch, a store
narrower than the word. -/
def poisonedLoad (d : Dev) (kind : CoreAccess) (a : Nat) : Dev :=
  let (inj, d) := injTake d (Page.knl.base 0) false
  if 2 ≤ inj || d.knl.sramBad.contains (a % sramSpan / 4) then
    let m := match kind with
      | .load => 5
      | .fetch => 1
      | .narrowStore => 7
    setKnl d fun k => { k with trap := some (m, 0x10000000 + a % sramSpan) }
  else d

/-! ### The interrupt controller (R623) -/

/-- The level of the level-sensitive sources of the core's interrupt controller: the FCL log not empty, SEALED or SWAPPED, and the
vectors of R494. The other sources are single requests, Out.plic. -/
def plicLevel (d : Dev) (n : Nat) : Bool :=
  if n = 6 then d.fcl.log != []
  else if n = 7 then
    let e := rg d (Page.glb.base 0 + oEVTPEND)
    bit e Bit.evt_GLB_SEALED || bit e Bit.evt_GLB_SWAPPED
  else decide (8 ≤ n ∧ n < 40) && vectorLevel d (n - 8)

/-! ### The mailbox (R646, R647) -/

/-- An answer stands in K2H0 and K2H1, and K2H is raised. -/
def answer (d : Dev) (result : Nat) (echo : W32) : Dev :=
  evt (wr (wr d (Adr.KNL_K2H 0) (w32 result)) (Adr.KNL_K2H 1) echo) (Page.knl.base 0) Bit.evt_KNL_K2H

/-- The host's doorbell. -/
def h2kDoorbell (d : Dev) : Dev :=
  let w := (List.range 16).map fun i => rg d (Adr.KNL_H2K i)
  match d.knl.cmd with
  | some _ => answer d 1 (nth w 0 0)
  | none => emit (setKnl d fun k => { k with cmd := some w }) (.plic 1)

/-- KNL's doorbell raises K2H: the answer to the command at hand. -/
def k2hDoorbell (d : Dev) : Dev := evt (setKnl d fun k => { k with cmd := none }) (Page.knl.base 0) Bit.evt_KNL_K2H

/-- The command in service, when its code is `code` and what serves it runs: firmware out of kennel-away, or ROM in RECOVERY. -/
def serving (d : Dev) (code : Nat) : Option (List W32) :=
  match d.knl.cmd with
  | some w => if (nth w 0 0).toNat = code ∧ pdOn d 0 ∧
      (if code = 0x101 then decide (d.knl.phase = 3) else decide (d.knl.phase = 2) && !d.knl.away) then some w else none
  | none => none

/-- A command has been served. -/
def served (d : Dev) (w : List W32) (result : Nat) : Dev := answer (setKnl d fun k => { k with cmd := none }) result (nth w 0 0)

/-- A device address from two mailbox words. -/
def mboxDa (w : List W32) (i : Nat) : Nat := (nth w i 0).toNat + 4294967296 * (nth w (i + 1) 0).toNat

/-- UPDATE (R629, R647): check the image, program the slot that the firmware does not run from, arm the trial. `flash` says whether
the flash read back as written. -/
def mboxUpdate (d : Dev) (w : List W32) (flash : Bool) : Dev :=
  let da := mboxDa w 1
  let n := (nth w 3 0).toNat
  let h := hbmRead d da 512
  if n < 528 ∨ 393728 < n ∨ daSpan < da + n then served d w 2
  else if hbmBad d da n then served (hbmCe d da n) w 3
  else if hdrOk h ∧ n ≠ 512 + hdrW h 0x10 then served d w 2
  else
    let body := hbmRead d (da + 512) (n - 512)
    let d := hbmCe d da n
    let c := imageCheck d h body
    let r := bootRec d
    let s := if d.knl.slot = 0 then 1 else if d.knl.slot = 1 then 0 else 1 - bits r.1 2 2
    if c ≠ 0 then served d w c
    else if flash then
      let d := setKnl d fun k => { k with flash := (k.flash.zero (0x100000 * s) 0x100000).write (0x100000 * s) (h ++ body) }
      let w0 := setBits (setBits (putBit r.1 (6 + s) false) 3 3 s) 5 4 1
      served (bootStore d (w0, r.2)) w 0
    else
      let (l, d) := freeBytes d n
      served (setKnl d fun k => { k with flash := k.flash.write (0x100000 * s) l }) w 5

/-- The firmware copies the event-log ring into the LOG area (before every REBOOT). -/
def logStore (d : Dev) : Dev :=
  let (l, d) := sramRead d 0x70000 57344
  (List.range 112).foldl (fun d i => nvNow d ⟨5, 0, 512 * i, (l.drop (512 * i)).take 512, [], []⟩) d

/-- REBOOT (R647). -/
def mboxReboot (d : Dev) (w : List W32) : Dev := coreReset (served (logStore d) w 0)

/-- STORE (R647). -/
def mboxStore (d : Dev) (w : List W32) : Dev :=
  if nth w 1 0 ≠ 1 then served d w 2
  else if d.nvm.job.isSome then served d w 1
  else served (nvmCmd d (nvmKeyed 1 0)) w 0

/-- LOG_EXPORT (R542, R647): a KSRAM job of the lowest-numbered free outbound engine. LEVEL and FALLBACK are the firmware's own. -/
def mboxExport (d : Dev) (w : List W32) : Dev :=
  match (List.range 8).find? fun n => engInSvc d n && !ctl d .cdcE n 1 && (engOf d n).out && (engOf d n).job.isNone && (engOf d n).frame.isNone with
  | none => served d w 1
  | some n =>
    let (f, d) := takeFree d
    let d := wr (wr (wr d (Adr.CDC_JOB_SRC_LO n) (w32 0x70000)) (Adr.CDC_JOB_SRC_HI n) 0) (Adr.CDC_JOB_LEN n) (w32 57344)
    let d := wr (wr (wr d (Adr.CDC_JOB_DST_LO n) (nth w 1 0)) (Adr.CDC_JOB_DST_HI n) (nth w 2 0)) (Adr.CDC_JOB_DST_MAX n) (nth w 3 0)
    let d := jobCtrl d .knl n (w32 (2147483648 + 2 * 65536 + f.toNat % 10 + f.toNat / 16 % 2 * 524288))
    let d := jobDone d n
    let r := fd d (Adr.CDC_JOB_STAT n) 7 0
    served (wr d (Adr.KNL_K2H 2) (rg d (Adr.CDC_JOB_OUT n))) w (if r = 1 ∨ r = 2 then 0 else 2)

/-- KEY_WRITE (R647): the key goes through NVM_BUF into its slot, and the source bytes are overwritten with zero. -/
def mboxKey (d : Dev) (w : List W32) : Dev :=
  let da := mboxDa w 2
  let k := (nth w 1 0).toNat
  if 16 ≤ k ∨ daSpan < da + 32 ∨ hbmBad d da 32 then served d w 2
  else if d.nvm.job.isSome then served d w 1
  else
    let key := hbmRead d da 32
    let d := hbmCe d da 32
    let d := setNvm d fun n => { n with buf := ((List.range 8).zip (wordsOf key)).foldl (fun b e => alSet b e.1 e.2) n.buf }
    served (hbmWrite (nvNow d ⟨3, k, 0, key, [], []⟩) da (List.replicate 32 0)) w 0

/-- RUN_SRAM (R628): ROM checks the image at SRAM offset 0 and runs it. -/
def mboxRunSram (d : Dev) (w : List W32) : Dev :=
  let h := d.knl.sram.readN 0 512
  let n := min 393216 (hdrW h 0x10)
  if sramBad d 0 (512 + n) then served d w 3
  else
    let body := d.knl.sram.readN 512 n
    let c := imageCheck d h body
    if c ≠ 0 then served d w c else served (runImage d 2 h body) w 0

/-! ### Sensors (R644, R645) -/

/-- The highest reading of the die sensors, s16 in 1/16 °C, and its index. -/
def hottest (l : List (Nat × Nat)) : Option (Nat × Int) :=
  (l.filter fun e => e.1 < 8).foldl (fun (a : Option (Nat × Int)) e =>
    match a with
    | some x => if x.2 < toS 16 e.2 then some (e.1, toS 16 e.2) else some x
    | none => some (e.1, toS 16 e.2)) none

/-- TEMP_CHECK (R645): the readings as they now stand, none where a reading is no longer current. TEMP_WARN latches at WARN and
again only after HYST below it; OVERTEMP when 125 °C is reached. Indices that R644 gives no reading keep none. -/
def tempCheck (d : Dev) (got : List (Nat × Option Nat)) : Dev :=
  let before := hottest d.knl.sens
  let put (l : List (Nat × Nat)) (e : Nat × Option Nat) : List (Nat × Nat) :=
    if (12 ≤ e.1 ∧ e.1 < 16) ∨ 64 ≤ e.1 then l else match e.2 with
    | some v => alSet l e.1 (v % 65536)
    | none => alDel l e.1
  let d := setKnl d fun k => { k with sens := got.foldl put k.sens }
  match hottest d.knl.sens with
  | none => d
  | some (i, t) =>
    let limit := 16 * ((fd d Adr.KNL_TLIM 15 8 : Int) - 64)
    let d := if limit ≤ t then
        (if d.knl.warnArm then knlErr (setKnl d fun k => { k with warnArm := false }) Bit.err_KNL_TEMP_WARN (w32 i) else d)
      else if t ≤ limit - 16 * (fd d Adr.KNL_TLIM 7 0 : Int) then setKnl d fun k => { k with warnArm := true }
      else d
    let was := match before with
      | some (_, x) => decide (2000 ≤ x)
      | none => false
    if 2000 ≤ t ∧ !was then knlErr d Bit.err_KNL_OVERTEMP (w32 i) else d

/-- KNL_SENS_VAL (R644, R668). -/
def sensVal (d : Dev) : W32 :=
  match alGet d.knl.sens (fd d Adr.KNL_SENS_SEL 7 0) with
  | some v => w32 (2147483648 + v % 65536)
  | none => 0

/-! ### Commands -/

/-- WDOG (R624). -/
def execWdog (handled : Bool) (s : State) : Answer := runS s fun d => watchdog d handled

/-- WDOG_RESET (R624). -/
def execWdogReset (s : State) : Answer := runS s fun d => if d.knl.nmi then coreReset d else d

/-- A write of KNL_KICK (R624): without effect while MS is 0. -/
def knlKick (d : Dev) : Dev := if fd d Adr.KNL_WDOG 15 0 = 0 then d else setKnl d fun k => { k with wdogNs := 0 }

/-- KNL_KICK (R624). -/
def execKnlKick (req : Req) (s : State) : Answer := run s fun d => write d req Adr.KNL_KICK knlKick

/-- POISONED_LOAD (R622): at byte offset `a` of KNL SRAM. -/
def execPoisonedLoad (kind : CoreAccess) (a : Nat) (s : State) : Answer := run s fun d => poisonedLoad d kind a

/-- A keyed KNL_CMD with one bit set. -/
def knlKeyed (v : W32) (b : Nat) : W32 := setBits (putBit v b true) 31 16 0x4B4E

/-- CONFIRM (R629). -/
def execConfirm (req : Req) (v : W32) (s : State) : Answer := runS s fun d => write d req Adr.KNL_CMD fun d => knlCmd d (knlKeyed v 3)

/-- AWAY (R631). -/
def execAway (req : Req) (v : W32) (s : State) : Answer := runS s fun d => write d req Adr.KNL_CMD fun d => knlCmd d (knlKeyed v 1)

/-- AWAY_END (R631). -/
def execAwayEnd (req : Req) (v : W32) (s : State) : Answer := runS s fun d => write d req Adr.KNL_CMD fun d => knlCmd d (knlKeyed v 2)

/-- REBOOT (R631). -/
def execReboot (req : Req) (v : W32) (s : State) : Answer := runS s fun d => write d req Adr.KNL_CMD fun d => knlCmd d (knlKeyed v 0)

/-- AWAY_EXPIRED (R632): kennel-away has lasted 5,000 ms. -/
def execAwayExpired (s : State) : Answer := runS s fun d =>
  if d.knl.away then knlErr (setKnl d fun k => { k with awayNs := max k.awayNs 5000000000 }) Bit.err_KNL_AWAY_EXPIRED 0 else d

/-- KNL_H2K_DB (R646). -/
def execKnlH2kDb (req : Req) (s : State) : Answer := run s fun d => write d req Adr.KNL_H2K_DB fun d => h2kDoorbell d

/-- KNL_K2H_DB (R668): KNL only. -/
def execKnlK2hDb (req : Req) (s : State) : Answer := run s fun d =>
  write d req Adr.KNL_K2H_DB fun d => if req = .knl then k2hDoorbell d else d

/-- UPDATE (R647). -/
def execUpdate (flash : Bool) (s : State) : Answer := runS s fun d =>
  match serving d 1 with
  | some w => mboxUpdate d w flash
  | none => d

/-- REBOOT_COMMAND (R647). -/
def execRebootCommand (s : State) : Answer := runS s fun d =>
  match serving d 2 with
  | some w => mboxReboot d w
  | none => d

/-- STORE_COMMAND (R647). -/
def execStoreCommand (s : State) : Answer := run s fun d =>
  match serving d 3 with
  | some w => mboxStore d w
  | none => d

/-- LOG_EXPORT (R647). -/
def execLogExport (s : State) : Answer := runS s fun d =>
  match serving d 4 with
  | some w => if cdcRuns d then mboxExport d w else d
  | none => d

/-- KEY_WRITE (R647). -/
def execKeyWrite (s : State) : Answer := runS s fun d =>
  match serving d 5 with
  | some w => mboxKey d w
  | none => d

/-- RUN_SRAM (R628). -/
def execRunSram (s : State) : Answer := runS s fun d =>
  match serving d 0x101 with
  | some w => mboxRunSram d w
  | none => d

/-- TEMP_CHECK (R645): the sensors and their comparators run while PD_KNL is on. -/
def execTempCheck (got : List (Nat × Option Nat)) (s : State) : Answer := runS s fun d => if pdOn d 0 then tempCheck d got else d

end Sys2Proof.Machine
end

