-- ==== Sys2Proof/Machine/Mac.lean ====
section
/-! DEFINITION. The management network (R658 to R667). -/

namespace Sys2Proof.Machine

/-- Whether the MAC runs: PD_KNL on and clocked, enabled, its link up. -/
def macRuns (d : Dev) : Bool := pageClocked d .knl 0 && bit (rg d Adr.KNL_MAC_CFG) 29 && bit (rg d Adr.KNL_MAC_CFG) 31

/-- SRAM offset of descriptor `i` of a ring register, and the ring's size (R659). -/
def ringAt (d : Dev) (ring i : Nat) : Nat := 16 * fd d ring 14 0 + 16 * i
def ringSize (d : Dev) (ring : Nat) : Nat := 2 ^ fd d ring 31 28

/-- Word `i` of the descriptor at an SRAM offset. -/
def descW (d : Dev) (a i : Nat) : W32 := d.knl.sram.readW (a + 4 * i)

/-- Put word `i` of the descriptor at an SRAM offset. -/
def descPut (d : Dev) (a i : Nat) (v : W32) : Dev := sramWrite d (a + 4 * i) (leBytes 4 v.toNat)

/-- The transmit descriptor at the head. -/
def txDesc (d : Dev) : Nat := ringAt d Adr.KNL_MAC_TXRING (rg d Adr.KNL_MAC_TXHEAD).toNat

/-- The bytes of the transmit frame at the head, without FCS. -/
def txFrame (d : Dev) : List Byte := d.knl.sram.readN (descW d (txDesc d) 1).toNat (bits (descW d (txDesc d) 0) 10 0)

/-- A frame leaves (R659): padded to 64 bytes with the FCS appended. -/
def macSend (d : Dev) (l : List Byte) : Dev :=
  let l := l ++ List.replicate (60 - l.length) 0
  emit d (.mac (l ++ leBytes 4 (crc32 l)))

/-- TIM `ns` nanoseconds ago, in steps of 8 ns (R663). -/
def timBack (d : Dev) (ns : Nat) : Nat × Nat :=
  let t := (d.tim.sec * 1000000000 + d.tim.ns - ns) / 8 * 8
  (t / 1000000000, t % 1000000000)

/-- The MAC takes the frame at the head of its ring (R659, R661): an ONESTEP frame is held, any other leaves at once. -/
def macGo (d : Dev) : Dev :=
  let head := (rg d Adr.KNL_MAC_TXHEAD).toNat
  let n := ringSize d Adr.KNL_MAC_TXRING
  if !macRuns d ∨ d.knl.tx.isSome ∨ d.knl.osHeld ∨ head % n = (rg d Adr.KNL_MAC_TXTAIL).toNat % n ∨ !bit (descW d (txDesc d) 0) 31 then d
  else if bit (descW d (txDesc d) 0) 30 then
    setFd (emit (setKnl d fun k => { k with osHeld := true }) (.plic 4)) Adr.TIM_OS_STAT 31 31 1
  else
    let d := macSend d (txFrame d)
    let (s, ns) := timBack d 0
    setKnl d fun k => { k with tx := some ⟨false, s, ns⟩ }

/-- Byte of the correctionField (R660). -/
def osByte (l : List Byte) : Nat := if (nth l 12 0).toNat = 0x88 ∧ (nth l 13 0).toNat = 0xF7 then 22 else 50

/-- The deadline of the held frame (R661, R662). -/
def osDeadline (d : Dev) : Dev :=
  if !d.knl.osHeld then d
  else
    let armed := bit (rg d Adr.TIM_OS_STAT) 30
    let l := txFrame d
    let o := osByte l
    let c := if armed then beBytes 4 (rg d Adr.TIM_OS_CORR_HI).toNat ++ beBytes 4 (rg d Adr.TIM_OS_CORR_LO).toNat else List.replicate 8 0
    let d := macSend d (l.take o ++ c ++ l.drop (o + 8))
    let (s, ns) := timBack d (8 * (o + 8) - 80)
    let d := setKnl d fun k => { k with osHeld := false, tx := some ⟨!armed, s, ns⟩ }
    let d := setFd d Adr.TIM_OS_STAT 31 30 0
    if armed then d
    else timErr (inc (setFd d Adr.TIM_OS_STAT 29 29 1) Adr.TIM_CNT_OSMISS) Bit.err_TIM_OS_MISS

/-- The MAC writes a transmit descriptor back (R658, R659, R663, R664) and takes the next. -/
def txWriteback (d : Dev) : Dev :=
  match d.knl.tx with
  | none => d
  | some x =>
    let a := txDesc d
    let stamp := bit (descW d a 0) 29
    let drop := stamp && decide (16 ≤ d.tim.tsq.length)
    let d := if !stamp then d
      else if drop then timErr (setFd d Adr.TIM_TSQ_STAT 31 31 1) Bit.err_TIM_TSQ_OVF
      else setTim d fun t => { t with tsq := t.tsq ++ [(bits (descW d a 2) 15 0, x.secs, x.ns)] }
    let d := descPut d a 3 (w32 (2147483648 + 2 * b2n x.osMiss + b2n drop))
    let d := descPut d a 0 (putBit (descW d a 0) 31 false)
    let n := ringSize d Adr.KNL_MAC_TXRING
    let d := wr d Adr.KNL_MAC_TXHEAD (w32 (((rg d Adr.KNL_MAC_TXHEAD).toNat + 1) % n % 1024))
    macGo (emit (setKnl d fun k => { k with tx := none }) (.plic 3))

/-- A frame arrives at the receive ring (R659): into the next receive buffer, when there is one that takes it; one with a bad FCS is discarded. -/
def rxFrame (d : Dev) (l : List Byte) (good : Bool) : Dev :=
  let head := (rg d Adr.KNL_MAC_RXHEAD).toNat
  let n := ringSize d Adr.KNL_MAC_RXRING
  let a := ringAt d Adr.KNL_MAC_RXRING head
  if !macRuns d ∨ !good ∨ head % n = (rg d Adr.KNL_MAC_RXTAIL).toNat % n ∨ !bit (descW d a 0) 31 ∨ bits (descW d a 0) 10 0 < l.length then d
  else
    let d := sramWrite d (descW d a 1).toNat l
    let d := descPut d a 2 (setBits (descW d a 2) 15 0 l.length)
    let d := descPut d a 3 (w32 2147483648)
    let d := descPut d a 0 (putBit (descW d a 0) 31 false)
    emit (wr d Adr.KNL_MAC_RXHEAD (w32 ((head + 1) % n % 1024))) (.plic 2)

/-- A datagram to the port is refused (R666): NSTOP_STRAY counts it. -/
def nstopStray (d : Dev) : Dev := setFd d Adr.KNL_NSTOP_CFG 31 16 (min 65535 (fd d Adr.KNL_NSTOP_CFG 31 16 + 1))

/-- A datagram to the port of the network stop, of 16 payload bytes (R666). -/
def netstop (d : Dev) (w0 w1 w2 w3 : W32) : Dev :=
  let seq := rg d Adr.KNL_NSTOP_SEQ
  let ahead := decide (w1 ≠ seq ∧ (w1 - seq).toNat < 2147483648)
  if !macRuns d ∨ fd d Adr.KNL_NSTOP_CFG 15 0 = 0 then d
  else if bits w0 31 16 = 0x57E1 ∧ w2 = rg d Adr.KNL_NSTOP_KEY0 ∧ w3 = rg d Adr.KNL_NSTOP_KEY1 ∧ ahead then
    let level := bit w0 0 || (d.muz.netstop && !bit w0 1)
    let rises := level && !d.muz.netstop
    let d := muzUpdate (setMuz (wr d Adr.KNL_NSTOP_SEQ w1) fun m => { m with netstop := level })
    if rises then externalStop d else d
  else nstopStray d

/-- The UDP payload of a frame that carries a datagram to KNL_MAC_IP and KNL_NSTOP_CFG.PORT (R666): Ethernet type 0x0800, IPv4,
not a fragment, protocol 17. -/
def nstopPayload (d : Dev) (l : List Byte) : Option (List Byte) :=
  let at_ (i n : Nat) : Nat := beNat ((l.drop i).take n)
  let u := 14 + 4 * (at_ 14 1 % 16)
  let n := at_ (u + 4) 2
  if at_ 12 2 = 0x0800 ∧ at_ 14 1 / 16 = 4 ∧ at_ 20 2 % 0x4000 = 0 ∧ at_ 23 1 = 17 ∧ at_ 30 4 = (rg d Adr.KNL_MAC_IP).toNat ∧
      fd d Adr.KNL_NSTOP_CFG 15 0 ≠ 0 ∧ at_ (u + 2) 2 = fd d Adr.KNL_NSTOP_CFG 15 0 ∧ 8 ≤ n ∧ u + n ≤ l.length then
    some ((l.drop (u + 8)).take (n - 8))
  else none

/-- The MAC decodes a frame with a good FCS (R666): a datagram of 16 payload bytes may act, one of another length is refused. Its
words are little-endian: PRESUMED (log entry 97). -/
def nstopFrame (d : Dev) (l : List Byte) : Dev :=
  match macRuns d, nstopPayload d l with
  | true, some p =>
    match p.length, wordsOf p with
    | 16, [w0, w1, w2, w3] => settle (netstop d w0 w1 w2 w3)
    | _, _ => nstopStray d
  | _, _ => d

/-- A write of KNL_NSTOP_CMD (R667). -/
def nstopCmd (d : Dev) (v : W32) : Dev :=
  if bit v 0 then muzUpdate (setMuz d fun m => { m with netstop := false }) else d

/-! ### Commands -/

/-- KNL_MAC_TXTAIL (R659). -/
def execKnlMacTxtail (req : Req) (v : W32) (s : State) : Answer := run s fun d =>
  write d req Adr.KNL_MAC_TXTAIL fun d => macGo (storeReg d Adr.KNL_MAC_TXTAIL v)

/-- ONESTEP_DEADLINE (R661). -/
def execOnestepDeadline (s : State) : Answer := runS s osDeadline

/-- TX_WRITEBACK (R659). -/
def execTxWriteback (s : State) : Answer := runS s txWriteback

/-- RX_FRAME (R659, R666): the frame without its FCS, and whether the FCS was good. -/
def execRxFrame (data : List Byte) (good : Bool) (s : State) : Answer := run s fun d =>
  let d := rxFrame d data good
  if good then nstopFrame d data else d

/-- NETSTOP_DATAGRAM (R666). -/
def execNetstopDatagram (w0 w1 w2 w3 : W32) (s : State) : Answer := runS s fun d => netstop d w0 w1 w2 w3

/-- NSTOP_CLR (R667). -/
def execNstopClr (req : Req) (v : W32) (s : State) : Answer := runS s fun d =>
  write d req Adr.KNL_NSTOP_CMD fun d => nstopCmd d (putBit v 0 true)

/-- MANAGEMENT_NETWORK_LINK (R668): PD_KNL powers the port. -/
def execManagementNetworkLink (up : Bool) (s : State) : Answer := run s fun d =>
  if pdOn d 0 then macGo (setFd d Adr.KNL_MAC_CFG 31 31 (b2n up)) else d

end Sys2Proof.Machine
end

