-- ==== Sys2Proof/Machine/Pmu.lean ====
section
/-! DEFINITION. Power domains, clocks, the power-up sequence, resets and supply warnings (chapter 16), with what the self-tests of
chapter 14 do where they fail (R599 to R602). -/

namespace Sys2Proof.Machine

/-- Change PMU. -/
def setPmu (d : Dev) (f : Pmu → Pmu) : Dev := { d with pmu := f d.pmu }

/-- An error of PMU (R706): its number, and TIM nanoseconds. -/
def pmuErr (d : Dev) (b i0 : Nat) : Dev := err d (Page.pmu.base 0) b (w32 i0) (timNs d)

/-- An event of PMU. -/
def pmuEvt (d : Dev) (b : Nat) : Dev := evt d (Page.pmu.base 0) b

/-! ### Self-tests (R599 to R601) -/

/-- A pseudo-channel fails the start-up test (R601): an in-service one is replaced by the lowest-numbered spare. -/
def pcTestFail (d : Dev) (p : Nat) : Dev :=
  if 128 ≤ p then d
  else
    let lo := 1024 * (pcLogical d p).getD 0
    let d := setFd d Adr.MEI_INIT 7 0 (min 255 (fd d Adr.MEI_INIT 7 0 + 1))
    let d := meiErr d Bit.err_MEI_PC_INIT lo 0
    let lose (d : Dev) : Dev := setBob (setPcState d p 5) fun b => { b with lost := setIns b.lost p }
    match pcLogical d p, (List.range 128).find? fun q => q != p && pcState d q = 1 with
    | some l, some q => lose (setPcState (wr d (Adr.BOB_PCMAP l) (w32 q)) q 0)
    | some _, none => err (lose d) (Page.bob.base 0) Bit.err_BOB_PC_LOST (w32 p) (curIndex d)
    | none, _ => lose d

/-- The resource of the page at `base` stays out of service (R601). -/
def outOfService (d : Dev) (base : Nat) : Dev :=
  wr d (base + oCTRL) (putBit (rg d (base + oCTRL)) 0 false)

/-- A raster tile fails its self-test: it is out of service, its patches are taken back, and a spare may follow it (R235, R601). -/
def tileFail (d : Dev) (n : Nat) : Dev :=
  let was := tileInSvc d n && tileRole d n = 1
  let held := (tileOf d n).work.head?
  let d := takeBack (wr (outOfService d (Page.ras.base n)) (Adr.RAS_ROLE n) 0) n
  if was then promote d n held else d

/-- A self-test fails (R601). -/
def testFail (d : Dev) (x : TestFail) : Dev :=
  match x with
  | .tile n => if n < 34 then tileFail d n else d
  | .engine n => if n < 8 then outOfService d (Page.cdcE.base n) else d
  | .channel n => if n < 16 then outOfService d (chBase n) else d
  | .lane n => if n < 52 then outOfService d (Page.lane.base n) else d
  | .pc p => pcTestFail d p
  | .word m w =>
    let lo := m % 4096 * 65536 + w % 65536
    if (rmpFree d true (m % 4096)).isSome then rmpInstall d true (m % 4096) (w % 65536) false lo 2147483648
    else meiErr d Bit.err_MEI_INIT_FAIL lo 2147483648
  | .checker m => meiErr d Bit.err_MEI_CHECKER_FAIL (m % 4096 * 65536) 2147483648

/-! ### Domains (R671 to R679) -/

/-- The words of BAR0 from `a` up to `b` take their reset values. -/
def wordsClear (d : Dev) (a b : Nat) : Dev := { d with regs := d.regs.filter fun e => decide (e.1 < a ∨ b ≤ e.1) }

/-- HBM of the pseudo-channels of two stacks, from physical number `p` on, is zero and clean (R600). -/
def hbmClear (d : Dev) (p : Nat) : Dev :=
  let here (da : Nat) : Bool := decide (p ≤ pcOf d da ∧ pcOf d da < p + 64)
  { d with
    hbm := d.hbm.filter fun c => !here c.1
    poison := d.poison.filter fun s => !here (32 * s)
    bob := { d.bob with wiped := d.bob.wiped.filter fun w => !here (1024 * w.1) }
    mei := { d.mei with badSectors := d.mei.badSectors.filter fun s => !here (32 * s.1) } }

/-- Once both memory domains are trained, the test and the zero write are complete (R600). -/
def memReady (d : Dev) : Dev :=
  if pdOn d 9 && pdOn d 10 && !d.mei.initTest then setMei d fun m => { m with initTest := true } else d

/-- The memories of domain `n` as its power-on leaves them (R671, R672). -/
def domainClear (d : Dev) (n : Nat) : Dev :=
  match n with
  | 0 => setKnl d fun k => { k with sram := [], sramBad := [] }
  | 3 => wordsClear (setXpd d fun x => { x with cells := [], defn := none, gridBad := [] }) 0x1400000 0x1800000
  | 7 => setVer d fun v => { v with wait := [], rr := [], retry := [] }
  | 8 =>
    let d := wordsClear d 0x1000000 0x1300000
    { d with stc := { d.stc with dbm := {}, spoilt := [] } }
  | 9 => memReady (hbmClear d 0)
  | 10 => memReady (hbmClear d 64)
  | 11 => (List.range 8).foldl chkClear (setGlr d fun g => { g with hist := [] })
  | 13 =>
    setHel (wordsClear (wordsClear (wordsClear d 0x148000 0x149000) 0x1300000 0x1400000) 0x1800000 0x1C00000) fun h => { h with bad := [] }
  | _ => d

/-- What goes with the power of domain `n` (R389, R600, R239). -/
def domainDark (d : Dev) (n : Nat) : Dev :=
  if n = 11 ∨ n = 12 then linkDown d
  else if n = 9 ∨ n = 10 then setMei d fun m => { m with initTest := false }
  else if n = 5 ∨ n = 6 then
    (rasTiles n).foldl tileStop d
  else d

/-- Request `q` for domain `n` (R673 to R678), 1 on, 2 off, 3 self-refresh. -/
def pdGo (d : Dev) (n q : Nat) : Dev :=
  let was := pdOn d n
  let d := pdAsk d n q
  if was && pdState d n = .switchingOff then domainDark d n else d

/-- Requests that waited for a switch of domain `n` act in order, until one starts a switch again (R676). -/
def pdDrain : Nat → Dev → Nat → Dev
  | 0, d, _ => d
  | fuel + 1, d, n =>
    match (nth d.pmu.pd n {}).wait with
    | [] => d
    | q :: rest =>
      if pdState d n = .switchingOn ∨ pdState d n = .switchingOff then d
      else pdDrain fuel (pdGo (setPd d n fun p => { p with wait := rest }) n q) n

/-- The requests of domain `n` that waited. -/
def pdWaited (d : Dev) (n : Nat) : Dev := pdDrain ((nth d.pmu.pd n {}).wait.length + 1) d n

/-- Whether the conditions of standby hold. -/
def standbyNow (d : Dev) : Bool :=
  [5, 6, 11, 12].all (fun n => pdState d n = .off) && pdState d 9 = .selfRefresh && pdState d 10 = .selfRefresh

/-- Standby begins or goes on (R682): with NSLEEP, PLL_N stops; without, it runs. -/
def standbyCheck (d : Dev) : Dev :=
  if standbyNow d then
    let d := if d.pmu.standby then d else pmuEvt (setPmu d fun p => { p with standby := true }) Bit.evt_PMU_STANDBY
    if bit (rg d Adr.PMU_CLK) 0 then pllStop d 10 else pllStart d 10
  else standbyLeave d

/-! ### The power-up sequence (R690 to R693) -/

/-- BARK begins (R616): high, unless a self-test holds it low or the data path is halted; the grid of half-periods begins. -/
def barkBegin (d : Dev) : Dev :=
  let go := !barkHeld d && !d.fcl.halted
  setFcl d fun f => { f with barkGrid := true, barkRun := go, bark := go }

/-- Step 4 of the sequence. -/
def seqFour (d : Dev) : Dev := setPmu (pdAct (barkBegin d) 1 1) fun p => { p with seq := .hlk }

/-- The sequence goes on as far as the domains let it; a supply warning holds it (R693). -/
def seqGo (d : Dev) : Dev :=
  if d.pmu.warn then d
  else match d.pmu.seq with
    | .refclk => if d.pmu.refclk then seqFour (pllLock d 10) else d
    | .hlk => if pdState d 1 = .on then setPmu (pdAct d 0 1) fun p => { p with seq := .knl } else d
    | .knl => if pdState d 0 = .on then setPmu (pdAct (pdAct d 9 1) 10 1) fun p => { p with seq := .mem } else d
    | .mem =>
      if d.mei.initTest then setPmu ([2, 3, 4, 7, 8, 13].foldl (fun d n => pdAct d n 1) d) fun p => { p with seq := .logic } else d
    | .logic =>
      if [2, 3, 4, 7, 8, 13].all fun n => pdState d n = .on then
        pmuEvt (setPmu d fun p => { p with seq := .done, ready := true }) Bit.evt_PMU_READY
      else d
    | _ => d

/-- Everything is lost but what needs no power and what comes from outside (R694, R701, R702). -/
def powerReset (d : Dev) : Dev :=
  let d := nvCut d
  let z : Dev := {}
  emit { z with
    outs := d.outs
    free := d.free
    nvm := { z.nvm with copies := d.nvm.copies, mram := d.nvm.mram }
    knl := { z.knl with flash := d.knl.flash }
    exp := { z.exp with qA := d.exp.qA, qB := d.exp.qB }
    muz := { z.muz with abortPin := d.muz.abortPin, blankPin := d.muz.blankPin }
    pmu := { z.pmu with
      warnRails := d.pmu.warnRails, resetRails := d.pmu.resetRails, firstRail := d.pmu.firstRail, aonFell := d.pmu.aonFell } }
    (.outputsOff false)

/-- A rail falls below its warning level (R700). -/
def supplyWarn (d : Dev) (r : Nat) : Dev :=
  let d := setPmu d fun p => { p with warnRails := p.warnRails ||| 2 ^ r }
  let d := wr d Adr.PMU_SUPPLY (putBit (rg d Adr.PMU_SUPPLY) (16 + r) true)
  if d.pmu.warn then d
  else
    let d := inc (setPmu d fun p => { p with warn := true }) Adr.PMU_CNT_WARN
    let d := muzUpdate (setMuz d fun m => { m with supply := true })
    pmuErr d Bit.err_PMU_SUPPLY_WARN d.pmu.warnRails

/-- Every port's latency estimate takes its seed (R331, R349). -/
def seedLat (d : Dev) : Dev :=
  (List.range 15).foldl (fun d p => wr d (Adr.BOB_LAT_EST p) (w32 (fd d (Adr.BOB_LAT_SEED p) 15 0))) d

/-- Steps 1 to 3 of the sequence, and step 4 when REFCLK runs (R691, R692, R640, R652, R331): `lines` are sources whose error line
did not latch (R602), `fails` what the self-test of the always-on memories found. -/
def powerUp (d : Dev) (cause : Nat) (refclk : Bool) (lines : List Nat) (fails : List TestFail) : Dev :=
  let d := setPmu d fun p => { p with refclk := refclk, aclkRc := !refclk, seq := .refclk, resetRails := 0, aonFell := false }
  let d := muzUpdate (wr d Adr.PMU_RSTCAUSE (w32 cause))
  let d := (lines.filter (· < 32)).foldl (fun d s => err d (Page.fcl.base 0) Bit.err_FCL_LINE_FAIL (w32 s) (w32 (4 * s))) d
  let d := fails.foldl testFail d
  let found := d.mei.remaps
  let d := nvRestore d
  let d := setBob d fun b => { b with lost := (List.range 128).filter fun p => decide (pcState d p = 5) }
  let d := setMei d fun m => { m with remaps := m.remaps ++ found.filter fun r => (rmpAt d r.sram r.index).isNone }
  let d := seedLat d
  let d := setTim d fun t => { t with
    sec := (rg d Adr.TIM_EPOCH).toNat + 4294967296 * (rg d Adr.TIM_EPOCH_HI).toNat, ns := 0, frac := 0 }
  let d := setFd d Adr.TIM_STAT 31 31 1
  let rails := (List.range 6).filter fun r => d.pmu.warnRails.testBit r
  let d := rails.foldl supplyWarn d
  if refclk then seqGo (pllLock d 10) else pllStart d 10

/-- PORST# has risen (R691, R694): at first power RSTCAUSE names the power-on. While a rail is below its reset level, the block
stays in reset (R701). -/
def porst (d : Dev) (refclk : Bool) (lines : List Nat) (fails : List TestFail) : Dev :=
  if d.pmu.resetRails ≠ 0 then d
  else powerUp (powerReset d) (if d.pmu.seq = .off then 1 else 3) refclk lines fails

/-- A rail falls below its reset level (R701). -/
def brownout (d : Dev) (r : Nat) : Dev :=
  let p := d.pmu
  let cause := rg d Adr.PMU_RSTCAUSE
  let d := setPmu (powerReset d) fun q => { q with
    resetRails := p.resetRails ||| 2 ^ r
    firstRail := if p.resetRails = 0 then r else p.firstRail
    aonFell := p.aonFell || decide (r = 0) }
  if d.pmu.aonFell then d else wr d Adr.PMU_RSTCAUSE cause

/-- Every rail has been above its release level for 1 ms (R701). -/
def brownoutRelease (d : Dev) (refclk : Bool) (lines : List Nat) (fails : List TestFail) : Dev :=
  if d.pmu.seq = .off ∧ (d.pmu.resetRails ≠ 0 ∨ d.pmu.aonFell) then
    let cause := if d.pmu.aonFell then 1 else 256 * d.pmu.firstRail + 2
    powerUp (setPmu (powerReset d) fun p => { p with warnRails := 0 }) cause refclk lines fails
  else d

/-! ### Switches (R672, R676, R677) -/

/-- The switch of domain `n` completes; `fails` is what the self-test at a switch-on found. -/
def pdDone (d : Dev) (n : Nat) (fails : List TestFail) : Dev :=
  match pdState d n with
  | .switchingOff => standbyCheck (pdWaited (pllSettle (setPd d n fun p => { p with st := .off }) (pllOf n)) n)
  | .switchingOn =>
    if !d.pmu.refclk then d
    else
      let sr := (nth d.pmu.pd n {}).fromSr
      let d := pllLock (setPd d n fun p => { p with st := .on, fromSr := false }) (pllOf n)
      let d := if sr then d else fails.foldl testFail (domainClear d n)
      let d := if n = 0 then romBoot d else d
      seqGo (standbyCheck (pdWaited d n))
  | _ => d

/-- Domain `n` has not come on in time (R677). -/
def pdFail (d : Dev) (n : Nat) : Dev :=
  match pdState d n with
  | .switchingOn =>
    let d := if (nth d.pmu.pd n {}).fromSr then domainDark d n else d
    let d := pllSettle (setPd d n fun p => { p with st := .off, fromSr := false }) (pllOf n)
    standbyCheck (pdWaited (pmuErr d Bit.err_PMU_PD_FAIL n) n)
  | _ => d

/-- The request of a domain that follows GLR (R674). -/
def followReq (d : Dev) : Nat := if bit (rg d (Page.glr.base 0 + oCTRL)) 0 then 1 else 2

/-- A write of PMU_PD of domain `n` (R706): POLICY is stored, and REQ acts where POLICY lets requests act. -/
def pmuPd (d : Dev) (n : Nat) (v : W32) : Dev :=
  let d := storeReg d (Adr.PMU_PD n) v
  standbyCheck (pdGo d n (if bits v 5 4 = 2 then followReq d else bits v 1 0))

/-- Whether BOB _STATE reads IDLE (R312): no ticket armed, and no block, patch or stripe in the data path. -/
def bobIdle (d : Dev) : Bool :=
  !anyStripe d && decide (heldBlks d = [] ∧ d.spl.refs = [] ∧ d.stc.todo = [] ∧ d.bob.win = []) && d.spl.cur.isNone &&
  !(d.stc.cur.any fun x => !tktOver d x.tkt.seq) &&
  d.secs.all fun s => tktOver d s.num && s.closed && decide (s.patches = [])

/-- Whether a DMA channel moves data to or from the bobbin (R503). -/
def dmaBusy (d : Dev) : Bool :=
  (List.range 16).any fun n => chMoving d n && decide (bits (nth (chanOf d n).desc 0 0) 23 20 < 2)

/-- The memory idle conditions have held for PMU_MEMIDLE.US (R678). -/
def memIdle (d : Dev) : Dev :=
  if [9, 10].all (fun n => pdState d n = .on && fd d (Adr.PMU_PD n) 5 4 = 1) && bobIdle d && !dmaBusy d && !d.bob.migBusy &&
      !(d.engs.any fun e => e.job.isSome) && decide (d.pmu.seq = .done) then
    standbyCheck (pdAct (pdAct d 9 3) 10 3)
  else d

/-- The stacks have left self-refresh (R679). -/
def srExit (d : Dev) : Dev :=
  [9, 10].foldl (fun d n =>
    if pdState d n = .switchingOn ∧ (nth d.pmu.pd n {}).fromSr then
      pdWaited (setPd d n fun p => { p with st := .on, fromSr := false }) n
    else d) d

/-! ### Clocks (R687 to R689) -/

/-- No REFCLK edge for 1 µs (R687). -/
def refclkLost (d : Dev) : Dev :=
  if !d.pmu.refclk then d
  else
    let d := setPmu d fun p => { p with refclk := false, aclkRc := true, lock := 0 }
    untrust (pmuErr d Bit.err_PMU_REFCLK_LOST 0)

/-- REFCLK has been present for 1 ms (R688, R692). -/
def refclkReturn (d : Dev) : Dev :=
  if d.pmu.refclk ∨ d.pmu.seq = .off then d
  else
    let d := setPmu d fun p => { p with refclk := true, aclkRc := false }
    if d.pmu.seq = .refclk then seqGo d else d

/-- PLL `p` loses lock while REFCLK is present (R689); it restarts. -/
def pllLost (d : Dev) (p : Nat) : Dev :=
  if p < 11 ∧ d.pmu.refclk ∧ d.pmu.lock.testBit p then pmuErr (pllUnlock d p) Bit.err_PMU_PLL_UNLOCK p else d

/-! ### Warm reset (R694 to R697) -/

/-- A word that a warm reset meets (R695, R742): what it becomes. -/
def warmWord (e : Nat × W32) : Option (Nat × W32) :=
  if inWindow e.1 then (if 0x1300000 ≤ e.1 ∧ e.1 < 0x1400000 then none else some e)
  else match pageOf e.1 with
    | none => none
    | some (p, _) =>
      if p = .pmu ∨ p = .nvm ∨ p = .fcl ∨ p = .tim ∨ p = .mei ∨ p = .muz ∨ e.1 = Adr.HLK_LINK then some e
      else if e.1 % 0x1000 < 0x100 then none
      else match p.row (e.1 % 0x1000) with
        | none => none
        | some r =>
          let m := w32 (r.rws ||| r.nv)
          let v := (e.2 &&& m) ||| (w32 (wordReset e.1) &&& ~~~m)
          if v = w32 (wordReset e.1) then none else some (e.1, v)

/-- The logic outside the always-on domain is in reset (R695). DESIGN CHOICE (log entry 87): no CELL_REFETCH stays open. -/
def warmLogic (d : Dev) : Dev :=
  let z : Dev := {}
  seedLat { d with
    regs := d.regs.filterMap warmWord
    infoHeld := d.infoHeld.filter fun b => [0x1000, 0x2000, 0x3000, 0x4000, 0x6000, 0x131000].contains b
    exp := { z.exp with qA := d.exp.qA, qB := d.exp.qB, lastSlotB := d.exp.lastSlotB }
    muz := { d.muz with momentary := false, blankFrom := none, whFrom := none, supplyFrom := none, supplyBroke := false, track := false }
    glb := z.glb, chans := z.chans, glr := z.glr, tag := z.tag, chks := z.chks, testing := [], secs := []
    spl := z.spl, engs := z.engs, ver := z.ver
    hlk := { z.hlk with up := d.hlk.up, whCnt := d.hlk.whCnt, whStray := d.hlk.whStray, msixPend := d.hlk.msixPend, aer := d.hlk.aer, cfg := d.hlk.cfg }
    stc := { z.stc with serial := d.stc.serial, dbm := d.stc.dbm, spoilt := d.stc.spoilt }
    bob := { z.bob with lost := d.bob.lost, wiped := d.bob.wiped }
    xpd := { z.xpd with cells := d.xpd.cells.map (fun c => { c with refetch := false }), gridBad := d.xpd.gridBad }
    knl := { z.knl with sram := d.knl.sram, sramBad := d.knl.sramBad, flash := d.knl.flash, away := d.knl.away, awayNs := d.knl.awayNs }
    hel := { z.hel with bad := d.hel.bad } }

/-- FIRST_UNSENT (R697): the shot after the last one committed FIRE, every later one being not exposed. -/
def firstUnsent (d : Dev) (r : Run) : Nat :=
  let mine := d.glr.hist.filter fun h => h.2.tseq = r.tkt.seq
  match ((mine.filter fun h => h.2.commit = 1).map fun h => h.2.shot).max? with
  | some f => f + 1
  | none => ((mine.map fun h => h.2.shot).min?).getD 0

/-- FIRST_UNACK (R697). -/
def firstUnack (d : Dev) (r : Run) : Nat :=
  (((d.glr.hist.filter fun h => h.2.tseq = r.tkt.seq && h.2.commit = 1 && !lseqLe h.2.lseq d.glr.ack).map fun h =>
    h.2.shot).min?).getD (firstUnsent d r)

/-- The record of R697 of the stripe in progress. -/
def warmRecord (d : Dev) : Dev :=
  match d.exp.run with
  | none => d
  | some r =>
    let t := (tktOf d r.tkt.seq).getD r.tkt
    let stat := w32 (2147483648 + b2n t.mending * 1073741824 + b2n t.slotB * 536870912 + tktGen d t % 65536)
    let unsent := firstUnsent d r
    let unack := firstUnack d r
    let d := wr (wr (wr d Adr.PMU_WR_STAT stat) Adr.PMU_WR_STRIPE t.index) Adr.PMU_WR_UNSENT (w32 unsent)
    let d := wr (wr (wr d Adr.PMU_WR_UNACK (w32 unack)) Adr.PMU_WR_MEND (rg d Adr.BOB_MEND_WR)) Adr.PMU_WR_SERIAL (w32 t.serial)
    pmuErr d Bit.err_PMU_WARM_ABORT 0

/-- A warm reset begins (R696). During power-up the stronger reset governs (R694). -/
def warmBegin (d : Dev) (cause : Nat) : Dev :=
  if d.pmu.seq ≠ .done then d
  else
    let d := muzUpdate (setMuz d fun m => { m with reset := true })
    let d := warmRecord (setFcl d fun f => { f with bark := false, barkRun := false, barkArm := false })
    let sr (p : Pd) : Pd := if p.st = .on ∨ p.fromSr then { p with st := .selfRefresh, fromSr := false } else p
    let d := setPmu d fun p => { p with
      pd := modNth (modNth p.pd 9 sr) 10 sr, seq := .warm, ready := false, warmCause := cause }
    warmLogic (emit d (.outputsOff true))

/-- The warm reset ends: steps 6 to 8 of R697's table. -/
def warmEnd (d : Dev) : Dev :=
  if d.pmu.seq ≠ .warm then d
  else
    let d := wr (warmLogic d) Adr.PMU_RSTCAUSE (w32 d.pmu.warmCause)
    let wake (p : Pd) : Pd := if p.st = .selfRefresh ∨ p.fromSr then { p with st := .on, fromSr := false } else p
    let d := setPmu d fun p => { p with pd := modNth (modNth p.pd 9 wake) 10 wake, seq := .done }
    let d := [11, 12].foldl (fun d n => if fd d (Adr.PMU_PD n) 5 4 = 2 then pdGo d n 2 else d) d
    let d := setFcl d fun f => { f with halted := false, barkArm := !sev3Held d }
    let d := muzUpdate (setMuz d fun m => { m with reset := false, sev3 := false })
    let d := if pdState d 0 = .on then coreReset d else d
    pmuEvt (pmuEvt (setPmu (standbyLeave d) fun p => { p with ready := true }) Bit.evt_PMU_READY) Bit.evt_PMU_WARM_DONE

/-- A write of PMU_CMD (R706). -/
def pmuCmd (d : Dev) (v : W32) : Dev := if bits v 31 16 = 0x5752 ∧ bit v 0 then warmBegin d 5 else d

/-! ### The end of a supply warning (R700, R435) -/

/-- 10 µs have passed with no rail in warning. -/
def warningEnd (d : Dev) : Dev :=
  if !d.pmu.warn ∨ d.pmu.warnRails ≠ 0 then d
  else
    let a := d.muz.supplyFrom
    let broke := d.muz.supplyBroke
    let d := setPmu d fun p => { p with warn := false }
    let d := setMuz d fun m => { m with supply := false, supplyFrom := none, supplyBroke := false }
    let d := match broke, d.exp.run with
      | true, some r =>
        let d := if r.refused then d else putEnt d (mkEnt d .exp r.tkt 7 2 (w32 (a.getD r.shots)) (w32 (r.tkt.n - 1)))
        muzUpdate (halt (abortStripe d none))
      | _, _ => closeOne (muzUpdate d) a 7
    seqGo d

/-! ### Commands -/

/-- PD_REQ_ON (R676). -/
def execPdReqOn (req : Req) (n : Nat) (v : W32) (s : State) : Answer := runS s fun d =>
  if n < 14 then write d req (Adr.PMU_PD n) fun d => pmuPd d n (setBits v 1 0 1) else d

/-- PD_REQ_OFF (R675). -/
def execPdReqOff (req : Req) (n : Nat) (v : W32) (s : State) : Answer := runS s fun d =>
  if n < 14 then write d req (Adr.PMU_PD n) fun d => pmuPd d n (setBits v 1 0 2) else d

/-- PD_REQ_SELF_REFRESH (R678). -/
def execPdReqSelfRefresh (req : Req) (n : Nat) (v : W32) (s : State) : Answer := runS s fun d =>
  if n < 14 then write d req (Adr.PMU_PD n) fun d => pmuPd d n (setBits v 1 0 3) else d

/-- PD_SWITCH_DONE (R672). -/
def execPdSwitchDone (n : Nat) (fails : List TestFail) (s : State) : Answer := runS s fun d => if n < 14 then pdDone d n fails else d

/-- PD_FAIL (R677). -/
def execPdFail (n : Nat) (s : State) : Answer := runS s fun d => if n < 14 then pdFail d n else d

/-- PMU_MEMIDLE (R678). -/
def execPmuMemidle (s : State) : Answer := run s memIdle

/-- SELF_REFRESH_EXIT (R679). -/
def execSelfRefreshExit (s : State) : Answer := run s srExit

/-- REFCLK_LOST (R687). -/
def execRefclkLost (s : State) : Answer := runS s refclkLost

/-- REFCLK_RETURN (R688). -/
def execRefclkReturn (s : State) : Answer := runS s refclkReturn

/-- PLL_UNLOCK (R689). -/
def execPllUnlock (p : Nat) (s : State) : Answer := runS s fun d => pllLost d p

/-- PLL_LOCK (R684): of a PLL that has been started. -/
def execPllLock (p : Nat) (s : State) : Answer := run s fun d => if d.pmu.refclk ∧ d.pmu.run.testBit p then pllLock d p else d

/-- POWER_ON (R694): the block is in reset until PORST# rises. -/
def execPowerOn (s : State) : Answer := run s fun d =>
  setPmu (powerReset d) fun p => { p with warnRails := 0, resetRails := 0, firstRail := 0, aonFell := true }

/-- PORST (R691): PORST# rises. -/
def execPorst (refclk : Bool) (lines : List Nat) (fails : List TestFail) (s : State) : Answer := run s fun d => porst d refclk lines fails

/-- WRST (R696). -/
def execWrst (s : State) : Answer := run s fun d => warmBegin d 4

/-- WARM (R694): a keyed write of PMU_CMD. -/
def execWarm (req : Req) (v : W32) (s : State) : Answer := run s fun d =>
  write d req Adr.PMU_CMD fun d => pmuCmd d (setBits (putBit v 0 true) 31 16 0x5752)

/-- WARM_END (R697). -/
def execWarmEnd (s : State) : Answer := run s warmEnd

/-- SUPPLY_WARN (R700): rail `r` of R698. -/
def execSupplyWarn (r : Nat) (s : State) : Answer := runS s fun d =>
  if r < 6 ∧ d.pmu.seq ≠ .off then supplyWarn d r else d

/-- RAIL_RELEASE (R700). -/
def execRailRelease (r : Nat) (s : State) : Answer := run s fun d =>
  if d.pmu.warnRails.testBit r then setPmu d fun p => { p with warnRails := p.warnRails - 2 ^ r } else d

/-- WARNING_END (R700). -/
def execWarningEnd (s : State) : Answer := runS s warningEnd

/-- BROWNOUT (R701). -/
def execBrownout (r : Nat) (s : State) : Answer := run s fun d => if r < 6 then brownout d r else d

/-- BROWNOUT_RELEASE (R701). -/
def execBrownoutRelease (refclk : Bool) (lines : List Nat) (fails : List TestFail) (s : State) : Answer := run s fun d =>
  brownoutRelease d refclk lines fails

end Sys2Proof.Machine
end

