-- ==== Sys2Proof/Machine/Live.lean ====
section
/-! DEFINITION. What a read of a register returns that shows the block's own state instead of a stored word: the RO fields of the
field maps, _STATE and _EVT_RAW. -/

namespace Sys2Proof.Machine

/-- A field of value `v` at bit `lo`. -/
def put (lo v : Nat) : Nat := v * 2 ^ lo

/-- Bits `i` of a predicate over the numbers `lo … lo + 31`. -/
def mask32 (lo : Nat) (f : Nat → Bool) : Nat := sumN ((List.range 32).map fun i => put i (b2n (f (lo + i))))

/-! ### The common header (R736 to R738) -/

/-- The condition that an event's chapter names, as bits of _EVT_RAW (R738); every other event bit reads 1 in its own clock only,
which no read between two commands meets. -/
def evtRaw (d : Dev) (p : Page) : W32 :=
  match p with
  | .spl => w32 (b2n (d.spl.reqs != []))
  | .bob => w32 (put Bit.evt_BOB_MEND_WAIT (b2n (d.bob.waitq != [])))
  | .fcl => w32 (put Bit.evt_FCL_LOG (b2n (d.fcl.log != [])))
  | _ => 0

/-- Whether instance `n` of a page holds work in progress (R736, BUSY). -/
def pageBusy (d : Dev) (p : Page) (n : Nat) : Bool :=
  match p with
  | .glb => d.exp.swapWork
  | .pmu => d.pmu.pd.any (fun x => x.st = .switchingOn || x.st = .switchingOff) || decide (d.pmu.seq ≠ .done)
  | .nvm => d.nvm.job.isSome
  | .knl => d.knl.cmd.isSome
  | .dmaG => (List.range 16).any fun n => (chanOf d n).cstate = .run
  | .dmaCh => decide ((chanOf d n).cstate = .run)
  | .spl => d.spl.cur.isSome || (heldBlks d) != [] || d.spl.refs != []
  | .cdcG => (engines.any fun n => (engOf d n).frame.isSome) || frameQueue d != []
  | .cdcE => (engOf d n).frame.isSome || (engOf d n).job.isSome
  | .xpd => (openSec d).isSome || d.xpd.defn.isSome || d.xpd.qBusy
  | .alt => (openSec d).isSome
  | .bst => d.secs.any fun s => !s.dropped && decide (s.bands < secBins s)
  | .pxc => d.secs.any fun s => !s.dropped && decide (s.released < secBins s)
  | .ras => (tileOf d n).work != [] || bit (rg d (Adr.RAS_TEST n)) 31
  | .ver => d.ver.wait != [] || d.ver.rr != [] || d.ver.retry != [] || d.ver.tiles.any fun t => t.work != []
  | .stc => d.stc.cur.any (fun x => !x.ended && decide (x.gathered < x.tkt.n)) || d.stc.todo != []
  | .bob => !bobIdle d || d.bob.migBusy
  | .mc => [2 * n, 2 * n + 1].any fun p => ((mcPc d p).banks.any fun b => b.q != []) || (mcPc d p).held != []
  | .glr => d.exp.run.isSome && linkUp d
  | .tag => d.tag.x.isSome
  | .exp => anyStripe d || d.exp.arriving != []
  | .muz => d.muz.pulses != []
  | .hel => decide (d.hel.mode = 2 ∨ d.hel.mode = 3 ∨ d.hel.mode = 4)
  | .lane => d.exp.run.isSome && (lane d n).live
  | _ => false

/-- Whether instance `n` of a page reads RUN while it is enabled and neither quiesced nor isolated: it works, and a tile runs as
long as its clock does. -/
def pageRuns (d : Dev) (p : Page) (n : Nat) : Bool :=
  match p with
  | .ras => (tileOf d n).awake
  | .lane => (lane d n).live
  | .glr => linkUp d
  | .exp => d.exp.run.isSome
  | .bob => !bobIdle d
  | _ => pageBusy d p n

/-- STATE of _STATE (R736, R737): 0 OFF, 1 IDLE, 2 RUN, 3 QUIESCING, 4 QUIESCED, 5 ISOLATED, 6 FAULT. -/
def stateNum (d : Dev) (p : Page) (n : Nat) : Nat :=
  let b := p.base n
  if !pageOn d p n then 0
  else if p = .hel then nth [0, 1, 2, 2, 3] d.hel.mode 0
  else if !ctrlBit d b 0 || d.testing.contains b || (p = .lane && (lane d n).alone) then 0
  else
    let c := chanOf d n
    let stops := if p = .dmaCh then decide (c.cstate ≠ .run) || c.held
      else if p = .lane then !d.glr.leaving.contains n else !pageBusy d p n
    if ctrlBit d b 2 then (if p = .dmaCh && !stops then 3 else 5)
    else if ctrlBit d b 1 then (if stops then 4 else 3)
    else if p = .dmaCh && c.cstate = .halted then 6
    else if pageRuns d p n then 2 else 1

/-- _STATE. -/
def stateWord (d : Dev) (p : Page) (n : Nat) : W32 := w32 (stateNum d p n + put 8 (b2n (pageOn d p n && pageBusy d p n)))

/-- A word of the common header, its domain on: _CTRL reads without SOFT_RESET, which holds nothing. -/
def headRead (d : Dev) (p : Page) (n o : Nat) : W32 :=
  let a := p.base n + o
  if o = 0x04 then Config.stepping.setWidth 32
  else if o = 0x0C then stateWord d p n
  else if o = 0x10 then evtRaw d p
  else if o = 0x1C then 0
  else if o = 0x24 then errMask d (p.base n)
  else rg d a

/-! ### Chapters 11 to 16 -/

/-- Number of PdState as PMU_PD shows it (R706). -/
def pdNum : PdState → Nat
  | .off => 0
  | .on => 1
  | .selfRefresh => 2
  | .switchingOn => 3
  | .switchingOff => 4

def liveGlb (d : Dev) (a : Nat) : W32 :=
  if a = Adr.GLB_JOB then w32 (put 31 (b2n d.glb.pend) + b2n d.glb.activeB) else rg d a

def livePmu (d : Dev) (a : Nat) : W32 :=
  if a < Adr.PMU_STAT then
    let st := pdState d ((a - Adr.PMU_PD 0) / 4)
    rg d a ||| w32 (put 31 (b2n (st = .switchingOn || st = .switchingOff)) + put 28 (pdNum st))
  else if a = Adr.PMU_STAT then
    w32 (put 31 (b2n d.pmu.ready) + put 30 (b2n d.pmu.refclk) + put 29 (b2n d.pmu.aclkRc) + put 28 (b2n d.pmu.standby) +
      put 27 (b2n d.pmu.warn) + d.pmu.lock % 2048)
  else if a = Adr.PMU_SUPPLY then rg d a ||| w32 (d.pmu.warnRails % 64)
  else rg d a

def liveNvm (d : Dev) (a : Nat) : W32 :=
  if a = Adr.NVM_STAT then
    rg d a ||| w32 (put 31 (b2n d.nvm.job.isSome) + put 30 (b2n (d.nvm.job.isSome && d.pmu.warn)))
  else if a = Adr.NVM_SVN then w32 (svnMin d)
  else if Adr.NVM_BUF 0 ≤ a then 0
  else rg d a

def liveFcl (d : Dev) (a : Nat) : W32 :=
  let lvls (lo : Nat) : W32 := w32 (sumN ((List.range 16).map fun i => put (2 * i) (nth d.fcl.lvl (lo + i) 0)))
  if a = Adr.FCL_STATUS_LO then d.fcl.status
  else if a = Adr.FCL_LVL_LO then lvls 0
  else if a = Adr.FCL_LVL_HI then lvls 16
  else if a = Adr.FCL_LOG_STAT then w32 (put 31 (b2n d.fcl.ovf) + d.fcl.log.length)
  else if a = Adr.FCL_LOG_W0 then fclLogWord d 0
  else if a = Adr.FCL_LOG_W1 then fclLogWord d 1
  else if a = Adr.FCL_LOG_W2 then fclLogWord d 2
  else if a = Adr.FCL_OUT then
    rg d a ||| w32 (put 31 (b2n d.fcl.barkRun) + put 30 (b2n (faultLow d)) + put 29 (b2n d.fcl.halted))
  else rg d a

def liveTim (d : Dev) (a : Nat) : W32 :=
  if a = Adr.TIM_NS then timNs d
  else if a = Adr.TIM_STAT then rg d a ||| w32 (put 29 (b2n (timSleeps d)) + put 28 (b2n d.pmu.aclkRc))
  else if a = Adr.TIM_TSQ_STAT then rg d a ||| w32 d.tim.tsq.length
  else if a = Adr.TIM_TSQ_ID then tsqWord d 0
  else if a = Adr.TIM_TSQ_S then tsqWord d 1
  else if a = Adr.TIM_TSQ_NS then tsqWord d 2
  else rg d a

def liveKnl (d : Dev) (a : Nat) : W32 :=
  let pref := bits (bootRec d).1 2 2
  if a = Adr.KNL_STAT then
    w32 (put 31 (b2n d.knl.away) + put 30 (b2n (d.knl.phase = 2 && d.knl.slot = pref)) + put 8 d.knl.phase + d.knl.slot)
  else if a = Adr.KNL_AWAY then w32 (put 31 (b2n d.knl.away) + min 8191 (d.knl.awayNs / 1000000))
  else if a = Adr.KNL_SENS_VAL then sensVal d
  else if a = Adr.KNL_NSTOP_KEY0 ∨ a = Adr.KNL_NSTOP_KEY1 then 0
  else rg d a

def liveMei (d : Dev) (a : Nat) : W32 :=
  let sel := rg d Adr.MEI_RMP_SEL
  let used (sram : Bool) : Nat := d.mei.remaps.countP fun r => r.sram = sram
  let ent := rmpAt d (bit sel 31) (bits sel 15 0)
  if a = Adr.MEI_RMP_ENT0 then
    match ent with
    | some e => w32 (put 31 1 + put 30 (b2n e.poisoned) + e.unit % 4096)
    | none => 0
  else if a = Adr.MEI_RMP_ENT1 then (match ent with | some e => w32 e.addr | none => 0)
  else if a = Adr.MEI_LAST_UE_HI then d.mei.lastUeHi
  else if a = Adr.MEI_INIT then rg d a ||| w32 (put 31 (b2n d.mei.initTest))
  else if a = Adr.MEI_RMP_USED then w32 (put 16 (used false) + used true)
  else rg d a

def liveDmaG (d : Dev) (a : Nat) : W32 :=
  let ch (s : CState) : W32 := w32 (sumN ((List.range 16).map fun n => put n (b2n ((chanOf d n).cstate = s))))
  if a = Adr.DMA_RUN then ch .run
  else if a = Adr.DMA_PARKED then ch .parked
  else if a = Adr.DMA_HALTED then ch .halted
  else if a = Adr.DMA_BYTES_H2D_HI then d.hlk.h2dHi
  else if a = Adr.DMA_BYTES_D2H_HI then d.hlk.d2hHi
  else rg d a

/-- Number of CSTATE (R526). -/
def cstateNum : CState → Nat
  | .idle => 0
  | .run => 1
  | .parked => 2
  | .halted => 3

def liveDmaCh (d : Dev) (n a : Nat) : W32 :=
  let c := chanOf d n
  if a = Adr.DMA_HOPS n then rg d a ||| w32 (put 16 (c.hops % 65536))
  else if a = Adr.DMA_STAT n then w32 (put 31 (b2n c.dbPend) + put 20 c.cause + cstateNum c.cstate)
  else if a = Adr.DMA_CUR_LO n then w32 c.cur
  else if a = Adr.DMA_CUR_HI n then c.curHi
  else if a = Adr.DMA_CNT_BYTES_HI n then c.bytesHi
  else rg d a

/-! ### Chapters 02 to 05 and 12 -/

def liveSpl (d : Dev) (a : Nat) : W32 :=
  let e := d.spl.reqs.headD (0, 0, 0)
  if a = Adr.SPL_SEQ then w32 (nextSeq d)
  else if a = Adr.SPL_REQ_STAT then w32 (put 31 (b2n d.spl.ovf) + d.spl.reqs.length)
  else if a = Adr.SPL_REQ_W0 then e.1
  else if a = Adr.SPL_REQ_W1 then e.2.1
  else if a = Adr.SPL_REQ_W2 then e.2.2
  else if a = Adr.SPL_POS then w32 d.spl.pos
  else rg d a

def liveCdcG (d : Dev) (a : Nat) : W32 :=
  let svc (o : Bool) : Nat := sumN (engines.map fun n => put n (b2n (engInSvc d n && (engOf d n).out = o)))
  if a = Adr.CDC_INSVC then w32 (put 8 (svc true) + svc false)
  else if a = Adr.CDC_PEND then
    w32 (put 16 (engines.countP fun n => (engOf d n).frame.isSome) + min 65535 (frameQueue d).length)
  else if a = Adr.CDC_CNT_OUT_HI then d.cdcHi
  else rg d a

/-- Words of an engine page. CDC_ENG_CUR reads 0 while no frame is decoded (DESIGN CHOICE, log entry 79). -/
def liveCdcE (d : Dev) (n a : Nat) : W32 :=
  let e := engOf d n
  if a = Adr.CDC_JOB_STAT n then
    rg d a ||| w32 (put 31 (b2n e.job.isSome) + put 30 (b2n (e.job.any fun j => j.waiting)))
  else if a = Adr.CDC_ENG_CUR n then
    match e.frame with
    | some (true, k) => w32 (((d.spl.refs[k]?).map (·.seq)).getD 0)
    | some (false, k) => w32 k
    | none => 0
  else rg d a

/-- Words of the XPD page. DESIGN CHOICE (log entry 87): XPD_WAIT_ID reads 0 while WAITING reads 0, and XPD_QSTATE.STATE keeps the last
lookup's result while BUSY reads 1. -/
def liveXpd (d : Dev) (a : Nat) : W32 :=
  let w := d.xpd.wait.getD (0, 0)
  if a = Adr.XPD_DIR then w32 (dirUsed d)
  else if a = Adr.XPD_CACHE_USED then w32 ((cacheUsed d + 1023) / 1024)
  else if a = Adr.XPD_QSTATE then w32 (put 31 (b2n d.xpd.qBusy) + d.xpd.qState)
  else if a = Adr.XPD_WAIT then w32 (put 31 (b2n d.xpd.wait.isSome) + put 24 w.2)
  else if a = Adr.XPD_WAIT_ID then w32 w.1
  else rg d a

def livePxc (d : Dev) (a : Nat) : W32 :=
  let reach (b : Bool) : W32 := w32 (put 24 (lagOf (pxcLatch d b) % 256) + reachOf (pxcLatch d b) % 65536)
  if a = Adr.PXC_T_A then w32 (pxcT (pxcLatch d false) % 4194304)
  else if a = Adr.PXC_T_B then w32 (pxcT (pxcLatch d true) % 4194304)
  else if a = Adr.PXC_REACH_A then reach false
  else if a = Adr.PXC_REACH_B then reach true
  else rg d a

def liveRas (d : Dev) (n a : Nat) : W32 :=
  let t := tileOf d n
  if a = Adr.RAS_CUR n then
    match t.work with
    | [] => 0
    | w :: _ => w32 (put 31 1 + put 30 (b2n w.second) + put 8 (w.q % 65536) + w.p % 256)
  else if a = Adr.RAS_CUR_STRIPE n then
    match t.work with
    | [] => 0
    | w :: _ => match secOf d w.sec with
      | some s => (secTkt d s).index
      | none => 0
  else rg d a

def liveVer (d : Dev) (a : Nat) : W32 :=
  let awake (n : Nat) : Bool := (tileOf d n).awake
  let svc (n : Nat) : Bool := decide (n < 34) && tileInSvc d n
  if a = Adr.VER_INSVC_LO then w32 (mask32 0 svc)
  else if a = Adr.VER_INSVC_HI then w32 (mask32 32 svc)
  else if a = Adr.VER_AWAKE_LO then w32 (mask32 0 awake)
  else if a = Adr.VER_AWAKE_HI then w32 (mask32 32 awake)
  else if a = Adr.VER_QUEUE then
    w32 (put 16 (min 65535 (d.ver.retry.length + d.ver.rr.length)) + min 65535 d.ver.wait.length)
  else rg d a

/-! ### Chapters 06 and 07 -/

/-- Whether a stripe is being stitched or gathered (STC_POS.ACTIVE). -/
def stcActive (d : Dev) : Bool := d.stc.cur.any fun x => !x.ended && decide (x.gathered < x.tkt.n)

/-- Shots complete in the pass queue and not yet gathered (STC_LEAD): shot s is complete once every row active at it has been
stitched for it. -/
def stcLead (st : Stitch) : Nat :=
  (if st.tkt.len ≤ st.rows then st.tkt.n else min st.tkt.n (st.rows + emin st.tkt)) - st.gathered

def liveStc (d : Dev) (a : Nat) : W32 :=
  if a = Adr.STC_POS then
    w32 (put 16 d.stc.serial + put 1 (b2n (d.stc.cur.any fun x => x.tkt.mending)) + b2n (stcActive d))
  else if a = Adr.STC_LEAD then
    match d.stc.cur with
    | some st => if stcActive d then w32 (stcLead st) else 0
    | none => 0
  else if a = Adr.STC_PQ then w32 (pqDepth d % 65536)
  else rg d a

def liveBob (d : Dev) (a : Nat) : W32 :=
  if a = Adr.BOB_LOOK_ROWS then w32 (laRows d)
  else if a = Adr.BOB_LOOK_US then w32 (laUs d)
  else if a = Adr.BOB_PACE then setBits (rg d a) 23 16 (bobReq d)
  else if a = Adr.BOB_SPOOL_FREE then w32 (spoolFree d / 1024)
  else if a = Adr.BOB_PATCH_FREE then w32 (patchFree d)
  else if a = Adr.BOB_WIN_FREE then w32 (winFreeBytes d / 1024)
  else if a = Adr.BOB_MEND_CAP then w32 (mendCap d)
  else if a = Adr.BOB_MIG_STAT then w32 (put 31 (b2n d.bob.migBusy) + d.bob.migPtr)
  else rg d a

def liveMc (d : Dev) (n a : Nat) : W32 :=
  let qd (p : Nat) : Nat := min 255 (sumN ((mcPc d p).banks.map fun b => b.q.length))
  let used (p : Nat) : Bool := decide (pcState d p = 0) && !d.bob.lost.contains p
  if a = Adr.MC_STAT n then
    w32 (put 31 (b2n (d.mei.initTest && used (2 * n) && used (2 * n + 1))) +
      put 16 (((stackTemp d n).map fun t => min 255 (t / 16 + 64).toNat).getD 0) + put 8 (qd (2 * n + 1)) + qd (2 * n))
  else if a = Adr.MC_REF n then rg d a ||| w32 (put 30 (refRate d n))
  else rg d a

/-! ### Chapters 08, 09 and 10 -/

def liveGlr (d : Dev) (a : Nat) : W32 :=
  let g := d.glr
  let live (n : Nat) : Bool := decide (n < 48) && (lane d n).live
  if a = Adr.GLR_LINK then
    w32 (put 31 (b2n g.unackOld) + put 16 ((List.range 4).countP fun i => (lane d (48 + i)).live) +
      put 8 (liveLanes d).length + g.st)
  else if a = Adr.GLR_LIVE_LO then w32 (mask32 0 live)
  else if a = Adr.GLR_LIVE_HI then w32 (mask32 32 live)
  else if a = Adr.GLR_LSEQ then w32 (g.lseq.getD 0)
  else if a = Adr.GLR_ACK then w32 g.ack
  else if a = Adr.GLR_UNACK_FIRST then w32 g.unFirst
  else if a = Adr.GLR_UNACK_LAST then w32 g.unLast
  else if a = Adr.GLR_TMIN then w32 (min 4095 (glrTminNs d))
  else if a = Adr.GLR_PLATE_ID_LO then w32 g.plate
  else if a = Adr.GLR_PLATE_ID_HI then w32 (g.plate / 4294967296)
  else rg d a

def liveLane (d : Dev) (n a : Nat) : W32 :=
  let l := lane d n
  if a = Adr.LANE_STAT n then
    w32 (put 31 (b2n l.live) + put 30 (b2n l.lock) + put 29 (b2n (l.fec && n < 48)) +
      (if n < 48 then min 15 l.pkts else 0))
  else if a = Adr.LANE_FFE n ∧ 48 ≤ n then 0
  else rg d a

def liveTag (d : Dev) (a : Nat) : W32 :=
  if a = Adr.TAG_STAT then w32 (put 31 (b2n d.tag.x.isSome) + put 30 (b2n d.tag.auth))
  else if a = Adr.TAG_COUNT then w32 d.tag.count
  else if a = Adr.TAG_RESID then w32 d.tag.resid
  else rg d a

/-- EXP_RUN.STATE (R452): 0 IDLE, 1 ARMED, 2 LEAD, 3 RUN, 4 HALTED. -/
def expState (d : Dev) : Nat :=
  match d.exp.run with
  | some r => if r.next ≤ r.goLead then 2 else 3
  | none => if d.exp.halted then 4 else if d.exp.queue != [] then 1 else 0

def liveExp (d : Dev) (a : Nat) : W32 :=
  let e := d.exp
  let run (f : Run → Bool) : Nat := b2n (e.run.any f)
  if a = Adr.EXP_TMIN then setBits (rg d a) 31 16 (tminNs d)
  else if a = Adr.EXP_PACE then setBits (rg d a) 23 16 (osReq d)
  else if a = Adr.EXP_TKT_STAT then
    w32 (put 16 (min 7 e.queue.length) + put 3 (b2n ((e.queue.head?).any fun t => t.rejected)) + e.words.length % 8)
  else if a = Adr.EXP_RUN then
    w32 (put 7 (run fun r => r.tkt.slotB) + put 6 (run fun r => r.tkt.minus) + put 5 (run fun r => r.refused) +
      put 4 (b2n d.muz.muzzled) + expState d)
  else if a = Adr.EXP_POS_LO then w32 e.pos
  else if a = Adr.EXP_POS_HI then e.posHi
  else if a = Adr.EXP_GO_POS_LO then w32 e.goPos
  else if a = Adr.EXP_GO_POS_HI then e.goPosHi
  else if a = Adr.EXP_HWM then (match e.run with | some r => w32 (ofS 32 r.hwm) | none => rg d a)
  else rg d a

def liveMuz (d : Dev) (a : Nat) : W32 :=
  let m := d.muz
  let lvl (l : Nat) : Nat := b2n (d.fcl.lvl.any fun x => x = l)
  if a = Adr.MUZ_LIMIT then w32 (m.limit % 2048)
  else if a = Adr.MUZ_STAT then
    w32 (put 31 (b2n m.muzzled) + put 30 (b2n m.muzzled) + put 29 (b2n m.stuck) + put 7 (b2n m.abortPin) + put 6 (b2n m.blankPin) +
      put 5 (b2n (m.whBlank || m.whStop)) + put 4 (b2n m.netstop) + put 3 (b2n m.supply) + put 2 (lvl 3) + put 1 (lvl 2) +
      b2n m.track)
  else rg d a

def liveHel (d : Dev) (a : Nat) : W32 :=
  let h := d.hel
  if a = Adr.HEL_STAT then
    w32 (put 24 (if h.v = 0 then 0 else if 0 < h.v then 1 else 2) + put 16 (if h.mode = 3 ∧ inStripe d then h.leash % 256 else 0) + put 8 (h.acqLeft % 32) + h.mode)
  else if a = Adr.HEL_INJ_CTRL then rg d a ||| w32 (put 31 (b2n h.inj))
  else if a = Adr.HEL_CAP_CTRL then
    rg d a ||| w32 (put 31 (b2n h.capDone) + put 30 (b2n h.capArmed) + put 29 (b2n h.capTrig))
  else if a = Adr.HEL_CAP_STAT then w32 (put 16 (h.capTrigIdx % 32768) + h.capFirst % 32768)
  else rg d a

/-! ### Any register -/

/-- The word of a block register of instance `n` of a page, its domain on. -/
def blockRead (d : Dev) (p : Page) (n a : Nat) : W32 :=
  match p with
  | .glb => liveGlb d a
  | .pmu => livePmu d a
  | .nvm => liveNvm d a
  | .fcl => liveFcl d a
  | .tim => liveTim d a
  | .knl => liveKnl d a
  | .mei => liveMei d a
  | .dmaG => liveDmaG d a
  | .dmaCh => liveDmaCh d n a
  | .spl => liveSpl d a
  | .cdcG => liveCdcG d a
  | .cdcE => liveCdcE d n a
  | .xpd => liveXpd d a
  | .pxc => livePxc d a
  | .ras => liveRas d n a
  | .ver => liveVer d a
  | .stc => liveStc d a
  | .bob => liveBob d a
  | .mc => liveMc d n a
  | .glr => liveGlr d a
  | .tag => liveTag d a
  | .exp => liveExp d a
  | .muz => liveMuz d a
  | .hel => liveHel d a
  | .lane => liveLane d n a
  | .chk => if a = Adr.CHK_STAT n then w32 (put 31 (b2n (chkFifo d n != [])) + chkLevel d n) else rg d a
  | .alt => rg d a
  | .bst => rg d a
  | .hlk => rg d a

/-- A word of a table window (R734) other than the mending view. -/
def windowRead (d : Dev) (a : Nat) : W32 :=
  let m := d.stc.dbm
  if !windowUsed a then 0
  else if a = Adr.DBM_STATUS then
    w32 (put 31 (b2n m.valid) + put 30 (b2n m.pending) + put 29 (b2n m.copying) + put 24 m.nextSlot + put 16 m.curSlot + m.curGen)
  else if a = Adr.DBM_DEAD then w32 (dbmDead d m.curSlot).length
  else if Adr.DBM_SLOT 0 ≤ a ∧ a ≤ Adr.DBM_SLOT 8 then
    let s := nth m.slots ((a - Adr.DBM_SLOT 0) / 4) {}
    w32 (put 31 (b2n s.held) + s.gen)
  else if Adr.DBM_STATUS ≤ a ∧ a < Adr.DBM_BITS 0 0 then 0
  else rg d a

end Sys2Proof.Machine
end

