-- ==== Sys2Proof/Machine/Ctl.lean ====
section
/-! DEFINITION. The control word of a page: ENABLE, QUIESCE, ISOLATE and SOFT_RESET (R736, R737, R740, R489 and the chapters of the
pages), the self-test of a resource (R599, R601), and writes of the rest of the common header. -/

namespace Sys2Proof.Machine

/-! ### SOFT_RESET (R740) -/

/-- Set counters to zero. -/
def zeroRegs (d : Dev) (l : List Nat) : Dev := l.foldl (fun d a => wr d a 0) d

/-- Clear the events of a page. -/
def evtsClear (d : Dev) (base : Nat) : Dev := wr d (base + oEVTPEND) 0

/-- SOFT_RESET of SPL (chapter 02, R762). -/
def splSoftReset (d : Dev) : Dev :=
  setSpl (zeroRegs d [Adr.SPL_CNT_DAMAGED, Adr.SPL_CNT_DISCARD, Adr.SPL_CNT_GIVEUP]) fun s => { s with reqs := [], naks := [], lost := false }

/-- STC's current stripe is no longer stitched, and its remaining shots count as gathered (R442). -/
def stcDrop (d : Dev) (k : Nat) : Dev :=
  { d with stc := { d.stc with cur := d.stc.cur.map fun x =>
    if x.tkt.seq = k then { x with ended := true, gathered := max x.gathered x.tkt.n } else x } }

/-- SOFT_RESET of STC (R758). -/
def stcSoftReset (d : Dev) : Dev :=
  let d := zeroRegs d [Adr.STC_CNT_SHORT, Adr.STC_CNT_STARVE, Adr.STC_CNT_TAG, Adr.STC_CNT_DARNED, Adr.STC_CNT_RESTITCH]
  match d.stc.cur with
  | none => d
  | some st =>
    if !stcActive d then d
    else
      let k := st.tkt.seq
      let d := if (running d k).isSome then abortStripe d (some 5) else updTkt d k fun t => { t with swept := true }
      stcDrop d k

/-- SOFT_RESET of EXP (chapter 09): the stripe in progress is aborted with a STOP entry, and every ticket goes. -/
def expSoftReset (d : Dev) : Dev :=
  let d := abortStripe d (some 5)
  let gone := d.exp.queue.map (·.seq)
  let d := gone.foldl stcDrop (setExp d fun e => { e with queue := [], arriving := [], halted := false, wakeHead := false })
  let d := { d with stc := { d.stc with todo := d.stc.todo.filter fun t => !gone.contains t.seq }, bob := { d.bob with low := false } }
  zeroRegs d [Adr.EXP_CNT_SHOTS, Adr.EXP_CNT_SKIP, Adr.EXP_CNT_BACKLASH, Adr.EXP_CNT_GO_IGNORED]

/-- SOFT_RESET of GLR (chapter 08): the link goes down under R389, and counters, history and range are cleared. -/
def glrSoftReset (d : Dev) : Dev :=
  let d := zeroRegs (linkDown d) [Adr.GLR_CNT_ROWFAIL, Adr.GLR_CNT_LANE, Adr.GLR_CNT_RESEND, Adr.GLR_CNT_BADMSG]
  unackClear (setGlr d fun g => { g with hist := [] })

/-- SOFT_RESET of a raster tile (chapter 05): its patches are taken back. -/
def rasSoftReset (d : Dev) (n : Nat) : Dev :=
  takeBack (zeroRegs d [Adr.RAS_CNT_PATCH n, Adr.RAS_CNT_MISMATCH n, Adr.RAS_CNT_CONFIRMED n, Adr.RAS_CNT_AWAKE n, Adr.RAS_TEST n]) n

/-- SOFT_RESET of VER (chapter 05). -/
def verSoftReset (d : Dev) : Dev :=
  zeroRegs d [Adr.VER_CNT_PASS1, Adr.VER_CNT_PASS2, Adr.VER_CNT_FLAGGED, Adr.VER_CNT_WITHHELD, Adr.VER_CNT_POISON_RR, Adr.VER_MM_STRIPE,
    Adr.VER_MM_PATCH, Adr.VER_MM_KIND, Adr.VER_MM_DIFF_LO, Adr.VER_MM_DIFF_HI, Adr.VER_MM_BOUND_LO, Adr.VER_MM_BOUND_HI]

/-- SOFT_RESET of MEI (chapter 14). -/
def meiSoftReset (d : Dev) : Dev :=
  setMei (zeroRegs d [Adr.MEI_CNT_CE, Adr.MEI_CNT_UE, Adr.MEI_CNT_POISON, Adr.MEI_CNT_REMAP, Adr.MEI_CNT_TRK_DROP,
    Adr.MEI_LAST_UE_LO, Adr.MEI_LAST_UE_HI, Adr.MEI_LAST_UE_S, Adr.MEI_LAST_UE_NS]) fun m => { m with lastUeHi := 0 }

/-- SOFT_RESET of FCL (chapter 14). -/
def fclSoftReset (d : Dev) : Dev :=
  setFcl (zeroRegs d [Adr.FCL_FIRST, Adr.FCL_FIRST_S, Adr.FCL_FIRST_NS, Adr.FCL_CNT]) fun f => { f with log := [], ovf := false }

/-- SOFT_RESET of XPD (chapter 03): a wait ends as if its deadline had passed. -/
def xpdSoftReset (d : Dev) : Dev :=
  instLost (zeroRegs d [Adr.XPD_CNT_CULLED, Adr.XPD_CNT_SKIPPED, Adr.XPD_CNT_FAILED])

/-- SOFT_RESET of instance `n` of a page, as its chapter describes it (R740). -/
def softReset (d : Dev) (p : Page) (n : Nat) : Dev :=
  match p with
  | .glb =>
    let a := Page.glb.base 0 + oEVTPEND
    wr d a (putBit (putBit (rg d a) Bit.evt_GLB_SEALED false) Bit.evt_GLB_SWAPPED false)
  | .pmu => zeroRegs d [Adr.PMU_CNT_WARN, Adr.PMU_SUPPLY]
  | .nvm => zeroRegs d [Adr.NVM_CNT_STORE, Adr.NVM_CNT_REJECT]
  | .fcl => fclSoftReset d
  | .tim => wr (wr d Adr.TIM_CNT_OSMISS 0) Adr.TIM_TSQ_STAT 0
  | .knl => zeroRegs d ((List.range 16).map Adr.KNL_H2K ++ (List.range 16).map Adr.KNL_K2H)
  | .mei => meiSoftReset d
  | .chk => chkClear d n
  | .hlk => zeroRegs d [Adr.HLK_CNT_RECOV, Adr.HLK_CNT_UR, Adr.HLK_CNT_VC1]
  | .dmaG => zeroRegs d [Adr.DMA_BYTES_H2D_LO, Adr.DMA_BYTES_H2D_HI, Adr.DMA_BYTES_D2H_LO, Adr.DMA_BYTES_D2H_HI]
  | .dmaCh => chSoftReset d n
  | .spl => splSoftReset d
  | .cdcG =>
    evtsClear (zeroRegs d [Adr.CDC_CNT_FRAMES, Adr.CDC_CNT_CRC, Adr.CDC_CNT_FORMAT, Adr.CDC_CNT_OUT_LO, Adr.CDC_CNT_OUT_HI]) (Page.cdcG.base 0)
  | .cdcE => zeroRegs (engAbandon d n) [Adr.CDC_CNT_WORK n, Adr.CDC_CNT_IN n, Adr.CDC_CNT_OUT n]
  | .xpd => xpdSoftReset d
  | .alt => zeroRegs d [Adr.ALT_CNT_SUBDIV, Adr.ALT_CNT_CLIP]
  | .bst => secAbandon (zeroRegs d [Adr.BST_CNT_PIECES, Adr.BST_CNT_PATCHES, Adr.BST_CNT_CARRY]) .bst
  | .pxc => secAbandon (wr d Adr.PXC_CNT_CLAMP 0) .pxc
  | .ras => rasSoftReset d n
  | .ver => verSoftReset d
  | .stc => stcSoftReset d
  | .bob => evtsClear (zeroRegs d [Adr.BOB_CNT_MIGPOISON, Adr.BOB_CNT_LATE, Adr.BOB_CNT_LOW]) (Page.bob.base 0)
  | .mc =>
    zeroRegs d [Adr.MC_CNT_ACT n, Adr.MC_CNT_RD n, Adr.MC_CNT_WR n, Adr.MC_CNT_HIT n, Adr.MC_CNT_INORDER n, Adr.MC_CNT_URG3 n]
  | .glr => glrSoftReset d
  | .tag => if d.tag.x.isSome then glrTagged (tagReset d) else tagReset d
  | .exp => expSoftReset d
  | .muz => wr d Adr.MUZ_CNT 0
  | .hel => helReset d
  | .lane => zeroRegs d [Adr.LANE_BER n, Adr.LANE_CNT_UNCORR n, Adr.LANE_CNT_LOSS n]

/-! ### ENABLE, QUIESCE, ISOLATE -/

/-- Pages of resources that are self-tested at each setting of ENABLE (R599). -/
def Page.tested : Page → Bool
  | .ras => true
  | .cdcE => true
  | .dmaCh => true
  | .lane => true
  | _ => false

/-- Bit `i` of a page's control word goes from 0 to 1, from the block before `o` to the block after `d`. -/
def ctlSet (o d : Dev) (base i : Nat) : Bool := !ctrlBit o base i && ctrlBit d base i

/-- Bit `i` of a page's control word goes from 1 to 0. -/
def ctlClr (o d : Dev) (base i : Nat) : Bool := ctrlBit o base i && !ctrlBit d base i

/-- The control word of raster tile `n` has changed (R235, R242 to R246). -/
def ctlTile (o d : Dev) (n : Nat) : Dev :=
  let b := Page.ras.base n
  let left := tileInSvc o n && tileRole o n = 1 && !tileInSvc d n
  let held := (tileOf d n).work.head?
  let d := if ctlSet o d b 2 || ctlClr o d b 0 then takeBack d n else d
  let d := if ctlClr o d b 0 then tileStop d n else d
  let d := if ctlClr o d b 2 then wr d (Adr.RAS_CNT_CONFIRMED n) 0 else d
  if left then promote d n held else d

/-- The control word of codec engine `n` has changed (R552, R553). -/
def ctlEngine (o d : Dev) (n : Nat) : Dev :=
  let b := Page.cdcE.base n
  let d := if engInSvc d n && !engInSvc o n then engBack d n else d
  roleSettle (if ctlSet o d b 2 || ctlClr o d b 0 then engAbandon d n else d)

/-- The control word of DMA channel `n` has changed (R519, R521). -/
def ctlChan (o d : Dev) (n : Nat) : Dev :=
  let b := Page.dmaCh.base n
  if ctlClr o d b 2 then chReadmit d n else if ctlClr o d b 1 then chResume d n else d

/-- Transmit lane `n` leaves the map at once; how much of the frame on the link it has sent is open (R369, R371). -/
def laneRemove (d : Dev) (n : Nat) : Dev :=
  if (lane d n).live then lanesDrop d [n] laneDropFree else setLane d n fun l => { l with pendLive := false }

/-- The control word of lane `n` has changed (R369 to R372, R754, chapter 08). A lane that ENABLE retrains alone begins with FFE
preset 1 (R752). -/
def ctlLane (o d : Dev) (n : Nat) : Dev :=
  let b := Page.lane.base n
  let d := if ctlSet o d b 0 then
      setLane (if n < 48 then wr d (Adr.LANE_FFE n) (Config.ffePreset 1) else d) n fun l => { l with alone := true, good := false }
    else d
  let d := if ctlClr o d b 0 then setLane d n fun l => { l with alone := false, good := false } else d
  if 48 ≤ n then retUpdate (if ctlClr o d b 0 then setLane d n fun l => { l with lock := false } else d) n
  else if ctlClr o d b 0 then setLane (laneRemove d n) n fun l => { l with lock := false, fec := false }
  else if ctlSet o d b 2 then laneRemove d n
  else if ctlSet o d b 1 && !ctrlBit d b 2 then laneQuiesce d n
  else if laneAllowed d n && (ctlClr o d b 1 || ctlClr o d b 2) then laneJoin (setGlr d fun g => { g with leaving := setDel g.leaving n }) n
  else d

/-- The domains of the link follow GLR's ENABLE under POLICY FOLLOW (R674). -/
def glrFollow (d : Dev) (q : Nat) : Dev :=
  [11, 12].foldl (fun d k => if fd d (Adr.PMU_PD k) 5 4 = 2 then pdGo d k q else d) d

/-- The control word of GLR has changed (R388, R389, R674). -/
def ctlGlr (o d : Dev) : Dev :=
  let b := Page.glr.base 0
  if ctlSet o d b 0 then glrEnable (glrFollow d 1)
  else if ctlClr o d b 0 then glrFollow (linkDown d) 2
  else d

/-- What a change of the control word of instance `n` of a page does, from the block before `o` to the block after `d`. -/
def ctlActs (o d : Dev) (p : Page) (n : Nat) : Dev :=
  let b := p.base n
  let d := if p.tested && ctlSet o d b 0 then { d with testing := setIns d.testing b } else d
  let d := if ctlClr o d b 0 then { d with testing := setDel d.testing b } else d
  match p with
  | .ras => ctlTile o d n
  | .cdcE => ctlEngine o d n
  | .dmaCh => ctlChan o d n
  | .lane => ctlLane o d n
  | .glr => ctlGlr o d
  | .hel => if ctlClr o d b 0 then helOff d else d
  | _ => d

/-- A write of _CTRL to a page whose domain is off (R489, R674): ENABLE is a power request, for GLR one of both domains of the link (R388),
and of the word only it is stored. Clearing it puts HEL in OFF (R462). -/
def ctrlDark (d : Dev) (p : Page) (n : Nat) (v : W32) : Dev :=
  let a := p.base n + oCTRL
  let o := d
  let d := wr d a (putBit (rg d a) 0 (bit v 0))
  if p = .glr then
    let d := ctlGlr o d
    if bit v 0 then
      [11, 12].foldl (fun d k => if fd d (Adr.PMU_PD k) 5 4 ≠ 2 then standbyCheck (pdGo d k 1) else d) d
    else d
  else if p = .hel && bit (rg o a) 0 && !bit v 0 then helOff d
  else match p.domain n with
    | some k => if bit v 0 && decide (fd d (Adr.PMU_PD k) 5 4 ≠ 2) then standbyCheck (pdGo d k 1) else d
    | none => d

/-- A write of _CTRL by a requester the page grants (R737): the soft reset first, then the other bits. -/
def ctrlGo (d : Dev) (p : Page) (n : Nat) (v : W32) : Dev :=
  if !pageOn d p n then ctrlDark d p n v
  else
    let d := if bit v 3 then softReset d p n else d
    ctlActs d (wr d (p.base n + oCTRL) (v &&& 7)) p n

/-- A write of _CTRL of the page at `base` (R16, R489). -/
def ctrlWrite (d : Dev) (req : Req) (base : Nat) (v : W32) : Dev :=
  match pageOf base with
  | some (p, n) => if base = p.base n && owns d req p n then ctrlGo d p n v else d
  | none => d

/-- The self-test of the resource of the page at `base` ends (R244, R521, R553, R599, R601): it reads ISOLATED, and a return lane is
then out of use (R754); or it stays out of service. -/
def selfTestDone (d : Dev) (base : Nat) (pass : Bool) : Dev :=
  if !d.testing.contains base then d
  else
    let d := { d with testing := setDel d.testing base }
    let a := base + oCTRL
    if pass then
      let d := wr d a (putBit (rg d a) 2 true)
      match pg base with
      | (.lane, n) => if 48 ≤ n then retUpdate d n else d
      | _ => d
    else match pg base with
      | (.ras, n) => testFail d (.tile n)
      | (.cdcE, n) => testFail d (.engine n)
      | (.dmaCh, n) => testFail d (.channel n)
      | (.lane, n) => testFail d (.lane n)
      | _ => d

/-! ### Events, injections, and the rest of the header -/

/-- A write of _EVT_PEND (R494): one more message when it leaves the vector's level at 1. -/
def evtPendWrite (d : Dev) (base : Nat) (v : W32) : Dev :=
  let a := base + oEVTPEND
  let d := wr d a (rg d a &&& ~~~v)
  if vectorLevel d (vecOf base) then sendMsix d (vecOf base) else d

/-- A write of _EVT_EN: a vector whose level rises sends its message (R494). -/
def evtEnWrite (d : Dev) (base : Nat) (v : W32) : Dev :=
  let was := vectorLevel d (vecOf base)
  let d := wr d (base + oEVTEN) (v &&& 0xFFFF)
  if !was && vectorLevel d (vecOf base) then sendMsix d (vecOf base) else d

/-- A write of _INJECT (R603; R250 on VER, R746 on MUZ; reserved on pages without a protected memory). -/
def injectWrite (d : Dev) (p : Page) (n : Nat) (v : W32) : Dev :=
  match p with
  | .ver => verInject d v
  | .muz => muzInject d v
  | _ => if p.hasInject then wr d (p.base n + oINJECT) (v &&& 0x17) else d

/-- A write of a header word other than _CTRL and _OWNER, by a requester that reaches it (R736). -/
def headWrite (d : Dev) (p : Page) (n o : Nat) (v : W32) : Dev :=
  let b := p.base n
  if o = oEVTPEND then evtPendWrite d b v
  else if o = oEVTEN then evtEnWrite d b v
  else if o = oERRLATCH then errClear d b v
  else if o = oERRMASK then (if p.errs = [] then d else wr d (b + oERRMASK) (v &&& 0xFFFF))
  else if o = oINJECT then injectWrite d p n v
  else if o = 0x38 then wr d (b + 0x38) v
  else d

/-! ### Commands -/

/-- ENABLE_SET (R244): a write of _CTRL with ENABLE. -/
def execEnableSet (req : Req) (base : Nat) (v : W32) (s : State) : Answer := runS s fun d => ctrlWrite d req base (putBit v 0 true)

/-- ENABLE_CLEAR (R244): a write of _CTRL without ENABLE. -/
def execEnableClear (req : Req) (base : Nat) (v : W32) (s : State) : Answer := runS s fun d => ctrlWrite d req base (putBit v 0 false)

/-- QUIESCE_SET (R242). -/
def execQuiesceSet (req : Req) (base : Nat) (v : W32) (s : State) : Answer := runS s fun d => ctrlWrite d req base (putBit v 1 true)

/-- QUIESCE_CLEAR (R519). -/
def execQuiesceClear (req : Req) (base : Nat) (v : W32) (s : State) : Answer := runS s fun d => ctrlWrite d req base (putBit v 1 false)

/-- ISOLATE_SET (R243). -/
def execIsolateSet (req : Req) (base : Nat) (v : W32) (s : State) : Answer := runS s fun d => ctrlWrite d req base (putBit v 2 true)

/-- ISOLATE_CLEAR (R246). -/
def execIsolateClear (req : Req) (base : Nat) (v : W32) (s : State) : Answer := runS s fun d => ctrlWrite d req base (putBit v 2 false)

/-- SOFT_RESET (R740). -/
def execSoftReset (req : Req) (base : Nat) (v : W32) (s : State) : Answer := runS s fun d => ctrlWrite d req base (putBit v 3 true)

/-- ENABLE_SELF_TEST_DONE (R599). -/
def execEnableSelfTestDone (base : Nat) (pass : Bool) (s : State) : Answer := runS s fun d => selfTestDone d base pass

/-- EVT_PEND_WRITE (R494). -/
def execEvtPendWrite (req : Req) (base : Nat) (v : W32) (s : State) : Answer := run s fun d =>
  match pageOf base with
  | some (p, n) => if base = p.base n then write d req (base + oEVTPEND) fun d => evtPendWrite d base v else d
  | none => d

/-- INJECT (R603). -/
def execInject (req : Req) (base : Nat) (v : W32) (s : State) : Answer := run s fun d =>
  match pageOf base with
  | some (p, n) => if base = p.base n then write d req (base + oINJECT) fun d => injectWrite d p n v else d
  | none => d

end Sys2Proof.Machine
end

