-- ==== Sys2Proof/Machine/Bus.lean ====
section
/-! DEFINITION. Accesses to BAR0 and BAR2 (R9 to R20, R488, R489, R734, R741): what a write of any register or window word does, what
a read of any returns and latches, and the words of a job slot that the stream may write (R84 to R87). -/

namespace Sys2Proof.Machine

/-! ### Block registers -/

/-- A write of MEI_RMP_ENT0 (R618): only KNL's. -/
def rmpEnt0 (d : Dev) (req : Req) (v : W32) : Dev := if req = .knl then rmpRetire d v else d

/-- A write of MEI_RMP_ENT1 (R618): the place of the entry selected. -/
def rmpEnt1 (d : Dev) (v : W32) : Dev :=
  let w := rg d Adr.MEI_RMP_SEL
  let move (r : Remap) : Remap :=
    if r.sram = bit w 31 ∧ r.index = bits w 15 0 then
      { r with addr := if r.sram then v.toNat % 65536 else (v &&& 0x3FFFFC1F).toNat, old := none }
    else r
  setMei d fun m => { m with remaps := m.remaps.map move }

/-- A write of RAS_ROLE (R235): an ACTIVE tile that it takes out of service may have a spare follow it. -/
def rasRole (d : Dev) (n : Nat) (v : W32) : Dev :=
  let was := tileInSvc d n && tileRole d n = 1
  let d := storeReg d (Adr.RAS_ROLE n) v
  if was && !tileInSvc d n then promote d n (tileOf d n).work.head? else d

/-- A write of LANE_FFE: reserved on return lanes; the host's takes effect only while the lane is isolated. -/
def laneFfe (d : Dev) (req : Req) (n : Nat) (v : W32) : Dev :=
  if 48 ≤ n then d
  else if req = .host && !ctrlBit d (Page.lane.base n) 2 then d
  else storeReg d (Adr.LANE_FFE n) v

/-- A write of SPL_SEQ, taken while SPL is idle (R129, R762): the stream begins anew at the number written. -/
def splSeq (d : Dev) (v : W32) : Dev :=
  if pageBusy d .spl 0 then d
  else setSpl d fun s => { s with pos := v.toNat, line := [], naks := [], gaps := 0, top := v.toNat, last := none, skip := 0 }

/-- Writes of chapter 13 to 16 registers with an effect beyond the store. -/
def writeMgmt (d : Dev) (req : Req) (p : Page) (a : Nat) (v : W32) : Dev :=
  match p with
  | .glb => if a = Adr.GLB_JOB_SWAP then jobSwap d v else storeReg d a v
  | .pmu =>
    if a < Adr.PMU_STAT then pmuPd d ((a - Adr.PMU_PD 0) / 4) v
    else if a = Adr.PMU_CMD then pmuCmd d v
    else if a = Adr.PMU_CLK then standbyCheck (storeReg d a v)
    else storeReg d a v
  | .nvm =>
    if a = Adr.NVM_CMD then nvmCmd d v
    else if Adr.NVM_BUF 0 ≤ a then setNvm d fun n => { n with buf := alSet n.buf ((a - Adr.NVM_BUF 0) / 4) v }
    else storeReg d a v
  | .fcl =>
    if a = Adr.FCL_STATUS_LO then fclStatus d v
    else if a = Adr.FCL_CMD then fclCmd d v
    else if a = Adr.FCL_LOG_STAT then (if bit v 31 then setFcl d fun f => { f with ovf := false } else d)
    else if a = Adr.FCL_OUT then storeReg d a v
    else if Adr.FCL_SEV 0 ≤ a then fclSev d ((a - Adr.FCL_SEV 0) / 4) v
    else storeReg d a v
  | .tim => if a = Adr.TIM_CMD then timCmd d v else if a = Adr.TIM_OS_CORR_HI then osCorrHi d v else storeReg d a v
  | .knl =>
    if a = Adr.KNL_CMD then knlCmd d v
    else if a = Adr.KNL_KICK then knlKick d
    else if a = Adr.KNL_H2K_DB then h2kDoorbell d
    else if a = Adr.KNL_K2H_DB then (if req = .knl then k2hDoorbell d else d)
    else if a = Adr.KNL_MAC_CFG ∨ a = Adr.KNL_MAC_TXTAIL then macGo (storeReg d a v)
    else if a = Adr.KNL_NSTOP_CMD then nstopCmd d v
    else storeReg d a v
  | .mei =>
    if a = Adr.MEI_INJ_CTRL then meiInj d v
    else if a = Adr.MEI_RMP_ENT0 then rmpEnt0 d req v
    else if a = Adr.MEI_RMP_ENT1 then rmpEnt1 d v
    else storeReg d a v
  | _ => storeReg d a v

/-- A write of a block register of instance `n` of a page, by a requester that reaches it (R12, and the rules that give a register
an effect of its own). -/
def blockWrite (d : Dev) (req : Req) (p : Page) (n a : Nat) (v : W32) : Dev :=
  match p with
  | .chk =>
    if a = Adr.CHK_CMD n then chkCmd d n v
    else if a = Adr.CHK_D8 n then chkData d n 1 v
    else if a = Adr.CHK_D16 n then chkData d n 2 v
    else if a = Adr.CHK_D32 n then chkData d n 4 v
    else storeReg d a v
  | .dmaCh =>
    if a = Adr.DMA_HEAD_LO n then chHead d n false v
    else if a = Adr.DMA_HEAD_HI n then chHead d n true v
    else if a = Adr.DMA_DB n then chDoorbell d n
    else if a = Adr.DMA_DISABLE n then chDisable d n v
    else storeReg d a v
  | .spl =>
    if a = Adr.SPL_SEQ then splSeq d v
    else if a = Adr.SPL_REQ_STAT then (if bit v 31 then setSpl d fun s => { s with ovf := false } else d)
    else storeReg d a v
  | .cdcG => if a = Adr.CDC_ROLE then roleSettle (storeReg d a v) else storeReg d a v
  | .cdcE => if a = Adr.CDC_JOB_CTRL n then jobCtrl d req n v else storeReg d a v
  | .xpd => if a = Adr.XPD_QUERY then xpdQuery d v else storeReg d a v
  | .ras => if a = Adr.RAS_TEST n then rasTest d n v else if a = Adr.RAS_ROLE n then rasRole d n v else storeReg d a v
  | .bob =>
    if a = Adr.BOB_MIG_CTRL then migCtrl d v
    else if Adr.BOB_PCSTATE 0 ≤ a then pcStateWrite d ((a - Adr.BOB_PCSTATE 0) / 4) v
    else storeReg d a v
  | .glr => if a = Adr.GLR_CMD then glrCmd d v else if a = Adr.GLR_CFG then linkCheck (storeReg d a v) else storeReg d a v
  | .lane => if a = Adr.LANE_FFE n then laneFfe d req n v else storeReg d a v
  | .tag => if a = Adr.TAG_CTRL then tagCtrl d v else storeReg d a v
  | .exp => if a = Adr.EXP_TKT then tktWord d v else if a = Adr.EXP_CMD then expCmd d v else storeReg d a v
  | .muz => if a = Adr.MUZ_CMD then muzCmd d v else storeReg d a v
  | .hel =>
    if a = Adr.HEL_CFG then helCfg d v
    else if a = Adr.HEL_CMD then helCmd d v
    else if a = Adr.HEL_INJ_CTRL then helInjCtrl d v
    else if a = Adr.HEL_CAP_CTRL then helCapCtrl d v
    else storeReg d a v
  | .alt => storeReg d a v
  | .bst => storeReg d a v
  | .pxc => storeReg d a v
  | .ver => storeReg d a v
  | .stc => storeReg d a v
  | .mc => storeReg d a v
  | .hlk => storeReg d a v
  | .dmaG => storeReg d a v
  | p => writeMgmt d req p a v

/-! ### Table windows (R734) -/

/-- Largest DELAY of the table (R35). -/
def delayMax (d : Dev) : Nat := (List.range 512).foldl (fun m r => max m (fd d (Adr.ROW_DELAY r) 13 0)) 0

/-- A write of a ROW_DELAY word (R36): DMAX is recomputed, and until then it is an open value. -/
def rowDelay (d : Dev) (a : Nat) (v : W32) : Dev :=
  let (f, d) := takeFree d
  wr (wr d a (v &&& 0x3FFF)) Adr.GEOM_DMAX (w32 (2147483648 + f.toNat % 16384))

/-- The recomputation of DMAX completes (R36). -/
def dmaxDone (d : Dev) : Dev := if bit (rg d Adr.GEOM_DMAX) 31 then wr d Adr.GEOM_DMAX (w32 (delayMax d)) else d

/-- A word of the grid memory as stored, its reserved bits zero (R155 to R157). -/
def gridStored (o : Nat) (v : W32) : W32 :=
  let b := o % 0x100000
  if b < 0x2000 ∨ 0x3000 ≤ b then v
  else if b % 16 = 0 then v &&& 0x1FFFF
  else if b % 16 = 4 then v &&& 0x01FF01FF
  else v

/-- A write of a grid-memory word; an injected one spoils it (R603, R604). -/
def gridWrite (d : Dev) (o : Nat) (v : W32) : Dev :=
  let (m, d) := injTake (wr d (Adr.GRID_MEM o) (gridStored o v)) (Page.alt.base 0) true
  setXpd d fun x => { x with gridBad := if 2 ≤ m then setIns x.gridBad o else setDel x.gridBad o }

/-- A write of a window word, by a requester that reaches it (R734). -/
def windowWrite (d : Dev) (a : Nat) (v : W32) : Dev :=
  if !windowUsed a then d
  else if a < 0x149000 then ucStore d ((a - 0x148000) / 4) v
  else if a < 0x1200000 then tableStored (wr d a (v &&& 0x7FFFF)) a
  else if a < 0x1300000 then
    (if a = Adr.DBM_COMMIT then dbmCommitWrite d v
     else if Adr.DBM_BITS 0 0 ≤ a then dbmBitsWrite d ((a - Adr.DBM_BITS 0 0) / 0x10000) ((a - Adr.DBM_BITS 0 0) % 0x10000 / 4) v
     else d)
  else if a < 0x1400000 then
    let (_, d) := injTake d (Page.exp.base 0) true
    if a < Adr.ROW_GEOM 0 then rowDelay d a v else if a < Adr.GEOM_DMAX then wr d a (v &&& 0xFF) else d
  else if a < 0x1800000 then gridWrite d (a - 0x1400000) v
  else d

/-! ### Any BAR0 access -/

/-- A write of _OWNER (R18): only KNL's, on any page. -/
def ownerWrite (d : Dev) (req : Req) (p : Page) (n : Nat) (v : W32) : Dev :=
  if req = .knl && pageOn d p n then wr d (p.base n + oOWNER) (v &&& 7) else d

/-- A 32-bit write to BAR0 (R9, R16 to R19, R488, R489). -/
def busWrite (d : Dev) (req : Req) (a : Nat) (v : W32) : Dev :=
  if a % 4 ≠ 0 then d
  else if inWindow a then (if acc d req a then windowWrite d a v else d)
  else
    match pageOf a with
    | none => d
    | some (p, n) =>
      let o := a % 0x1000
      if o = oOWNER then ownerWrite d req p n v
      else if o = oCTRL then ctrlWrite d req (p.base n) v
      else if !acc d req a then d
      else if o < 0x100 then headWrite d p n o v
      else blockWrite d req p n a v

/-- Header registers that every requester reads, whatever _OWNER holds (R17). -/
def openRead (o : Nat) : Bool := o = 0 || o = 4 || o = 0x0C || o = oOWNER

/-- The value that a read of BAR0 returns (R9, R12, R17, R19, R488, R489). -/
def busValue (d : Dev) (req : Req) (a : Nat) : W32 :=
  if a % 4 ≠ 0 then 0
  else if inWindow a then
    (if !acc d req a then 0
     else if Adr.MEND_VIEW 0 ≤ a then (mendView d (a - Adr.MEND_VIEW 0)).1
     else windowRead d a)
  else
    match pageOf a with
    | none => 0
    | some (p, n) =>
      let o := a % 0x1000
      if o = 0 then w32 (idWord p n)
      else if o = 0x0C then stateWord d p n
      else if !pageOn d p n then 0
      else if openRead o then headRead d p n o
      else if !acc d req a then 0
      else if o < 0x100 then headRead d p n o
      else blockRead d p n a

/-- What a read of a LO word latches into its HI word. -/
def readLatch (d : Dev) (p : Page) (n a : Nat) : Dev :=
  match p with
  | .mei => if a = Adr.MEI_LAST_UE_LO then setMei d fun m => { m with lastUeHi := rg d Adr.MEI_LAST_UE_HI } else d
  | .dmaG =>
    if a = Adr.DMA_BYTES_H2D_LO then { d with hlk := { d.hlk with h2dHi := rg d Adr.DMA_BYTES_H2D_HI } }
    else if a = Adr.DMA_BYTES_D2H_LO then { d with hlk := { d.hlk with d2hHi := rg d Adr.DMA_BYTES_D2H_HI } }
    else d
  | .dmaCh =>
    if a = Adr.DMA_CNT_BYTES_LO n then setChan d n fun c => { c with bytesHi := rg d (Adr.DMA_CNT_BYTES_HI n) }
    else if a = Adr.DMA_CUR_LO n then setChan d n fun c => { c with curHi := w32 (c.cur / 4294967296) }
    else d
  | .exp =>
    if a = Adr.EXP_POS_LO then setExp d fun e => { e with posHi := w32 (e.pos / 4294967296 % 65536) }
    else if a = Adr.EXP_GO_POS_LO then setExp d fun e => { e with goPosHi := w32 (e.goPos / 4294967296 % 65536) }
    else d
  | .cdcG => if a = Adr.CDC_CNT_OUT_LO then { d with cdcHi := rg d Adr.CDC_CNT_OUT_HI } else d
  | _ => d

/-- What else a read does, by a requester that reaches the word: queues advance and pairs latch. -/
def readActs (d : Dev) (a : Nat) : Dev :=
  match pageOf a with
  | none => d
  | some (p, n) =>
    if a = Adr.SPL_REQ_W2 then reqPop d
    else if a = Adr.FCL_LOG_W2 then fclPop d
    else if a = Adr.TIM_TSQ_NS then tsqPop d
    else if a = Adr.TIM_NS then (timNsRead d).2
    else readLatch d p n a

/-- A 32-bit read of BAR0: the value, and what the read does. -/
def busRead (d : Dev) (req : Req) (a : Nat) : W32 × Dev :=
  if !acc d req a then (busValue d req a, d)
  else if inWindow a then
    (if Adr.MEND_VIEW 0 ≤ a then mendViewRead d (a - Adr.MEND_VIEW 0) else (busValue d req a, d))
  else if a = Adr.NVM_RD_DATA then nvRead d
  else (busValue d req a, readActs d a)

/-- A read of `len` bytes as the register space takes it (R9, R10, R488): its dwords one after the other in ascending order; a
narrower or misaligned one returns zero. DESIGN CHOICE (log entry 8): so it is for every requester, KNL's core and DBG too, where
R10 and R488 speak of PCIe. -/
def sizedRead (get : Dev → Nat → W32 × Dev) (d : Dev) (a len : Nat) : List W32 × Dev :=
  if a % 4 ≠ 0 ∨ len % 4 ≠ 0 then (List.replicate ((a % 4 + len + 3) / 4) 0, d)
  else (List.range (len / 4)).foldl (fun (x : List W32 × Dev) i =>
    let (v, d) := get x.2 (a + 4 * i)
    (x.1 ++ [v], d)) ([], d)

/-- The answer to a read: to the host in completions of at most Max_Payload_Size (R488). -/
def completions (d : Dev) (req : Req) (a : Nat) (ws : List W32) : Dev :=
  if req = .host then (pieces (maxPayload d) a (4 * ws.length)).foldl (fun d p =>
    emit d (.readData req (a + p.1) ((ws.drop (p.1 / 4)).take (p.2 / 4)))) d
  else emit d (.readData req a ws)

/-! ### BAR2 (R741, R493, R494) -/

/-- Bits of a word of an MSI-X entry that are stored, by its place in the entry. -/
def msixMask (o : Nat) : W32 := if o % 16 = 0 then 0xFFFFFFFC else if o % 16 = 12 then 1 else 0xFFFFFFFF

/-- A message held for vector `v` goes out once nothing masks it, if the level that caused it still stands (R494, PCIe). -/
def msixRelease (d : Dev) (v : Nat) : Dev :=
  if d.hlk.msixPend.contains v && !msixMasked d v then
    let d := { d with hlk := { d.hlk with msixPend := setDel d.hlk.msixPend v } }
    if vectorLevel d v then sendMsix d v else d
  else d

/-- Every message held goes out as far as nothing masks it. -/
def msixReleaseAll (d : Dev) : Dev := (List.range 64).foldl msixRelease d

/-- Whether the pending bit of vector `v` reads 1: a message is held, and the vector's level has not dropped since (R494, PCIe). -/
def msixHeld (d : Dev) (v : Nat) : Bool := d.hlk.msixPend.contains v && vectorLevel d v

/-- A 32-bit write to BAR2. -/
def bar2Write (d : Dev) (o : Nat) (v : W32) : Dev :=
  if o = 4 then whCmd d v
  else if 0x800 ≤ o ∧ o < 0xC00 ∧ o % 4 = 0 then
    let x := v &&& msixMask o
    msixRelease { d with bar2 := if x = (if o % 16 = 12 then 1 else 0) then alDel d.bar2 o else alSet d.bar2 o x } ((o - 0x800) / 16)
  else d

/-- What a 32-bit read of BAR2 returns (R501, R741). -/
def bar2Value (d : Dev) (o : Nat) : W32 :=
  if o = 0 then 0x52400001
  else if o = 8 then whStat d (expState d)
  else if o = 0x0C then d.hlk.whCnt
  else if o = 0x10 then d.hlk.whStray
  else if 0x800 ≤ o ∧ o < 0xC00 ∧ o % 4 = 0 then msixWord d o
  else if o = 0xC00 then w32 (mask32 0 (msixHeld d))
  else if o = 0xC04 then w32 (mask32 32 (msixHeld d))
  else 0

/-- A write of `size` bytes as the register space takes it (R9, R10, R488): whole aligned dwords one after the other in ascending
order; a narrower or misaligned one does nothing. DESIGN CHOICE (log entry 8): so it is for every requester, KNL's core and DBG
too, where R10 and R488 speak of PCIe. -/
def sizedWrite (put : Dev → Nat → W32 → Dev) (d : Dev) (size a : Nat) (ws : List W32) : Dev :=
  if a % 4 ≠ 0 ∨ size ≠ 4 * ws.length then d
  else ((List.range ws.length).zip ws).foldl (fun d x => put d (a + 4 * x.1) x.2) d

/-! ### The configuration space (R483, R485; log entry 93) -/

/-- A configuration write. PRESUMED from PCIe: the places of the fields. Device Control bit 15 is the Function Level Reset; leaving
D3hot lets the channels and the messages go on, the block's state kept. -/
def cfgWrite (d : Dev) (r : CfgReg) (v : W32) : Dev :=
  let set (f : Pcie → Pcie) : Dev := { d with hlk := { d.hlk with cfg := f d.hlk.cfg } }
  match r with
  | .devCtl =>
    if bit v 15 then hlkReset d
    else set fun c => { c with mps := bits v 7 5, mrrs := bits v 14 12, ro := bit v 4, ns := bit v 11 }
  | .devCtl2 => set fun c => { c with tmo := bits v 3 0 }
  | .pmcsr =>
    if bits v 1 0 = 3 then set fun c => { c with d3 := true }
    else if bits v 1 0 = 0 then (List.range 16).foldl chResume (msixReleaseAll (set fun c => { c with d3 := false }))
    else d
  | .msixCtl => msixReleaseAll (set fun c => { c with msixEn := bit v 31, msixFm := bit v 30 })
  | .vc1Ctl => set fun c => { c with vc1 := bit v 31 && bit v 7 }
  | .aerUnc => { d with hlk := { d.hlk with aer := d.hlk.aer &&& ~~~v } }
  | .id => d
  | .classRev => d
  | .aerHdr _ => d

/-- What a configuration read returns. -/
def cfgRead (d : Dev) (r : CfgReg) : W32 :=
  let c := d.hlk.cfg
  match r with
  | .id => w32 (0x52400000 + Config.vendorId.toNat)
  | .classRev => w32 (0x12000000 + Config.revisionId.toNat)
  | .devCtl => w32 (put 12 c.mrrs + put 11 (b2n c.ns) + put 5 c.mps + put 4 (b2n c.ro))
  | .devCtl2 => w32 c.tmo
  | .pmcsr => w32 (if c.d3 then 3 else 0)
  | .msixCtl => w32 (put 31 (b2n c.msixEn) + put 30 (b2n c.msixFm) + put 16 63)
  | .vc1Ctl => w32 (put 31 (b2n c.vc1) + put 24 1 + put 7 (b2n c.vc1))
  | .aerUnc => d.hlk.aer
  | .aerHdr i => nth c.hdr i 0

/-- REGISTER_WRITE: to BAR0 by any requester, or by the host, which alone reaches them, to BAR2 (R741) or the configuration space; on
VC1 only writes to BAR2 are served (R499), and in D3hot only configuration requests and, ahead of every queue (R495), the
whistle. -/
def registerWrite (d : Dev) (req : Req) (space : Space) (size a : Nat) (ws : List W32) (vc1 : Bool) : Dev :=
  let vc := vc1 && req = .host
  if !vcOpen d vc then d
  else
    let d := vc1Seen d vc
    match space with
    | .cfg r => if req = .host then (if vc then hlkUr d else cfgWrite d r (nth ws 0 0)) else d
    | .bar2 =>
      if req ≠ .host then d
      else if d.hlk.cfg.d3 ∧ a ≠ 4 then hlkUr d
      else sizedWrite bar2Write d size a ws
    | .bar0 =>
      if vc || (req = .host && d.hlk.cfg.d3) then hlkUr d
      else sizedWrite (fun d a v => settle (busWrite d req a v)) d size a ws

/-- A read of `len` bytes, by any requester of BAR0, by the host of BAR2 or the configuration space; on VC1 no read is served (R499),
and in D3hot only configuration reads are. -/
def registerRead (d : Dev) (req : Req) (space : Space) (a len : Nat) (vc1 : Bool) : Dev :=
  let vc := vc1 && req = .host
  if !vcOpen d vc then d
  else
    let d := vc1Seen d vc
    let ur := vc || (req = .host && d.hlk.cfg.d3)
    match space with
    | .cfg r => if req = .host then (if vc then hlkUr d else completions d req a [cfgRead d r]) else d
    | .bar2 =>
      if req ≠ .host then d
      else if ur then hlkUr d
      else
        let (ws, d) := sizedRead (fun d o => (bar2Value d o, d)) d a len
        completions d req a ws
    | .bar0 =>
      if ur then hlkUr d
      else
        let (ws, d) := sizedRead (fun d a => busRead d req a) d a len
        completions d req a ws

/-! ### In-band writes (R84 to R87, R556) -/

/-- Whether the register at `a` belongs to a job slot, A or B (R556); grid memory is not written in the stream. -/
def slotOwns (b : Bool) (a : Nat) : Bool :=
  a = slotReg b Adr.GLB_SLOT_A Adr.GLB_SLOT_B || a = slotReg b Adr.GLB_JOBID_A Adr.GLB_JOBID_B ||
  a = slotReg b Adr.XPD_CFG_A Adr.XPD_CFG_B || a = slotReg b Adr.ALT_MAX_SEG_A Adr.ALT_MAX_SEG_B ||
  a = slotReg b Adr.PXC_CFG_A Adr.PXC_CFG_B || a = slotReg b Adr.PXC_FOG_A Adr.PXC_FOG_B ||
  a = slotReg b Adr.PXC_MLIM_A Adr.PXC_MLIM_B || a = slotReg b Adr.STC_SCALE_A Adr.STC_SCALE_B ||
  a = slotReg b Adr.EXP_RATIO_A Adr.EXP_RATIO_B || a = slotReg b Adr.EXP_STROBE_A Adr.EXP_STROBE_B ||
  (let t := slotReg b (Adr.PXC_TERM_A 0) (Adr.PXC_TERM_B 0); decide (t ≤ a ∧ a < t + 16)) ||
  (let t := slotReg b 0x51400 0x51900; decide (t ≤ a ∧ a < t + 0x500))

/-- Apply `n` pairs of a SLOT_WRITE record as HOST writes, in order (R85). -/
def slotPairs (b : Bool) : Nat → Dev → List W32 → Dev
  | 0, d, _ => d
  | _ + 1, d, [] => d
  | _ + 1, d, [_] => d
  | n + 1, d, a :: v :: r => slotPairs b n (if slotOwns b a.toNat then busWrite d .host a.toNat v else d) r

/-- Whether the stripe of every earlier section that names slot `b` has ended (R86). -/
def slotFree (d : Dev) (b : Bool) : Bool := d.secs.all fun s => s.slotB != b || tktOver d s.num

/-- SLOT_WRITE (R84 to R86). -/
def recSlotWrite (d : Dev) (u : Upset) : Dev := withRec d 0x02 [1] 0 u fun d w =>
  let b := bit (rw w 1) 0
  if slotFree d b then recDone (slotPairs b (min (rw w 2).toNat (w.length / 2)) d (w.drop 3)) w else d

/-! ### Commands -/

/-- REGISTER_WRITE (R12). -/
def execRegisterWrite (req : Req) (space : Space) (size a : Nat) (ws : List W32) (vc1 : Bool) (s : State) : Answer := runS s fun d =>
  registerWrite d req space size a ws vc1

/-- ROW_DELAY (R36): row `r`. -/
def execRowDelay (req : Req) (r : Nat) (v : W32) (s : State) : Answer := run s fun d =>
  if r < 512 then busWrite d req (Adr.ROW_DELAY r) v else d

/-- GEOM_DMAX_DONE (R36). -/
def execGeomDmaxDone (s : State) : Answer := run s dmaxDone

/-- SLOT_WRITE (R86). -/
def execSlotWrite (u : Upset) (s : State) : Answer := runS s fun d => recSlotWrite d u

/-- READ_OF_LO (R526): a read, of the LO word of a pair or of any other. -/
def execReadOfLo (req : Req) (rd : ReadAt) (s : State) : Answer := run s fun d => registerRead d req rd.space rd.a rd.len rd.vc1

end Sys2Proof.Machine
end

