-- ==== Sys2Proof/Machine/HelCmd.lean ====
section
/-! DEFINITION. The commands of Heel (chapter 10). A microcode instruction's command executes the word at the program's address
when that word is the instruction; where it is another one, or the program has no time left before the tick, nothing happens. -/

namespace Sys2Proof.Machine

/-- TICK (R457). -/
def execTick (t : Nat) (enc : Bool) (s : State) : Answer := run s fun d => helTick d t enc

/-- NOP. -/
def execNop (s : State) : Answer := run s fun d => ucExec d 0x00 1 (fun d _ => d) ucNext

/-- LDI (R470): a sign-extended 23-bit immediate. -/
def execLdi (s : State) : Answer := run s fun d => ucAlu d 0x01 1 fun _ w => toS 23 (fld w 22 0)

/-- LDH (R470): bits [31:16] loaded, [15:0] kept. -/
def execLdh (s : State) : Answer := run s fun d => ucAlu d 0x02 1 fun h w =>
  toS 32 (fld w 15 0 * 65536 + ofS 32 (ucReg h (ucD w)) % 65536)

/-- ADD (R470), saturating. -/
def execAdd (s : State) : Answer := run s fun d => ucAlu d 0x03 1 fun h w => satS 32 (ucReg h (ucA w) + ucReg h (ucB w))

/-- SUB (R470), saturating. -/
def execSub (s : State) : Answer := run s fun d => ucAlu d 0x04 1 fun h w => satS 32 (ucReg h (ucA w) - ucReg h (ucB w))

/-- ADDI (R470). R470 names ADD, SUB, MUL and SHL as saturating and says nothing of ADDI beyond s32: what it delivers where the
sum leaves s32 is open. -/
def execAddi (s : State) : Answer := run s fun d => ucExec d 0x05 1 (fun d w =>
  let x := ucReg d.hel (ucA w) + toS 15 (ucImm w)
  if satS 32 x = x then setHel d fun h => ucSet h (ucD w) x
  else
    let (v, d) := takeFree d
    setHel d fun h => ucSet h (ucD w) (toS 32 v.toNat)) ucNext

/-- MUL (R470). -/
def execMul (s : State) : Answer := run s fun d => ucAlu d 0x06 2 fun h w =>
  ucMul (ucReg h (ucA w)) (ucReg h (ucB w)) (ucImm w % 32)

/-- SHR (R470), arithmetic. -/
def execShr (s : State) : Answer := run s fun d => ucAlu d 0x07 1 fun h w => ucReg h (ucA w) / 2 ^ (ucImm w % 32)

/-- SHL (R470), saturating. -/
def execShl (s : State) : Answer := run s fun d => ucAlu d 0x08 1 fun h w => satS 32 (ucReg h (ucA w) * 2 ^ (ucImm w % 32))

/-- MIN (R470). -/
def execMinI (s : State) : Answer := run s fun d => ucAlu d 0x09 1 fun h w => min (ucReg h (ucA w)) (ucReg h (ucB w))

/-- MAX (R470). -/
def execMaxI (s : State) : Answer := run s fun d => ucAlu d 0x0A 1 fun h w => max (ucReg h (ucA w)) (ucReg h (ucB w))

/-- IN (R472): the port as latched at the tick. -/
def execInPort (s : State) : Answer := run s fun d => ucAlu d 0x0B 1 fun h w => nth h.ports (ucImm w % 16) 0

/-- CF (R470, R475): the coefficient as sampled at the tick. -/
def execCf (s : State) : Answer := run s fun d => ucAlu d 0x0C 1 fun h w =>
  toS 32 (nth h.smp (4 + ucImm w % 16) 0).toNat

/-- HYST (R460, R465). -/
def execHyst (s : State) : Answer := run s fun d =>
  ucExec d 0x0D 1 (fun d w => helHyst d (ucReg d.hel (ucA w))) ucNext

/-- OUT (R460). -/
def execOutI (s : State) : Answer := run s fun d =>
  ucExec d 0x0E 1 (fun d w => helOut d (ucReg d.hel (ucA w))) ucNext

/-- CAP (R479): capture words 1 and 2 of the sample's entry. -/
def execCapI (s : State) : Answer := run s fun d =>
  ucExec d 0x0F 1 (fun d w =>
    match d.hel.capCur with
    | some i => wr (wr d (Adr.HEL_CAP i + 4) (w32 (ofS 32 (ucReg d.hel (ucA w))))) (Adr.HEL_CAP i + 8)
        (w32 (ofS 32 (ucReg d.hel (ucB w))))
    | none => d) ucNext

/-- BR (R470). -/
def execBr (s : State) : Answer := run s fun d => ucExec d 0x10 2 (fun d _ => d) fun _ w => ucImm w % 256

/-- A conditional branch: 2 QCLK when taken, else 1. -/
def ucCond (d : Dev) (op : Nat) (c : Int → Bool) : Dev :=
  if c (ucReg d.hel (ucA (ucWord d))) then ucExec d op 2 (fun d _ => d) fun _ w => ucImm w % 256
  else ucExec d op 1 (fun d _ => d) ucNext

/-- BZ (R470). -/
def execBz (s : State) : Answer := run s fun d => ucCond d 0x11 fun v => decide (v = 0)

/-- BN (R470). -/
def execBn (s : State) : Answer := run s fun d => ucCond d 0x12 fun v => decide (v < 0)

/-- WAIT (R458, R473): the sample is complete, and HEL_CYC takes its QCLK count. -/
def execWaitInstruction (s : State) : Answer := run s fun d =>
  ucExec d 0x13 1 (fun d _ =>
    let n := d.hel.cyc + 1
    let mx := max n (fd d Adr.HEL_CYC 7 0)
    setHel (wr d Adr.HEL_CYC (w32 (n * 256 + mx))) fun h => { h with complete := true, going := false }) ucNext

/-- UC_FAULT (R471). -/
def execUcFault (ue : Bool) (s : State) : Answer := run s fun d =>
  if qclk d && d.hel.going && (ue || decide (0x13 < ucOp (ucWord d)) || d.hel.bad.contains (d.hel.pc % 256)) then ucFault d else d

/-- PEAK_CLR (R482). -/
def execPeakClr (req : Req) (v : W32) (s : State) : Answer := run s fun d =>
  write d req Adr.HEL_CMD fun d => helCmd d (v ||| 8)

/-- RELOAD (R468). -/
def execReload (req : Req) (v : W32) (s : State) : Answer := run s fun d =>
  write d req Adr.HEL_CMD fun d => helCmd d (v ||| 4)

/-- SAFE (R464). -/
def execSafe (req : Req) (v : W32) (s : State) : Answer := run s fun d =>
  write d req Adr.HEL_CMD fun d => helCmd d (v ||| 2)

/-- ACQ (R462). -/
def execAcq (req : Req) (v : W32) (s : State) : Answer := run s fun d =>
  write d req Adr.HEL_CMD fun d => helCmd d (v ||| 1)

/-- INJ_ARM (R477). -/
def execInjArm (req : Req) (v : W32) (s : State) : Answer := run s fun d =>
  write d req Adr.HEL_INJ_CTRL fun d => helInjCtrl d (v ||| 1)

/-- INJ_STOP (R478). -/
def execInjStop (req : Req) (v : W32) (s : State) : Answer := run s fun d =>
  write d req Adr.HEL_INJ_CTRL fun d => helInjCtrl d (v ||| 2)

/-- CAP_ARM (R479). -/
def execCapArm (req : Req) (v : W32) (s : State) : Answer := run s fun d =>
  write d req Adr.HEL_CAP_CTRL fun d => helCapCtrl d (v ||| 1)

/-- MICROCODE_WRITE (R468). -/
def execMicrocodeWrite (req : Req) (a : Nat) (v : W32) (s : State) : Answer := run s fun d =>
  if a < 256 then write d req (Adr.HEL_UC a) fun d => ucStore d a v else d

end Sys2Proof.Machine
end

