-- ==== Sys2Proof/Machine/Xfer.lean ====
section
/-! DEFINITION. Transfers of the DMA channels (R502 to R518, R486): what a descriptor moves, and how it ends. -/

namespace Sys2Proof.Machine

/-- Fields of channel `n`'s descriptor (R503). -/
def xLen (d : Dev) (n : Nat) : Nat := (nth (chanOf d n).desc 1 0).toNat
def xDir (d : Dev) (n : Nat) : Nat := bits (nth (chanOf d n).desc 0 0) 25 24
def xTgt (d : Dev) (n : Nat) : Nat := bits (nth (chanOf d n).desc 0 0) 23 20
def xHost (d : Dev) (n : Nat) : Nat := (nth (chanOf d n).desc 2 0).toNat + 4294967296 * (nth (chanOf d n).desc 3 0).toNat
def xDev (d : Dev) (n : Nat) : Nat := (nth (chanOf d n).desc 4 0).toNat + 4294967296 * (nth (chanOf d n).desc 5 0).toNat

/-- The requester as which a channel reaches BAR0 and KNL SRAM (R502). -/
def chReq (n : Nat) : Req := if n < 12 then .host else .knl

/-- Whether the descriptor in progress is one that R503 and R504 define; one with a reserved DIR or TGT, or SPOOL towards the host, is
the user's error and stalls its channel (R21, R22). -/
def xDefined (d : Dev) (n : Nat) : Bool := decide (xDir d n < 2 ∧ xTgt d n < 4) && !(xDir d n = 1 && xTgt d n = 0)

/-- Bytes written to BAR0 as 32-bit accesses in ascending order (R488). -/
def barPut (d : Dev) (req : Req) (a : Nat) (l : List Byte) : Dev :=
  ((List.range (l.length / 4)).zip (wordsOf l)).foldl (fun d x => busWrite d req (a + 4 * x.1) x.2) d

/-- Bytes read from BAR0. -/
def barGet (d : Dev) (req : Req) (a n : Nat) : List Byte × Dev :=
  (List.range (n / 4)).foldl (fun (x : List Byte × Dev) i =>
    let (v, d) := busRead x.2 req (a + 4 * i)
    (x.1 ++ leBytes 4 v.toNat, d)) ([], d)

/-- The data `l` of channel `n`'s transfer reaches its target (R504); a standard channel does not reach KNL SRAM. -/
def xferPut (d : Dev) (n : Nat) (l : List Byte) : Dev :=
  let a := xDev d n
  match xTgt d n with
  | 1 => hbmWrite (wakeMem d) a l
  | 2 => barPut d (chReq n) a l
  | 3 => if 12 ≤ n then sramWrite d a l else d
  | _ => d

/-- `len` bytes of the source of channel `n`'s transfer from offset `o`, and which bytes' sectors carry the poison code, counted from
there (R504, R518). -/
def xferGet (d : Dev) (n o len : Nat) : List Byte × (Nat → Bool) × Dev :=
  let a := xDev d n + o
  match xTgt d n with
  | 1 =>
    let d := wakeMem d
    let (inj, d) := hbmInjRead d a len
    let (l, d') := daRead d a len
    (l, (fun i => (inj && (a + i) / 32 = a / 32) || hbmBad d ((a + i) / 32 * 32) 32), d')
  | 2 =>
    let (l, d) := barGet d (chReq n) a len
    (l, (fun _ => false), d)
  | 3 =>
    if n < 12 then (List.replicate len 0, (fun _ => false), d)
    else
      let (l, d') := sramRead d a len
      (l, (fun i => sramBad d ((a + i) / 32 * 32) 32), d')
  | _ => ([], (fun _ => false), d)

/-- The sectors of 32 bytes that `len` bytes from `a` touch, as offset and length. -/
def sectorsOf (a len : Nat) : List (Nat × Nat) := pieces 32 a len

/-- One write of data to host memory (R518): of `l`, at offset `o` of the transfer, a poisoned sector carries EP under HLK_CFG.EP_FWD,
and is zero otherwise. -/
def xferWrite (d : Dev) (n o : Nat) (l : List Byte) (bad : Nat → Bool) : Dev :=
  let h := xHost d n + o
  let secs := sectorsOf (xDev d n + o) l.length
  let ep := bit (rg d Adr.HLK_CFG) 0
  if secs.any fun s => bad s.1 then
    secs.foldl (fun d s =>
      let x := (l.drop s.1).take s.2
      if bad s.1 then hostData d (h + s.1) (if ep then x else List.replicate s.2 0) ep else hostData d (h + s.1) x false) d
  else hostData d h l false

/-- The bytes of channel `n`'s transfer to the host from offset `o`, `len` of them, go out in writes of at most Max_Payload_Size
(R523), and the offset of the first poisoned sector is kept. -/
def xferSend (d : Dev) (n o len : Nat) : Dev :=
  let (l, bad, d) := xferGet d n o len
  let d := (pieces (maxPayload d) (xHost d n + o) len).foldl (fun d p =>
    xferWrite d n (o + p.1) ((l.drop p.1).take p.2) fun i => bad (p.1 + i)) d
  let hit := ((sectorsOf (xDev d n + o) len).find? fun s => bad s.1).map fun s => o + s.1
  setChan d n fun c => { c with sent := o + len, badAt := match c.badAt with
    | some b => some b
    | none => hit }

/-- The read requests for the bytes of channel `n`'s transfer from offset `o`, `len` of them, each at most Max_Read_Request_Size
(R483, R523). -/
def xferAsk (d : Dev) (n o len : Nat) : Dev :=
  let ps := pieces (maxRead d) (xHost d n + o) len
  let d := ps.foldl (fun d p => if linkOut d then emit d (.hostRead n (xHost d n + o + p.1) p.2 (dmaNs d)) else d) d
  setChan d n fun c => { c with sent := o + len, reads := c.reads + ps.length }

/-- A transfer to host memory is complete (R512, R513, R518): what has not gone out goes, and DONE_LEN counts the bytes ahead of the
first poisoned sector. -/
def xferOut (d : Dev) (n : Nat) : Dev :=
  let o := (chanOf d n).sent
  let d := xferSend d n o (xLen d n - o)
  match (chanOf d n).badAt with
  | some b => chComplete d n 5 b
  | none => chComplete d n 1 (xLen d n)

/-- The requests of a transfer from host memory that have not gone out go (R523): it has ended, so they had been answered. -/
def xferAsked (d : Dev) (n : Nat) : Dev := xferAsk d n (chanOf d n).sent (xLen d n - (chanOf d n).sent)

/-- A transfer from host memory fails with `code` (R515): of the data `l` that have reached the target, `done` bytes have wholly; a
SPOOL descriptor delivers nothing. -/
def xferFail (d : Dev) (n code done : Nat) (l : List Byte) : Dev :=
  let l := l.take (xLen d n)
  if xTgt d n = 0 then chFail (fun d _ _ => d) d n code 0 []
  else chFail xferPut d n code (min done l.length) l

/-- The transfer of a descriptor ends (R512, R515). -/
def xferDone (d : Dev) (n : Nat) (res : Xfer) : Dev :=
  if !chMoving d n || !xDefined d n then d
  else if xDir d n = 1 then (match res with | .ok _ => xferOut d n | .bad _ _ => d)
  else
    match res with
    | .ok l =>
      if xTgt d n = 0 then (if (chanOf d n).given then chComplete (xferAsked d n) n 1 (xLen d n) else d)
      else if l.length = xLen d n then chComplete (xferPut (xferAsked d n) n l) n 1 (xLen d n)
      else d
    | .bad done l => if (chanOf d n).given then d else xferFail d n 3 done l

/-- A host read of a transfer meets the completion timeout (R512, R514). -/
def hostTimeout (d : Dev) (n done : Nat) (l : List Byte) : Dev :=
  if chMoving d n && xDefined d n && decide (xDir d n = 0) && !(chanOf d n).given && (chanOf d n).block.isNone then xferFail d n 2 done l
  else d

/-- A device-side request of a transfer meets DMA_TMO (R514): towards the host, `done` bytes have been sent. None runs while a block
waits for spool space. -/
def devTimeout (d : Dev) (n done : Nat) (l : List Byte) : Dev :=
  if !chMoving d n || !xDefined d n || (chanOf d n).given || (chanOf d n).block.isSome then d
  else if xDir d n = 0 then xferFail d n 4 done l
  else
    let o := (chanOf d n).sent
    let done := max o (min done (xLen d n))
    chComplete (xferSend d n o (done - o)) n 4 done

/-- The link goes down (R486): outstanding reads end as timeouts, and posted writes are dropped. `reads` lists the channels with
data reads outstanding, the bytes that have wholly reached each target, and the data that have. -/
def hlkDown (d : Dev) (reads : List (Nat × Nat × List Byte)) : Dev :=
  if !d.hlk.up then d
  else
    let d := hlkErr (wr { d with hlk := { d.hlk with up := false } } Adr.HLK_LINK 0) Bit.err_HLK_LINK_DOWN
    let d := (List.range 16).foldl (fun d n =>
      if chFetching d n then chHalt d n 2 Bit.err_DMACH_FETCH_FAIL (chanOf d n).cur else d) d
    reads.foldl (fun d r => if r.1 < 16 then hostTimeout d r.1 r.2.1 r.2.2 else d) d

/-! ### Sharing the link (R523) -/

/-- Whether channel `n` has a read request or a write to send now (R523): at most 64 of its read requests are outstanding, and 768 of
all channels (R483). None goes out while a block waits for spool space (R319). -/
def linkWork (d : Dev) (n : Nat) : Bool :=
  let c := chanOf d n
  let mayRead := decide (c.reads < 64 ∧ sumN (d.chans.map fun c => c.reads) < 768)
  linkOut d && ((chFetching d n && !c.asked && mayRead) ||
    (chMoving d n && xDefined d n && !c.given && c.block.isNone && decide (c.sent < xLen d n) && (xDir d n = 1 || mayRead)))

/-- The turn of channel `n`: the read of its descriptor (R507, R508), or the next read request or write of its transfer. -/
def linkSend (d : Dev) (n : Nat) : Dev :=
  let c := chanOf d n
  if chFetching d n then
    setChan (emit d (.hostRead n c.cur (if c.phase = .reread then 32 else 64) false)) n fun c => { c with asked := true, reads := 1 }
  else
    let u := if xDir d n = 1 then maxPayload d else maxRead d
    let k := min (xLen d n - c.sent) (u - (xHost d n + c.sent) % u)
    if xDir d n = 1 then xferSend d n c.sent k else xferAsk d n c.sent k

/-- The channel whose turn it is, and whether its turn opens a round (R523): channel n has WEIGHT turns in each. DESIGN CHOICE (log
entry 93): within a round the lowest channel with work and a turn left goes first. -/
def linkPick (d : Dev) : Option (Nat × Bool) :=
  let work := (List.range 16).filter fun n => linkWork d n && decide (0 < fd d (Adr.DMA_CH_CFG n) 3 0)
  match work.find? fun n => decide ((chanOf d n).turns < fd d (Adr.DMA_CH_CFG n) 3 0) with
  | some n => some (n, false)
  | none => work.head?.map fun n => (n, true)

/-- One turn on the link. -/
def linkTurn (d : Dev) : Dev :=
  match linkPick d with
  | none => d
  | some (n, new) =>
    let d := if new then { d with chans := d.chans.map fun c => { c with turns := 0 } } else d
    linkSend (setChan d n fun c => { c with turns := c.turns + 1 }) n

/-- The device-side writes of a transfer cut off land (R520: they may): how many of its first bytes, and what they are, is open. -/
def lateLand (d : Dev) : Dev :=
  match d.hlk.late with
  | [] => d
  | l :: rest =>
    let (v, d) := takeFree { d with hlk := { d.hlk with late := rest } }
    let (x, d) := freeBytes d (v.toNat % (l.len / 16 + 1) * 16)
    match l.tgt with
    | 1 => settle (hbmWrite (wakeMem d) l.dev x)
    | 2 => settle (barPut d (chReq l.ch) l.dev x)
    | _ => if 12 ≤ l.ch then sramWrite d l.dev x else d

/-! ### Commands -/

/-- DESCRIPTOR_DONE (R512). -/
def execDescriptorDone (n : Nat) (res : Xfer) (s : State) : Answer := runS s fun d => if n < 16 then xferDone d n res else d

/-- HOST_TIMEOUT (R512). -/
def execHostTimeout (n done : Nat) (l : List Byte) (s : State) : Answer := runS s fun d => if n < 16 then hostTimeout d n done l else d

/-- DEV_TIMEOUT (R514). -/
def execDevTimeout (n done : Nat) (l : List Byte) (s : State) : Answer := runS s fun d => if n < 16 then devTimeout d n done l else d

/-- HLK_LINK_DOWN (R486). -/
def execHlkLinkDown (reads : List (Nat × Nat × List Byte)) (s : State) : Answer := runS s fun d => hlkDown d reads

end Sys2Proof.Machine
end

