-- ==== Sys2Proof/Machine/Dispatch.lean ====
section
/-! DEFINITION. Dispatch: every command to its meaning. -/

namespace Sys2Proof.Machine

def exec (i : Instr) (s : State) : Host.Outcome State Fault Refusal :=
  match i with
  | .registerWrite req space size a ws vc1 => Sys2Proof.Machine.execRegisterWrite req space size a ws vc1 s
  | .enableSet req base v => Sys2Proof.Machine.execEnableSet req base v s
  | .enableClear req base v => Sys2Proof.Machine.execEnableClear req base v s
  | .enableSelfTestDone base pass => Sys2Proof.Machine.execEnableSelfTestDone base pass s
  | .quiesceSet req base v => Sys2Proof.Machine.execQuiesceSet req base v s
  | .quiesceClear req base v => Sys2Proof.Machine.execQuiesceClear req base v s
  | .isolateSet req base v => Sys2Proof.Machine.execIsolateSet req base v s
  | .isolateClear req base v => Sys2Proof.Machine.execIsolateClear req base v s
  | .softReset req base v => Sys2Proof.Machine.execSoftReset req base v s
  | .evtPendWrite req base v => Sys2Proof.Machine.execEvtPendWrite req base v s
  | .inject req base v => Sys2Proof.Machine.execInject req base v s
  | .rowDelay req r v => Sys2Proof.Machine.execRowDelay req r v s
  | .geomDmaxDone => Sys2Proof.Machine.execGeomDmaxDone s
  | .block ch data => Sys2Proof.Machine.execBlock ch data s
  | .gapWait => Sys2Proof.Machine.execGapWait s
  | .splNakHold seq => Sys2Proof.Machine.execSplNakHold seq s
  | .splReqW2 req => Sys2Proof.Machine.execSplReqW2 req s
  | .pad u => Sys2Proof.Machine.execPad u s
  | .slotWrite u => Sys2Proof.Machine.execSlotWrite u s
  | .cellOpen u => Sys2Proof.Machine.execCellOpen u s
  | .cellClose u => Sys2Proof.Machine.execCellClose u s
  | .cellDrop u => Sys2Proof.Machine.execCellDrop u s
  | .figure u => Sys2Proof.Machine.execFigure u s
  | .place u => Sys2Proof.Machine.execPlace u s
  | .array u => Sys2Proof.Machine.execArray u s
  | .stripeOpen u => Sys2Proof.Machine.execStripeOpen u s
  | .bin u => Sys2Proof.Machine.execBin u s
  | .origin u => Sys2Proof.Machine.execOrigin u s
  | .field u => Sys2Proof.Machine.execField u s
  | .stripeClose u => Sys2Proof.Machine.execStripeClose u s
  | .xpdQuery req v => Sys2Proof.Machine.execXpdQuery req v s
  | .xpdLookupDone => Sys2Proof.Machine.execXpdLookupDone s
  | .patchRecordAllocated => Sys2Proof.Machine.execPatchRecordAllocated s
  | .latched => Sys2Proof.Machine.execLatched s
  | .released u => Sys2Proof.Machine.execReleased u s
  | .dispatch scan => Sys2Proof.Machine.execDispatch scan s
  | .secondRaster scan => Sys2Proof.Machine.execSecondRaster scan s
  | .patchReport tile u => Sys2Proof.Machine.execPatchReport tile u s
  | .verTimeout tile => Sys2Proof.Machine.execVerTimeout tile s
  | .tileClockStop tile us => Sys2Proof.Machine.execTileClockStop tile us s
  | .tileWake tile => Sys2Proof.Machine.execTileWake tile s
  | .pdIdle dom => Sys2Proof.Machine.execPdIdle dom s
  | .rasTestStart req tile v => Sys2Proof.Machine.execRasTestStart req tile v s
  | .testDone tile pass => Sys2Proof.Machine.execTestDone tile pass s
  | .verInject req v => Sys2Proof.Machine.execVerInject req v s
  | .stitchRow fault => Sys2Proof.Machine.execStitchRow fault s
  | .gather late fault => Sys2Proof.Machine.execGather late fault s
  | .begin => Sys2Proof.Machine.execBegin s
  | .dbmCommit req v => Sys2Proof.Machine.execDbmCommit req v s
  | .dbmBitmapWrite req slot word v => Sys2Proof.Machine.execDbmBitmapWrite req slot word v s
  | .copyDone => Sys2Proof.Machine.execCopyDone s
  | .bobMendRd req v => Sys2Proof.Machine.execBobMendRd req v s
  | .mendWaitEnd => Sys2Proof.Machine.execMendWaitEnd s
  | .mendViewRead req o => Sys2Proof.Machine.execMendViewRead req o s
  | .bobRequest port da wr now => Sys2Proof.Machine.execBobRequest port da wr now s
  | .bobCompletion port latency => Sys2Proof.Machine.execBobCompletion port latency s
  | .refresh pc now => Sys2Proof.Machine.execRefresh pc now s
  | .refreshManagement pc now banks => Sys2Proof.Machine.execRefreshManagement pc now banks s
  | .openPageIdle pc k now => Sys2Proof.Machine.execOpenPageIdle pc k now s
  | .rowDue => Sys2Proof.Machine.execRowDue s
  | .spoolGrant ch => Sys2Proof.Machine.execSpoolGrant ch s
  | .migStart req v => Sys2Proof.Machine.execMigStart req v s
  | .migChunk bad => Sys2Proof.Machine.execMigChunk bad s
  | .bobPcstate req p v => Sys2Proof.Machine.execBobPcstate req p v s
  | .pcLost p => Sys2Proof.Machine.execPcLost p s
  | .caParity p k row us => Sys2Proof.Machine.execCaParity p k row us s
  | .transmitterFault lane unsent => Sys2Proof.Machine.execTransmitterFault lane unsent s
  | .hello lane rseq body => Sys2Proof.Machine.execHello lane rseq body s
  | .laneStatus lane rseq lock fec errs uncorr => Sys2Proof.Machine.execLaneStatus lane rseq lock fec errs uncorr s
  | .tuneReq lane rseq txLane tap action preset => Sys2Proof.Machine.execTuneReq lane rseq txLane tap action preset s
  | .rowFail lane rseq lseq nocommit crc seqf => Sys2Proof.Machine.execRowFail lane rseq lseq nocommit crc seqf s
  | .beamDied lane rseq lseq k j => Sys2Proof.Machine.execBeamDied lane rseq lseq k j s
  | .dbmPart lane rseq p bitmap => Sys2Proof.Machine.execDbmPart lane rseq p bitmap s
  | .dbmEnd lane rseq count crc => Sys2Proof.Machine.execDbmEnd lane rseq count crc s
  | .tagResp lane rseq plateId count mac => Sys2Proof.Machine.execTagResp lane rseq plateId count mac s
  | .tagAck lane rseq count mac => Sys2Proof.Machine.execTagAck lane rseq count mac s
  | .status lane ackLseq firedLseq nextRseq flags => Sys2Proof.Machine.execStatus lane ackLseq firedLseq nextRseq flags s
  | .badmsg lane => Sys2Proof.Machine.execBadmsg lane s
  | .resendTimeout => Sys2Proof.Machine.execResendTimeout s
  | .unackClr req v => Sys2Proof.Machine.execUnackClr req v s
  | .dbmReq req v => Sys2Proof.Machine.execDbmReq req v s
  | .lclkLocked => Sys2Proof.Machine.execLclkLocked s
  | .retLock => Sys2Proof.Machine.execRetLock s
  | .fecAlign => Sys2Proof.Machine.execFecAlign s
  | .trainHalfTimeout => Sys2Proof.Machine.execTrainHalfTimeout s
  | .trainFail => Sys2Proof.Machine.execTrainFail s
  | .dbmMs => Sys2Proof.Machine.execDbmMs s
  | .glrHb => Sys2Proof.Machine.execGlrHb s
  | .blockLockLost => Sys2Proof.Machine.execBlockLockLost s
  | .trained lane => Sys2Proof.Machine.execTrained lane s
  | .chal req v => Sys2Proof.Machine.execChal req v s
  | .tagRetry => Sys2Proof.Machine.execTagRetry s
  | .chkStart req unit v => Sys2Proof.Machine.execChkStart req unit v s
  | .chkD8 req unit v => Sys2Proof.Machine.execChkD8 req unit v s
  | .chkD16 req unit v => Sys2Proof.Machine.execChkD16 req unit v s
  | .chkD32 req unit v => Sys2Proof.Machine.execChkD32 req unit v s
  | .countEdge x y width t => Sys2Proof.Machine.execCountEdge x y width t s
  | .lossOfInputSwing => Sys2Proof.Machine.execLossOfInputSwing s
  | .encValidLow => Sys2Proof.Machine.execEncValidLow s
  | .stripeGo t => Sys2Proof.Machine.execStripeGo t s
  | .leadBoundary => Sys2Proof.Machine.execLeadBoundary s
  | .shotBoundary => Sys2Proof.Machine.execShotBoundary s
  | .osreqExpiry => Sys2Proof.Machine.execOsreqExpiry s
  | .freeze => Sys2Proof.Machine.execFreeze s
  | .strobeRise => Sys2Proof.Machine.execStrobeRise s
  | .strobeFall => Sys2Proof.Machine.execStrobeFall s
  | .strobeCut => Sys2Proof.Machine.execStrobeCut s
  | .calibration pass cells => Sys2Proof.Machine.execCalibration pass cells s
  | .abortAsserted => Sys2Proof.Machine.execAbortAsserted s
  | .abortReleased => Sys2Proof.Machine.execAbortReleased s
  | .blankReqAsserted => Sys2Proof.Machine.execBlankReqAsserted s
  | .blankReqReleased => Sys2Proof.Machine.execBlankReqReleased s
  | .clearStuck req v => Sys2Proof.Machine.execClearStuck req v s
  | .muzInjectCut req v => Sys2Proof.Machine.execMuzInjectCut req v s
  | .resume req v => Sys2Proof.Machine.execResume req v s
  | .tktClr req v => Sys2Proof.Machine.execTktClr req v s
  | .expTkt req v => Sys2Proof.Machine.execExpTkt req v s
  | .accepted => Sys2Proof.Machine.execAccepted s
  | .wake => Sys2Proof.Machine.execWake s
  | .paceFrame => Sys2Proof.Machine.execPaceFrame s
  | .tick t encValid => Sys2Proof.Machine.execTick t encValid s
  | .nop => Sys2Proof.Machine.execNop s
  | .ldi => Sys2Proof.Machine.execLdi s
  | .ldh => Sys2Proof.Machine.execLdh s
  | .add => Sys2Proof.Machine.execAdd s
  | .sub => Sys2Proof.Machine.execSub s
  | .addi => Sys2Proof.Machine.execAddi s
  | .mul => Sys2Proof.Machine.execMul s
  | .shr => Sys2Proof.Machine.execShr s
  | .shl => Sys2Proof.Machine.execShl s
  | .minI => Sys2Proof.Machine.execMinI s
  | .maxI => Sys2Proof.Machine.execMaxI s
  | .inPort => Sys2Proof.Machine.execInPort s
  | .cf => Sys2Proof.Machine.execCf s
  | .hyst => Sys2Proof.Machine.execHyst s
  | .outI => Sys2Proof.Machine.execOutI s
  | .capI => Sys2Proof.Machine.execCapI s
  | .br => Sys2Proof.Machine.execBr s
  | .bz => Sys2Proof.Machine.execBz s
  | .bn => Sys2Proof.Machine.execBn s
  | .waitInstruction => Sys2Proof.Machine.execWaitInstruction s
  | .ucFault ue => Sys2Proof.Machine.execUcFault ue s
  | .peakClr req v => Sys2Proof.Machine.execPeakClr req v s
  | .reload req v => Sys2Proof.Machine.execReload req v s
  | .safe req v => Sys2Proof.Machine.execSafe req v s
  | .acq req v => Sys2Proof.Machine.execAcq req v s
  | .injArm req v => Sys2Proof.Machine.execInjArm req v s
  | .injStop req v => Sys2Proof.Machine.execInjStop req v s
  | .capArm req v => Sys2Proof.Machine.execCapArm req v s
  | .microcodeWrite req a v => Sys2Proof.Machine.execMicrocodeWrite req a v s
  | .perst => Sys2Proof.Machine.execPerst s
  | .flr => Sys2Proof.Machine.execFlr s
  | .hlkLinkDown reads => Sys2Proof.Machine.execHlkLinkDown reads s
  | .linkUp gen width flit => Sys2Proof.Machine.execLinkUp gen width flit s
  | .bar4Access o wdata n vc1 => Sys2Proof.Machine.execBar4Access o wdata n vc1 s
  | .blankSet v vc1 => Sys2Proof.Machine.execBlankSet v vc1 s
  | .blankClr v vc1 => Sys2Proof.Machine.execBlankClr v vc1 s
  | .stopSet v vc1 => Sys2Proof.Machine.execStopSet v vc1 s
  | .stopClr v vc1 => Sys2Proof.Machine.execStopClr v vc1 s
  | .dmaHead req n hi v => Sys2Proof.Machine.execDmaHead req n hi v s
  | .dmaDb req n => Sys2Proof.Machine.execDmaDb req n s
  | .descriptorFetched n res => Sys2Proof.Machine.execDescriptorFetched n res s
  | .descriptorDone n res => Sys2Proof.Machine.execDescriptorDone n res s
  | .fetchTimeout n => Sys2Proof.Machine.execFetchTimeout n s
  | .hostTimeout n done l => Sys2Proof.Machine.execHostTimeout n done l s
  | .devTimeout n done l => Sys2Proof.Machine.execDevTimeout n done l s
  | .disable req n => Sys2Proof.Machine.execDisable req n s
  | .cdcRole req v => Sys2Proof.Machine.execCdcRole req v s
  | .cdcDispatch => Sys2Proof.Machine.execCdcDispatch s
  | .frameDecoded n => Sys2Proof.Machine.execFrameDecoded n s
  | .engUe n => Sys2Proof.Machine.execEngUe n s
  | .jobGo req n v => Sys2Proof.Machine.execJobGo req n v s
  | .snapReady n => Sys2Proof.Machine.execSnapReady n s
  | .jobAbort req n v => Sys2Proof.Machine.execJobAbort req n v s
  | .jobDone n => Sys2Proof.Machine.execJobDone n s
  | .jobSwapGo req v => Sys2Proof.Machine.execJobSwapGo req v s
  | .jobSwapCancel req v => Sys2Proof.Machine.execJobSwapCancel req v s
  | .swapWorkDone => Sys2Proof.Machine.execSwapWorkDone s
  | .scrubRead ups => Sys2Proof.Machine.execScrubRead ups s
  | .sramScrub m w found home last => Sys2Proof.Machine.execSramScrub m w found home last s
  | .odePoll counts => Sys2Proof.Machine.execOdePoll counts s
  | .meiInjGo req v => Sys2Proof.Machine.execMeiInjGo req v s
  | .fclStatus req v => Sys2Proof.Machine.execFclStatus req v s
  | .fclSev req src v => Sys2Proof.Machine.execFclSev req src v s
  | .fclLogW2 req => Sys2Proof.Machine.execFclLogW2 req s
  | .restart req v => Sys2Proof.Machine.execRestart req v s
  | .bark => Sys2Proof.Machine.execBark s
  | .wdog handled => Sys2Proof.Machine.execWdog handled s
  | .wdogReset => Sys2Proof.Machine.execWdogReset s
  | .knlKick req => Sys2Proof.Machine.execKnlKick req s
  | .poisonedLoad kind a => Sys2Proof.Machine.execPoisonedLoad kind a s
  | .confirm req v => Sys2Proof.Machine.execConfirm req v s
  | .away req v => Sys2Proof.Machine.execAway req v s
  | .awayEnd req v => Sys2Proof.Machine.execAwayEnd req v s
  | .reboot req v => Sys2Proof.Machine.execReboot req v s
  | .awayExpired => Sys2Proof.Machine.execAwayExpired s
  | .storeRegs req => Sys2Proof.Machine.execStoreRegs req s
  | .storeBoot req => Sys2Proof.Machine.execStoreBoot req s
  | .storeKey req index => Sys2Proof.Machine.execStoreKey req index s
  | .storeCrash req index => Sys2Proof.Machine.execStoreCrash req index s
  | .storeLog req => Sys2Proof.Machine.execStoreLog req s
  | .storeUser req => Sys2Proof.Machine.execStoreUser req s
  | .nvmDone ok => Sys2Proof.Machine.execNvmDone ok s
  | .knlH2kDb req => Sys2Proof.Machine.execKnlH2kDb req s
  | .knlK2hDb req => Sys2Proof.Machine.execKnlK2hDb req s
  | .update flash => Sys2Proof.Machine.execUpdate flash s
  | .rebootCommand => Sys2Proof.Machine.execRebootCommand s
  | .storeCommand => Sys2Proof.Machine.execStoreCommand s
  | .logExport => Sys2Proof.Machine.execLogExport s
  | .keyWrite => Sys2Proof.Machine.execKeyWrite s
  | .runSram => Sys2Proof.Machine.execRunSram s
  | .tempCheck got => Sys2Proof.Machine.execTempCheck got s
  | .secondCarry => Sys2Proof.Machine.execSecondCarry s
  | .ppsOutEnd => Sys2Proof.Machine.execPpsOutEnd s
  | .ppsIn rising => Sys2Proof.Machine.execPpsIn rising s
  | .timNs req => Sys2Proof.Machine.execTimNs req s
  | .step req v => Sys2Proof.Machine.execStep req v s
  | .trust req v => Sys2Proof.Machine.execTrust req v s
  | .hold req v => Sys2Proof.Machine.execHold req v s
  | .holdMax => Sys2Proof.Machine.execHoldMax s
  | .knlMacTxtail req v => Sys2Proof.Machine.execKnlMacTxtail req v s
  | .timOsCorrHi req v => Sys2Proof.Machine.execTimOsCorrHi req v s
  | .onestepDeadline => Sys2Proof.Machine.execOnestepDeadline s
  | .txWriteback => Sys2Proof.Machine.execTxWriteback s
  | .rxFrame data good => Sys2Proof.Machine.execRxFrame data good s
  | .netstopDatagram w0 w1 w2 w3 => Sys2Proof.Machine.execNetstopDatagram w0 w1 w2 w3 s
  | .timTsqNs req => Sys2Proof.Machine.execTimTsqNs req s
  | .nstopClr req v => Sys2Proof.Machine.execNstopClr req v s
  | .pdReqOn req n v => Sys2Proof.Machine.execPdReqOn req n v s
  | .pdReqOff req n v => Sys2Proof.Machine.execPdReqOff req n v s
  | .pdReqSelfRefresh req n v => Sys2Proof.Machine.execPdReqSelfRefresh req n v s
  | .pdSwitchDone n fails => Sys2Proof.Machine.execPdSwitchDone n fails s
  | .pdFail n => Sys2Proof.Machine.execPdFail n s
  | .pmuMemidle => Sys2Proof.Machine.execPmuMemidle s
  | .selfRefreshExit => Sys2Proof.Machine.execSelfRefreshExit s
  | .refclkLost => Sys2Proof.Machine.execRefclkLost s
  | .refclkReturn => Sys2Proof.Machine.execRefclkReturn s
  | .pllUnlock p => Sys2Proof.Machine.execPllUnlock p s
  | .pllLock p => Sys2Proof.Machine.execPllLock p s
  | .powerOn => Sys2Proof.Machine.execPowerOn s
  | .porst refclk lines fails => Sys2Proof.Machine.execPorst refclk lines fails s
  | .wrst => Sys2Proof.Machine.execWrst s
  | .warm req v => Sys2Proof.Machine.execWarm req v s
  | .warmEnd => Sys2Proof.Machine.execWarmEnd s
  | .supplyWarn r => Sys2Proof.Machine.execSupplyWarn r s
  | .railRelease r => Sys2Proof.Machine.execRailRelease r s
  | .warningEnd => Sys2Proof.Machine.execWarningEnd s
  | .brownout r => Sys2Proof.Machine.execBrownout r s
  | .brownoutRelease refclk lines fails => Sys2Proof.Machine.execBrownoutRelease refclk lines fails s
  | .commandSlot pc now => Sys2Proof.Machine.execCommandSlot pc now s
  | .returnLaneBlockLock lane lock => Sys2Proof.Machine.execReturnLaneBlockLock lane lock s
  | .readOfLo req rd => Sys2Proof.Machine.execReadOfLo req rd s
  | .remapEntryRetire req v => Sys2Proof.Machine.execRemapEntryRetire req v s
  | .managementNetworkLink up => Sys2Proof.Machine.execManagementNetworkLink up s

end Sys2Proof.Machine
end

