-- ==== Sys2Proof/Machine/Firmware.lean ====
section
/-! DEFINITION. What the standard firmware of KNL does of its own where a rule gives its effect on the block: the stripe reports
(R665), the event log (R557, R613, R642) and the repair sequences (R571 to R576). It acts while no command waits, one action of each
a step, once it runs and outside kennel-away (DESIGN CHOICE, log entry 95). With them, what passes while no command waits. -/

namespace Sys2Proof.Machine

/-- Whether the standard firmware runs. -/
def fwRuns (d : Dev) : Bool := pageClocked d .knl 0 && decide (d.knl.phase = 2) && !d.knl.away

/-! ### Stripe reports (R663 to R665) -/

/-- The stamp of report `id` in the queue: its departure in seconds and nanoseconds. -/
def stampOf (d : Dev) (id : Nat) : Option (Nat × Nat) := (d.tim.tsq.find? fun x => x.1 = id).map (·.2)

/-- The payload of report `id` (R665): its departure time goes into the next, all ones where that stamp was dropped. -/
def reportPayload (d : Dev) (r : Report) (id : Nat) : List Byte :=
  let prev : List W32 := match d.knl.rptLast.bind fun p => (stampOf d p).map fun t => (p, t) with
    | some (p, s, ns) => [w32 (p * 65536 + s / 4294967296 % 65536), w32 s, w32 ns]
    | none => [0xFFFFFFFF, 0xFFFFFFFF, 0xFFFFFFFF]
  bytesOfWords ([w32 0x5EA10100, w32 id, r.index,
    w32 (r.serial % 65536 * 65536 + b2n r.mending * 32768 + b2n r.slotB * 16384 + b2n r.unack * 8192), r.wr, r.secs, r.ns] ++ prev)

/-- The ones' complement sum of the 16-bit words of an IPv4 header. -/
def ipSum (l : List Byte) : Nat :=
  let s := sumN ((List.range (l.length / 2)).map fun i => (nth l (2 * i) 0).toNat * 256 + (nth l (2 * i + 1) 0).toNat)
  65535 - (s % 65536 + s / 65536) % 65535

/-- A UDP/IPv4 datagram to KNL_RPT_IP and KNL_RPT_PORT as an Ethernet frame without its FCS: what R665 leaves open (the collector's
hardware address, the identification, the time to live and the source port) is free. -/
def reportFrame (d : Dev) (p : List Byte) : List Byte × Dev :=
  let (f, d) := freeBytes d 11
  let ip (sum : Nat) : List Byte :=
    [0x45, 0] ++ beBytes 2 (28 + p.length) ++ (f.drop 6).take 2 ++ [0, 0] ++ (f.drop 8).take 1 ++ [17] ++ beBytes 2 sum ++
      beBytes 4 (rg d Adr.KNL_MAC_IP).toNat ++ beBytes 4 (rg d Adr.KNL_RPT_IP).toNat
  let mac := beBytes 2 (fd d Adr.KNL_MAC_ADDR_HI 15 0) ++ beBytes 4 (rg d Adr.KNL_MAC_ADDR_LO).toNat
  (f.take 6 ++ mac ++ [0x08, 0x00] ++ ip (ipSum (ip 0)) ++ (f.drop 9).take 2 ++ beBytes 2 (fd d Adr.KNL_RPT_PORT 15 0) ++
    beBytes 2 (8 + p.length) ++ [0, 0] ++ p, d)

/-- The firmware sends the report of the oldest sealed stripe that has none yet, as a STAMP frame (R663 to R665): REPORT_ID is one
more than the last, the last report's stamp is taken out of the queue, and the frame's own stamp enters it. -/
def reportSend (d : Dev) : Dev :=
  match d.glb.reports with
  | [] => d
  | r :: rest =>
    if !macRuns d then d
    else if fd d Adr.KNL_RPT_PORT 15 0 = 0 then { d with glb := { d.glb with reports := rest } }
    else
      let id := (d.knl.rptLast.elim 0 fun p => p + 1) % 65536
      let (l, d) := reportFrame { d with glb := { d.glb with reports := rest } } (reportPayload d r id)
      let d := match d.knl.rptLast with
        | some p => setTim d fun t => { t with tsq := t.tsq.filter fun x => x.1 != p }
        | none => d
      let (s, ns) := timBack d 0
      let d := setKnl (macSend d l) fun k => { k with rptLast := some id }
      if 16 ≤ d.tim.tsq.length then timErr (setFd d Adr.TIM_TSQ_STAT 31 31 1) Bit.err_TIM_TSQ_OVF
      else setTim d fun t => { t with tsq := t.tsq ++ [(id, s, ns)] }

/-! ### The event log (R557, R613, R642) -/

/-- TIM in nanoseconds. -/
def timTotal (d : Dev) : Nat := d.tim.sec * 1000000000 + d.tim.ns

/-- The firmware writes an entry into the event-log ring (R621, R642), with a time of its own where one is given. The entry's CODE,
which no rule states, is free. -/
def logEntry (d : Dev) (cls : Nat) (time : Option (W32 × W32)) (args : List W32) : Dev :=
  let (c, d) := takeFree d
  let t := time.getD (timS d, timNs d)
  let w2 := w32 (b2n (bit (rg d Adr.TIM_STAT) 31) * 65536 + d.tim.sec / 4294967296 % 65536)
  let n := (rg d Adr.KNL_LOG_WR).toNat
  let d := sramWrite d (0x70000 + 32 * (n % 1792)) (bytesOfWords ([w32 (cls * 16777216 + c.toNat % 65536), t.1, w2, t.2] ++ args))
  wr d Adr.KNL_LOG_WR (w32 (n + 1))

/-- Free words that stand for arguments that no rule states. -/
def freeArgs (d : Dev) (n : Nat) : List W32 × Dev :=
  let (l, d) := freeBytes d (4 * n)
  (wordsOf l, d)

/-- An entry of class REPAIR (R575). -/
def repairLog (d : Dev) : Dev :=
  let (l, d) := freeArgs d 4
  logEntry d 3 none l

/-- The page whose repair an entry of the FCL log calls for (R571, R573): a tile that VER has fenced, an engine with ENG_UE, a channel
in error, and BOB's page for a full remap table. -/
def repairOf (w0 : W32) : Option (Page × Nat) :=
  let s := bits w0 28 24
  let n := bits w0 21 16
  let b := bits w0 3 0
  if (s = 17 ∨ s = 18) ∧ b = Bit.err_RAS_FENCED then some (.ras, n)
  else if s = 12 ∧ b = Bit.err_CDCE_ENG_UE then some (.cdcE, n)
  else if s = 8 ∨ s = 9 then some (.dmaCh, n)
  else if s = 6 ∧ b = Bit.err_MEI_REMAP_FULL then some (.bob, 0)
  else none

/-- KNL drains the oldest entry of the FCL FIFO into the event log (R613, R642): an entry of class FCL carries its time and W0. -/
def fclDrain (d : Dev) : Dev :=
  match d.fcl.log with
  | [] => d
  | (w0, s, ns) :: _ =>
    if !acc d .knl Adr.FCL_LOG_W2 then d
    else
      let (l, d) := freeArgs d 3
      let d := logEntry (fclPop d) 1 (some (s, ns)) (w0 :: l)
      match repairOf w0 with
      | some (p, n) => setKnl d fun k => { k with calls := if k.calls.contains (p.base n) then k.calls else k.calls ++ [p.base n] }
      | none => d

/-- The firmware records a swap (R557, R642). -/
def swapLog (d : Dev) : Dev :=
  match d.glb.swaps with
  | [] => d
  | w :: rest => logEntry { d with glb := { d.glb with swaps := rest } } 2 none w

/-- The firmware copies the ring into the LOG area every 60 s (chapter 15). -/
def logCopy (d : Dev) : Dev :=
  if d.nvm.job.isSome ∨ timTotal d < d.knl.logAt + 60000000000 then d
  else setKnl (logStore d) fun k => { k with logAt := timTotal d }

/-! ### Repair sequences (R571 to R576) -/

/-- The bit of GLB_REPAIR.HOSTRUN for a page (R573). -/
def hostRunBit : Page → Nat
  | .ras => 0 | .lane => 1 | .cdcE => 2 | .dmaCh => 3 | _ => 4

/-- A write of _CTRL by the firmware. -/
def fwCtrl (d : Dev) (base : Nat) (f : W32 → W32) : Dev := settle (ctrlWrite d .knl base (f (rg d (base + oCTRL))))

/-- A sequence ends: _OWNER takes back the value saved (R572). -/
def fwEnd (d : Dev) (r : Repair) : Dev :=
  setKnl (wr d (r.base + oOWNER) r.owner) fun k => { k with repairs := k.repairs.filter fun x => x.base != r.base }

/-- A sequence begins (R572): _OWNER is saved and set to KNL alone. A lane, engine or channel is isolated (R521, R552, R574); VER has
isolated a tile that it fenced. -/
def fwBegin (d : Dev) (base : Nat) : Dev :=
  let own := rg d (base + oOWNER)
  let d := setKnl (wr d (base + oOWNER) 2) fun k => { k with repairs := k.repairs ++ [⟨base, own, 0⟩] }
  if (pg base).1 = .ras ∨ (pg base).1 = .bob then d else fwCtrl d base fun v => putBit v 2 true

/-- Whether lane `n` was readmitted less than 1 s ago (R575). -/
def readmittedNow (d : Dev) (n : Nat) : Bool :=
  match alGet d.knl.readmitted n with
  | some t => decide (timTotal d < t + 1000000000)
  | none => false

/-- The pseudo-channels of a migration (R341): the lowest logical one whose remap table is full, and the lowest SPARE. -/
def fullPc (d : Dev) : Option Nat := (List.range 126).find? fun l =>
  let p := fd d (Adr.BOB_PCMAP l) 6 0
  pcState d p = 0 && (rmpFree d false p).isNone

def sparePc (d : Dev) : Option Nat := (List.range 128).find? fun p => pcState d p = 1

/-- Whether the next step of a sequence can be taken: the page's domain is on, and what the last step began has ended. -/
def fwReady (d : Dev) (r : Repair) : Bool :=
  let (p, n) := pg r.base
  pageOn d p n &&
  match p with
  | .bob => !d.bob.migBusy && (r.step = 0 || d.nvm.job.isNone)
  | .lane =>
    let l := lane d n
    decide (r.step < 2) || (!d.testing.contains r.base && (!ctrlBit d r.base 0 || (l.lock && l.fec && l.good && laneGood d n)))
  | _ => decide (r.step < 2) || (!d.testing.contains r.base && (p != .ras || !bit (rg d (Adr.RAS_TEST n)) 31))

/-- The next step of a sequence goes to number `k`. -/
def fwGoto (d : Dev) (r : Repair) (k : Nat) : Dev :=
  setKnl d fun s => { s with repairs := s.repairs.map fun x => if x.base = r.base then { x with step := k } else x }

/-- The resource is readmitted, and its sequence ends. -/
def fwReadmit (d : Dev) (r : Repair) : Dev := fwEnd (fwCtrl d r.base fun v => putBit v 2 false) r

/-- The migration of a pseudo-channel whose remap table is full (R341), and STORE after it. -/
def fwMigrate (d : Dev) (r : Repair) : Dev :=
  if r.step ≠ 0 then fwEnd (write d .knl Adr.NVM_CMD fun d => nvmCmd d (nvmKeyed 1 0)) r
  else match fullPc d, sparePc d with
    | some l, some p => fwGoto (write d .knl Adr.BOB_MIG_CTRL fun d => migCtrl d (w32 (0x80000000 + p * 256 + l))) r 1
    | some _, none => fwEnd (repairLog d) r
    | none, _ => fwEnd d r

/-- The next step of a sequence. ENABLE is cleared and set, which self-tests the resource or retrains the lane alone; a resource that
passes is readmitted, a tile once its test of R245 has passed too, a lane once it stands within its limits and locked (R575). A lane
removed again within 1 s of its readmission is left with ENABLE at 0 and logged, like a tile that fails. -/
def fwStep (d : Dev) (r : Repair) : Dev :=
  let (p, n) := pg r.base
  match p, r.step with
  | .bob, _ => fwMigrate d r
  | _, 0 =>
    let d := fwCtrl d r.base fun v => putBit v 0 false
    if p = .lane && readmittedNow d n then fwEnd (repairLog d) r else fwGoto d r 1
  | _, 1 => fwGoto (fwCtrl d r.base fun v => putBit v 0 true) r 2
  | .ras, 2 =>
    if ctrlBit d r.base 0 then fwGoto (write d .knl (Adr.RAS_TEST n) fun d => rasTest d n 1) r 3 else fwEnd (repairLog d) r
  | .ras, _ =>
    if bit (rg d (Adr.RAS_TEST n)) 1 then
      fwReadmit (write d .knl (Adr.RAS_ROLE n) fun d => rasRole d n (setBits (rg d (Adr.RAS_ROLE n)) 1 0 2)) r
    else fwEnd (repairLog (fwCtrl d r.base fun v => putBit v 0 false)) r
  | .lane, _ =>
    if ctrlBit d r.base 0 then fwReadmit (setKnl d fun k => { k with readmitted := alSet k.readmitted n (timTotal d) }) r
    else fwEnd (repairLog d) r
  | _, _ => if ctrlBit d r.base 0 then fwReadmit d r else fwEnd (repairLog d) r

/-- The lanes that ROW_FAIL reports have condemned (R574): LANE_FAIL_N failing frames within LANE_FAIL_WIN consecutive ones. -/
def laneSuspects (d : Dev) : List Nat :=
  let n := fd d Adr.GLB_REPAIR 31 24
  let win := fd d Adr.GLB_REPAIR 23 16
  (List.range 48).filter fun k =>
    let l := (d.glr.fails.filter fun e => e.1 = k).map (·.2)
    (lane d k).live && l.any fun x => decide (n ≤ (l.filter fun y => decide ((x + 4294967296 - y) % 4294967296 < win)).length)

/-- Whether lane `n` is out of the map again within 1 s of its readmission (R575). -/
def lostAgain (d : Dev) (n : Nat) : Bool :=
  let b := Page.lane.base n
  readmittedNow d n && linkUp d && !(lane d n).live && !(lane d n).pendLive && ctrlBit d b 0 && !ctrlBit d b 1 && !ctrlBit d b 2

/-- The base of the page whose sequence begins next, while HOSTRUN leaves its class to the firmware: one called for, or a lane. -/
def fwNext (d : Dev) : Option Nat :=
  let mine (p : Page) : Bool := !bit (rg d Adr.GLB_REPAIR) (hostRunBit p)
  let halted (b : Nat) : Bool := (pg b).1 != .dmaCh || decide ((chanOf d (pg b).2).cstate = .halted)
  let due := d.knl.calls.filter fun b => mine (pg b).1 && halted b
  let lanes := if mine .lane then laneSuspects d ++ (List.range 48).filter (lostAgain d) else []
  ((due ++ lanes.map fun n => Page.lane.base n).filter fun b => !d.knl.repairs.any fun r => r.base = b).head?

/-- One action of the repairs: a sequence under way that can go on does so, or one begins. What called for it is forgotten then, and
what called for a sequence that HOSTRUN leaves to the host. -/
def repairTurn (d : Dev) : Dev :=
  match d.knl.repairs.find? (fwReady d) with
  | some r => fwStep d r
  | none => match fwNext d with
    | none => setKnl d fun k => { k with calls := [] }
    | some b =>
      let d := setKnl d fun k => { k with calls := k.calls.filter (· != b) }
      fwBegin (setGlr d fun g => { g with fails := g.fails.filter fun e => Page.lane.base e.1 != b }) b

/-- The firmware's part of a step in which no command waits. -/
def firmware (d : Dev) : Dev := if fwRuns d then repairTurn (reportSend (logCopy (swapLog (fclDrain d)))) else d

/-- What passes while no command waits (DESIGN CHOICE, log entries 1, 93 and 95): an ACLK period, one turn on the host link, the
landing of one write of a transfer cut off, and an action of the firmware; nothing while the block is held in reset. -/
def idle (d : Dev) : Dev := if d.pmu.seq = .off then d else firmware (lateLand (linkTurn (idleTime d)))

end Sys2Proof.Machine
end

