-- ==== Sys2Proof/WellFormed.lean ====
section
/-! DEFINITION. Which commands are well formed: every operand within the range the spec gives it. The state decides nothing here:
a well-formed command may still find nothing to do. -/

namespace Sys2Proof

/-- Return lanes are lanes 48 to 51 (08_glaur_link.md). -/
def retLane (n : Nat) : Bool := decide (48 ≤ n ∧ n < 52)

/-- RSEQ is 16 bits (R374). -/
def seqNo (n : Nat) : Bool := decide (n < 65536)

/-- Registers are 32-bit words at multiples of 4 (R11). -/
def loadable (a : Nat) : Bool := decide (a % 4 = 0)

/-- Whether a command is well formed. -/
def Instr.wf : Instr → Bool
  | .transmitterFault lane _ => decide (lane < 48)
  | .hello lane rseq body => retLane lane && seqNo rseq && decide (body.plateId < 2 ^ 64) && decide (3 ≤ body.depth)
  | .laneStatus lane rseq lock fec errs uncorr => retLane lane && seqNo rseq && decide (lock < 2 ^ 48 ∧ fec < 2 ^ 48 ∧ errs.length = 48 ∧ uncorr.length = 48)
  | .tuneReq lane rseq txLane tap action _ => retLane lane && seqNo rseq && decide (txLane < 48 ∧ tap < 4 ∧ action < 4)
  | .rowFail lane rseq lseq _ crc seqf => retLane lane && seqNo rseq && decide (lseq < 2 ^ 32 ∧ crc < 2 ^ 512 ∧ seqf < 2 ^ 512)
  | .beamDied lane rseq lseq k j => retLane lane && seqNo rseq && decide (lseq < 2 ^ 32 ∧ k < 512 ∧ j < 1024)
  | .dbmPart lane rseq p bitmap => retLane lane && seqNo rseq && decide (p < 64 ∧ bitmap < 2 ^ 8192)
  | .dbmEnd lane rseq count crc => retLane lane && seqNo rseq && decide (count < 2 ^ 32 ∧ crc < 2 ^ 32)
  | .tagResp lane rseq plateId count mac => retLane lane && seqNo rseq && decide (plateId < 2 ^ 64 ∧ count < 2 ^ 32 ∧ mac < 2 ^ 256)
  | .tagAck lane rseq count mac => retLane lane && seqNo rseq && decide (count < 2 ^ 32 ∧ mac < 2 ^ 256)
  | .status lane ackLseq firedLseq nextRseq flags => retLane lane && decide (ackLseq < 2 ^ 32 ∧ firedLseq < 2 ^ 32 ∧ nextRseq < 65536 ∧ flags < 2 ^ 32)
  | .badmsg lane => retLane lane
  | .resendTimeout => true
  | .unackClr _ _ => true
  | .dbmReq _ _ => true
  | .lclkLocked => true
  | .retLock => true
  | .fecAlign => true
  | .trainHalfTimeout => true
  | .trainFail => true
  | .dbmMs => true
  | .glrHb => true
  | .blockLockLost => true
  | .trained lane => decide (lane < 52)
  | .chal _ _ => true
  | .tagRetry => true
  | .chkStart _ unit _ => decide (unit < 8)
  | .chkD8 _ unit _ => decide (unit < 8)
  | .chkD16 _ unit _ => decide (unit < 8)
  | .chkD32 _ unit _ => decide (unit < 8)
  | .returnLaneBlockLock lane _ => retLane lane
  | .tick _ _ => true
  | .nop => true
  | .ldi => true
  | .ldh => true
  | .add => true
  | .sub => true
  | .addi => true
  | .mul => true
  | .shr => true
  | .shl => true
  | .minI => true
  | .maxI => true
  | .inPort => true
  | .cf => true
  | .hyst => true
  | .outI => true
  | .capI => true
  | .br => true
  | .bz => true
  | .bn => true
  | .waitInstruction => true
  | .ucFault _ => true
  | .peakClr _ _ => true
  | .reload _ _ => true
  | .safe _ _ => true
  | .acq _ _ => true
  | .injArm _ _ => true
  | .injStop _ _ => true
  | .capArm _ _ => true
  | .microcodeWrite _ a _ => decide (a < 256)
  | .registerWrite _ _ size a ws _ => loadable a && decide (size = 4 * ws.length ∧ 0 < size ∧ size ≤ 4096)
  | .enableSet _ base _ => decide (base % 4 = 0)
  | .enableClear _ base _ => decide (base % 4 = 0)
  | .enableSelfTestDone base _ => decide (base % 4 = 0)
  | .quiesceSet _ base _ => decide (base % 4 = 0)
  | .quiesceClear _ base _ => decide (base % 4 = 0)
  | .isolateSet _ base _ => decide (base % 4 = 0)
  | .isolateClear _ base _ => decide (base % 4 = 0)
  | .softReset _ base _ => decide (base % 4 = 0)
  | .evtPendWrite _ base _ => decide (base % 4096 = 0)
  | .inject _ base _ => decide (base % 4096 = 0)
  | .rowDelay _ r _ => decide (r < 512)
  | .geomDmaxDone => true
  | .block ch _ => decide (ch < 16)
  | .gapWait => true
  | .splNakHold _ => true
  | .splReqW2 _ => true
  | .pad _ => true
  | .slotWrite _ => true
  | .cellOpen _ => true
  | .cellClose _ => true
  | .cellDrop _ => true
  | .figure _ => true
  | .place _ => true
  | .array _ => true
  | .stripeOpen _ => true
  | .bin _ => true
  | .origin _ => true
  | .field _ => true
  | .stripeClose _ => true
  | .xpdQuery _ _ => true
  | .xpdLookupDone => true
  | .patchRecordAllocated => true
  | .latched => true
  | .released _ => true
  | .dispatch scan => decide (scan < 2 ^ 34)
  | .secondRaster scan => decide (scan < 2 ^ 34)
  | .patchReport tile _ => decide (tile < 34)
  | .verTimeout tile => decide (tile < 34)
  | .tileClockStop tile _ => decide (tile < 34)
  | .tileWake tile => decide (tile < 34)
  | .pdIdle _ => true
  | .rasTestStart _ tile _ => decide (tile < 34)
  | .testDone tile _ => decide (tile < 34)
  | .verInject _ _ => true
  | .stitchRow fault => decide (fault < 3)
  | .gather _ fault => decide (fault < 3)
  | .begin => true
  | .dbmCommit _ _ => true
  | .dbmBitmapWrite _ slot word _ => decide (slot < 9 ∧ word < 16384)
  | .copyDone => true
  | .bobMendRd _ _ => true
  | .mendWaitEnd => true
  | .mendViewRead _ o => decide (o % 4 = 0 ∧ o < 0x1000000)
  | .bobRequest port da _ _ => decide (port < 15 ∧ da % 32 = 0)
  | .bobCompletion port _ => decide (port < 15)
  | .refresh pc _ => decide (pc < 128)
  | .refreshManagement pc _ _ => decide (pc < 128)
  | .openPageIdle pc k _ => decide (pc < 128 ∧ k < 48)
  | .rowDue => true
  | .spoolGrant ch => decide (ch < 16)
  | .migStart _ _ => true
  | .migChunk _ => true
  | .bobPcstate _ p _ => decide (p < 128)
  | .pcLost p => decide (p < 128)
  | .caParity p k _ _ => decide (p < 128 ∧ k < 48)
  | .countEdge _ _ _ _ => true
  | .lossOfInputSwing => true
  | .encValidLow => true
  | .stripeGo _ => true
  | .leadBoundary => true
  | .shotBoundary => true
  | .osreqExpiry => true
  | .freeze => true
  | .strobeRise => true
  | .strobeFall => true
  | .strobeCut => true
  | .calibration _ _ => true
  | .abortAsserted => true
  | .abortReleased => true
  | .blankReqAsserted => true
  | .blankReqReleased => true
  | .clearStuck _ _ => true
  | .muzInjectCut _ _ => true
  | .resume _ _ => true
  | .tktClr _ _ => true
  | .expTkt _ _ => true
  | .accepted => true
  | .wake => true
  | .paceFrame => true
  | .perst => true
  | .flr => true
  | .hlkLinkDown _ => true
  | .linkUp _ _ _ => true
  | .bar4Access _ _ _ _ => true
  | .blankSet _ _ => true
  | .blankClr _ _ => true
  | .stopSet _ _ => true
  | .stopClr _ _ => true
  | .dmaHead _ n _ _ => decide (n < 16)
  | .dmaDb _ n => decide (n < 16)
  | .descriptorFetched n _ => decide (n < 16)
  | .descriptorDone n _ => decide (n < 16)
  | .fetchTimeout n => decide (n < 16)
  | .hostTimeout n done l => decide (n < 16 ∧ l.length ≤ done)
  | .devTimeout n done l => decide (n < 16 ∧ l.length ≤ done)
  | .disable _ n => decide (12 ≤ n ∧ n < 16)
  | .cdcRole _ _ => true
  | .cdcDispatch => true
  | .frameDecoded n => decide (n < 8)
  | .engUe n => decide (n < 8)
  | .jobGo _ n _ => decide (n < 8)
  | .snapReady n => decide (n < 8)
  | .jobAbort _ n _ => decide (n < 8)
  | .jobDone n => decide (n < 8)
  | .jobSwapGo _ _ => true
  | .jobSwapCancel _ _ => true
  | .swapWorkDone => true
  | .scrubRead _ => true
  | .sramScrub _ _ _ _ _ => true
  | .odePoll _ => true
  | .meiInjGo _ _ => true
  | .fclStatus _ _ => true
  | .fclSev _ src _ => decide (src < 32)
  | .fclLogW2 _ => true
  | .restart _ _ => true
  | .bark => true
  | .wdog _ => true
  | .wdogReset => true
  | .knlKick _ => true
  | .poisonedLoad _ a => decide (a < 524288)
  | .confirm _ _ => true
  | .away _ _ => true
  | .awayEnd _ _ => true
  | .reboot _ _ => true
  | .awayExpired => true
  | .storeRegs _ => true
  | .storeBoot _ => true
  | .storeKey _ index => decide (index < 16)
  | .storeCrash _ index => decide (index < 8)
  | .storeLog _ => true
  | .storeUser _ => true
  | .nvmDone _ => true
  | .knlH2kDb _ => true
  | .knlK2hDb _ => true
  | .update _ => true
  | .rebootCommand => true
  | .storeCommand => true
  | .logExport => true
  | .keyWrite => true
  | .runSram => true
  | .tempCheck _ => true
  | .secondCarry => true
  | .ppsOutEnd => true
  | .ppsIn _ => true
  | .timNs _ => true
  | .step _ _ => true
  | .trust _ _ => true
  | .hold _ _ => true
  | .holdMax => true
  | .knlMacTxtail _ _ => true
  | .timOsCorrHi _ _ => true
  | .onestepDeadline => true
  | .txWriteback => true
  | .rxFrame _ _ => true
  | .netstopDatagram _ _ _ _ => true
  | .timTsqNs _ => true
  | .nstopClr _ _ => true
  | .pdReqOn _ n _ => decide (n < 14)
  | .pdReqOff _ n _ => decide (n < 14)
  | .pdReqSelfRefresh _ n _ => decide (n < 14)
  | .pdSwitchDone n _ => decide (n < 14)
  | .pdFail n => decide (n < 14)
  | .pmuMemidle => true
  | .selfRefreshExit => true
  | .refclkLost => true
  | .refclkReturn => true
  | .pllUnlock p => decide (p < 11)
  | .pllLock p => decide (p < 11)
  | .powerOn => true
  | .porst _ _ _ => true
  | .wrst => true
  | .warm _ _ => true
  | .warmEnd => true
  | .supplyWarn r => decide (r < 6)
  | .railRelease r => decide (r < 6)
  | .warningEnd => true
  | .brownout r => decide (r < 6)
  | .brownoutRelease _ _ _ => true
  | .commandSlot pc _ => decide (pc < 128)
  | .readOfLo _ rd => loadable rd.a && decide (rd.len % 4 = 0 ∧ 0 < rd.len ∧ rd.len ≤ 4096)
  | .remapEntryRetire _ _ => true
  | .managementNetworkLink _ => true

/-- A command is well formed. -/
abbrev WellFormed (i : Instr) : Prop := i.wf = true

end Sys2Proof
end

