-- ==== Sys2Proof/Safety.lean ====
section
/-! DEFINITION. What the claims call safe: the output pins stand where the state puts them, the gate of MUZ, and the forms that
states keep. -/

namespace Sys2Proof.Machine

/-- The output pins stand at the levels that the state gives them (R427, R433, R616, R617, R654, R702). -/
def PinsFollow (s : State) : Prop := s.dev.pins = pinLevels s.dev

/-- The gate of MUZ (R432, R433): STROBE is not active while BLANK_ALL# is asserted. -/
def GateHolds (s : State) : Prop := s.dev.pins.blankAll = some false → s.dev.pins.strobe ≠ some true

/-- The commands that wait are all well formed. -/
def QueueWellFormed (s : State) : Prop := ∀ c ∈ s.pending, WellFormed c

/-- The word store is in canonical form: addresses strictly rise and no word equals its reset value. -/
def WordsCanonical (d : Dev) : Prop :=
  d.regs.Pairwise (fun a b => a.1 < b.1) ∧ ∀ e ∈ d.regs, e.2 ≠ w32 (wordReset e.1)

/-- The lists of fixed size have it: channels, engines, lanes, tiles, domains, the Heel's registers, check units, severity levels
and slots of the dead-beam map (R502, R527, R353, R228, R671, R469, R398, R607, R288). -/
def SizesStand (d : Dev) : Prop :=
  d.chans.length = 16 ∧ d.engs.length = 8 ∧ d.glr.lanes.length = 52 ∧ d.ver.tiles.length = 34 ∧ d.pmu.pd.length = 14 ∧
  d.hel.h.length = 16 ∧ d.chks.length = 8 ∧ d.fcl.lvl.length = 32 ∧ d.stc.dbm.slots.length = 9

/-- Whatever command `c` answers in state `s`, the block keeps what `rest` leaves of it and every word that is not one of `W`. -/
def OnlyTouches (rest : Dev → Dev) (W : Nat → Prop) (c : Instr) (s : State) : Prop :=
  ∀ t, exec c s = .next t → rest t.dev = rest s.dev ∧ ∀ a, ¬W a → rg t.dev a = rg s.dev a

/-- Command `c` is carried out in state `s`: it answers a next state, the queue stands, and the block then has property `P`. -/
def Does (c : Instr) (s : State) (P : Dev → Prop) : Prop :=
  ∃ t, exec c s = .next t ∧ t.pending = s.pending ∧ P t.dev

/-- Whether bit `b` of _ERR_LATCH of the page at `base` is set (R606). -/
def latched (d : Dev) (base b : Nat) : Bool := bit (rg d (base + oERRLATCH)) b

/-- Whether bit `b` of _EVT_PEND of the page at `base` is set (R738). -/
def pends (d : Dev) (base b : Nat) : Bool := bit (rg d (base + oEVTPEND)) b

/-- A message with RSEQ `rseq` on return lane `n` is the next one GLR expects (R375, R377). -/
def NextMsg (d : Dev) (n rseq : Nat) : Prop :=
  retUse d n = true ∧ 2 ≤ d.glr.st ∧ rseq = d.glr.rxNext ∧ rseq ∉ d.glr.rxMiss ∧ rseq ∉ d.glr.rxLost

/-- The microcode instruction `op` stands at the program's address, reads well and has `cost` QCLK left (R469, R471, R473). -/
def UcReady (d : Dev) (op cost : Nat) : Prop :=
  qclk d = true ∧ d.hel.going = true ∧ ucOp (ucWord d) = op ∧ d.hel.cyc + cost ≤ 48 ∧
  (injTake d (Page.hel.base 0) false).1 < 2 ∧ d.hel.pc % 256 ∉ d.hel.bad

/-- What a microcode instruction leaves alone: every word, beside an injection that its fetch used up and the count of corrected
words. -/
def UcKeeps (d d' : Dev) : Prop := ∀ a, a ≠ Page.hel.base 0 + oINJECT → a ≠ Adr.MEI_CNT_CE → rg d' a = rg d a

/-- A microcode instruction has written `v` to the register its word names, moved to the next address and used `cost` QCLK, and
nothing else of the Heel has changed (R469, R470, R473). -/
def UcWrote (d d' : Dev) (cost : Nat) (v : Int) : Prop :=
  (∀ i < 16, ucReg d'.hel i = if i = ucD (ucWord d) ∧ i ≠ 0 then v else ucReg d.hel i) ∧
  d'.hel = { d.hel with h := d'.hel.h, pc := (d.hel.pc + 1) % 256, cyc := d.hel.cyc + cost } ∧ UcKeeps d d'

/-- The record of words `w` stands at the front of block `b` of the stream, `rest` behind it in the block, and XPD may take it
(R81, R614, R63). -/
def FrontRec (d : Dev) (b : SBlk) (w rest : List W32) : Prop :=
  d.spl.cur = some b ∧ b.recs = some (w ++ rest) ∧ w ≠ [] ∧ bits (rw w 0) 31 10 = w.length ∧ bits (rw w 0) 9 8 = 0 ∧
  b.bad = false ∧ blkRuns d .xpd .xpd = true ∧ d.xpd.wait = none

/-- Section `sec` is open, taken up by BST and PXC, and ALT and BST run (R199). -/
def OpenSec (d : Dev) (sec : Sec) : Prop :=
  openSec d = some sec ∧ secOf d sec.num = some sec ∧ sec.dropped = false ∧ sec.par ≠ none ∧ sec.todo = none ∧
  blkRuns d .alt .alt = true ∧ blkRuns d .bst .bst = true

/-- The pieces that BST cuts from what ALT makes of chains (R165 to R169, R177 to R179). -/
def itemPieces (d : Dev) (sec : Sec) (l : List Chain) : List Piece :=
  let k := kept d sec
  ((alter d sec l none).out.flatMap fun c => c.2.flatMap fun x => (cutChord k.1 k.2.2.1 x).map fun y => (c.1, y)).filterMap
    fun x => mkPiece d sec x.1 x.2

end Sys2Proof.Machine
end

