-- ==== Sys2Proof/Certificates/Slice0/Obligations.lean ====
section
/-! DEFINITION. The statements for the provers. `Does c s P` (Safety): command `c` is carried out in state `s`, answers a next
state with the queue as it was, and the block afterwards has property `P`. -/

open Sys2Proof Sys2Proof.Machine

/-- A step is exec of the command at the front of the queue, with the queue's rest. For every command c and state s, the step of
s with c at the front of its queue is exec c on s with the queue's rest. Rests on: 95_what_each_step_holds.md, 00_scope.md. -/
def Obligations.StepRunsFrontCommand : Prop :=
  ∀ (c : Instr) (rest : List Instr) (s : State),
    step { s with pending := c :: rest } = exec c { s with pending := rest }

/-- On an empty queue one ACLK period passes, then a turn of the link and of the firmware (the model's choice, log entry 1).
What an empty queue does is the model's choice (DESIGN CHOICE, log entries 1, 93 and 95): one ACLK period of 160 ns passes,
the host link takes one turn, one write of a transfer cut off lands, and the firmware acts. The period moves the time base
by 160·(2^32 + RATE) units of 2^-32 ns, modulo 2^48 seconds, with its carry, as R649 has it; a link without work, a firmware
that does not run and no write in flight change nothing; while the block is held in reset nothing changes but the pins that
follow. Readings of the model that clauses of it rest on: log entries 1, 93, 95. Rests on: R649, R682. -/
def Obligations.EmptyQueueLetsOneClockPass : Prop :=
  (∀ s : State, s.pending = [] → s.dev.pmu.seq = .off → step s = .next { s with dev := drive s.dev }) ∧
  (∀ s : State, s.pending = [] → s.dev.pmu.seq ≠ .off → s.dev.tim.ns < 10 ^ 9 → s.dev.tim.frac < 2 ^ 32 →
    s.dev.tim.sec < 2 ^ 48 →
    step s = .next { s with dev := drive (firmware (lateLand (linkTurn (idleTime s.dev)))) } ∧
    let units (d : Dev) : Nat := (d.tim.sec * 10 ^ 9 + d.tim.ns) * 2 ^ 32 + d.tim.frac
    let t := idleTime s.dev
    t.tim.ns < 10 ^ 9 ∧ t.tim.frac < 2 ^ 32 ∧
      (units t : Int) = (units s.dev + 160 * (2 ^ 32 + toS 32 (rg s.dev Adr.TIM_RATE).toNat)) % (2 ^ 48 * 10 ^ 9 * 2 ^ 32)) ∧
  (∀ d : Dev, (linkPick d = none → linkTurn d = d) ∧ (d.hlk.late = [] → lateLand d = d) ∧ (fwRuns d = false → firmware d = d))

/-- Every command answers a next state with the queue as it was, and its pins follow. For every command and every state, exec
answers a next state whose queue is the queue it was given; no command faults or is refused. Rests on:
95_what_each_step_holds.md, 00_scope.md. -/
def Obligations.EveryCommandAnswersAndLeavesTheQueue : Prop :=
  ∀ (c : Instr) (s : State), ∃ t, exec c s = .next t ∧ t.pending = s.pending

/-- Every step leaves the output pins at the levels that the state gives them. From every state in which STROBE, BLANK_ALL#,
BARK, FAULT#, PPS_OUT and the TRK lines stand as the state gives them, every step leaves them so: high-impedance while the
block is held in reset, STROBE only inside a pulse and never in a muzzle, BLANK_ALL# low in a muzzle, FAULT# low while a
source's level is at least FAULT_LVL, the TRK lines not driven while PD_EXP is off. That the pins are state is the model's
choice (log entry 2). Readings of the model that clauses of it rest on: log entries 2, 37. Rests on: R427, R432, R433, R616,
R617, R654, R702. -/
def Obligations.PinsFollowIsKept : Prop :=
  ∀ s t : State, PinsFollow s → step s = .next t → PinsFollow t ∧
    (t.dev.pmu.seq = .off → t.dev.pins = {}) ∧
    (t.dev.pmu.seq ≠ .off →
      (t.dev.pins.blankAll = some false ↔ t.dev.muz.muzzled = true) ∧
      (t.dev.pins.strobe = some true ↔ t.dev.muz.muzzled = false ∧ ∃ x ∈ t.dev.muz.pulses, x.high = true) ∧
      (pdOn t.dev 13 = false → t.dev.pins.trk = none) ∧
      (t.dev.pins.fault = some false ↔ ∃ l ∈ t.dev.fcl.lvl, fd t.dev Adr.FCL_OUT 1 0 ≤ l))

/-- In every next state STROBE is not active while BLANK_ALL# is asserted. Whatever the state, after any step the gate of MUZ
holds: STROBE is not active while BLANK_ALL# is asserted, and while the reset of a warm reset muzzles, STROBE is inactive.
Readings of the model that clauses of it rest on: log entry 37. Rests on: R432, R433, R703. -/
def Obligations.GateHoldsInEveryNextState : Prop :=
  ∀ s t : State, step s = .next t → GateHolds t ∧
    (t.dev.muz.muzzled = true → t.dev.pins.strobe ≠ some true ∧ (t.dev.pmu.seq ≠ .off → t.dev.pins.blankAll = some false))

/-- Every step keeps the numbers of channels, engines, lanes, tiles, domains and other fixed lists. From every state in which
the lists of fixed size have their sizes (16 channels, 8 engines, 52 lanes, 34 tiles, 14 domains, 16 Heel registers, 8 check
units, 32 sources, 9 slots of the dead-beam map), every step leaves them at those sizes. The premises on list lengths of
other statements are clauses of this invariant. Rests on: R228, R288, R353, R398, R469, R502, R527, R607, R671. -/
def Obligations.SizesStandIsKept : Prop :=
  ∀ s t : State, SizesStand s.dev → step s = .next t → SizesStand t.dev

/-- The reset state holds the invariants, drives no output and has its registers at reset. In State.reset the pins follow, the
fixed sizes stand, the word store and the memories are in canonical form, no command waits, every domain is off, every
output is high-impedance, and registers read their reset values, a few of which are named. Readings of the model that
clauses of it rest on: log entries 3, 5, 37. Rests on: R671, R694, R702, 18_register_map.md. -/
def Obligations.ResetStateStands : Prop :=
  PinsFollow State.reset ∧ SizesStand State.reset.dev ∧ WordsCanonical State.reset.dev ∧ State.reset.pending = [] ∧
  State.reset.dev.hbm.wf ∧ State.reset.dev.knl.sram.wf ∧ State.reset.dev.pins = {} ∧ State.reset.dev.pmu.seq = .off ∧
  (∀ n < 14, pdState State.reset.dev n = .off) ∧ State.reset.dev.knl.away = true ∧ State.reset.dev.exp.halted = false ∧
  rg State.reset.dev Adr.MEI_SCRUB = 0x0064003C ∧ rg State.reset.dev Adr.MEI_CE_K = 3 ∧
  rg State.reset.dev Adr.GLB_SLOT_A = 0x27100003 ∧ rg State.reset.dev Adr.GLB_REPAIR = 0x04400000 ∧
  rg State.reset.dev (Adr.PMU_PD 5) = 0x10 ∧ rg State.reset.dev (Adr.PMU_PD 11) = 0x20

/-- An error latches whatever the mask; the line is active for an unmasked latched bit; floors cannot be masked. Every error
condition of a page sets its _ERR_LATCH bit. The page's line is active exactly while a latched bit is not masked. A masked
condition changes nothing but the latch. The _ERR_MASK bit of a bit whose floor is 2 or 3 reads 0, whatever was written.
Rests on: R606. -/
def Obligations.ErrorsLatchAndAreMasked : Prop :=
  (∀ (d : Dev) (p : Page) (n b : Nat) (i0 i1 : W32), pageOf (p.base n) = some (p, n) → b < 32 →
    latched (err d (p.base n) b i0 i1) (p.base n) b = true ∧
    (bit (errMask d (p.base n)) b = true →
      err d (p.base n) b i0 i1 = wr d (p.base n + oERRLATCH) (putBit (rg d (p.base n + oERRLATCH)) b true))) ∧
  (∀ (d : Dev) (base : Nat), errLine d base = true ↔ ∃ b < 32, latched d base b = true ∧ bit (errMask d base) b = false) ∧
  (∀ (d : Dev) (req : Req) (p : Page) (n b f : Nat), pageOf (p.base n) = some (p, n) → (b, f, true) ∈ p.errs → 2 ≤ f →
    bit (errMask d (p.base n)) b = false ∧
    (acc d req (p.base n + oERRMASK) = true → (busRead d req (p.base n + oERRMASK)).1 = errMask d (p.base n)))

/-- A vector's level is any enabled pending event of its pages, and it sends when it rises or a pending write leaves it at 1.
The level of a vector is 1 while some page it serves has a bit set in both _EVT_PEND and _EVT_EN. An event or an enabling
write that raises the level sends one message; a write of _EVT_PEND that leaves the level at 1 sends one more, one that
leaves it at 0 sends none. A masked vector is kept pending in place of its message, as PCIe has it; with the link down none
is sent. Completion (exec answers a next state with its effect): evtPendWrite. Rests on: R494. -/
def Obligations.VectorsSignalTheirEvents : Prop :=
  let sends (d t : Dev) (v : Nat) : Prop :=
    if msixMasked d v then t.outs = d.outs ∧ v ∈ t.hlk.msixPend else t.outs = (if d.hlk.up then .msix v :: d.outs else d.outs)
  let silent (d t : Dev) : Prop := t.outs = d.outs ∧ t.hlk = d.hlk
  (∀ (d : Dev) (v : Nat), vectorLevel d v = true ↔ ∃ (p : Page) (n k : Nat), n < p.count ∧ p.vector n = v ∧ k < 32 ∧
    bit (rg d (p.base n + oEVTPEND)) k = true ∧ bit (rg d (p.base n + oEVTEN)) k = true) ∧
  (∀ (d : Dev) (p : Page) (n b : Nat), pageOf (p.base n) = some (p, n) → b < 32 →
    let v := p.vector n
    let t := evt d (p.base n) b
    pends t (p.base n) b = true ∧
    (vectorLevel d v = false → vectorLevel t v = true → sends d t v) ∧
    (vectorLevel d v = true ∨ vectorLevel t v = false → silent d t)) ∧
  (∀ (d : Dev) (p : Page) (n : Nat) (x : W32), pageOf (p.base n) = some (p, n) →
    let v := p.vector n
    let t := evtEnWrite d (p.base n) x
    rg t (p.base n + oEVTEN) = x &&& 0xFFFF ∧
    (vectorLevel d v = false → vectorLevel t v = true → sends d t v) ∧
    (vectorLevel d v = true ∨ vectorLevel t v = false → silent d t)) ∧
  (∀ (s : State) (req : Req) (p : Page) (n : Nat) (x : W32), pageOf (p.base n) = some (p, n) → PinsFollow s →
    acc s.dev req (p.base n + oEVTPEND) = true → Does (.evtPendWrite req (p.base n) x) s fun t =>
      rg t (p.base n + oEVTPEND) = rg s.dev (p.base n + oEVTPEND) &&& ~~~x ∧
      (vectorLevel t (p.vector n) = true → sends s.dev t (p.vector n)) ∧
      (vectorLevel t (p.vector n) = false → silent s.dev t))

/-- Commands of the time base, the stores, the core, the controllers and the check units keep the rest. Frames. A command of the
time base changes TIM, its page and the times of kennel-away and the watchdog; one that starts a store changes NVM, the
epoch and the count of rejects; one of the core's mailbox, kick and loads changes KNL, its page and the count of corrected
words; one of the memory controllers changes the controllers, their pages, the latency estimates and the wake of memory; one
of a check unit changes the unit and its page; one of the clocks changes PMU. Every other register, memory, queue and flag
of the block stands. Readings of the model that clauses of it rest on: log entry 31. Rests on: R16, R326, R328, R330, R331,
R398, R400, R637, R646, R648, R659, R684. -/
def Obligations.QuietCommandsKeepTheRest : Prop :=
  ∀ (s : State) (req : Req) (v : W32) (n k da now port : Nat) (b : Bool) (l : List Nat) (x : CoreAccess),
    let bare (d : Dev) : Dev := { d with regs := [], outs := [], pins := {}, hlk := { d.hlk with msixPend := [] } }
    let page (p : Page) (a : Nat) : Prop := p.base 0 ≤ a ∧ a < p.base 0 + 0x1000
    (∀ c ∈ [Instr.secondCarry, .ppsOutEnd, .ppsIn b, .timNs req, .step req v, .trust req v, .hold req v, .timOsCorrHi req v,
        .timTsqNs req],
      OnlyTouches (fun d => { bare d with tim := {}, knl := { d.knl with awayNs := 0, wdogNs := 0 } }) (page .tim) c s) ∧
    (∀ c ∈ [Instr.storeRegs req, .storeBoot req, .storeKey req n, .storeCrash req n, .storeLog req, .storeUser req],
      OnlyTouches (fun d => { bare d with nvm := {} })
        (fun a => a = Adr.TIM_EPOCH ∨ a = Adr.TIM_EPOCH_HI ∨ a = Adr.NVM_CNT_REJECT) c s) ∧
    (∀ c ∈ [Instr.knlKick req, .poisonedLoad x n, .knlH2kDb req, .knlK2hDb req],
      OnlyTouches (fun d => { bare d with knl := {} }) (fun a => page .knl a ∨ a = Adr.MEI_CNT_CE) c s) ∧
    (∀ c ∈ [Instr.bobRequest port da b now, .commandSlot n now, .refresh n now, .refreshManagement n now l,
        .openPageIdle n k now, .bobCompletion port k],
      OnlyTouches (fun d => { bare d with pmu := {}, bob := { d.bob with pcs := [], reqNo := 0, migHeld := [] } })
        (fun a => (0xC0000 ≤ a ∧ a < 0x100000) ∨ ∃ i < 15, a = Adr.BOB_LAT_EST i) c s) ∧
    (∀ c ∈ [Instr.chkStart req n v, .chkD8 req n v, .chkD16 req n v, .chkD32 req n v],
      OnlyTouches (fun d => { bare d with chks := [], free := 0 })
        (fun a => Page.chk.base n ≤ a ∧ a < Page.chk.base n + 0x1000) c s) ∧
    (∀ c ∈ [Instr.pllLock n, .railRelease n], OnlyTouches (fun d => { bare d with pmu := {} }) (fun _ => False) c s)

/-- Messages of the plate that arrive in turn have their effect. For return messages that arrive in turn (NextMsg): HELLO in
bring-up takes the plate's number, expects the next RSEQ and sets every transmit lane's taps to preset 1; LANE_STATUS writes
the error counts of every lane; TUNE_REQ moves one tap by one, held to the range of s8; ROW_FAIL counts its packets, and
when the frame was committed FIRE it latches ROW_FAIL; DBM_PART stores its bits; a DBM_END with all 64 parts, their dead
beams as counted and their CRC right ends the request, puts the map, turned to beams by the remap table, in NEXT_SLOT (or
holds it while COPYING) and moves a TAGGED link to READY; one whose parts are incomplete discards them and latches DBM_BAD;
STATUS in LINKED or later moves GLR_ACK once nothing before its NEXT_RSEQ is missing or untranslated; a message with a bad
CRC is counted. Readings of the model that clauses of it rest on: log entries 66, 67. Completion (exec answers a next state
with its effect): hello, laneStatus, tuneReq, rowFail, dbmPart, dbmEnd, status, badmsg. Rests on: R63, R359, R369, R375,
R377, R378, R380, R383, R388. -/
def Obligations.PlateMessagesHaveTheirEffect : Prop :=
  (∀ (s : State) (n rseq plate depth : Nat), s.dev.glr.st = 2 → retUse s.dev n = true →
    Does (.hello n rseq ⟨plate, depth⟩) s fun d =>
      d.glr.st = 4 ∧ d.glr.rxNext = (rseq + 1) % 65536 ∧ d.glr.plate = plate % 2 ^ 64 ∧
      ∀ i < 48, rg d (Adr.LANE_FFE i) = Config.ffePreset 1) ∧
  (∀ (s : State) (n rseq lock fec : Nat) (errs unc : List Nat), NextMsg s.dev n rseq → 4 ≤ s.dev.glr.st →
    Does (.laneStatus n rseq lock fec errs unc) s fun d =>
      d.glr.rxNext = (rseq + 1) % 65536 ∧
      ∀ i < 48, rg d (Adr.LANE_BER i) = w32 (nth errs i 0) ∧
        rg d (Adr.LANE_CNT_UNCORR i) = rg s.dev (Adr.LANE_CNT_UNCORR i) + w32 (nth unc i 0)) ∧
  (∀ (s : State) (n rseq ln tap preset : Nat), NextMsg s.dev n rseq → s.dev.glr.st = 4 → ln < 48 → tap < 4 →
    (Does (.tuneReq n rseq ln tap 1 preset) s fun d =>
      toS 8 (fd d (Adr.LANE_FFE ln) (31 - 8 * tap) (24 - 8 * tap))
        = min 127 (toS 8 (fd s.dev (Adr.LANE_FFE ln) (31 - 8 * tap) (24 - 8 * tap)) + 1)) ∧
    (Does (.tuneReq n rseq ln tap 2 preset) s fun d =>
      toS 8 (fd d (Adr.LANE_FFE ln) (31 - 8 * tap) (24 - 8 * tap))
        = max (-128) (toS 8 (fd s.dev (Adr.LANE_FFE ln) (31 - 8 * tap) (24 - 8 * tap)) - 1))) ∧
  (∀ (s : State) (n rseq lseq crc seqf : Nat) (h : Hist), NextMsg s.dev n rseq → s.dev.glr.buf = [] →
    blkWaits s.dev .glr = false → (injTake s.dev (Page.glr.base 0) false).1 = 0 →
    s.dev.glr.lseq = some lseq → alGet s.dev.glr.hist (lseq % 4096) = some h → h.lseq = lseq → h.ue = false →
    h.commit = 1 → lseq < 2 ^ 32 →
    Does (.rowFail n rseq lseq false crc seqf) s fun d =>
      rg d Adr.GLR_CNT_ROWFAIL = rg s.dev Adr.GLR_CNT_ROWFAIL + w32 (popcount 512 (crc ||| seqf)) ∧
      latched d (Page.glr.base 0) Bit.err_GLR_ROW_FAIL = true) ∧
  (∀ (s : State) (n rseq p bitmap : Nat), NextMsg s.dev n rseq → s.dev.glr.buf = [] → blkWaits s.dev .glr = false →
    p < 64 →
    Does (.dbmPart n rseq p bitmap) s fun d => alGet d.glr.parts p = some (bitmap % 2 ^ 8192)) ∧
  (∀ (s : State) (n rseq : Nat), NextMsg s.dev n rseq → s.dev.glr.buf = [] → blkWaits s.dev .glr = false →
    s.dev.glr.parts.length = 64 →
    let dead := s.dev.glr.parts.flatMap fun p =>
      ((List.range 8192).filter fun b => p.2.testBit b).map fun b => remapBeam s.dev (8192 * p.1 + b)
    Does (.dbmEnd n rseq dead.length (crc32c (s.dev.glr.parts.flatMap fun p => leBytes 1024 p.2))) s fun d =>
      d.glr.parts = [] ∧ d.glr.dbmAsked = false ∧
      (s.dev.stc.dbm.copying = true → d.stc.dbm.heldMap = some (dead.foldl setIns []) ∧ d.stc.dbm.heldOld = false) ∧
      (s.dev.stc.dbm.copying = false → d.stc.dbm.pending = true ∧ d.stc.dbm.pendMap = true ∧
        ∀ b < 2 ^ 19, bit (rg d (Adr.DBM_BITS s.dev.stc.dbm.nextSlot (b / 32))) (b % 32) = true ↔ b ∈ dead) ∧
      (s.dev.glr.st = 7 → d.glr.st = 8 ∧ pends d (Page.glr.base 0) Bit.evt_GLR_READY = true)) ∧
  (∀ (s : State) (n rseq count crc : Nat), NextMsg s.dev n rseq → s.dev.glr.buf = [] → blkWaits s.dev .glr = false →
    s.dev.glr.parts.length ≠ 64 →
    Does (.dbmEnd n rseq count crc) s fun d =>
      d.glr.parts = [] ∧ d.glr.dbmAsked = false ∧ latched d (Page.glr.base 0) Bit.err_GLR_DBM_BAD = true) ∧
  (∀ (s : State) (n ack fired next flags : Nat), retUse s.dev n = true → 6 ≤ s.dev.glr.st → s.dev.glr.buf = [] →
    s.dev.glr.rxMiss = [] → s.dev.glr.rxLost = [] → s.dev.glr.rxNext = next → next < 65536 →
    Does (.status n ack fired next flags) s fun d => d.glr.ack = ack % 2 ^ 32 ∧ d.glr.ackWant = none) ∧
  (∀ (s : State) (n : Nat), retUse s.dev n = true →
    Does (.badmsg n) s fun d => rg d Adr.GLR_CNT_BADMSG = rg s.dev Adr.GLR_CNT_BADMSG + 1)

/-- A beam that the plate reports dead is withheld from every frame not yet begun. When BEAM_DIED arrives in turn and GLR need
not wait, no frame that has not begun carries a code at a position whose beam is the dead one, and the beam stands in the
dead list of the stripe that STC holds unless that stripe has ended. Readings of the model that clauses of it rest on: log
entries 67, 89. Completion (exec answers a next state with its effect): beamDied. Rests on: R60, R292, R382, R753. -/
def Obligations.DeadBeamIsWithheld : Prop :=
  ∀ (s : State) (n rseq lseq k j : Nat), NextMsg s.dev n rseq → s.dev.glr.buf = [] → blkWaits s.dev .glr = false →
    dbmFull s.dev = false → k < 512 → j < 1024 →
    Does (.beamDied n rseq lseq k j) s fun d =>
      (∀ f ∈ d.glr.frames, ∀ c ∈ f.codes, remapBeam d c.1 ≠ remapBeam d (1024 * k + j)) ∧
      ∀ st, d.stc.cur = some st → st.ended = false → remapBeam d (1024 * k + j) ∈ st.died

/-- Bring-up of the Glaur link moves through its steps, and its time-outs end it. The clock locks once both link domains are on;
return-lane lock moves bring-up to its second step; half of the time-out is noted while bring-up runs; the error window of
step 8 completes and, when the lanes and their number allow it, the link comes up in state 6 with no frame begun;
TRAIN_FAIL, a missing heartbeat and the loss of every return lane take the link to OFF, the first with TRAIN_FAIL latched
and the second with LINK_DOWN latched, the map invalid and AUTH clear; DBM_MS discards the parts of a map asked for and
latches DBM_BAD. Readings of the model that clauses of it rest on: log entry 66. Completion (exec answers a next state with
its effect): lclkLocked, retLock, fecAlign, trainHalfTimeout, trainFail, dbmMs, glrHb, blockLockLost. Rests on: R388, R752,
R389. -/
def Obligations.LinkBringUpSteps : Prop :=
  (∀ s : State, s.dev.glr.st = 1 → pdState s.dev 11 = .on → pdState s.dev 12 = .on →
    Does .lclkLocked s fun d => d.glr.lclk = true ∧ d.glr.st = 1) ∧
  (∀ s : State, s.dev.glr.st = 1 → s.dev.glr.lclk = true → Does .retLock s fun d => d.glr.st = 2) ∧
  (∀ s : State, 1 ≤ s.dev.glr.st → s.dev.glr.st ≤ 5 → Does .trainHalfTimeout s fun d => d.glr.half = true) ∧
  (∀ s : State, s.dev.glr.st = 5 → trainStep s.dev (fun l => l.lock && l.fec) = true →
    fd s.dev Adr.GLR_CFG 5 0 ≤ ((List.range 48).filter fun n =>
      laneAllowed s.dev n && (lane s.dev n).lock && (lane s.dev n).fec && laneGood s.dev n).length →
    Does .fecAlign s fun d => d.glr.st = 6 ∧ d.glr.lseq = none ∧ d.glr.ack = 0xFFFFFFFF) ∧
  (∀ s : State, 1 ≤ s.dev.glr.st → s.dev.glr.st ≤ 6 → Does .trainFail s fun d =>
    d.glr.st = 0 ∧ latched d (Page.glr.base 0) Bit.err_GLR_TRAIN_FAIL = true) ∧
  (∀ s : State, s.dev.glr.dbmAsked = true → Does .dbmMs s fun d =>
    d.glr.dbmAsked = false ∧ d.glr.parts = [] ∧ latched d (Page.glr.base 0) Bit.err_GLR_DBM_BAD = true) ∧
  (∀ s : State, linkUp s.dev = true → Does .glrHb s fun d =>
    d.glr.st = 0 ∧ d.stc.dbm.valid = false ∧ d.tag.auth = false ∧
    latched d (Page.glr.base 0) Bit.err_GLR_LINK_DOWN = true) ∧
  (∀ s : State, linkUp s.dev = true → Does .blockLockLost s fun d => d.glr.st = 0 ∧ d.stc.dbm.valid = false)

/-- Lane faults, training, RESEND time-outs, GLR_CMD and a lane's repair sequence have their effect. A transmitter fault takes a
live transmit lane out of use and counts the loss on its page and in GLR_CNT_LANE; a lane retrained alone raises TRAINED; a
return lane's block lock is what its last report says; an unanswered RESEND is repeated once and counted, and its second
expiry latches MSG_LOST; UNACK_CLR empties the unacknowledged range and DBM_REQ asks the plate for its map. Where the
firmware's next repair sequence is a lane's, its next action saves and takes _OWNER and isolates the lane, which leaves use.
Readings of the model that clauses of it rest on: log entries 65, 66, 89, 95. Completion (exec answers a next state with its
effect): transmitterFault, resendTimeout, unackClr, dbmReq, trained, returnLaneBlockLock. Rests on: R369, R371, R372, R377,
R386, R388, R402, R572, R574, R754. -/
def Obligations.LaneCommandsHaveTheirEffect : Prop :=
  (∀ (s : State) (n unsent : Nat), n < 48 → (lane s.dev n).live = true →
    Does (.transmitterFault n unsent) s fun d =>
      (lane d n).live = false ∧
      rg d (Adr.LANE_CNT_LOSS n) = rg s.dev (Adr.LANE_CNT_LOSS n) + 1 ∧
      rg d Adr.GLR_CNT_LANE = rg s.dev Adr.GLR_CNT_LANE + 1) ∧
  (∀ (s : State) (n : Nat), n < 52 → (lane s.dev n).alone = true → Page.lane.base n ∉ s.dev.testing →
    (n < 48 → (lane s.dev n).lock = true ∧ (lane s.dev n).fec = true) →
    Does (.trained n) s fun d =>
      (lane d n).alone = false ∧ pends d (Page.lane.base n) Bit.evt_LANE_TRAINED = true) ∧
  (∀ (s : State) (n : Nat) (lock : Bool), 48 ≤ n → n < s.dev.glr.lanes.length → n < 52 → s.dev.glr.lclk = true →
    linkUp s.dev = false →
    Does (.returnLaneBlockLock n lock) s fun d => (lane d n).lock = lock) ∧
  (∀ (s : State) (r : Resend) (rest : List Resend), s.dev.glr.resends = r :: rest → r.again = false →
    Does .resendTimeout s fun d =>
      d.glr.resends = rest ++ [{ r with again := true }] ∧
      rg d Adr.GLR_CNT_RESEND = rg s.dev Adr.GLR_CNT_RESEND + 1) ∧
  (∀ (s : State) (r : Resend) (rest : List Resend), s.dev.glr.resends = r :: rest → r.again = true →
    Does .resendTimeout s fun d =>
      d.glr.resends = rest ∧ latched d (Page.glr.base 0) Bit.err_GLR_MSG_LOST = true) ∧
  (∀ (s : State) (req : Req) (v : W32), acc s.dev req Adr.GLR_CMD = true →
    Does (.unackClr req v) s fun d => unackEmpty d = true) ∧
  (∀ (s : State) (req : Req) (v : W32), acc s.dev req Adr.GLR_CMD = true → 7 ≤ s.dev.glr.st →
    Does (.dbmReq req v) s fun d => d.glr.dbmAsked = true) ∧
  (∀ (d : Dev) (n : Nat), n < 48 → n < d.glr.lanes.length → pageOn d .lane n = true → ctrlBit d (Page.lane.base n) 2 = false →
    d.knl.repairs.find? (fwReady d) = none → fwNext d = some (Page.lane.base n) →
    let e := repairTurn d
    (lane e n).live = false ∧ ctrlBit e (Page.lane.base n) 2 = true ∧ rg e (Page.lane.base n + oOWNER) = 2 ∧
      ⟨Page.lane.base n, rg d (Page.lane.base n + oOWNER), 0⟩ ∈ e.knl.repairs)

/-- Plate-tag exchanges begin, repeat and end as the spec says. CHAL with the link up and no exchange outstanding starts a
challenge; a right TAG_RESP sets AUTH and takes the count, and moves a link that has just come up to TAGGED; a wrong one
clears AUTH and latches TAG_FAIL; a right TAG_ACK advances the count by one and raises ADVANCED; an exchange unanswered for
100 µs is repeated, and after three repeats TAG_TIMEOUT is latched. Completion (exec answers a next state with its effect):
tagResp, tagAck, chal, tagRetry. Rests on: R392, R393, R395, R396, R751, R752. -/
def Obligations.TagExchangesEnd : Prop :=
  (∀ (s : State) (req : Req) (v : W32), acc s.dev req Adr.TAG_CTRL = true → linkUp s.dev = true → s.dev.tag.x = none →
    Does (.chal req v) s fun d =>
      d.tag.x = some ⟨false, (Config.nonce s.dev.free).toNat, 0⟩ ∧ bit (rg d Adr.TAG_CTRL) 0 = true) ∧
  (∀ (s : State) (n rseq count mac : Nat) (x : TagX), NextMsg s.dev n rseq → s.dev.tag.x = some x → x.adv = false →
    tagRight s.dev "KQTC" x.nonce (count % 2 ^ 32) mac = true →
    Does (.tagResp n rseq s.dev.glr.plate count mac) s fun d =>
      d.tag.auth = true ∧ d.tag.count = count % 2 ^ 32 ∧ (s.dev.glr.st = 6 → d.glr.st = 7)) ∧
  (∀ (s : State) (n rseq count mac : Nat) (x : TagX), NextMsg s.dev n rseq → s.dev.tag.x = some x → x.adv = false →
    tagRight s.dev "KQTC" x.nonce (count % 2 ^ 32) mac = false →
    Does (.tagResp n rseq s.dev.glr.plate count mac) s fun d =>
      d.tag.auth = false ∧ latched d (Page.tag.base 0) Bit.err_TAG_TAG_FAIL = true) ∧
  (∀ (s : State) (n rseq count mac : Nat) (x : TagX), NextMsg s.dev n rseq → s.dev.tag.x = some x → x.adv = true →
    tagRight s.dev "KQTB" x.nonce ((s.dev.tag.count + 1) % 2 ^ 32) mac = true →
    Does (.tagAck n rseq count mac) s fun d =>
      d.tag.count = (s.dev.tag.count + 1) % 2 ^ 32 ∧ pends d (Page.tag.base 0) Bit.evt_TAG_ADVANCED = true) ∧
  (∀ (s : State) (x : TagX), s.dev.tag.x = some x → x.repeats < 3 →
    Does .tagRetry s fun d => d.tag.x = some { x with repeats := x.repeats + 1 }) ∧
  (∀ (s : State) (x : TagX), s.dev.tag.x = some x → 3 ≤ x.repeats →
    Does .tagRetry s fun d => latched d (Page.tag.base 0) Bit.err_TAG_TAG_TIMEOUT = true)

/-- The check-value units start values, hold data in their FIFO, and feed it. CHK_START on an empty FIFO clears CHK_BYTES and,
for an implemented algorithm, puts the initial value, the seed and the folded ALIVE word in the CRC register and shows it
after the final XOR; while data wait it enters the FIFO behind them. CHK_D8, CHK_D16 and CHK_D32 put one, two or four bytes
in the FIFO. When LCLK runs, a unit takes what its FIFO holds: the bytes of an entry are fed least significant first and
counted, and the result shows the register after the final XOR. That a FIFO is fed by idle steps is the model's choice (log
entry 89). Readings of the model that clauses of it rest on: log entry 89. Completion (exec answers a next state with its
effect): chkStart, chkD8, chkD16, chkD32. Rests on: R398, R399, R400, R401, R405. -/
def Obligations.CheckUnitsCompute : Prop :=
  (∀ (s : State) (req : Req) (n : Nat) (v : W32), n < 8 → n < s.dev.chks.length → acc s.dev req (Adr.CHK_CMD n) = true →
    (chkFifo s.dev n = [] → Does (.chkStart req n v) s fun d =>
      rg d (Adr.CHK_BYTES n) = 0 ∧
      (chkAlg s.dev n < 4 →
        (nth d.chks n {}).crc = chkInit (chkAlg s.dev n) ^^^ chkSeed s.dev n ^^^ chkFold s.dev n ∧
        rg d (Adr.CHK_RES_LO n) = w32 ((nth d.chks n {}).crc ^^^ chkXor (chkAlg s.dev n)))) ∧
    (chkFifo s.dev n ≠ [] → Does (.chkStart req n v) s fun d => chkFifo d n = chkFifo s.dev n ++ [.start])) ∧
  (∀ (s : State) (req : Req) (n : Nat) (v : W32), n < 8 → n < s.dev.chks.length → chkLevel s.dev n < 16 →
    (acc s.dev req (Adr.CHK_D8 n) = true →
      Does (.chkD8 req n v) s fun d => chkFifo d n = chkFifo s.dev n ++ [.data 1 v]) ∧
    (acc s.dev req (Adr.CHK_D16 n) = true →
      Does (.chkD16 req n v) s fun d => chkFifo d n = chkFifo s.dev n ++ [.data 2 v]) ∧
    (acc s.dev req (Adr.CHK_D32 n) = true →
      Does (.chkD32 req n v) s fun d => chkFifo d n = chkFifo s.dev n ++ [.data 4 v])) ∧
  (∀ (d : Dev) (n k : Nat) (v : W32), n < 8 → n < d.chks.length → chkAlg d n < 4 → chkFifo d n = [.data k v] →
    let e := chkTicks d
    chkFifo e n = [] ∧ rg e (Adr.CHK_BYTES n) = rg d (Adr.CHK_BYTES n) + w32 k ∧
    (nth e.chks n {}).crc
      = (leBytes k v.toNat).foldl (fun c b => chkByte (chkAlg d n) c b.toNat) (nth d.chks n {}).crc ∧
    rg e (Adr.CHK_RES_LO n) = w32 ((nth e.chks n {}).crc ^^^ chkXor (chkAlg d n)))

/-- The Heel's arithmetic instructions write one register, move on and change nothing else. For each arithmetic microcode
instruction that stands at the program's address and can run: the register that its word names takes the value of R470 (h0
ignores writes and reads 0), the address moves on by one, the QCLK count grows by the instruction's cost, and every other
part of the Heel and every word stands. Saturation is to s32. IN reads a port as latched at the tick and CF a coefficient as
sampled at the tick. ADDI is stated where the sum lies in s32; what it delivers elsewhere the spec leaves open. Readings of
the model that clauses of it rest on: log entries 23, 68. Completion (exec answers a next state with its effect): ldi, ldh,
add, sub, addi, mul, shr, shl, minI, maxI, inPort, cf. Rests on: R469, R470, R472, R473, R475. -/
def Obligations.MicrocodeArithmetic : Prop :=
  ∀ s : State, s.dev.hel.h.length = 16 →
    let h := s.dev.hel
    let w := ucWord s.dev
    let a := ucReg h (ucA w)
    let b := ucReg h (ucB w)
    let sat (x : Int) : Int := clampI (-2147483648) 2147483647 x
    (UcReady s.dev 0x01 1 → Does .ldi s fun d => UcWrote s.dev d 1 (toS 23 (fld w 22 0))) ∧
    (UcReady s.dev 0x02 1 → Does .ldh s fun d =>
      UcWrote s.dev d 1 (toS 32 (fld w 15 0 * 65536 + ofS 32 (ucReg h (ucD w)) % 65536))) ∧
    (UcReady s.dev 0x03 1 → Does .add s fun d => UcWrote s.dev d 1 (sat (a + b))) ∧
    (UcReady s.dev 0x04 1 → Does .sub s fun d => UcWrote s.dev d 1 (sat (a - b))) ∧
    (UcReady s.dev 0x05 1 → sat (a + toS 15 (ucImm w)) = a + toS 15 (ucImm w) →
      Does .addi s fun d => UcWrote s.dev d 1 (a + toS 15 (ucImm w))) ∧
    (UcReady s.dev 0x06 2 → Does .mul s fun d =>
      UcWrote s.dev d 2 (sat (if ucImm w % 32 = 0 then a * b else (a * b + 2 ^ (ucImm w % 32 - 1)) / 2 ^ (ucImm w % 32)))) ∧
    (UcReady s.dev 0x07 1 → Does .shr s fun d => UcWrote s.dev d 1 (a / 2 ^ (ucImm w % 32))) ∧
    (UcReady s.dev 0x08 1 → Does .shl s fun d => UcWrote s.dev d 1 (sat (a * 2 ^ (ucImm w % 32)))) ∧
    (UcReady s.dev 0x09 1 → Does .minI s fun d => UcWrote s.dev d 1 (min a b)) ∧
    (UcReady s.dev 0x0A 1 → Does .maxI s fun d => UcWrote s.dev d 1 (max a b)) ∧
    (UcReady s.dev 0x0B 1 → Does .inPort s fun d => UcWrote s.dev d 1 (nth h.ports (ucImm w % 16) 0)) ∧
    (UcReady s.dev 0x0C 1 → Does .cf s fun d => UcWrote s.dev d 1 (toS 32 (nth h.smp (4 + ucImm w % 16) 0).toNat))

/-- The Heel's branches, HYST, OUT, CAP, WAIT and UC_FAULT have their effect. NOP moves on by one; BR, BZ and BN move to the
word's target when taken and on by one when not, at 2 or 1 QCLK; HYST in TRACK sets the slope state by the band and stages Y
plus the slope, and shows the error; OUT stages its value held to s28; CAP writes words 1 and 2 of the sample's capture
entry; WAIT completes the sample and stops the program; a fault stops the program, latches UC_FAULT and asks for SAFE.
Readings of the model that clauses of it rest on: log entry 68. Completion (exec answers a next state with its effect): nop,
hyst, outI, capI, br, bz, bn, waitInstruction, ucFault. Rests on: R458, R460, R470, R471, R473, R479. -/
def Obligations.MicrocodeControlAndOutput : Prop :=
  ∀ s : State,
    let h := s.dev.hel
    let w := ucWord s.dev
    let a := ucReg h (ucA w)
    let b := ucReg h (ucB w)
    let moved (pc cost : Nat) (d : Dev) : Prop := d.hel = { h with pc := pc, cyc := h.cyc + cost } ∧ UcKeeps s.dev d
    (UcReady s.dev 0x00 1 → Does .nop s (moved ((h.pc + 1) % 256) 1)) ∧
    (UcReady s.dev 0x10 2 → Does .br s (moved (ucImm w % 256) 2)) ∧
    (UcReady s.dev 0x11 2 → a = 0 → Does .bz s (moved (ucImm w % 256) 2)) ∧
    (UcReady s.dev 0x11 1 → a ≠ 0 → Does .bz s (moved ((h.pc + 1) % 256) 1)) ∧
    (UcReady s.dev 0x12 2 → a < 0 → Does .bn s (moved (ucImm w % 256) 2)) ∧
    (UcReady s.dev 0x12 1 → 0 ≤ a → Does .bn s (moved ((h.pc + 1) % 256) 1)) ∧
    (UcReady s.dev 0x0D 1 → h.mode = 3 → h.inj = false → Does .hyst s fun d =>
      d.hel.v = (if smpH h < a then 1 else if a < -smpH h then -1 else h.v) ∧
      d.hel.ystage = clampI (-134217728) 134217727 (h.y + d.hel.v * smpS h) ∧ d.hel.y = h.y ∧
      rg d Adr.HEL_ERR_LAST = w32 (ofS 32 a) ∧ d.hel.pc = (h.pc + 1) % 256) ∧
    (UcReady s.dev 0x0E 1 → h.mode = 2 ∨ h.mode = 3 → Does .outI s fun d =>
      d.hel = { h with ystage := clampI (-134217728) 134217727 a, pc := (h.pc + 1) % 256, cyc := h.cyc + 1 } ∧
      UcKeeps s.dev d) ∧
    (∀ i, UcReady s.dev 0x0F 1 → h.capCur = some i → Does .capI s fun d =>
      rg d (Adr.HEL_CAP i + 4) = w32 (ofS 32 a) ∧ rg d (Adr.HEL_CAP i + 8) = w32 (ofS 32 b) ∧
      d.hel = { h with pc := (h.pc + 1) % 256, cyc := h.cyc + 1 }) ∧
    (UcReady s.dev 0x13 1 → Does .waitInstruction s fun d =>
      d.hel = { h with complete := true, going := false, pc := (h.pc + 1) % 256, cyc := h.cyc + 1 } ∧
      rg d Adr.HEL_CYC = w32 ((h.cyc + 1) * 256 + max (h.cyc + 1) (fd s.dev Adr.HEL_CYC 7 0))) ∧
    (qclk s.dev = true → h.going = true → Does (.ucFault true) s fun d =>
      d.hel.going = false ∧ latched d (Page.hel.base 0) Bit.err_HEL_UC_FAULT = true ∧
      (1 ≤ h.mode → h.mode ≤ 3 → d.hel.safeReq = true))

/-- The tick of the Heel, its command register, injection, capture and microcode writes have their effect. A tick while the Heel
runs counts HEL_SAMPLE and the frame number, and starts the program at its start address with no QCLK used; in TRACK, with
ENC_VALID high, no cause for SAFE waiting and the sample before complete, Y takes the staged value. PEAK_CLR clears the
peak; RELOAD with ENABLE 0 restores the standard loop; SAFE and ACQ ask for their mode; INJ_ARM arms and INJ_STOP ends an
injection, latching INJ_ABORT when one runs; CAP_ARM arms a capture; a microcode write with ENABLE 0 stores its word.
Readings of the model that clauses of it rest on: log entries 53, 68, 92. Completion (exec answers a next state with its
effect): tick, peakClr, reload, safe, acq, injArm, injStop, capArm, microcodeWrite. Rests on: R457, R458, R459, R462, R464,
R468, R477, R478, R479, R481, R482. -/
def Obligations.HeelTickAndCommands : Prop :=
  (∀ (s : State) (t : Nat) (enc : Bool), helRuns s.dev = true → Does (.tick t enc) s fun d =>
    rg d Adr.HEL_SAMPLE = rg s.dev Adr.HEL_SAMPLE + 1 ∧ d.hel.seq = (s.dev.hel.seq + 1) % 16 ∧
    d.hel.pc = fd s.dev Adr.HEL_CFG 7 0 ∧ d.hel.cyc = 0 ∧ d.hel.going = true ∧ d.hel.complete = false) ∧
  (∀ (s : State) (t : Nat), helRuns s.dev = true → s.dev.hel.mode = 3 → s.dev.hel.safeReq = false →
    s.dev.hel.ticked = true → s.dev.hel.complete = true → Does (.tick t true) s fun d => d.hel.y = s.dev.hel.ystage) ∧
  (∀ (s : State) (req : Req) (v : W32), acc s.dev req Adr.HEL_CMD = true →
    (Does (.peakClr req v) s fun d => rg d Adr.HEL_PEAK = 0) ∧
    (bit (rg s.dev (Page.hel.base 0 + oCTRL)) 0 = false → Does (.reload req v) s fun d =>
      d.hel.bad = [] ∧ ∀ a < 256, rg d (Adr.HEL_UC a) = w32 (wordReset (Adr.HEL_UC a))) ∧
    (1 ≤ s.dev.hel.mode → s.dev.hel.mode ≤ 3 → Does (.safe req v) s fun d => d.hel.safeReq = true) ∧
    (s.dev.hel.mode = 1 → Does (.acq req v) s fun d => d.hel.acqReq = true)) ∧
  (∀ (s : State) (req : Req) (v : W32), acc s.dev req Adr.HEL_INJ_CTRL = true →
    (bits v 5 4 ≠ 0 → inStripe s.dev = false → 1 ≤ s.dev.hel.mode → s.dev.hel.mode ≤ 3 →
      Does (.injArm req v) s fun d => bit (rg d Adr.HEL_INJ_CTRL) 0 = true) ∧
    (s.dev.hel.inj = true → Does (.injStop req v) s fun d =>
      d.hel.inj = false ∧ latched d (Page.hel.base 0) Bit.err_HEL_INJ_ABORT = true)) ∧
  (∀ (s : State) (req : Req) (v : W32), acc s.dev req Adr.HEL_CAP_CTRL = true → Does (.capArm req v) s fun d =>
    d.hel.capArmed = true ∧ d.hel.capDone = false ∧ d.hel.capN = 0 ∧ rg d Adr.HEL_CAP_CTRL = v &&& 0x077FFF00) ∧
  (∀ (s : State) (req : Req) (a : Nat) (v : W32), a < 256 → acc s.dev req (Adr.HEL_UC a) = true →
    bit (rg s.dev (Page.hel.base 0 + oCTRL)) 0 = false → (injTake s.dev (Page.hel.base 0) true).1 = 0 →
    Does (.microcodeWrite req a v) s fun d => rg d (Adr.HEL_UC a) = v ∧ a ∉ d.hel.bad)

/-- Stage inputs move POS modulo 2^48, and a stage fault stops exposure. In STEP/DIR a rising STEP that passes the filter moves
POS up or down by one, and in quadrature an edge of one input does so by the level of the other, POS wrapping at 2^48. While
a stripe runs and no supply warning holds, loss of feedback (LOSS_OF_INPUT_SWING, ENC_VALID_LOW) and FREEZE end the stripe,
leave EXP HALTED, latch their error and ask the Heel for SAFE. OSREQ returns when its count has run out. Readings of the
model that clauses of it rest on: log entry 35. Completion (exec answers a next state with its effect): countEdge,
lossOfInputSwing, encValidLow, osreqExpiry, freeze. Rests on: R406, R407, R408, R424, R425, R426, R434. -/
def Obligations.StageInputsMovePosition : Prop :=
  (∀ (s : State) (dir : Bool) (width t : Nat), pdState s.dev 13 = .on → 2 * fd s.dev Adr.EXP_CFG 3 0 ≤ width →
    fd s.dev Adr.EXP_CFG 9 8 = 0 → s.dev.exp.qA = false → s.dev.exp.pos < 2 ^ 48 → Does (.countEdge true dir width t) s fun d =>
      d.exp.pos = (if dir then s.dev.exp.pos + 1 else s.dev.exp.pos + (2 ^ 48 - 1)) % 2 ^ 48) ∧
  (∀ (s : State) (x : Bool) (width t : Nat), pdState s.dev 13 = .on → 2 * fd s.dev Adr.EXP_CFG 3 0 ≤ width →
    fd s.dev Adr.EXP_CFG 9 8 = 1 → s.dev.exp.qA ≠ x → s.dev.exp.pos < 2 ^ 48 →
    Does (.countEdge x s.dev.exp.qB width t) s fun d =>
      d.exp.pos = (if x ≠ s.dev.exp.qB then s.dev.exp.pos + 1 else s.dev.exp.pos + (2 ^ 48 - 1)) % 2 ^ 48 ∧
      d.exp.qA = x) ∧
  (∀ (s : State), inStripe s.dev = true → s.dev.muz.supply = false →
    let stopped (b : Nat) (d : Dev) : Prop :=
      d.exp.run = none ∧ d.exp.halted = true ∧ latched d (Page.exp.base 0) b = true ∧
      (1 ≤ s.dev.hel.mode → s.dev.hel.mode ≤ 3 → d.hel.safeReq = true)
    Does .lossOfInputSwing s (stopped Bit.err_EXP_FEEDBACK_LOST) ∧
    Does .encValidLow s (stopped Bit.err_EXP_FEEDBACK_LOST) ∧ Does .freeze s (stopped Bit.err_EXP_FREEZE)) ∧
  (∀ s : State, s.dev.exp.osLeft = 1 → Does .osreqExpiry s fun d => d.exp.osLeft = 0)

/-- STRIPE_GO starts the head ticket's stripe, refused where R446 applies, or is ignored. With PD_EXP on, no stripe running and
a ticket at the head: when nothing refuses it and nothing is late, the stripe runs from POS with the ratio and strobe width
of its slot and at least two lead boundaries, and EXP_STRIPE, EXP_N and EXP_REFUSE show it; when a condition of R446 holds,
the stripe of a ticket that was not rejected is refused, EXP_REFUSE shows why and REFUSED latches. With a stripe running, or
none queued, the edge is counted and ignored. Readings of the model that clauses of it rest on: log entries 33, 34.
Completion (exec answers a next state with its effect): stripeGo. Rests on: R413, R428, R446, R447, R562, R757. -/
def Obligations.StripeGoStartsTheHeadTicket : Prop :=
  (∀ (s : State) (t : Nat) (k : Tkt) (q : List Tkt), pdState s.dev 13 = .on → s.dev.exp.run = none →
    s.dev.exp.queue = k :: q → refuseWhy s.dev = 0 → slotShadow s.dev k.slotB = false → k.rejected = false →
    k.swept = false → wakeLate s.dev = false → (fd s.dev Adr.HEL_CFG 8 8 = 1 → s.dev.hel.mode = 3) →
    Does (.stripeGo t) s fun d =>
      (∃ r, d.exp.run = some r ∧ r.tkt = k ∧ r.refused = false ∧ r.posGo = s.dev.exp.pos ∧ r.shots = 0 ∧
        r.ratio = fd s.dev (slotReg k.slotB Adr.EXP_RATIO_A Adr.EXP_RATIO_B) 24 0 ∧
        r.width = fd s.dev (slotReg k.slotB Adr.EXP_STROBE_A Adr.EXP_STROBE_B) 9 0 ∧
        r.goLead = max 2 (fd s.dev Adr.EXP_GO 15 0)) ∧
      rg d Adr.EXP_STRIPE = k.index ∧ rg d Adr.EXP_N = w32 (k.len + k.dmax) ∧ rg d Adr.EXP_REFUSE = 0) ∧
  (∀ (s : State) (t : Nat) (k : Tkt) (q : List Tkt), pdState s.dev 13 = .on → s.dev.exp.run = none →
    s.dev.exp.queue = k :: q → refuseWhy s.dev ≠ 0 → Does (.stripeGo t) s fun d =>
      (∀ r, d.exp.run = some r → r.refused = true) ∧ rg d Adr.EXP_REFUSE = w32 (refuseWhy s.dev) ∧
      latched d (Page.exp.base 0) Bit.err_EXP_REFUSED = true) ∧
  (∀ (s : State) (t : Nat), pdState s.dev 13 = .on → s.dev.exp.run ≠ none ∨ s.dev.exp.queue = [] →
    Does (.stripeGo t) s fun d =>
      rg d Adr.EXP_CNT_GO_IGNORED = rg s.dev Adr.EXP_CNT_GO_IGNORED + 1 ∧ d.exp = s.dev.exp)

/-- A lead boundary hands over the first frames, and a shot's boundary fires, skips or blanks it. A lead boundary well before
the last ones only moves the count of boundaries on, and one with two or fewer to go leaves the frame it is for handed over
while the stripe runs. At the boundary of shot f of a stripe that is not refused, that no cause covers and that REMAP_UE or
DBM_UE does not stop: the shot fires when its frame is on the link, the interval from the last fired shot is at least TMIN
and the acknowledgement window is open (EXP_SHOT is f, the shot is counted and a strobe pulse is due), and is skipped when
the interval is shorter (EXP_CNT_SKIP counts it and SKIP latches); a covered shot is decided without either count. Readings
of the model that clauses of it rest on: log entries 32, 33, 35, 41, 89. Completion (exec answers a next state with its
effect): leadBoundary, shotBoundary. Rests on: R414, R420, R421, R422, R427, R431, R437. -/
def Obligations.BoundariesDecideShots : Prop :=
  (∀ (s : State) (t : Nat) (r : Run), takeBoundary s.dev = some (t, r) → r.next + 1 < r.goLead → 1 ≤ r.next →
    Does .leadBoundary s fun d => ∃ r', d.exp.run = some r' ∧ r'.next = r.next ∧ r'.lastB = some t ∧ r'.begun = r.begun) ∧
  (∀ (s : State) (t : Nat) (r : Run), takeBoundary s.dev = some (t, r) → r.goLead ≤ r.next + 1 → r.next ≤ r.goLead →
    1 ≤ r.next → r.next + 1 - r.goLead < r.tkt.n →
    Does .leadBoundary s fun d => ∀ r', d.exp.run = some r' → r.next + 1 - r.goLead < r'.begun) ∧
  (∀ (s : State) (t f l : Nat) (r : Run), takeBoundary s.dev = some (t, r) → r.next = r.goLead + f + 1 →
    (∀ a, r.tkt.stopAt = some a → f < a) → r.refused = false → covered s.dev = false →
    (∀ b, r.lastFired = some b → 2 * tminNs s.dev ≤ t - b) → (r.lastFired = none → 2 * tminNs s.dev ≤ t) →
    frameLseq s.dev r.tkt.seq f = some l → ackBlocked s.dev l = false → unackEmpty s.dev = true →
    Does .shotBoundary s fun d =>
      rg d Adr.EXP_CNT_SHOTS = rg s.dev Adr.EXP_CNT_SHOTS + 1 ∧ rg d Adr.EXP_SHOT = w32 f ∧
      d.muz.pulses = s.dev.muz.pulses ++ [{ shot := f, tkt := r.tkt }]) ∧
  (∀ (s : State) (t f b : Nat) (r : Run), takeBoundary s.dev = some (t, r) → r.next = r.goLead + f + 1 →
    (∀ a, r.tkt.stopAt = some a → f < a) → r.refused = false → covered s.dev = false →
    r.lastFired = some b → t - b < 2 * tminNs s.dev →
    Does .shotBoundary s fun d =>
      rg d Adr.EXP_CNT_SKIP = rg s.dev Adr.EXP_CNT_SKIP + 1 ∧ rg d Adr.EXP_SHOT = w32 f ∧
      latched d (Page.exp.base 0) Bit.err_EXP_SKIP = true ∧ d.muz.pulses = s.dev.muz.pulses) ∧
  (∀ (s : State) (t f : Nat) (r : Run), takeBoundary s.dev = some (t, r) → r.next = r.goLead + f + 1 →
    (∀ a, r.tkt.stopAt = some a → f < a) → r.refused = true ∨ covered s.dev = true →
    Does .shotBoundary s fun d =>
      rg d Adr.EXP_SHOT = w32 f ∧ rg d Adr.EXP_CNT_SHOTS = rg s.dev Adr.EXP_CNT_SHOTS ∧
      rg d Adr.EXP_CNT_SKIP = rg s.dev Adr.EXP_CNT_SKIP ∧ d.muz.pulses = s.dev.muz.pulses)

/-- A strobe rises and falls, the watchdog cuts it, and calibration and CLEAR_STUCK have their effect. A due strobe rises,
marked when CUT of _INJECT is armed; one that is not marked falls, and the pulses after it stay due. A strobe that reaches
MUZ_LIMIT, and at its fall a marked one, sets STUCK, shows its shot and stripe in MUZ_CUT_SHOT and MUZ_CUT_STRIPE, latches
STUCK, ends the pulses in progress, leaves BLANK_ALL# asserted and, when marked, clears CUT. CALIBRATION shows the cells and
latches CAL_FAIL when it fails. CLEAR_STUCK clears STUCK while no source stands at severity 3. A write of CUT arms it.
Readings of the model that clauses of it rest on: log entries 36, 89. Completion (exec answers a next state with its
effect): strobeRise, strobeFall, strobeCut, calibration, clearStuck, muzInjectCut. Rests on: R427, R432, R433, R438, R439,
R440, R746. -/
def Obligations.StrobesAndWatchdog : Prop :=
  (∀ (s : State) (p : Pulse) (rest : List Pulse), s.dev.muz.pulses = p :: rest → p.high = false →
    Does .strobeRise s fun d =>
      d.muz.pulses = { p with high := true, cut := bit (rg s.dev (Page.muz.base 0 + oINJECT)) 0 } :: rest) ∧
  (∀ (s : State) (p : Pulse) (rest : List Pulse), s.dev.muz.pulses = p :: rest → p.high = true → p.cut = false →
    Does .strobeFall s fun d => d.muz.pulses = rest) ∧
  (∀ (s : State) (p : Pulse) (rest : List Pulse), s.dev.muz.pulses = p :: rest → p.high = true → s.dev.pmu.seq ≠ .off →
    let cut (d : Dev) : Prop :=
      d.muz.stuck = true ∧ d.muz.pulses = [] ∧ d.muz.muzzled = true ∧ d.pins.blankAll = some false ∧
      rg d Adr.MUZ_CUT_SHOT = w32 p.shot ∧ rg d Adr.MUZ_CUT_STRIPE = p.tkt.index ∧
      latched d (Page.muz.base 0) Bit.err_MUZ_STUCK = true ∧
      (p.cut = true → bit (rg d (Page.muz.base 0 + oINJECT)) 0 = false)
    Does .strobeCut s cut ∧ (p.cut = true → Does .strobeFall s cut)) ∧
  (∀ (s : State) (cells : W32), Does (.calibration true cells) s fun d => rg d Adr.MUZ_CAL = cells) ∧
  (∀ (s : State) (cells : W32), Does (.calibration false cells) s fun d =>
    rg d Adr.MUZ_CAL = cells ∧ latched d (Page.muz.base 0) Bit.err_MUZ_CAL_FAIL = true) ∧
  (∀ (s : State) (req : Req) (v : W32), acc s.dev req Adr.MUZ_CMD = true → s.dev.muz.stuck = true →
    (∀ l ∈ s.dev.fcl.lvl, l < 3) → Does (.clearStuck req v) s fun d => d.muz.stuck = false) ∧
  (∀ (s : State) (req : Req) (v : W32), acc s.dev req (Page.muz.base 0 + oINJECT) = true →
    Does (.muzInjectCut req v) s fun d => bit (rg d (Page.muz.base 0 + oINJECT)) 0 = true)

/-- ABORT#, BLANK_REQ# and the whistle muzzle the block at once, and the muzzle ends only with its last cause. When ABORT# goes
low the block is muzzled unless a strobe is in progress, the stripe ends and EXP is HALTED; BLANK_REQ# and the whistle's
BLANK muzzle it without ending the stripe; the whistle's STOP stops it. Released, a cause no longer holds, and the block
stays muzzled exactly while another cause holds. RESUME ends HALTED only when no cause of R434 is present. Completion (exec
answers a next state with its effect): abortAsserted, abortReleased, blankReqAsserted, blankReqReleased, resume, tktClr.
Rests on: R432, R433, R434, R436, R441, R498, R750. -/
def Obligations.MuzzleCausesHoldAndRelease : Prop :=
  (∀ s : State, s.dev.muz.abortPin = false → Does .abortAsserted s fun d =>
    d.muz.abortPin = true ∧ d.exp.run = none ∧ d.exp.halted = true ∧ (s.dev.muz.pulses = [] → d.muz.muzzled = true)) ∧
  (∀ s : State, Does .blankReqAsserted s fun d =>
    d.muz.blankPin = true ∧ d.exp = s.dev.exp ∧ (s.dev.muz.pulses = [] → d.muz.muzzled = true)) ∧
  (∀ s : State, s.dev.muz.muzzled = true → Does .abortReleased s fun d =>
    d.muz.abortPin = false ∧ d.muz.muzzled = muzCause { s.dev with muz := { s.dev.muz with abortPin := false } }) ∧
  (∀ s : State, s.dev.muz.muzzled = true → s.dev.exp.run = none → Does .blankReqReleased s fun d =>
    d.muz.blankPin = false ∧ d.muz.blankFrom = none ∧
    d.muz.muzzled = muzCause { s.dev with muz := { s.dev.muz with blankPin := false } }) ∧
  (∀ (s : State) (req : Req) (v : W32), acc s.dev req Adr.EXP_CMD = true → s.dev.exp.halted = true →
    Does (.resume req v) s fun d => d.exp.halted = abortCause s.dev) ∧
  (∀ (s : State) (req : Req) (v : W32), acc s.dev req Adr.EXP_CMD = true →
    Does (.tktClr req v) s fun d => d.exp.words = [])

/-- A ticket's words collect into a record, and a record becomes the last ticket of the queue. A write of EXP_TKT adds a word to
the partial record, the eighth completing it; ACCEPTED, with fewer than four tickets queued, takes the oldest record: one
more ticket at the end of the queue with its STRIPE_INDEX, its slot and its length, counted, handed to STC and announced;
WAKE asks for the domains of a head ticket that waits; PACE_FRAME shows the rate of R451 in EXP_PACE. Readings of the model
that clauses of it rest on: log entry 34. Completion (exec answers a next state with its effect): expTkt, accepted, wake,
paceFrame. Rests on: R39, R443, R444, R445, R448, R450, R451. -/
def Obligations.TicketsArriveAndAreAccepted : Prop :=
  (∀ (s : State) (req : Req) (v : W32), acc s.dev req Adr.EXP_TKT = true → Does (.expTkt req v) s fun d =>
    if s.dev.exp.words.length < 7 then d.exp.words = s.dev.exp.words ++ [v] ∧ d.exp.arriving = s.dev.exp.arriving
    else d.exp.words = [] ∧ d.exp.arriving = s.dev.exp.arriving ++ [s.dev.exp.words ++ [v]]) ∧
  (∀ (s : State) (w : List W32) (rest : List (List W32)), pdState s.dev 13 = .on → s.dev.exp.arriving = w :: rest →
    s.dev.exp.queue.length < 4 → s.dev.exp.run = none → Does .accepted s fun d =>
      d.exp.arriving = rest ∧ d.exp.count = s.dev.exp.count + 1 ∧
      (∃ t, d.exp.queue = s.dev.exp.queue ++ [t] ∧ d.stc.todo = s.dev.stc.todo ++ [t] ∧
        t.index = nth w 0 0 ∧ t.slotB = bit (nth w 1 0) 2 ∧ t.len = bits (nth w 5 0) 23 0 ∧
        t.dmax = fd s.dev Adr.GEOM_DMAX 13 0) ∧
      pends d (Page.exp.base 0) Bit.evt_EXP_ACCEPTED = true) ∧
  (∀ s : State, s.dev.exp.queue ≠ [] → s.dev.exp.run = none → s.dev.exp.wakeHead = false →
    Does .wake s fun d => d.exp.wakeHead = true) ∧
  (∀ s : State, pdState s.dev 13 = .on → Does .paceFrame s fun d =>
    fd d Adr.EXP_PACE 31 24 = paceRate s.dev % 256 ∧
    .pace (paceFrame s.dev) ∈ d.outs)

/-- Fault collection's registers, BARK and the job-slot swap have their effect. A write of FCL_STATUS_LO clears a source's bit
when its line is inactive and keeps one whose line is active; a write of FCL_SEV stores the word with its floors; a read of
FCL_LOG_W2 removes the oldest entry; RESTART ends a halt when no source stands at 3 and STUCK reads 0; a boundary of the
BARK grid toggles a running BARK and holds it low while an error of R616 stands. JOB_SWAP GO commits the shadow slot, CANCEL
takes that back, and when a swap's work ends the PMU holds the raster plan of the new ACTIVE slot's BCODE. Readings of the
model that clauses of it rest on: log entries 39, 78. Completion (exec answers a next state with its effect): jobSwapGo,
jobSwapCancel, swapWorkDone, fclStatus, fclSev, fclLogW2, restart, bark. Rests on: R558, R559, R561, R608, R610, R613, R615,
R616, R619, R681. -/
def Obligations.FaultCollectionAndSlots : Prop :=
  (∀ (s : State) (req : Req) (v : W32) (n : Nat), n < 32 → acc s.dev req Adr.FCL_STATUS_LO = true → bit v n = true →
    bit s.dev.fcl.status n = true → Does (.fclStatus req v) s fun d => bit d.fcl.status n = srcLine s.dev n) ∧
  (∀ (s : State) (req : Req) (n : Nat) (v : W32), n < 32 → acc s.dev req (Adr.FCL_SEV n) = true →
    Does (.fclSev req n v) s fun d => rg d (Adr.FCL_SEV n) = sevStored n v) ∧
  (∀ (s : State) (req : Req), acc s.dev req Adr.FCL_LOG_W2 = true → Does (.fclLogW2 req) s fun d =>
    d.fcl.log = s.dev.fcl.log.drop 1 ∧ .readData req Adr.FCL_LOG_W2 [fclLogWord s.dev 2] ∈ d.outs) ∧
  (∀ (s : State) (req : Req) (v : W32), acc s.dev req Adr.FCL_CMD = true → s.dev.fcl.halted = true →
    sev3Held s.dev = false → s.dev.muz.stuck = false → Does (.restart req v) s fun d =>
      d.fcl.halted = false ∧ d.muz.sev3 = false ∧ d.fcl.barkArm = true) ∧
  (∀ s : State, s.dev.fcl.barkGrid = true → Does .bark s fun d =>
    d.fcl.bark = (!barkHeld s.dev && (s.dev.fcl.barkRun || s.dev.fcl.barkArm) && !s.dev.fcl.bark) ∧
    d.fcl.barkRun = (!barkHeld s.dev && (s.dev.fcl.barkRun || s.dev.fcl.barkArm))) ∧
  (∀ (s : State) (req : Req) (v : W32), acc s.dev req Adr.GLB_JOB_SWAP = true →
    (s.dev.glb.pend = false → Does (.jobSwapGo req v) s fun d => d.glb = { s.dev.glb with pend := true }) ∧
    (s.dev.glb.pend = true → Does (.jobSwapCancel req v) s fun d => d.glb = { s.dev.glb with pend := false })) ∧
  (∀ s : State, s.dev.exp.swapWork = true → Does .swapWorkDone s fun d =>
    let i := 2 * fd s.dev (slotReg s.dev.glb.activeB Adr.GLB_SLOT_A Adr.GLB_SLOT_B) 1 0
    d.exp = { s.dev.exp with swapWork := false } ∧ d.pmu = { s.dev.pmu with plan := fd s.dev Adr.PMU_RASPLAN (i + 1) i })

/-- A granted write of _CTRL stores ENABLE, QUIESCE and ISOLATE, and SOFT_RESET is not held. On every page other than those of
raster tiles, engines, channels, lanes, GLR and the Heel (they have statements of their own), its domain powered and the
requester granted: setting or clearing ENABLE, QUIESCE or ISOLATE stores those three bits of the word written with that bit
set or clear, and a write with SOFT_RESET stores the three bits of the word. Readings of the model that clauses of it rest
on: log entries 53, 54. Completion (exec answers a next state with its effect): enableSet, enableClear, quiesceSet,
quiesceClear, isolateSet, isolateClear, softReset. Rests on: R16, R736, R737, R740. -/
def Obligations.ControlBitsAreStored : Prop :=
  ∀ (s : State) (req : Req) (p : Page) (n : Nat) (v : W32), pageOf (p.base n) = some (p, n) → pageOn s.dev p n = true →
    owns s.dev req p n = true → p ∉ [Page.ras, Page.cdcE, Page.dmaCh, Page.lane, Page.glr, Page.hel] →
    let holds (w : W32) (d : Dev) : Prop := rg d (p.base n + oCTRL) = w &&& 7
    Does (.enableSet req (p.base n) v) s (holds (putBit v 0 true)) ∧
    Does (.enableClear req (p.base n) v) s (holds (putBit v 0 false)) ∧
    Does (.quiesceSet req (p.base n) v) s (holds (putBit v 1 true)) ∧
    Does (.quiesceClear req (p.base n) v) s (holds (putBit v 1 false)) ∧
    Does (.isolateSet req (p.base n) v) s (holds (putBit v 2 true)) ∧
    Does (.isolateClear req (p.base n) v) s (holds (putBit v 2 false)) ∧
    Does (.softReset req (p.base n) v) s (holds v)

/-- A resource is self-tested when ENABLE sets, and what it holds is taken back when it leaves. A tile, an engine, a channel or
a lane whose ENABLE rises enters its self-test; the end of the test leaves it ISOLATED when it passes and, when it fails, as
it was, its error latched. A tile that is isolated or disabled gives its patches back and holds none. A transmit lane that
is isolated is no longer live. The Heel's ENABLE clearing leaves it in mode OFF. GLR's ENABLE begins bring-up from OFF, and
clearing it takes the link to OFF. A channel at rest whose ISOLATE clears is IDLE. An engine that is isolated holds neither
frame nor job. Readings of the model that clauses of it rest on: log entries 52, 53, 65. Completion (exec answers a next
state with its effect): enableSet, enableClear, enableSelfTestDone, isolateSet, isolateClear. Rests on: R235, R243, R244,
R371, R388, R389, R521, R552, R553, R599, R601. -/
def Obligations.ResourcesFollowTheirControlWord : Prop :=
  (∀ (s : State) (req : Req) (p : Page) (n : Nat), p ∈ [Page.ras, Page.cdcE, Page.dmaCh, Page.lane] →
    pageOf (p.base n) = some (p, n) → pageOn s.dev p n = true → owns s.dev req p n = true →
    ctrlBit s.dev (p.base n) 0 = false →
    Does (.enableSet req (p.base n) (rg s.dev (p.base n + oCTRL))) s fun d => p.base n ∈ d.testing) ∧
  (∀ (s : State) (p : Page) (n : Nat), pageOf (p.base n) = some (p, n) → p.base n ∈ s.dev.testing →
    Does (.enableSelfTestDone (p.base n) true) s fun d =>
      p.base n ∉ d.testing ∧ ctrlBit d (p.base n) 2 = true ∧ ctrlBit d (p.base n) 0 = ctrlBit s.dev (p.base n) 0) ∧
  (∀ (s : State) (n : Nat), n < 34 → Page.ras.base n ∈ s.dev.testing →
    Does (.enableSelfTestDone (Page.ras.base n) false) s fun d =>
      Page.ras.base n ∉ d.testing ∧ ctrlBit d (Page.ras.base n) 0 = false ∧ rg d (Adr.RAS_ROLE n) = 0) ∧
  (∀ (s : State) (req : Req) (n : Nat), n < 34 → pageOn s.dev .ras n = true → owns s.dev req .ras n = true →
    (ctrlBit s.dev (Page.ras.base n) 2 = false →
      Does (.isolateSet req (Page.ras.base n) (rg s.dev (Page.ras.base n + oCTRL))) s fun d =>
        (tileOf d n).work = [] ∧ ctrlBit d (Page.ras.base n) 2 = true) ∧
    (ctrlBit s.dev (Page.ras.base n) 0 = true →
      Does (.enableClear req (Page.ras.base n) (rg s.dev (Page.ras.base n + oCTRL))) s fun d =>
        (tileOf d n).work = [] ∧ (s.dev.ver.tiles.length = 34 → (tileOf d n).awake = false))) ∧
  (∀ (s : State) (req : Req) (n : Nat), n < 48 → s.dev.glr.lanes.length = 52 → pageOn s.dev .lane n = true →
    owns s.dev req .lane n = true → ctrlBit s.dev (Page.lane.base n) 2 = false →
    Does (.isolateSet req (Page.lane.base n) (rg s.dev (Page.lane.base n + oCTRL))) s fun d => (lane d n).live = false) ∧
  (∀ (s : State) (req : Req), pageOn s.dev .hel 0 = true → owns s.dev req .hel 0 = true →
    ctrlBit s.dev (Page.hel.base 0) 0 = true →
    Does (.enableClear req (Page.hel.base 0) (rg s.dev (Page.hel.base 0 + oCTRL))) s fun d => d.hel.mode = 0) ∧
  (∀ (s : State) (req : Req), pageOn s.dev .glr 0 = true → owns s.dev req .glr 0 = true →
    (ctrlBit s.dev (Page.glr.base 0) 0 = false → s.dev.glr.st = 0 →
      Does (.enableSet req (Page.glr.base 0) (rg s.dev (Page.glr.base 0 + oCTRL))) s fun d => d.glr.st = 1) ∧
    (ctrlBit s.dev (Page.glr.base 0) 0 = true →
      Does (.enableClear req (Page.glr.base 0) (rg s.dev (Page.glr.base 0 + oCTRL))) s fun d => d.glr.st = 0)) ∧
  (∀ (s : State) (req : Req) (n : Nat), n < 16 → s.dev.chans.length = 16 → pageOn s.dev .dmaCh n = true →
    owns s.dev req .dmaCh n = true → ctrlBit s.dev (Page.dmaCh.base n) 2 = true → (chanOf s.dev n).cstate ≠ .run →
    Does (.isolateClear req (Page.dmaCh.base n) (rg s.dev (Page.dmaCh.base n + oCTRL))) s fun d =>
      (chanOf d n).cstate = .idle ∧ (chanOf d n).cause = 0 ∧ (chanOf d n).dbPend = false) ∧
  (∀ (s : State) (req : Req) (n : Nat), n < 8 → pageOn s.dev .cdcE n = true → owns s.dev req .cdcE n = true →
    ctrlBit s.dev (Page.cdcE.base n) 2 = false →
    Does (.isolateSet req (Page.cdcE.base n) (rg s.dev (Page.cdcE.base n + oCTRL))) s fun d =>
      (engOf d n).frame = none ∧ (engOf d n).job = none)

/-- A register write follows the access codes of its fields and changes no other word. A 32-bit REGISTER_WRITE to BAR0, by a
requester that reaches the word, to a block register of a page whose registers have no effect beyond the store (ALT, BST,
PXC, VER, STC, MC, HLK and the DMA global page): bits of RW, NV and RWS fields take the value written, W1C bits written 1
clear, W1S bits written 1 set, every other bit stands, and so does every other word beside BOB's counter and events of its
look-ahead. A write of 8 bytes is two such writes, the lower first. A write that is not of whole dwords, or not aligned to
4, changes no such word. The host's write to an MSI-X entry in BAR2, on VC0 or an enabled VC1, stores the entry's bits.
Readings of the model that clauses of it rest on: log entry 8. Completion (exec answers a next state with its effect):
registerWrite. Rests on: R9, R10, R11, R12, R488, R741. -/
def Obligations.RegisterWritesFollowAccessCodes : Prop :=
  (let plain : List Page := [Page.alt, Page.bst, Page.pxc, Page.ver, Page.stc, Page.mc, Page.hlk, Page.dmaG]
   let stored (r : RegRow) (v old : W32) (i : Nat) : Bool :=
    (r.w1s.testBit i && v.getLsbD i) ||
      (!(r.w1c.testBit i && v.getLsbD i) &&
        (if r.rw.testBit i || r.nv.testBit i || r.rws.testBit i then v.getLsbD i else bit old i))
   (∀ (s : State) (req : Req) (p : Page) (n a : Nat) (v : W32) (r : RegRow), pageOf a = some (p, n) → inWindow a = false →
      p ∈ plain → 0x100 ≤ a % 0x1000 → p.row (a % 0x1000) = some r → acc s.dev req a = true →
      Does (.registerWrite req .bar0 4 a [v] false) s fun d =>
        (∀ i < 32, bit (rg d a) i = stored r v (rg s.dev a) i) ∧
        ∀ b, b ≠ a → b ≠ Adr.BOB_CNT_LOW → b ≠ Page.bob.base 0 + oEVTPEND → rg d b = rg s.dev b) ∧
   (∀ (s : State) (req : Req) (p : Page) (n a : Nat) (lo hi : W32) (r q : RegRow), pageOf a = some (p, n) →
      inWindow a = false → inWindow (a + 4) = false → p ∈ plain → 0x100 ≤ a % 0x1000 → a % 0x1000 < 0xFF8 →
      p.row (a % 0x1000) = some r → p.row (a % 0x1000 + 4) = some q → acc s.dev req a = true → acc s.dev req (a + 4) = true →
      Does (.registerWrite req .bar0 8 a [lo, hi] false) s fun d =>
        ∀ i < 32, bit (rg d a) i = stored r lo (rg s.dev a) i ∧
          bit (rg d (a + 4)) i = stored q hi (rg s.dev (a + 4)) i)) ∧
  (∀ (s : State) (req : Req) (size a : Nat) (ws : List W32), (req = .host → s.dev.hlk.cfg.d3 = false) →
    a % 4 ≠ 0 ∨ size ≠ 4 * ws.length →
    Does (.registerWrite req .bar0 size a ws false) s fun d =>
      ∀ b, b ≠ Adr.BOB_CNT_LOW → b ≠ Page.bob.base 0 + oEVTPEND → rg d b = rg s.dev b) ∧
  (∀ (s : State) (o : Nat) (v : W32) (vc1 : Bool), (vc1 = true → s.dev.hlk.cfg.vc1 = true) → s.dev.hlk.cfg.d3 = false →
    0x800 ≤ o → o < 0xC00 → o % 4 = 0 →
    Does (.registerWrite .host .bar2 4 o [v] vc1) s fun d => bar2Value d o = v &&& msixMask o)

/-- A write that its page does not grant, or that reaches no powered page, changes nothing. When a requester does not reach a
word (no page there, its domain off, _OWNER without the requester, or a register of KNL alone), a REGISTER_WRITE to it other
than to _CTRL and _OWNER leaves every word but the two that the look-ahead moves and every part of the state apart from BOB
and the space it frees as it was, and a read of a block register or window word returns 0, changes nothing and latches
nothing. Readings of the model that clauses of it rest on: log entry 8. Rests on: R16, R19, R488, R489, R734. -/
def Obligations.AccessesTurnedAway : Prop :=
  (∀ (s : State) (req : Req) (a : Nat) (v : W32), (req = .host → s.dev.hlk.cfg.d3 = false) → acc s.dev req a = false →
    inWindow a = true ∨ (a % 0x1000 ≠ oCTRL ∧ a % 0x1000 ≠ oOWNER) →
    Does (.registerWrite req .bar0 4 a [v] false) s fun d =>
      (∀ b, b ≠ Adr.BOB_CNT_LOW → b ≠ Page.bob.base 0 + oEVTPEND → rg d b = rg s.dev b) ∧
      { d with regs := s.dev.regs, bob := s.dev.bob, secs := s.dev.secs, outs := s.dev.outs, pins := s.dev.pins, hlk := s.dev.hlk } = s.dev) ∧
  (∀ (s : State) (req : Req) (a : Nat), (req = .host → s.dev.hlk.cfg.d3 = false) → acc s.dev req a = false →
    inWindow a = true ∨ 0x100 ≤ a % 0x1000 → a % 4 = 0 →
    Does (.readOfLo req ⟨.bar0, a, 4, false⟩) s fun d =>
      .readData req a [0] ∈ d.outs ∧ { d with outs := s.dev.outs, pins := s.dev.pins } = s.dev)

/-- A read of a LO word latches its HI word. Reading the LO word of EXP_POS, EXP_GO_POS, MEI_LAST_UE, CDC_CNT_OUT, the byte
counters of the DMA global page, and DMA_CUR and DMA_CNT_BYTES of a channel answers the requester and puts the high part
into the word that the HI register then reads. A read of 8 bytes is two, the lower first, so that it returns POS whole; a
read by KNL or DBG that is not of whole aligned dwords returns zero and changes no word. Readings of the model that clauses
of it rest on: log entry 78. Completion (exec answers a next state with its effect): readOfLo. Rests on: R9, R10, R452,
R525, R526, R554, R618. -/
def Obligations.ReadsOfLowWordsLatch : Prop :=
  ∀ (s : State) (req : Req),
    (acc s.dev req Adr.EXP_POS_LO = true → Does (.readOfLo req ⟨.bar0, Adr.EXP_POS_LO, 4, false⟩) s fun d =>
      .readData req Adr.EXP_POS_LO [w32 s.dev.exp.pos] ∈ d.outs ∧
      d.exp = { s.dev.exp with posHi := w32 (s.dev.exp.pos / 2 ^ 32 % 65536) }) ∧
    (acc s.dev req Adr.EXP_POS_LO = true → acc s.dev req Adr.EXP_POS_HI = true →
      Does (.readOfLo req ⟨.bar0, Adr.EXP_POS_LO, 8, false⟩) s fun d =>
        .readData req Adr.EXP_POS_LO [w32 s.dev.exp.pos, w32 (s.dev.exp.pos / 2 ^ 32 % 65536)] ∈ d.outs) ∧
    (∀ a len : Nat, req ≠ .host → a % 4 ≠ 0 ∨ len % 4 ≠ 0 → Does (.readOfLo req ⟨.bar0, a, len, false⟩) s fun d =>
      .readData req a (List.replicate ((a % 4 + len + 3) / 4) 0) ∈ d.outs ∧ ∀ b, rg d b = rg s.dev b) ∧
    (acc s.dev req Adr.EXP_GO_POS_LO = true → Does (.readOfLo req ⟨.bar0, Adr.EXP_GO_POS_LO, 4, false⟩) s fun d =>
      .readData req Adr.EXP_GO_POS_LO [w32 s.dev.exp.goPos] ∈ d.outs ∧
      d.exp = { s.dev.exp with goPosHi := w32 (s.dev.exp.goPos / 2 ^ 32 % 65536) }) ∧
    (acc s.dev req Adr.MEI_LAST_UE_LO = true → Does (.readOfLo req ⟨.bar0, Adr.MEI_LAST_UE_LO, 4, false⟩) s fun d =>
      .readData req Adr.MEI_LAST_UE_LO [rg s.dev Adr.MEI_LAST_UE_LO] ∈ d.outs ∧
      liveMei d Adr.MEI_LAST_UE_HI = rg s.dev Adr.MEI_LAST_UE_HI) ∧
    (acc s.dev req Adr.CDC_CNT_OUT_LO = true → Does (.readOfLo req ⟨.bar0, Adr.CDC_CNT_OUT_LO, 4, false⟩) s fun d =>
      .readData req Adr.CDC_CNT_OUT_LO [rg s.dev Adr.CDC_CNT_OUT_LO] ∈ d.outs ∧
      liveCdcG d Adr.CDC_CNT_OUT_HI = rg s.dev Adr.CDC_CNT_OUT_HI) ∧
    (acc s.dev req Adr.DMA_BYTES_H2D_LO = true → Does (.readOfLo req ⟨.bar0, Adr.DMA_BYTES_H2D_LO, 4, false⟩) s fun d =>
      liveDmaG d Adr.DMA_BYTES_H2D_HI = rg s.dev Adr.DMA_BYTES_H2D_HI) ∧
    (acc s.dev req Adr.DMA_BYTES_D2H_LO = true → Does (.readOfLo req ⟨.bar0, Adr.DMA_BYTES_D2H_LO, 4, false⟩) s fun d =>
      liveDmaG d Adr.DMA_BYTES_D2H_HI = rg s.dev Adr.DMA_BYTES_D2H_HI) ∧
    (∀ n < 16, s.dev.chans.length = 16 → acc s.dev req (Adr.DMA_CUR_LO n) = true →
      Does (.readOfLo req ⟨.bar0, (Adr.DMA_CUR_LO n), 4, false⟩) s fun d =>
        .readData req (Adr.DMA_CUR_LO n) [w32 (chanOf s.dev n).cur] ∈ d.outs ∧
        liveDmaCh d n (Adr.DMA_CUR_HI n) = w32 ((chanOf s.dev n).cur / 2 ^ 32)) ∧
    (∀ n < 16, s.dev.chans.length = 16 → acc s.dev req (Adr.DMA_CNT_BYTES_LO n) = true →
      Does (.readOfLo req ⟨.bar0, (Adr.DMA_CNT_BYTES_LO n), 4, false⟩) s fun d =>
        liveDmaCh d n (Adr.DMA_CNT_BYTES_HI n) = rg s.dev (Adr.DMA_CNT_BYTES_HI n))

/-- Events are cleared, injections armed and row delays written. EVT_PEND_WRITE clears the bits written 1 and, when an enabled
event of the vector still stands, sends one message on an unmasked vector while the link is up. INJECT stores MODE and WHICH
of the word on a page with a protected memory. ROW_DELAY stores the 14 bits of the delay, and until GEOM_DMAX_DONE the
largest delay is shown as busy; then it is the largest of the 512. Readings of the model that clauses of it rest on: log
entries 17, 46. Completion (exec answers a next state with its effect): evtPendWrite, inject, rowDelay, geomDmaxDone. Rests
on: R35, R36, R494, R603, R738. -/
def Obligations.HeaderWritesAndTheRowTable : Prop :=
  (∀ (s : State) (req : Req) (p : Page) (n : Nat) (v : W32), pageOf (p.base n) = some (p, n) →
    acc s.dev req (p.base n + oEVTPEND) = true → Does (.evtPendWrite req (p.base n) v) s fun d =>
      rg d (p.base n + oEVTPEND) = rg s.dev (p.base n + oEVTPEND) &&& ~~~v ∧
      (vectorLevel d (vecOf (p.base n)) = true → msixMasked s.dev (vecOf (p.base n)) = false → s.dev.hlk.up = true →
        .msix (vecOf (p.base n)) ∈ d.outs)) ∧
  (∀ (s : State) (req : Req) (p : Page) (n : Nat) (v : W32), pageOf (p.base n) = some (p, n) → p.hasInject = true →
    acc s.dev req (p.base n + oINJECT) = true → Does (.inject req (p.base n) v) s fun d =>
      rg d (p.base n + oINJECT) = v &&& 0x17 ∧ ∀ a, a ≠ p.base n + oINJECT → rg d a = rg s.dev a) ∧
  (∀ (s : State) (req : Req) (r : Nat) (v : W32), r < 512 → acc s.dev req (Adr.ROW_DELAY r) = true →
    Does (.rowDelay req r v) s fun d =>
      rg d (Adr.ROW_DELAY r) = v &&& 0x3FFF ∧ bit (rg d Adr.GEOM_DMAX) 31 = true ∧
      ∀ k < 512, k ≠ r → rg d (Adr.ROW_DELAY k) = rg s.dev (Adr.ROW_DELAY k)) ∧
  (∀ s : State, bit (rg s.dev Adr.GEOM_DMAX) 31 = true →
    Does .geomDmaxDone s fun d =>
      bit (rg d Adr.GEOM_DMAX) 31 = false ∧ (∀ r < 512, fd s.dev (Adr.ROW_DELAY r) 13 0 ≤ fd d Adr.GEOM_DMAX 13 0) ∧
      ∃ r < 512, fd d Adr.GEOM_DMAX 13 0 = fd s.dev (Adr.ROW_DELAY r) 13 0)

/-- A block is accepted, discarded or NAKed, and the spool's waits and requests have their effect. A whole block of a channel
that carries blocks, while SPL runs and has room: a damaged one is counted and asked for again in the request queue; one
whose number was received before is discarded; a KQZ block of a number not yet taken is held for the codec, its NAK closed;
a raw block of the number XPD comes to next is handed on. Without room its transfer waits, and goes on once granted.
GAP_WAIT opens a NAK for every number missing, where no row that XPD stops for is due. SPL_NAK_HOLD gives its number up. No
halt of the data path holds either. A read of SPL_REQ_W2 removes the oldest request. Readings of the model that clauses of
it rest on: log entries 44, 60, 79, 86. Completion (exec answers a next state with its effect): block, gapWait, splNakHold,
splReqW2, spoolGrant. Rests on: R72, R74, R115, R116, R117, R119, R120, R125, R128, R319, R614. -/
def Obligations.BlocksEnterTheStream : Prop :=
  (∀ (s : State) (ch : Nat) (l : List Byte), chanSpools s.dev ch = true → (chanOf s.dev ch).block = none →
    l.length = (nth (chanOf s.dev ch).desc 1 0).toNat → s.dev.spl.lost = false → blkRuns s.dev .spl .spl = true →
    (spoolRoom s.dev l = true →
      (blkBad l = true → s.dev.spl.reqs.length < 64 → Does (.block ch l) s fun d =>
        rg d Adr.SPL_CNT_DAMAGED = rg s.dev Adr.SPL_CNT_DAMAGED + 1 ∧
        d.spl.reqs = s.dev.spl.reqs ++ [(w32 (1 * 2 ^ 28 + 1 * 2 ^ 24), w32 (hw l 4), w32 (hw l 8))]) ∧
      (blkBad l = false → (blkOf l).refetch = false → seqTaken s.dev (blkOf l).seq = true → Does (.block ch l) s fun d =>
        rg d Adr.SPL_CNT_DISCARD = rg s.dev Adr.SPL_CNT_DISCARD + 1 ∧ d.spl = s.dev.spl) ∧
      (blkBad l = false → (blkOf l).refetch = false → (blkOf l).kqz = true → s.dev.spl.line = [] →
        s.dev.spl.naks = [] ∨ (∀ k u, rowDue s.dev k u = false) → seqTaken s.dev (blkOf l).seq = false → Does (.block ch l) s fun d =>
          alGet d.spl.line (blkOf l).seq = some (.held (blkOf l)) ∧ ∀ x ∈ d.spl.naks, x.seq ≠ (blkOf l).seq) ∧
      (blkBad l = false → (blkOf l).refetch = false → s.dev.spl.line = [] → s.dev.spl.cur = none →
        (∃ w r, (blkOf l).recs = some (w :: r)) → (blkOf l).seq = s.dev.spl.pos → s.dev.spl.skip = 0 →
        Does (.block ch l) s fun d => d.spl.cur = some (blkOf l) ∧ d.spl.pos = s.dev.spl.pos)) ∧
    (spoolRoom s.dev l = false → ch < s.dev.chans.length → Does (.block ch l) s fun d =>
      (chanOf d ch).block = some l ∧ d.spl = s.dev.spl)) ∧
  (∀ (s : State) (ch : Nat) (l : List Byte), ch < s.dev.chans.length → chanSpools s.dev ch = true →
    (chanOf s.dev ch).block = some l → s.dev.spl.lost = false → blkRuns s.dev .spl .spl = true → spoolRoom s.dev l = true →
    blkBad l = true → Does (.spoolGrant ch) s fun d =>
      (chanOf d ch).block = none ∧ (chanOf d ch).given = true ∧
      rg d Adr.SPL_CNT_DAMAGED = rg s.dev Adr.SPL_CNT_DAMAGED + 1) ∧
  (∀ (s : State) (g : Nat), s.dev.fcl.halted = false → s.dev.spl.gaps = g + 1 →
    (∀ k u, rowDue s.dev k u = false) ∨ (∃ b, s.dev.spl.cur = some b ∧ b.recs ≠ some []) → Does .gapWait s fun d =>
    d.spl.gaps = g ∧ ∀ n ∈ missing s.dev, ∃ x ∈ d.spl.naks, x.seq = n) ∧
  (∀ (s : State) (n : Nat), s.dev.fcl.halted = false → (∃ x ∈ s.dev.spl.naks, x.seq = n) →
    Does (.splNakHold n) s fun d =>
    latched d (Page.spl.base 0) Bit.err_SPL_GIVEUP = true ∧
    (heldBlks s.dev = [] → s.dev.spl.naks.length = 1 → rg d Adr.SPL_CNT_GIVEUP = rg s.dev Adr.SPL_CNT_GIVEUP + 1)) ∧
  (∀ (s : State) (req : Req), acc s.dev req Adr.SPL_REQ_W2 = true → Does (.splReqW2 req) s fun d =>
    d.spl.reqs = s.dev.spl.reqs.drop 1 ∧ .readData req Adr.SPL_REQ_W2 [reqWord s.dev 2] ∈ d.outs)

/-- PAD is passed over, and cells are opened, filled, defined and dropped. With a record of a type at the front of the stream
(its words, then others of the same block), XPD running and waiting for nothing: PAD is consumed; CELL_OPEN in a LIB block
opens a definition; FIGURE, PLACE and ARRAY in a LIB block are stored with it; CELL_CLOSE that names it defines the cell, in
place of any other of its number, while directory and cache have room, with the CONTENT_ID of its last block, POISONED with
its refetch open when poison fell on its records; CELL_DROP drops the cell's definition, or is discarded between a loss and
the next CELL_OPEN. Each record is consumed. Readings of the model that clauses of it rest on: log entries 43, 60, 86, 87.
Completion (exec answers a next state with its effect): pad, cellOpen, cellClose, cellDrop, figure, place, array. Rests on:
R81, R82, R88, R124, R125, R131, R132, R133, R135. -/
def Obligations.RecordsOfCells : Prop :=
  ∀ (s : State) (b : SBlk) (w rest : List W32), FrontRec s.dev b w rest → rest ≠ [] →
    let next (d : Dev) : Prop := d.spl.cur = some { b with recs := some rest } ∧ d.spl.pos = s.dev.spl.pos
    (recType w = 0x00 → b.btype = 1 ∨ b.btype = 2 ∨ b.btype = 3 → Does (.pad .none) s fun d => next d ∧ d.xpd = s.dev.xpd) ∧
    (recType w = 0x10 → w.length = 6 → b.btype = 2 → Does (.cellOpen .none) s fun d =>
      next d ∧ d.xpd = { s.dev.xpd with defn := some (cellBegin w b.cid), deaf := false }) ∧
    (∀ c : Cell, recType w = 0x11 → w.length = 2 → b.btype = 2 → s.dev.xpd.defn = some c → c.id = (rw w 1).toNat →
      (injTake s.dev (Page.xpd.base 0) true).1 < 2 →
      let c' : Cell := { c with cid := b.cid, defd := true, boxBad := false, refetch := c.bad }
      let freed := match cellOf s.dev c.id with
        | some o => cellBytes o
        | none => 0
      cacheUsed s.dev - freed + cellBytes c' ≤ rgnSize s.dev 1 →
      s.dev.xpd.cells.countP (fun x => x.defd && x.id != c.id) < 1048576 → Does (.cellClose .none) s fun d =>
        next d ∧ d.xpd.defn = none ∧ cellOf d c.id = some c' ∧ ∀ k, k ≠ c.id → cellOf d k = cellOf s.dev k) ∧
    (recType w = 0x12 → w.length = 2 → b.btype = 2 → Does (.cellDrop .none) s fun d =>
      next d ∧ d.xpd = if s.dev.xpd.deaf then s.dev.xpd
        else { s.dev.xpd with cells := s.dev.xpd.cells.filter fun c => !(c.id = (rw w 1).toNat && c.defd) }) ∧
    (∀ c : Cell, b.btype = 2 → s.dev.xpd.defn = some c →
      let stored (d : Dev) : Prop := next d ∧ d.xpd.defn = some { c with recs := c.recs ++ [w] }
      (recType w = 0x20 → (∃ f, figure w = some f) → Does (.figure .none) s stored) ∧
      (recType w = 0x21 → w.length = 5 → Does (.place .none) s stored) ∧
      (recType w = 0x22 → w.length = 10 → Does (.array .none) s stored))

/-- Records of a section open it, set its bin, origin and field, and close it, and slot registers are written. With a record of
a type at the front of a STRIPE block, XPD running and waiting for nothing: STRIPE_OPEN opens the next section, with the
fields of its words, and shows its field and grid; BIN, ORIGIN and FIELD change the open section's; STRIPE_CLOSE closes it
and announces SECTION_DONE. In a JOB block a SLOT_WRITE of one pair stores its value in a register of its slot as a write of
the host, and changes no other register of the slot; while a stripe of an earlier section of that slot has not ended it
waits. Readings of the model that clauses of it rest on: log entry 59. Completion (exec answers a next state with its
effect): slotWrite, stripeOpen, bin, origin, field, stripeClose. Rests on: R81, R84, R85, R86, R105, R106, R108, R109, R111,
R114, R161. -/
def Obligations.RecordsOfSections : Prop :=
  (∀ (s : State) (b : SBlk) (w rest : List W32), FrontRec s.dev b w rest → b.btype = 3 → recType w = 0x30 → w.length = 12 →
    blkRuns s.dev .alt .alt = true → Does (.stripeOpen .none) s fun d =>
      d.spl.opens = s.dev.spl.opens + 1 ∧
      (∃ x ∈ d.secs, x.num = s.dev.spl.opens ∧ x.closed = false ∧ x.tkt.index = rw w 1 ∧ x.slotB = bit (rw w 2) 2 ∧
        x.minus = bit (rw w 2) 0 ∧ x.len = bits (rw w 6) 23 0 ∧ x.orx = rwS w 10 ∧ x.ory = rwS w 11 ∧
        x.fieldId = bits (rw w 2) 31 16 ∧ x.gridId = bits (rw w 3) 15 0) ∧
      rg d Adr.ALT_CUR = w32 (bits (rw w 2) 31 16 * 65536 + bits (rw w 3) 15 0)) ∧
  (∀ (s : State) (b : SBlk) (w rest : List W32) (sec : Sec), FrontRec s.dev b w rest → b.btype = 3 → OpenSec s.dev sec →
    (recType w = 0x31 → w.length = 2 → Does (.bin .none) s fun d =>
      ∃ x ∈ d.secs, x.num = sec.num ∧ x.bin = bits (rw w 1) 15 0 ∧ x.closed = false) ∧
    (recType w = 0x32 → w.length = 3 → Does (.origin .none) s fun d =>
      ∃ x ∈ d.secs, x.num = sec.num ∧ x.orx = rwS w 1 ∧ x.ory = rwS w 2 ∧ x.closed = false) ∧
    (recType w = 0x33 → w.length = 2 → Does (.field .none) s fun d =>
      (∃ x ∈ d.secs, x.num = sec.num ∧ x.fieldId = bits (rw w 1) 31 16 ∧ x.gridId = bits (rw w 1) 15 0 ∧ x.closed = false) ∧
      rg d Adr.ALT_CUR = w32 (bits (rw w 1) 31 16 * 65536 + bits (rw w 1) 15 0)) ∧
    (recType w = 0x34 → w.length = 2 → Does (.stripeClose .none) s fun d =>
      (∃ x ∈ d.secs, x.num = sec.num ∧ x.closed = true) ∧ pends d (Page.spl.base 0) Bit.evt_SPL_SECTION_DONE = true)) ∧
  (∀ (s : State) (b : SBlk) (w rest : List W32), FrontRec s.dev b w rest → b.btype = 1 → recType w = 0x02 → w.length = 5 →
    rw w 2 = 1 →
    let slot := bit (rw w 1) 0
    let a := (rw w 3).toNat
    (slotFree s.dev slot = true → slotOwns slot a = true → acc s.dev .host a = true → Does (.slotWrite .none) s fun d =>
      rg d a = rg (storeReg s.dev a (rw w 4)) a ∧ ∀ x, slotOwns slot x = true → x ≠ a → rg d x = rg s.dev x) ∧
    (slotFree s.dev slot = false → Does (.slotWrite .none) s fun d => d.spl.cur = some b ∧
      ∀ x, slotOwns slot x = true → rg d x = rg s.dev x))

/-- A figure or instance in a STRIPE block is expanded, altered and cut into pieces of its section. With a FIGURE, PLACE or
ARRAY record at the front of a STRIPE block, its section open and its bin not beyond the bands completed, no upset and no
injection: the record is consumed and the section holds, after its earlier pieces, those that BST cuts from what ALT makes
of the figure, or of every figure of every instance in order, whose cells can be read; culled instances are counted.
Readings of the model that clauses of it rest on: log entry 59. Completion (exec answers a next state with its effect):
figure, place, array. Rests on: R94, R101, R102, R138, R142, R165, R167, R168, R177, R179. -/
def Obligations.FiguresReachBasting : Prop :=
  ∀ (s : State) (b : SBlk) (w rest : List W32) (sec : Sec), FrontRec s.dev b w rest → rest ≠ [] → b.btype = 3 →
    OpenSec s.dev sec → sec.bin ≤ sec.bands → s.dev.xpd.gridBad = [] → (injTake s.dev (Page.alt.base 0) false).1 < 2 →
    let next (d : Dev) : Prop := d.spl.cur = some { b with recs := some rest } ∧ d.spl.pos = s.dev.spl.pos
    let got (d : Dev) (l : List Piece) : Prop := ∃ x, secOf d sec.num = some x ∧ x.pieces = sec.pieces ++ l
    (∀ f, recType w = 0x20 → figure w = some f → Does (.figure .none) s fun d =>
      next d ∧ got d (itemPieces s.dev sec (figChains (originPlace sec) f.1 f.2))) ∧
    (let at_ (off : Pt) : Walk := walk s.dev (kept s.dev sec) (256 * (cullMargin s.dev sec : Int)) 15 (rw w 1).toNat
        ((originPlace sec).under (bits (rw w 2) 2 0) off) (bit (rw w 2) 3) ⟨[], [], none, []⟩
    let done (d : Dev) : Prop := next d ∧ d.xpd.elem = 0 ∧
      got d ((placements w).flatMap fun off => itemPieces s.dev sec (at_ off).out) ∧
      rg d Adr.XPD_CNT_CULLED = rg s.dev Adr.XPD_CNT_CULLED + w32 (sumN ((placements w).map fun off => (at_ off).culled))
    s.dev.xpd.elem = 0 → (injTake s.dev (Page.xpd.base 0) false).1 < 2 → (∀ off ∈ placements w, (at_ off).miss = none) →
    (recType w = 0x21 → w.length = 5 → Does (.place .none) s done) ∧
    (recType w = 0x22 → w.length = 10 → Does (.array .none) s done))

/-- Lookups end, bands are completed and released, and a due row is given up. XPD_QUERY starts a lookup that ends with the
cell's state. When the last patch record of a band finds room, it is written and counted and the band is complete. LATCHED
takes up the next section with the parameters of its slot. RELEASED releases the next band, whose patches wait for dispatch.
ROW_DUE gives up the missing number at which the stream stands, outside a halt. Readings of the model that clauses of it
rest on: log entries 63, 86, 87. Completion (exec answers a next state with its effect): xpdQuery, xpdLookupDone,
patchRecordAllocated, latched, released, rowDue. Rests on: R134, R170, R185, R188, R194, R199, R200, R201, R317, R614, R761. -/
def Obligations.ExpansionAndBandsGoOn : Prop :=
  (∀ (s : State) (req : Req) (v : W32), acc s.dev req Adr.XPD_QUERY = true → Does (.xpdQuery req v) s fun d =>
    rg d Adr.XPD_QUERY = v ∧ d.xpd = { s.dev.xpd with qBusy := true }) ∧
  (∀ s : State, s.dev.xpd.qBusy = true → Does .xpdLookupDone s fun d =>
    d.xpd = { s.dev.xpd with qBusy := false, qState := cellState s.dev (rg s.dev Adr.XPD_QUERY).toNat }) ∧
  (∀ (s : State) (sec : Sec) (q p : Nat), blkRuns s.dev .bst .bst = true →
    (s.dev.secs.find? fun x => x.todo.isSome) = some sec → secOf s.dev sec.num = some sec → sec.todo = some [(q, p)] →
    sec.dropped = false → (mkPatch s.dev sec p q).1.units ≤ patchFree s.dev →
    (sec.closed = true ∧ sec.bands + 1 = secBins sec) ∨ (sec.closed = false ∧ s.dev.spl.cur = none ∧ s.dev.spl.line = []) →
    Does .patchRecordAllocated s fun d =>
      rg d Adr.BST_CNT_PATCHES = rg s.dev Adr.BST_CNT_PATCHES + 1 ∧ fd d Adr.BST_BAND 31 16 = (sec.bands + 1) % 65536 ∧
      rg d Adr.BST_LAST_PATCH = w32 (q % 65536 * 65536 + p) ∧
      (∃ x ∈ d.secs, x.num = sec.num ∧ x.todo = none ∧ x.bands = sec.bands + 1) ∧
      pends d (Page.bst.base 0) Bit.evt_BST_BAND_DONE = true) ∧
  (∀ (s : State) (sec : Sec), pxcSec s.dev = none → blkRuns s.dev .pxc .pxc = true → blkRuns s.dev .bst .bst = true →
    (s.dev.secs.find? fun x => x.par.isNone && !x.dropped) = some sec → Does .latched s fun d =>
      (∃ x ∈ d.secs, x.num = sec.num ∧ x.par = some (pxcLatch s.dev sec.slotB) ∧ x.b = slotBands s.dev sec.slotB) ∧
      rg d Adr.PXC_POS = (secTkt s.dev sec).index ∧ pends d (Page.pxc.base 0) Bit.evt_PXC_LATCHED = true) ∧
  (∀ (s : State) (sec : Sec) (p : PxcPar), pxcSec s.dev = some sec → sec.par = some p → blkRuns s.dev .pxc .pxc = true →
    secOf s.dev sec.num = some sec → sec.released + lagOf p < sec.bands ∨ sec.bands = secBins sec →
    (injAny s.dev (Page.pxc.base 0)).1 = false → Does (.released .none) s fun d =>
      (∃ x ∈ d.secs, x.num = sec.num ∧ x.released = sec.released + 1) ∧
      rg d Adr.PXC_BAND = w32 ((sec.released + 1) % 65536 * 65536 + sec.released % 65536) ∧
      (∃ l, d.ver.wait = s.dev.ver.wait ++ l ∧ ∀ x ∈ sec.patches, x.queued = false → sec.released = sec.selvBins + x.q / 4 →
        ∃ k ∈ l, k.sec = sec.num ∧ k.q = x.q ∧ k.p = x.p) ∧
      pends d (Page.pxc.base 0) Bit.evt_PXC_RELEASED = true) ∧
  (∀ s : State, s.dev.fcl.halted = false → s.dev.xpd.wait = none → nakDue s.dev = true →
    alGet s.dev.spl.line s.dev.spl.pos = none → Does .rowDue s fun d =>
    latched d (Page.spl.base 0) Bit.err_SPL_GIVEUP = true ∧
    (heldBlks s.dev = [] → s.dev.spl.naks.length = 1 → rg d Adr.SPL_CNT_GIVEUP = rg s.dev Adr.SPL_CNT_GIVEUP + 1))

/-- VER gives rasters to tiles, wakes and stops them, and fences one that does not report. While VER runs: DISPATCH gives the
first waiting patch whose row has its space to the tile R237 chooses; SECOND_RASTER gives a second raster to the tile R224
chooses. A tile that times out, outside a halt, is isolated, OUT and holds nothing, and TILE_FENCED latches. A sleeping tile
with work wakes while its domain is on; an idle one's clock stops and its time awake is counted; a raster domain all of
whose tiles sleep is switched off where the raster plan in force does not keep it. RAS_TEST starts in isolation and ends
with PASS or FAIL. VER's _INJECT keeps what is written 1. Readings of the model that clauses of it rest on: log entries 46,
52, 88. Completion (exec answers a next state with its effect): dispatch, secondRaster, verTimeout, tileClockStop, tileWake,
pdIdle, rasTestStart, testDone, verInject. Rests on: R224, R232, R233, R237, R238, R239, R240, R245, R250, R614, R681. -/
def Obligations.RastersAreDispatched : Prop :=
  (∀ (s : State) (scan n : Nat) (w : Work) (r : List Work) (sec : Sec), s.dev.ver.tiles.length = 34 →
    blkRuns s.dev .ver .ver = true → retryReady s.dev scan = false → s.dev.ver.rr = [] → s.dev.ver.wait = w :: r →
    secOf s.dev w.sec = some sec → firstTile s.dev scan = some n → belowHigh s.dev = true → winOf s.dev w.sec w.q ≠ none →
    Does (.dispatch scan) s fun d => d.ver.wait = r ∧
      ∃ w', (tileOf d n).work = (tileOf s.dev n).work ++ [w'] ∧ { w' with ue := w.ue } = w) ∧
  (∀ (s : State) (scan n : Nat) (w : Work), s.dev.ver.tiles.length = 34 → blkRuns s.dev .ver .ver = true →
    (s.dev.ver.retry.find? fun w => (secondTile s.dev scan w.avoid).isSome || !secondCould s.dev w.avoid) = some w →
    secondTile s.dev scan w.avoid = some n → Does (.secondRaster scan) s fun d =>
      d.ver.retry = s.dev.ver.retry.erase w ∧
      ∃ w', (tileOf d n).work = (tileOf s.dev n).work ++ [w'] ∧ { w' with ue := w.ue } = w) ∧
  (∀ (s : State) (n : Nat) (w : Work) (r : List Work), n < 34 → s.dev.fcl.halted = false →
    (tileOf s.dev n).work = w :: r → Does (.verTimeout n) s fun d =>
    ctrlBit d (Page.ras.base n) 2 = true ∧ tileRole d n = 0 ∧ (tileOf d n).work = [] ∧
    latched d (Page.ver.base 0) Bit.err_VER_TILE_FENCED = true) ∧
  (∀ (s : State) (n us : Nat), n < 34 → s.dev.ver.tiles.length = 34 → s.dev.fcl.halted = false →
    (tileOf s.dev n).awake = true → (tileOf s.dev n).work = [] → Does (.tileClockStop n us) s fun d =>
      (tileOf d n).awake = false ∧ rg d (Adr.RAS_CNT_AWAKE n) = rg s.dev (Adr.RAS_CNT_AWAKE n) + w32 us) ∧
  (∀ (s : State) (n : Nat), n < 34 → s.dev.ver.tiles.length = 34 → (tileOf s.dev n).work ≠ [] → pageOn s.dev .ras n = true →
    Does (.tileWake n) s fun d => (tileOf d n).awake = true ∧
      (tileOf d n).work.map (fun w => { w with ue := false }) = (tileOf s.dev n).work.map fun w => { w with ue := false }) ∧
  (∀ (s : State) (dom : Nat), dom = 5 ∨ dom = 6 → s.dev.pmu.pd.length = 14 → fd s.dev Adr.VER_PD_IDLE 15 0 ≠ 0 →
    (rasTiles dom).all (tileAsleep s.dev) = true → pdState s.dev dom = .on → fd s.dev (Adr.PMU_PD dom) 5 4 = 1 →
    s.dev.pmu.plan.testBit (dom - 5) = false →
    Does (.pdIdle dom) s fun d => pdState d dom = .switchingOff) ∧
  (∀ (s : State) (req : Req) (n : Nat) (v : W32), n < 34 → acc s.dev req (Adr.RAS_TEST n) = true →
    ctrlBit s.dev (Page.ras.base n) 0 = true → ctrlBit s.dev (Page.ras.base n) 2 = true →
    Page.ras.base n ∉ s.dev.testing → Does (.rasTestStart req n v) s fun d => bit (rg d (Adr.RAS_TEST n)) 31 = true) ∧
  (∀ (s : State) (n : Nat) (pass : Bool), n < 34 → bit (rg s.dev (Adr.RAS_TEST n)) 31 = true →
    Does (.testDone n pass) s fun d =>
      rg d (Adr.RAS_TEST n) = (if pass then 6 else 4) ∧ pends d (Page.ras.base n) Bit.evt_RAS_TEST_DONE = true ∧
      (pass = false → latched d (Page.ras.base n) Bit.err_RAS_TEST_FAIL = true)) ∧
  (∀ (s : State) (req : Req) (v : W32), acc s.dev req (Page.ver.base 0 + oINJECT) = true → Does (.verInject req v) s fun d =>
    rg d (Page.ver.base 0 + oINJECT) = rg s.dev (Page.ver.base 0 + oINJECT) ||| (v &&& 15))

/-- A patch report that passes the checks releases its patch, and one that fails is rastered again. While VER runs and no
injection acts on the report of a first raster: when area, rounding and residues agree with the patch record, the patch gets
the verdict RELEASED and VER_CNT_PASS1 counts; when they do not and another tile can raster it, the tile's mismatch counts,
the capture shows the kind, MISMATCH is announced and a second raster that avoids the tile waits. The tile's own counters
show the report, and the tile goes on with its next patch. Readings of the model that clauses of it rest on: log entries 46,
88. Completion (exec answers a next state with its effect): patchReport. Rests on: R218, R220, R221, R222, R223, R224, R225,
R251. -/
def Obligations.ReportsAreVerified : Prop :=
  ∀ (s : State) (n : Nat) (u : TileUpset) (w : Work) (r : List Work) (sec : Sec) (x : Patch), n < 34 →
    s.dev.ver.tiles.length = 34 → (tileOf s.dev n).work = w :: r → (tileOf s.dev n).awake = true →
    pageClocked s.dev .ras n = true → blkRuns s.dev .ver .ver = true → secOf s.dev w.sec = some sec → w.second = false → w.rr = false →
    (sec.patches.find? fun x => x.q = w.q && x.p = w.p) = some x → x.edgeBad = false → u.edge = false → u.state = false →
    x.apBad = false → x.modBad = false → w.ue = false → u.acc = false → verInj s.dev w = 0 →
    let rep0 := rasterPatch (localEdges (secTkt s.dev sec) x) x.mods u.wrong
    let rep := { rep0 with
      asum := rep0.asum + u.dArea, csum := wrapS 32 (rep0.csum + u.dCov), rmMain := (rep0.rmMain + u.dRm) % 255 }
    let told (d : Dev) : Prop := (tileOf d n).work = r ∧ rg d (Adr.RAS_CNT_PATCH n) = rg s.dev (Adr.RAS_CNT_PATCH n) + 1 ∧
      rg d (Adr.RAS_LAST_FRAG n) = w32 rep.frag ∧ rg d (Adr.RAS_LAST_NXI n) = w32 rep.nxi ∧ rg d (Adr.RAS_LAST_NYI n) = w32 rep.nyi
    (areaOk rep x.ap = true → roundOk rep = true → resmOk rep = true → respOk rep = true → Does (.patchReport n u) s fun d =>
      told d ∧ rg d Adr.VER_CNT_PASS1 = rg s.dev Adr.VER_CNT_PASS1 + 1 ∧
      ∃ y, secOf d w.sec = some y ∧ secVerd y w.p w.q = some .released) ∧
    (mmKind rep x.ap false ≠ 0 → secondCould s.dev (n :: w.avoid) = true → Does (.patchReport n u) s fun d =>
      told d ∧ rg d (Adr.RAS_CNT_MISMATCH n) = rg s.dev (Adr.RAS_CNT_MISMATCH n) + 1 ∧
      rg d Adr.VER_MM_KIND = w32 (n * 256 + mmKind rep x.ap false) ∧ pends d (Page.ver.base 0) Bit.evt_VER_MISMATCH = true ∧
      d.ver.retry = s.dev.ver.retry ++ [{ w with second := true, avoid := [n] }])

/-- STC begins a stripe, stitches its rows and gathers its frames. BEGIN, when STC is free and the first ticket waits: what is
pending of the dead-beam map is committed, and the stripe has the current generation, the next serial and no row stitched.
STITCH_ROW, when R267 and R268 allow and nothing reads badly: the next row is stitched, its carries are kept and its darned
pixels are counted; where both copies of a map word fail, DBM_UE latches. GATHER, when R431 allows and no halt holds, every
row of the shot is ready or inactive and no entry for a beam that died is owed: the frame waits for its begin and the shot
is gathered. Readings of the model that clauses of it rest on: log entries 41, 64, 89. Completion (exec answers a next state
with its effect): stitchRow, gather, begin. Rests on: R253, R265, R267, R268, R276, R279, R294, R299, R431, R614. -/
def Obligations.StripesAreStitchedAndGathered : Prop :=
  (∀ (s : State) (t : Tkt) (rest : List Tkt), s.dev.stc.todo = t :: rest → (∀ x, s.dev.stc.cur = some x → x.tkt.n ≤ x.gathered) →
    blkRuns s.dev .stc .stc = true → t.mending = false ∨ t.rejected = true → (∀ x ∈ rest, x.seq ≠ t.seq) →
    let m := s.dev.stc.dbm
    let want := m.pending || m.heldMap.isSome || m.heldBits != []
    (want = true → m.copying = false) → Does .begin s fun d =>
      d.stc.todo = rest ∧ d.stc.serial = nextSerial s.dev.stc.serial ∧
      d.stc.dbm.curGen = (if want then (m.curGen + 1) % 65536 else m.curGen) ∧
      (∃ x, d.stc.cur = some x ∧ x.tkt.index = t.index ∧ x.tkt.seq = t.seq ∧ x.rows = 0 ∧ x.gen = d.stc.dbm.curGen ∧
        x.serial = d.stc.serial ∧ (t.swept = false → tktOver s.dev t.seq = false → x.gathered = 0 ∧ x.ended = false)) ∧
      rg d Adr.STC_STRIPE = t.index ∧ pends d (Page.stc.base 0) Bit.evt_STC_BEGIN = true) ∧
  (∀ (s : State) (st : Stitch) (sec : Sec), s.dev.stc.cur = some st → secOf s.dev st.tkt.seq = some sec →
    blkRuns s.dev .stc .stc = true → st.ended = false → st.rows < st.tkt.len → rowVerdicts sec (st.rows / 256) = true →
    rowFits s.dev st st.rows = true → (injTake s.dev (Page.stc.base 0) false).1 < 2 → s.dev.stc.spoilt = [] →
    (∀ o, o = stitchRow s.dev st sec st.rows → st.tkt.rejected = true ∨ o.shorts = [] → o.bad = [] →
      Does (.stitchRow 0) s fun d =>
        d.stc.cur = some { st with rows := st.rows + 1, carry := o.carry } ∧ fd d Adr.STC_ROW 23 0 = (st.rows + 1) % 2 ^ 24 ∧
        rg d Adr.STC_CNT_DARNED = rg s.dev Adr.STC_CNT_DARNED + w32 (if st.tkt.rejected then 0 else o.darned)) ∧
    Does (.stitchRow 2) s fun d =>
      latched d (Page.stc.base 0) Bit.err_STC_DBM_UE = true ∧ ∃ x, d.stc.cur = some x ∧ x.rows = st.rows + 1) ∧
  (∀ (s : State) (r : Run), s.dev.exp.run = some r → gatherMay r = true → s.dev.fcl.halted = false →
    (∀ st, s.dev.stc.cur = some st → st.tkt.seq = r.tkt.seq → st.died = [] ∨ 0 < st.gathered) →
    (∀ k < 512, findRow s.dev r.tkt r.gathered k = .ready ∨ findRow s.dev r.tkt r.gathered k = .inactive) →
    (injTake s.dev (Page.stc.base 0) false).1 < 2 → s.dev.stc.spoilt = [] → Does (.gather [] 0) s fun d =>
      (∃ codes, d.glr.frames = s.dev.glr.frames ++ [⟨r.gathered, codes⟩] ∧ (r.tkt.rejected = true → codes = [])) ∧
      d.exp.run = some { r with gathered := r.gathered + 1 } ∧ rg d Adr.STC_GATHER = w32 r.gathered ∧
      (r.gathered + 1 = r.tkt.n → pends d (Page.stc.base 0) Bit.evt_STC_END = true))

/-- The host writes NEXT_SLOT, a commit makes it current, and the copy makes the next one equal to it. A write of a bitmap word
of NEXT_SLOT while no copy runs is stored and leaves the map pending; of any other slot, or during a copy, it is dropped.
DBM_COMMIT while no copy runs makes NEXT_SLOT the current slot with the next generation, clears PENDING and starts the copy.
When the copy ends, outside a halt, with nothing held and no message waiting, every word of NEXT_SLOT equals the current
slot's. Completion (exec answers a next state with its effect): dbmCommit, dbmBitmapWrite, copyDone. Rests on: R288, R289,
R290, R291, R292, R293, R614, R734. -/
def Obligations.DeadBeamMapIsCommittedAndCopied : Prop :=
  (∀ (s : State) (req : Req) (k j : Nat) (v : W32), k < 9 → j < 16384 → acc s.dev req (Adr.DBM_BITS k j) = true →
    (k = s.dev.stc.dbm.nextSlot → s.dev.stc.dbm.copying = false → Does (.dbmBitmapWrite req k j v) s fun d =>
      rg d (Adr.DBM_BITS k j) = v ∧ d.stc.dbm = { s.dev.stc.dbm with pending := true }) ∧
    (k ≠ s.dev.stc.dbm.nextSlot ∨ s.dev.stc.dbm.copying = true → Does (.dbmBitmapWrite req k j v) s fun d =>
      d.regs = s.dev.regs ∧ d.stc = s.dev.stc)) ∧
  (∀ (s : State) (req : Req) (v : W32), acc s.dev req Adr.DBM_COMMIT = true → s.dev.stc.dbm.copying = false →
    Does (.dbmCommit req v) s fun d =>
      d.stc.dbm.curGen = (s.dev.stc.dbm.curGen + 1) % 65536 ∧ d.stc.dbm.curSlot = s.dev.stc.dbm.nextSlot ∧
      d.stc.dbm.copying = true ∧ d.stc.dbm.pending = false ∧ d.regs = s.dev.regs) ∧
  (∀ s : State, s.dev.fcl.halted = false → s.dev.stc.dbm.copying = true → s.dev.stc.dbm.heldMap = none → s.dev.stc.dbm.heldBits = [] →
    s.dev.glr.buf = [] → WordsCanonical s.dev → (∀ e ∈ s.dev.regs, e.1 % 4 = 0) → s.dev.stc.dbm.curSlot < 9 → s.dev.stc.dbm.nextSlot < 9 →
    s.dev.stc.dbm.curSlot ≠ s.dev.stc.dbm.nextSlot → Does .copyDone s fun d =>
      d.stc.dbm.copying = false ∧ d.stc.dbm.pending = s.dev.stc.dbm.pending ∧
      ∀ j < 16384, rg d (Adr.DBM_BITS s.dev.stc.dbm.nextSlot j) = rg s.dev (Adr.DBM_BITS s.dev.stc.dbm.curSlot j))

/-- Codec engines take roles, frames and jobs, and end them with their results. CDC_ROLE gives an engine without work its role.
CDC_DISPATCH gives the first block that can be given to its engine and reserves spool for its records. A frame that decodes
is counted and its engine free; one whose CRC fails is counted, its error latched and its engine free. While CDC runs, an
engine whose memory fails gives its frame back, or ends its job with 8. A job starts on a free outbound engine, SNAP_READY
lets a waiting snapshot be read once every verdict of its row stands, ABORT ends the job with 7, and a finished one shows
its result, length and CRC and is announced. Readings of the model that clauses of it rest on: log entries 24, 79, 94.
Completion (exec answers a next state with its effect): cdcRole, cdcDispatch, frameDecoded, engUe, jobGo, snapReady,
jobAbort, jobDone. Rests on: R527, R529, R531, R532, R541, R545, R549, R550, R551, R614. -/
def Obligations.EnginesDecodeAndCompress : Prop :=
  (∀ (s : State) (req : Req) (v : W32), s.dev.engs.length = 8 → acc s.dev req Adr.CDC_ROLE = true → Does (.cdcRole req v) s fun d =>
    ∀ n < 8, (engOf s.dev n).frame = none → (engOf s.dev n).job = none → (engOf d n).out = bit v n) ∧
  (∀ (s : State) (ref : Bool) (k n : Nat) (b : SBlk), s.dev.engs.length = 8 → roleSettle s.dev = s.dev → cdcRuns s.dev = true →
    ((frameQueue s.dev).find? fun y => decide (resvNeed s.dev y ≤ spoolFree s.dev) && (engFor s.dev y.2.2).isSome) =
      some (ref, k, b) → engFor s.dev b = some n → Does .cdcDispatch s fun d =>
        (engOf d n).frame = some (ref, k) ∧ d.bob.spoolUsed = s.dev.bob.spoolUsed + b.rawLen) ∧
  (∀ (s : State) (n k : Nat) (b : SBlk), n < 8 → s.dev.engs.length = 8 → cdcRuns s.dev = true →
    (engOf s.dev n).frame = some (false, k) → (injAny s.dev (Page.cdcE.base n)).1 = false → blkAt s.dev false k = some b →
    b.bad = false →
    (∀ l, kqzDecode b.payload b.rawLen = .ok l → Does (.frameDecoded n) s fun d =>
      (engOf d n).frame = none ∧ rg d Adr.CDC_CNT_FRAMES = rg s.dev Adr.CDC_CNT_FRAMES + 1) ∧
    (kqzDecode b.payload b.rawLen = .badCrc → Does (.frameDecoded n) s fun d =>
      (engOf d n).frame = none ∧ rg d Adr.CDC_CNT_CRC = rg s.dev Adr.CDC_CNT_CRC + 1 ∧
      latched d (Page.cdcG.base 0) Bit.err_CDCG_KQZ_CRC = true)) ∧
  (∀ (s : State) (n : Nat), n < 8 → s.dev.engs.length = 8 → cdcRuns s.dev = true →
    (∀ f, (engOf s.dev n).job = none → (engOf s.dev n).frame = some f → Does (.engUe n) s fun d =>
      (engOf d n).frame = none ∧ latched d (Page.cdcE.base n) Bit.err_CDCE_ENG_UE = true) ∧
    (∀ j, (engOf s.dev n).job = some j → Does (.engUe n) s fun d =>
      (engOf d n).job = none ∧ fd d (Adr.CDC_JOB_STAT n) 7 0 = 8 ∧ pends d (Page.cdcE.base n) Bit.evt_CDCE_JOB_DONE = true)) ∧
  (∀ (s : State) (req : Req) (n : Nat) (v : W32), n < 8 → s.dev.engs.length = 8 → acc s.dev req (Adr.CDC_JOB_CTRL n) = true →
    (engInSvc s.dev n = true → ctrlBit s.dev (Page.cdcE.base n) 1 = false → (engOf s.dev n).out = true →
      (engOf s.dev n).job = none → (engOf s.dev n).frame = none → bits v 18 16 ≠ 1 → Does (.jobGo req n v) s fun d =>
        ∃ j, (engOf d n).job = some j ∧ j.kind = bits v 18 16 ∧ j.level = bits v 3 0 ∧ j.req = req ∧
          j.len = (rg s.dev (Adr.CDC_JOB_LEN n)).toNat ∧ j.waiting = false) ∧
    (∀ j, (engOf s.dev n).job = some j → bit v 31 = false → Does (.jobAbort req n v) s fun d =>
      (engOf d n).job = none ∧ fd d (Adr.CDC_JOB_STAT n) 7 0 = 7)) ∧
  (∀ (s : State) (n k q : Nat) (j : Job) (sec : Sec), n < 8 → s.dev.engs.length = 8 → (engOf s.dev n).job = some j →
    j.waiting = true → j.hold = some (k, q) → secOf s.dev k = some sec → q < secRows sec → rowVerdicts sec q = true →
    cdcRuns s.dev = true → Does (.snapReady n) s fun d => (engOf d n).job = some { j with waiting := false }) ∧
  (∀ (s : State) (n : Nat) (j : Job) (l : List Byte), n < 8 → s.dev.engs.length = 8 → cdcRuns s.dev = true →
    (engOf s.dev n).job = some j → j.waiting = false → (injAny s.dev (Page.cdcE.base n)).1 = false →
    jobData s.dev j = some l → (compress j l).1 < 3 → Does (.jobDone n) s fun d =>
      (engOf d n).job = none ∧ fd d (Adr.CDC_JOB_STAT n) 7 0 = (compress j l).1 ∧
      rg d (Adr.CDC_JOB_OUT n) = w32 (compress j l).2.length ∧ rg d (Adr.CDC_JOB_CRC n) = w32 (crc32c l) ∧
      pends d (Page.cdcE.base n) Bit.evt_CDCE_JOB_DONE = true)

/-- A write to the bobbin is read back, and no other byte changes. With no pseudo-channel lost, bytes stored at a device address
of the space are read back, every byte outside them reads as before, and no injection being armed, a sector stored whole
reads without poison. Readings of the model that clauses of it rest on: log entry 76. Rests on: R307, R311, R348, R490,
R586. -/
def Obligations.BobbinReadsBackWhatIsWritten : Prop :=
  ∀ (d : Dev) (da : Nat) (l : List Byte), d.bob.lost = [] → da + l.length ≤ daSpan →
    hbmRead (hbmWrite d da l) da l.length = l ∧
    (∀ a, a < da ∨ da + l.length ≤ a → (hbmWrite d da l).hbm.read a = d.hbm.read a) ∧
    (d.hbm.wf = true → (hbmWrite d da l).hbm.wf = true) ∧
    (mcArmed d = false → ∀ s, da ≤ 32 * s → 32 * s + 32 ≤ da + l.length → s ∉ (hbmWrite d da l).poison) ∧
    (∀ s, ¬(da ≤ 32 * s ∧ 32 * s + 32 ≤ da + l.length) → s ∈ d.poison → s ∈ (hbmWrite d da l).poison)

/-- The mending ring is read and filled, and a pseudo-channel migrates, is spared or is lost. A write of BOB_MEND_RD is stored.
While the ring has room the oldest waiting entry is written at BOB_MEND_WR mod CAP and leaves the wait. A read of the view
window answers the word and changes no register but the count of corrections, or FFFFFFFFh and MEND_POISON where it is
poisoned. MIG_START onto a SPARE target moves its states to source and target; each chunk copied moves PTR on and hands the
requests that waited for it to the target, and the last one exchanges the map and ends it. SPARE is taken on a RETIRED
pseudo-channel only. A lost one is LOST with its errors latched, at once or on the fourth parity error within a millisecond.
Readings of the model that clauses of it rest on: log entries 75, 77, 91. Completion (exec answers a next state with its
effect): bobMendRd, mendWaitEnd, mendViewRead, migStart, migChunk, bobPcstate, pcLost, caParity. Rests on: R63, R310, R321,
R322, R341, R342, R344, R346, R348, R588. -/
def Obligations.MendingRingAndMigration : Prop :=
  (∀ (s : State) (req : Req) (v : W32), acc s.dev req Adr.BOB_MEND_RD = true → Does (.bobMendRd req v) s fun d =>
    rg d Adr.BOB_MEND_RD = v ∧ (∀ a, a ≠ Adr.BOB_MEND_RD → rg d a = rg s.dev a) ∧ d.bob = s.dev.bob) ∧
  (∀ (s : State) (e : MEnt) (rest : List MEnt), s.dev.bob.waitq = e :: rest → mendFree s.dev ≠ 0 → s.dev.glr.buf = [] →
    let a := rgnBase s.dev 5 + 16 * ((rg s.dev Adr.BOB_MEND_WR).toNat % max 1 (mendCap s.dev))
    s.dev.bob.lost = [] → a + 16 ≤ daSpan → Does .mendWaitEnd s fun d =>
      d.bob.waitq = rest ∧ rg d Adr.BOB_MEND_WR = rg s.dev Adr.BOB_MEND_WR + 1 ∧
      hbmRead d a 16 = bytesOfWords [e.w0, e.w1, e.w2, e.w3]) ∧
  (∀ (s : State) (req : Req) (o : Nat), o < 0x1000000 → o % 4 = 0 → acc s.dev req (Adr.MEND_VIEW o) = true →
    let a := rgnBase s.dev 5 + 16 * (((rg s.dev Adr.BOB_MEND_VIEW).toNat + o / 16) % max 1 (mendCap s.dev))
    (hbmBad s.dev a 16 = false → Does (.mendViewRead req o) s fun d =>
      .readData req (Adr.MEND_VIEW o) [w32 (hbmWord s.dev (a + o % 16))] ∈ d.outs ∧
      (s.dev.mei.badSectors = [] → d.regs = s.dev.regs) ∧ ∀ r, r ≠ Adr.MEI_CNT_CE → rg d r = rg s.dev r) ∧
    (hbmBad s.dev a 16 = true → Does (.mendViewRead req o) s fun d =>
      .readData req (Adr.MEND_VIEW o) [w32 0xFFFFFFFF] ∈ d.outs ∧
      latched d (Page.mei.base 0) Bit.err_MEI_MEND_POISON = true)) ∧
  (∀ (s : State) (req : Req) (v : W32), acc s.dev req Adr.BOB_MIG_CTRL = true → s.dev.bob.migBusy = false →
    bits v 6 0 < 126 → pcState s.dev (bits v 14 8) = 1 → fd s.dev (Adr.BOB_PCMAP (bits v 6 0)) 6 0 ≠ bits v 14 8 →
    Does (.migStart req v) s fun d =>
      d.bob.migBusy = true ∧ d.bob.migPtr = 0 ∧ d.bob.migSrc = bits v 6 0 ∧ d.bob.migDst = bits v 14 8 ∧
      pcState d (bits v 14 8) = 3 ∧ pcState d (fd s.dev (Adr.BOB_PCMAP (bits v 6 0)) 6 0) = 2) ∧
  (∀ (s : State) (src dst : Nat), s.dev.bob.migBusy = true → s.dev.bob.migSrc = src → s.dev.bob.migDst = dst → src < 126 →
    dst < 128 → (∀ i < 32, hbmBad s.dev (1024 * (s.dev.bob.migPtr * 126 + src) + 32 * i) 32 = false) →
    (s.dev.bob.migPtr + 1 ≠ 786432 → Does (.migChunk []) s fun d =>
      d.bob = { s.dev.bob with migPtr := s.dev.bob.migPtr + 1, migHeld := [], pcs := d.bob.pcs } ∧
      (mcPc d dst).held = (mcPc s.dev dst).held ++ s.dev.bob.migHeld ∧ d.hbm = s.dev.hbm ∧ d.poison = s.dev.poison) ∧
    (s.dev.bob.migPtr + 1 = 786432 → fd s.dev (Adr.BOB_PCMAP src) 6 0 ≠ dst → Does (.migChunk []) s fun d =>
      d.bob.migBusy = false ∧ rg d (Adr.BOB_PCMAP src) = w32 dst ∧ pcState d dst = 0 ∧
      pcState d (fd s.dev (Adr.BOB_PCMAP src) 6 0) = 4 ∧ pends d (Page.bob.base 0) Bit.evt_BOB_MIG_DONE = true)) ∧
  (∀ (s : State) (req : Req) (p : Nat) (v : W32), p < 128 → acc s.dev req (Adr.BOB_PCSTATE p) = true →
    (pcState s.dev p = 4 → bits v 2 0 = 1 → Does (.bobPcstate req p v) s fun d => pcState d p = 1) ∧
    (pcState s.dev p ≠ 4 ∨ bits v 2 0 ≠ 1 → Does (.bobPcstate req p v) s fun d => d.regs = s.dev.regs)) ∧
  (∀ (s : State) (p : Nat), p < 128 → p ∉ s.dev.bob.lost →
    let lost (d : Dev) : Prop := p ∈ d.bob.lost ∧ pcState d p = 5 ∧
      latched d (Page.mc.base (p / 2)) Bit.err_MC_PC_LOST = true ∧ latched d (Page.bob.base 0) Bit.err_BOB_PC_LOST = true
    Does (.pcLost p) s lost ∧
    (∀ k < 48, ∀ row us : Nat,
      Does (.caParity p k row us) s (fun d => latched d (Page.mc.base (p / 2)) Bit.err_MC_CA_PARITY = true) ∧
      (3 ≤ ((mcPc s.dev p).parity.filter fun t => us < t + 1000).length → Does (.caParity p k row us) s lost)))

/-- A request waits at its pseudo-channel, is admitted, opens, reads, writes and closes rows, and completes. A request handed
over waits, behind those of its pseudo-channel that are not yet admitted, or for the copy of its chunk while that is being
migrated; an admission takes the one request that waits into its bank queue when that has room, no other following in the
same MCLK. With one bank at work on one request and nothing waiting, a command slot that the timing limits allow activates
the request's row, precharges another, or issues its column command, counting it. REFRESH, when the interval at the stack's
rate has passed, closes the row of the bank due and moves to the next; refresh management closes the rows of the banks
named; an idle open page closes. A completion moves the port's latency estimate by the rule of R331. Readings of the model
that clauses of it rest on: log entries 75, 91. Completion (exec answers a next state with its effect): bobRequest,
bobCompletion, refresh, refreshManagement, openPageIdle, commandSlot. Rests on: R306, R323, R325, R326, R328, R329, R330,
R331, R342. -/
def Obligations.ControllersServeRequests : Prop :=
  (∀ (s : State) (port da now : Nat) (wr : Bool), port < 15 → da < daSpan →
    let r : BReq := { id := s.dev.bob.reqNo, port := port, da := da, wr := wr, at0 := now }
    (∀ p, mcRoute s.dev da = some p → Does (.bobRequest port da wr now) s fun d =>
      d.bob.reqNo = s.dev.bob.reqNo + 1 ∧
      ∃ l, (mcPc d p).held = l ++ [r] ∧ ∀ x ∈ l, x ∈ (mcPc s.dev p).held) ∧
    (mcRoute s.dev da = none → Does (.bobRequest port da wr now) s fun d =>
      d.bob.migHeld = s.dev.bob.migHeld ++ [r] ∧ d.bob.pcs = s.dev.bob.pcs)) ∧
  (∀ (d : Dev) (p t : Nat) (r : BReq), (mcPc d p).held = [r] → r.port < 15 → r.at0 ≤ t → mcRoom d p r = true →
    let c := mcPc (mcAdmit d p t) p
    (pcBank c (daBank r.da)).q = (pcBank (mcPc d p) (daBank r.da)).q ++ [r] ∧ c.held = [] ∧ c.rr = r.port ∧ c.admitAt = t + 1) ∧
  (∀ (s : State) (p now : Nat) (b : Bank) (r : BReq), p < 128 → (mcPc s.dev p).banks = [b] → (mcPc s.dev p).held = [] →
    b.q = [r] → timingOk s.dev p b r now = true →
    let n := p / 2
    (nextCmd b r = .act → Does (.commandSlot p now) s fun d =>
      (pcBank (mcPc d p) b.k).opn = some (daRow r.da) ∧ (pcBank (mcPc d p) b.k).q = [r] ∧ (mcPc d p).ptr = b.k ∧
      rg d (Adr.MC_CNT_ACT n) = rg s.dev (Adr.MC_CNT_ACT n) + 1) ∧
    (nextCmd b r = .pre → Does (.commandSlot p now) s fun d =>
      (pcBank (mcPc d p) b.k).opn = none ∧ (pcBank (mcPc d p) b.k).q = [r]) ∧
    (nextCmd b r = .col → Does (.commandSlot p now) s fun d =>
      (pcBank (mcPc d p) b.k).q = [] ∧ (mcPc d p).dirW = r.wr ∧
      (mcPc d p).done = (mcPc s.dev p).done ++ (if r.acked then [] else [r]) ∧
      (r.wr = true → rg d (Adr.MC_CNT_WR n) = rg s.dev (Adr.MC_CNT_WR n) + 1) ∧
      (r.wr = false → rg d (Adr.MC_CNT_RD n) = rg s.dev (Adr.MC_CNT_RD n) + 1))) ∧
  (∀ (s : State) (p now : Nat), p < 128 →
    since (mcPc s.dev p).refAt (fd s.dev (Adr.MC_REF (p / 2)) 15 0 / 2 ^ refRate s.dev (p / 2)) now = true →
    Does (.refresh p now) s fun d =>
      (pcBank (mcPc d p) (mcPc s.dev p).refBank).opn = none ∧ (mcPc d p).refBank = ((mcPc s.dev p).refBank + 1) % 48 ∧
      (mcPc d p).refAt = some now) ∧
  (∀ (s : State) (p now : Nat) (l : List Nat), p < 128 → Does (.refreshManagement p now l) s fun d =>
    ∀ k ∈ l, (pcBank (mcPc d p) (k % 48)).opn = none) ∧
  (∀ (s : State) (p k now : Nat), p < 128 → k < 48 → (mcPc s.dev p).held = [] →
    let b := pcBank (mcPc s.dev p) k
    b.opn ≠ none → max (b.rd.getD 0) (b.wrt.getD 0) + fd s.dev (Adr.MC_CFG (p / 2)) 31 16 ≤ now →
    (∀ r ∈ b.q, b.opn ≠ some (daRow r.da)) → Does (.openPageIdle p k now) s fun d => (pcBank (mcPc d p) k).opn = none) ∧
  (∀ (s : State) (port l : Nat), port < 15 → (∀ r, portOldest s.dev port ≠ some (r, false)) →
    Does (.bobCompletion port l) s fun d =>
      let est : Int := fd s.dev (Adr.BOB_LAT_EST port) 15 0
      rg d (Adr.BOB_LAT_EST port) = w32 (est + ((min l 65535 : Nat) - est) / 64).toNat)

/-- A channel takes doorbells, fetches, halts, parks and goes on along its chain. DMA_HEAD sets the head of a channel at rest
and leaves it IDLE. A doorbell starts an IDLE channel at its head, is kept by a running one, makes a parked one read its
descriptor again and a halted one read where it stands. A fetched descriptor whose addresses and length are multiples of 16
begins its transfer. A fetch that fails or times out, or an uncorrectable descriptor buffer, halts the channel with its
cause and error. DISABLE takes a channel of KNL to IDLE, the writes of its transfer that may still land kept, and does
nothing on channels 0 to 11. Readings of the model that clauses of it rest on: log entries 50, 93. Completion (exec answers
a next state with its effect): dmaHead, dmaDb, descriptorFetched, fetchTimeout, disable. Rests on: R505, R506, R507, R508,
R509, R511, R514, R516, R517, R520. -/
def Obligations.ChannelsFollowTheirChains : Prop :=
  (∀ (s : State) (req : Req) (n : Nat) (v : W32), n < 16 → s.dev.chans.length = 16 → (chanOf s.dev n).cstate ≠ .run →
    (acc s.dev req (Adr.DMA_HEAD_HI n) = true → Does (.dmaHead req n true v) s fun d =>
      (chanOf d n).cstate = .idle ∧ (chanOf d n).head = (rg s.dev (Adr.DMA_HEAD_LO n)).toNat + 2 ^ 32 * v.toNat) ∧
    (acc s.dev req (Adr.DMA_HEAD_LO n) = true → Does (.dmaHead req n false v) s fun d =>
      (chanOf d n).cstate = .idle ∧ rg d (Adr.DMA_HEAD_LO n) = v ∧ (chanOf d n).head = (chanOf s.dev n).head)) ∧
  (∀ (s : State) (req : Req) (n : Nat), n < 16 → s.dev.chans.length = 16 → acc s.dev req (Adr.DMA_DB n) = true →
    chInSvc s.dev n = true →
    let c := chanOf s.dev n
    let reads (ph : Phase) (a : Nat) (d : Dev) : Prop := chanOf d n = { c with
      cstate := .run, phase := ph, cur := a, cause := 0, held := false, block := none, given := false, hops := 0
      sent := 0, badAt := none, reads := 0, asked := false }
    (c.cstate = .run → Does (.dmaDb req n) s fun d => chanOf d n = { c with dbPend := true, hops := 0 }) ∧
    (chStops s.dev n = false → linkOut s.dev = true →
      (c.cstate = .idle → c.head % 64 = 0 → Does (.dmaDb req n) s (reads .fetch c.head)) ∧
      (c.cstate = .parked → c.cur % 64 = 0 → Does (.dmaDb req n) s (reads .reread c.cur)) ∧
      (c.cstate = .halted → c.cur % 64 = 0 →
        Does (.dmaDb req n) s (reads (if c.phase = .reread then .reread else .fetch) c.cur))) ∧
    (c.cstate = .idle → c.head % 64 ≠ 0 → Does (.dmaDb req n) s fun d =>
      (chanOf d n).cstate = .halted ∧ (chanOf d n).cause = 4 ∧
      latched d (Page.dmaCh.base n) Bit.err_DMACH_LINK_ALIGN = true)) ∧
  (∀ (s : State) (n : Nat), n < 16 → s.dev.chans.length = 16 → chFetching s.dev n = true →
    let halts (cause b : Nat) (d : Dev) : Prop :=
      (chanOf d n).cstate = .halted ∧ (chanOf d n).cause = cause ∧ (chanOf d n).cur = (chanOf s.dev n).cur ∧
      latched d (Page.dmaCh.base n) b = true ∧ pends d (Page.dmaCh.base n) Bit.evt_DMACH_HALTED = true
    (∀ ws : List W32, ws.length = 16 → (chanOf s.dev n).phase = .fetch → (injAny s.dev (Page.dmaCh.base n)).1 = false →
      (nth ws 1 0).toNat % 16 = 0 → (nth ws 2 0).toNat % 16 = 0 → (nth ws 4 0).toNat % 16 = 0 →
      Does (.descriptorFetched n (.words ws false)) s fun d =>
        chanOf d n = { chanOf s.dev n with
          phase := .xfer, desc := ws, sent := 0, badAt := none, reads := 0, asked := false }) ∧
    (∀ ws : List W32, Does (.descriptorFetched n (.words ws true)) s (halts 5 Bit.err_DMACH_DESC_UE)) ∧
    Does (.descriptorFetched n .bad) s (halts 3 Bit.err_DMACH_FETCH_FAIL) ∧
    Does (.fetchTimeout n) s (halts 2 Bit.err_DMACH_FETCH_FAIL)) ∧
  (∀ (s : State) (req : Req) (n : Nat), n < 16 → s.dev.chans.length = 16 → acc s.dev req (Adr.DMA_DISABLE n) = true →
    (12 ≤ n → Does (.disable req n) s fun d =>
      (chanOf d n).cstate = .idle ∧ (chanOf d n).dbPend = false ∧ (chanOf d n).head = (chanOf s.dev n).head ∧
      d.hlk.late = s.dev.hlk.late ++ chLate s.dev n) ∧
    (n < 12 → Does (.disable req n) s fun d => d.chans = s.dev.chans ∧ d.regs = s.dev.regs))

/-- A transfer stores its bytes, writes its descriptor back and goes on or parks; a failed one says so. For a defined transfer
from host memory to the bobbin, its bytes all there: they are stored at its device address, the sixteen bytes of the
write-back (DONE, OK, the length, the time) go to the descriptor, the descriptor is counted, and the channel parks when the
descriptor says STOP, or reads the next one. A timeout of host memory or of the device side of a transfer other than of a
block or of registers is counted as bad and latches BAD. Readings of the model that clauses of it rest on: log entries 44,
45, 50, 93. Completion (exec answers a next state with its effect): descriptorDone, hostTimeout, devTimeout. Rests on: R502,
R504, R507, R508, R511, R512, R513, R514, R515. -/
def Obligations.TransfersEndWithTheirWriteBack : Prop :=
  (∀ (s : State) (n : Nat) (l : List Byte), n < 16 → s.dev.chans.length = 16 → chMoving s.dev n = true →
    xDefined s.dev n = true → xDir s.dev n = 0 → xTgt s.dev n = 1 → l.length = xLen s.dev n → linkOut s.dev = true →
    let c := chanOf s.dev n
    let stored (d : Dev) : Prop := d.hbm = (hbmWrite s.dev (xDev s.dev n) l).hbm
    let done (d : Dev) : Prop :=
      rg d (Adr.DMA_CNT_DESC n) = rg s.dev (Adr.DMA_CNT_DESC n) + 1 ∧
      .hostWrite (c.cur + 0x30) (bytesOfWords [w32 0x80000001, w32 (xLen s.dev n), timNs s.dev, timS s.dev]) false false false ∈ d.outs
    (bit (nth c.desc 0 0) 31 = true → c.dbPend = false → Does (.descriptorDone n (.ok l)) s fun d =>
      stored d ∧ done d ∧ (chanOf d n).cstate = .parked ∧ (chanOf d n).cur = c.cur ∧ (chanOf d n).hops = (c.hops + 1) % 65536 ∧
      pends d (Page.dmaCh.base n) Bit.evt_DMACH_PARKED = true) ∧
    (bit (nth c.desc 0 0) 31 = false → c.hops + 1 < fd s.dev (Adr.DMA_HOPS n) 15 0 → descNext c % 64 = 0 →
      chStops s.dev n = false → Does (.descriptorDone n (.ok l)) s fun d =>
        stored d ∧ done d ∧ (chanOf d n).cstate = .run ∧ (chanOf d n).phase = .fetch ∧ (chanOf d n).cur = descNext c) ∧
    (bit (nth c.desc 0 0) 31 = false → fd s.dev (Adr.DMA_HOPS n) 15 0 ≤ c.hops + 1 →
      Does (.descriptorDone n (.ok l)) s fun d =>
        (s.dev.exp.run = none → stored d) ∧ done d ∧ (chanOf d n).cstate = .halted ∧ (chanOf d n).cause = 1 ∧ (chanOf d n).cur = descNext c ∧
        latched d (Page.dmaCh.base n) Bit.err_DMACH_HOPS_EXCEEDED = true)) ∧
  (∀ (s : State) (n k : Nat) (l : List Byte), n < 16 → s.dev.chans.length = 16 → chMoving s.dev n = true →
    xDefined s.dev n = true → xDir s.dev n = 0 → xTgt s.dev n = 1 ∨ xTgt s.dev n = 3 →
    (chanOf s.dev n).given = false → (chanOf s.dev n).block = none →
    let bad (d : Dev) : Prop := rg d (Adr.DMA_CNT_BAD n) = rg s.dev (Adr.DMA_CNT_BAD n) + 1 ∧
      rg d (Adr.DMA_CNT_DESC n) = rg s.dev (Adr.DMA_CNT_DESC n) + 1 ∧
      latched d (Page.dmaCh.base n) Bit.err_DMACH_BAD = true ∧ pends d (Page.dmaCh.base n) Bit.evt_DMACH_BAD = true
    Does (.hostTimeout n k l) s bad ∧ Does (.devTimeout n k l) s bad ∧ Does (.descriptorDone n (.bad k l)) s bad)

/-- The host link trains, falls, is reset and is shared, and BAR4 reaches the bobbin. LINK_UP with PD_HLK on shows rate and
width, is announced, and counts a recovery when the link was up; below full rate or width DOWNTRAINED latches. HLK_LINK_DOWN
latches LINK_DOWN and halts every channel that was fetching. PERST# and a function-level reset leave every channel at reset
and every word of HLK's and the channels' pages at its reset value, the link's own word apart, PERST# with the link down. A
BAR4 write on VC0 stores its bytes from the window's base; on an enabled VC1 it is refused, counted and logged. A turn of
the link falls to a channel that has work and a turn left, or, none having one left, opens a new round; with a transfer from
the host it sends one read request of at most Max_Read_Request_Size, no channel having more than 64. Readings of the model
that clauses of it rest on: log entries 49, 51, 93. Completion (exec answers a next state with its effect): perst, flr,
hlkLinkDown, linkUp, bar4Access. Rests on: R485, R486, R490, R492, R499, R523, R524. -/
def Obligations.HostLinkComesAndGoes : Prop :=
  (∀ (s : State) (gen width : Nat) (flit : Bool), pdOn s.dev 1 = true → 8 ≤ width → 3 ≤ gen →
    Does (.linkUp gen width flit) s fun d =>
      d.hlk.up = true ∧ rg d Adr.HLK_LINK = w32 (2 ^ 31 + b2n flit * 2 ^ 30 + width % 32 * 2 ^ 16 + gen % 16) ∧
      pends d (Page.hlk.base 0) Bit.evt_HLK_LINK_UP = true ∧
      rg d Adr.HLK_CNT_RECOV = rg s.dev Adr.HLK_CNT_RECOV + (if s.dev.hlk.up then 1 else 0) ∧
      (gen < 6 ∨ width < 16 → latched d (Page.hlk.base 0) Bit.err_HLK_DOWNTRAINED = true)) ∧
  (∀ s : State, s.dev.hlk.up = true → s.dev.chans.length = 16 → Does (.hlkLinkDown []) s fun d =>
    d.hlk.up = false ∧ rg d Adr.HLK_LINK = 0 ∧ latched d (Page.hlk.base 0) Bit.err_HLK_LINK_DOWN = true ∧
    ∀ n < 16, chFetching s.dev n = true → (chanOf d n).cstate = .halted ∧ (chanOf d n).cause = 2) ∧
  (∀ s : State,
    let fresh (d : Dev) : Prop := d.chans = List.replicate 16 {} ∧ d.bar2 = [] ∧ d.hlk.msixPend = [] ∧ d.hlk.aer = 0 ∧ d.hlk.cfg = {} ∧
      (∀ n < 16, ∀ o < 0x1000, rg d (Page.dmaCh.base n + o) = w32 (wordReset (Page.dmaCh.base n + o))) ∧
      (∀ o < 0x1000, Page.hlk.base 0 + o ≠ Adr.HLK_LINK → rg d (Page.hlk.base 0 + o) = w32 (wordReset (Page.hlk.base 0 + o)))
    Does .perst s (fun d => fresh d ∧ d.hlk.up = false ∧ rg d Adr.HLK_LINK = 0) ∧
    Does .flr s (fun d => fresh d ∧ d.hlk.up = s.dev.hlk.up ∧ rg d Adr.HLK_LINK = rg s.dev Adr.HLK_LINK)) ∧
  (∀ (s : State) (o n : Nat) (l : List Byte),
    (s.dev.hlk.cfg.d3 = false → Does (.bar4Access o (some l) n false) s fun d =>
      d.hbm = (hbmWrite s.dev (1048576 * fd s.dev Adr.HLK_BAR4 16 0 + o) l).hbm) ∧
    (s.dev.hlk.cfg.vc1 = true → Does (.bar4Access o (some l) n true) s fun d =>
      (s.dev.exp.run = none → d.hbm = s.dev.hbm) ∧ rg d Adr.HLK_CNT_UR = rg s.dev Adr.HLK_CNT_UR + 1 ∧
      rg d Adr.HLK_CNT_VC1 = rg s.dev Adr.HLK_CNT_VC1 + 1 ∧ latched d (Page.hlk.base 0) Bit.err_HLK_AER_UNCORR = true)) ∧
  (∀ (d : Dev) (n : Nat) (opens : Bool), linkPick d = some (n, opens) →
    let weight (m : Nat) : Nat := fd d (Adr.DMA_CH_CFG m) 3 0
    n < 16 ∧ linkWork d n = true ∧ 0 < weight n ∧ (opens = false → (chanOf d n).turns < weight n) ∧
    (opens = true → ∀ m < 16, linkWork d m = true → weight m ≤ (chanOf d m).turns) ∧
    (d.chans.length = 16 → opens = false → chMoving d n = true → xDir d n = 0 →
      let c := chanOf d n
      let k := min (xLen d n - c.sent) (maxRead d - (xHost d n + c.sent) % maxRead d)
      c.reads < 64 ∧ .hostRead n (xHost d n + c.sent) k (dmaNs d) ∈ (linkTurn d).outs ∧
      chanOf (linkTurn d) n = { c with sent := c.sent + k, reads := c.reads + 1, turns := c.turns + 1 }))

/-- A whistle command with its key sets or clears BLANK or STOP; one without is only counted. On VC0, or on VC1 once it is
enabled: with the key 57E1h in its upper half, BLANK_SET and STOP_SET hold their cause, BLANK muzzles unless a strobe is in
progress, and a new STOP leaves no stripe running and EXP HALTED; BLANK_CLR and STOP_CLR, the set bits not written, clear
theirs; WH_CNT counts. Without the key WH_STRAY counts and the muzzle stands as it was. Readings of the model that clauses
of it rest on: log entries 2, 93. Completion (exec answers a next state with its effect): blankSet, blankClr, stopSet,
stopClr. Rests on: R434, R495, R496, R497, R498, R499, R500, R501. -/
def Obligations.WhistleMuzzlesAndStops : Prop :=
  ∀ (s : State) (v : W32) (vc1 : Bool), (vc1 = true → s.dev.hlk.cfg.vc1 = true) →
    (bits v 31 16 = 0x57E1 →
      Does (.blankSet v vc1) s (fun d => d.muz.whBlank = true ∧ d.hlk.whCnt = s.dev.hlk.whCnt + 1 ∧
        (s.dev.muz.pulses = [] → d.muz.muzzled = true)) ∧
      Does (.stopSet v vc1) s (fun d => d.muz.whStop = true ∧ d.hlk.whCnt = s.dev.hlk.whCnt + 1 ∧
        (s.dev.muz.whStop = false → d.exp.run = none ∧ d.exp.halted = true)) ∧
      (bit v 0 = false → Does (.blankClr v vc1) s fun d => d.muz.whBlank = false ∧ d.hlk.whCnt = s.dev.hlk.whCnt + 1) ∧
      (bit v 2 = false → Does (.stopClr v vc1) s fun d => d.muz.whStop = false ∧ d.hlk.whCnt = s.dev.hlk.whCnt + 1)) ∧
    (bits v 31 16 ≠ 0x57E1 →
      ∀ c ∈ [Instr.blankSet v vc1, .blankClr v vc1, .stopSet v vc1, .stopClr v vc1], Does c s fun d =>
        d.hlk.whStray = s.dev.hlk.whStray + 1 ∧ d.hlk.whCnt = s.dev.hlk.whCnt ∧ d.muz = s.dev.muz ∧ d.exp = s.dev.exp)

/-- Scrub reads count, track and remap what they find, and the position moves on. An SRAM word found clean changes nothing, one
found poisoned is counted; a corrected one is counted and tracked, and when its count reaches K it takes the free entry of
its macro and leaves the tracker; an uncorrectable one is counted and logged with its address and time. An HBM scrub read
over a clean bobbin moves the position by one sector, one chunk, or to the start with the pass counted. A poll of the on-die
counts keeps the highest, and latches ODE_HIGH above LIMIT. MEI_INJ_GO spoils the sector named, and a KNL write of 0 to
VALID retires the entry selected. Readings of the model that clauses of it rest on: log entries 46, 47, 62. Completion (exec
answers a next state with its effect): scrubRead, sramScrub, odePoll, meiInjGo, remapEntryRetire. Rests on: R582, R589,
R591, R592, R593, R594, R595, R605, R618. -/
def Obligations.ScrubbersTrackAndRemap : Prop :=
  (∀ (s : State) (m w : Nat) (home : WordHome), m < 4096 → w < 65536 → rg s.dev (Page.mei.base 0 + oINJECT) = 0 →
    let is (t : Track) : Prop := t.sram = true ∧ t.unit = m ∧ t.addr = w
    let k := fd s.dev Adr.MEI_CE_K 3 0
    Does (.sramScrub m w .clean home false) s (fun d => d.mei = s.dev.mei ∧ rg d Adr.MEI_CNT_CE = rg s.dev Adr.MEI_CNT_CE ∧
      rg d Adr.MEI_CNT_UE = rg s.dev Adr.MEI_CNT_UE ∧ rg d Adr.MEI_CNT_POISON = rg s.dev Adr.MEI_CNT_POISON) ∧
    Does (.sramScrub m w .poisoned home false) s (fun d => d.mei = s.dev.mei ∧
      rg d Adr.MEI_CNT_POISON = rg s.dev Adr.MEI_CNT_POISON + 1) ∧
    ((∀ t ∈ s.dev.mei.track, ¬is t) → s.dev.mei.track.length < 256 → 1 < k →
      Does (.sramScrub m w .corrected home false) s fun d =>
        d.mei.track = s.dev.mei.track ++ [⟨true, m, w, 1, true⟩] ∧ d.mei.remaps = s.dev.mei.remaps ∧
        rg d Adr.MEI_CNT_CE = rg s.dev Adr.MEI_CNT_CE + 1) ∧
    (∀ (c : Nat) (b : Bool) (x y : List Track), s.dev.mei.track = x ++ ⟨true, m, w, c, b⟩ :: y → (∀ t ∈ x ++ y, ¬is t) →
      (c + 1 < k → Does (.sramScrub m w .corrected home false) s fun d =>
        d.mei.track = x ++ ⟨true, m, w, c + 1, true⟩ :: y ∧ rg d Adr.MEI_CNT_CE = rg s.dev Adr.MEI_CNT_CE + 1) ∧
      (∀ i, k = c + 1 → rmpFree s.dev true m = some i → Does (.sramScrub m w .corrected home false) s fun d =>
        d.mei.track = x ++ y ∧ d.mei.remaps = s.dev.mei.remaps ++ [{ sram := true, index := i, poisoned := false, unit := m, addr := w }] ∧
        rg d Adr.MEI_CNT_REMAP = rg s.dev Adr.MEI_CNT_REMAP + 1 ∧
        pends d (Page.mei.base 0) Bit.evt_MEI_REMAP_ADDED = true)) ∧
    Does (.sramScrub m w .uncorrectable .other false) s (fun d =>
      rg d Adr.MEI_CNT_UE = rg s.dev Adr.MEI_CNT_UE + 1 ∧ rg d Adr.MEI_LAST_UE_LO = w32 (m * 65536 + w) ∧
      rg d Adr.MEI_LAST_UE_HI = w32 (2 ^ 31) ∧ rg d Adr.MEI_LAST_UE_S = timS s.dev ∧ rg d Adr.MEI_LAST_UE_NS = timNs s.dev ∧
      latched d (Page.mei.base 0) Bit.err_MEI_SCRUB_UE = true)) ∧
  (∀ s : State, 0 < fd s.dev Adr.MEI_SCRUB 15 0 → pdState s.dev 9 = .on → pdState s.dev 10 = .on → s.dev.mei.initTest = true →
    s.dev.poison = [] → s.dev.mei.badSectors = [] →
    let c := fd s.dev Adr.MEI_SCRUB_POS 19 0
    let x := fd s.dev Adr.MEI_SCRUB_POS 24 20
    (x < 31 → Does (.scrubRead []) s fun d => rg d Adr.MEI_SCRUB_POS = w32 ((x + 1) * 2 ^ 20 + c) ∧ d.mei = s.dev.mei) ∧
    (x = 31 → c < 786431 → Does (.scrubRead []) s fun d => rg d Adr.MEI_SCRUB_POS = w32 (c + 1) ∧ d.mei = s.dev.mei) ∧
    (x = 31 → c = 786431 → Does (.scrubRead []) s fun d =>
      rg d Adr.MEI_SCRUB_POS = 0 ∧ rg d Adr.MEI_SCRUB_PASS = rg s.dev Adr.MEI_SCRUB_PASS + 1 ∧
      pends d (Page.mei.base 0) Bit.evt_MEI_PASS_DONE = true)) ∧
  (∀ (s : State) (l : List Nat) (top : Nat), l.length = 4 → top ∈ l → (∀ n ∈ l, n ≤ top) →
    Does (.odePoll l) s fun d => fd d Adr.MEI_ODE 31 16 = min top 65535 ∧
      (fd s.dev Adr.MEI_ODE 15 0 < top → latched d (Page.mei.base 0) Bit.err_MEI_ODE_HIGH = true)) ∧
  (∀ (s : State) (req : Req) (v : W32), acc s.dev req Adr.MEI_INJ_CTRL = true →
    let da := (rg s.dev Adr.MEI_INJ_ADDR_LO).toNat + 2 ^ 32 * (rg s.dev Adr.MEI_INJ_ADDR_HI).toNat
    da < daSpan →
      (bits v 2 0 = 1 → Does (.meiInjGo req v) s fun d => (da / 32, 1) ∈ d.mei.badSectors ∧ d.poison = s.dev.poison) ∧
      (bits v 2 0 = 2 → Does (.meiInjGo req v) s fun d => (da / 32, 2) ∈ d.mei.badSectors ∧ da / 32 ∈ d.poison) ∧
      (bits v 2 0 = 3 → Does (.meiInjGo req v) s fun d => d.mei.badSectors = s.dev.mei.badSectors ∧ da / 32 ∈ d.poison)) ∧
  (∀ (s : State) (v : W32), acc s.dev .knl Adr.MEI_RMP_ENT0 = true →
    let w := rg s.dev Adr.MEI_RMP_SEL
    Does (.remapEntryRetire .knl v) s fun d => d.regs = s.dev.regs ∧ d.mei.track = s.dev.mei.track ∧
      ∀ r, r ∈ d.mei.remaps ↔ r ∈ s.dev.mei.remaps ∧ ¬(r.sram = bit w 31 ∧ r.index = bits w 15 0))

/-- The time base carries, latches, steps, and sets and clears its flags. A carry adds one second modulo 2^48, raises PPS_OUT
while it is enabled and counts HOLD_S while HOLDOVER reads 1; PPS_OUT falls at its end. An edge of the sense selected
latches the time. A read of TIM_NS answers the nanoseconds and latches the seconds. STEP adds the signed seconds and
nanoseconds of its registers and moves no PPS_OUT pulse; TRUST clears TIME_UNTRUSTED, HOLDOVER and HOLD_S; HOLD sets
HOLDOVER; HOLD_S at HOLD_MAX sets TIME_UNTRUSTED and latches UNTRUSTED. A write of TIM_OS_CORR_HI arms; a read of TIM_TSQ_NS
takes the oldest stamp. Readings of the model that clauses of it rest on: log entries 69, 78. Completion (exec answers a
next state with its effect): secondCarry, ppsOutEnd, ppsIn, timNs, step, trust, hold, holdMax, timOsCorrHi, timTsqNs. Rests
on: R648, R650, R651, R652, R653, R654, R661, R663, R669. -/
def Obligations.TimeBaseCommandsHaveTheirEffect : Prop :=
  (∀ s : State, s.dev.pmu.seq ≠ .off → Does .secondCarry s fun d =>
    d.tim.sec = (s.dev.tim.sec + 1) % 2 ^ 48 ∧ d.tim.tsq = s.dev.tim.tsq ∧
    d.tim.pps = (s.dev.tim.pps || bit (rg s.dev Adr.TIM_PPS) 31) ∧
    fd d Adr.TIM_STAT 15 0 = (if bit (rg s.dev Adr.TIM_STAT) 30 then min 65535 (fd s.dev Adr.TIM_STAT 15 0 + 1)
      else fd s.dev Adr.TIM_STAT 15 0)) ∧
  (∀ s : State, Does .ppsOutEnd s fun d => d.tim = { s.dev.tim with pps := false } ∧ d.regs = s.dev.regs) ∧
  (∀ (s : State) (rising : Bool),
    (rising ≠ bit (rg s.dev Adr.TIM_PPS) 30 → Does (.ppsIn rising) s fun d =>
      rg d Adr.TIM_PPSIN_NS = timNs s.dev ∧ rg d Adr.TIM_PPSIN_S = timS s.dev ∧ d.tim = s.dev.tim ∧
      pends d (Page.tim.base 0) Bit.evt_TIM_PPS_IN = true) ∧
    (rising = bit (rg s.dev Adr.TIM_PPS) 30 → Does (.ppsIn rising) s fun d => d.regs = s.dev.regs ∧ d.tim = s.dev.tim)) ∧
  (∀ (s : State) (req : Req), acc s.dev req Adr.TIM_NS = true → Does (.timNs req) s fun d =>
    .readData req Adr.TIM_NS [timNs s.dev] ∈ d.outs ∧ rg d Adr.TIM_S_LO = timS s.dev ∧
    rg d Adr.TIM_S_HI = w32 (s.dev.tim.sec / 2 ^ 32 % 65536) ∧ d.tim = s.dev.tim ∧
    ∀ a, a ≠ Adr.TIM_S_LO → a ≠ Adr.TIM_S_HI → rg d a = rg s.dev a) ∧
  (∀ (s : State) (req : Req) (v : W32), acc s.dev req Adr.TIM_CMD = true →
    let total : Int := s.dev.tim.sec * 10 ^ 9 + s.dev.tim.ns +
      toS 32 (rg s.dev Adr.TIM_STEP_S).toNat * 10 ^ 9 + toS 32 (rg s.dev Adr.TIM_STEP_NS).toNat
    (bits v 2 1 = 0 → 0 ≤ total → total < 2 ^ 48 * 10 ^ 9 → Does (.step req v) s fun d =>
      (d.tim.sec : Int) * 10 ^ 9 + d.tim.ns = total ∧ d.tim.ns < 10 ^ 9 ∧ d.tim.pps = s.dev.tim.pps ∧ d.regs = s.dev.regs) ∧
    (bit v 0 = false → bit v 2 = false → Does (.trust req v) s fun d =>
      rg d Adr.TIM_STAT = rg s.dev Adr.TIM_STAT &&& 0x3FFF0000 ∧ d.tim = s.dev.tim) ∧
    (bits v 1 0 = 0 → Does (.hold req v) s fun d =>
      rg d Adr.TIM_STAT = rg s.dev Adr.TIM_STAT ||| 0x40000000 ∧ d.tim = s.dev.tim)) ∧
  (∀ s : State, bit (rg s.dev Adr.TIM_STAT) 30 = true → bit (rg s.dev Adr.TIM_STAT) 31 = false →
    fd s.dev Adr.TIM_HOLD 15 0 ≤ fd s.dev Adr.TIM_STAT 15 0 → Does .holdMax s fun d =>
      rg d Adr.TIM_STAT = rg s.dev Adr.TIM_STAT ||| 0x80000000 ∧ latched d (Page.tim.base 0) Bit.err_TIM_UNTRUSTED = true) ∧
  (∀ (s : State) (req : Req) (v : W32), acc s.dev req Adr.TIM_OS_CORR_HI = true → Does (.timOsCorrHi req v) s fun d =>
    rg d Adr.TIM_OS_CORR_HI = v ∧ rg d Adr.TIM_OS_STAT = rg s.dev Adr.TIM_OS_STAT ||| 0x40000000 ∧ d.tim = s.dev.tim) ∧
  (∀ (s : State) (req : Req), acc s.dev req Adr.TIM_TSQ_NS = true →
    (∀ id sec ns rest, s.dev.tim.tsq = (id, sec, ns) :: rest → Does (.timTsqNs req) s fun d =>
      .readData req Adr.TIM_TSQ_NS [w32 ns] ∈ d.outs ∧ d.tim = { s.dev.tim with tsq := rest }) ∧
    (s.dev.tim.tsq = [] → Does (.timTsqNs req) s fun d =>
      .readData req Adr.TIM_TSQ_NS [0] ∈ d.outs ∧ d.tim = s.dev.tim))

/-- Each STORE starts its own store, and a finished one is in force. A STORE while none runs starts a store of its kind with its
data: the registers after the epoch is loaded, the boot record, a key, a crash record, a block of LOG or of USER inside its
area. While one runs it is only counted as rejected. A store that finishes verified is in force: the newest copy of its
area, or the bytes at its place; unverified it latches VERIFY_FAIL. Either way it is counted, announced and over. During a
supply warning it does not finish. Readings of the model that clauses of it rest on: log entry 72. Completion (exec answers
a next state with its effect): storeRegs, storeBoot, storeKey, storeCrash, storeLog, storeUser, nvmDone. Rests on: R630,
R634, R635, R636, R637, R638, R639, R670. -/
def Obligations.StoresReachTheMram : Prop :=
  (∀ (s : State) (req : Req), acc s.dev req Adr.NVM_CMD = true → s.dev.nvm.job = none →
    let off := (rg s.dev Adr.NVM_OFF).toNat / 512 * 512
    Does (.storeRegs req) s (fun d => (∃ j, d.nvm.job = some j ∧ j.kind = 1 ∧ j.rmps = s.dev.mei.remaps) ∧
      rg d Adr.TIM_EPOCH = timS s.dev ∧ rg d Adr.TIM_EPOCH_HI = w32 (s.dev.tim.sec / 2 ^ 32 % 65536)) ∧
    Does (.storeBoot req) s (fun d => ∃ j, d.nvm.job = some j ∧ j.kind = 2) ∧
    (∀ k < 16, Does (.storeKey req k) s fun d => d.nvm.job = some ⟨3, k, 0, nvBuf s.dev 8, [], []⟩ ∧ d.regs = s.dev.regs) ∧
    (∀ k < 8, Does (.storeCrash req k) s fun d => d.nvm.job = some ⟨4, k, 0, nvBuf s.dev 128, [], []⟩ ∧ d.regs = s.dev.regs) ∧
    (off + 512 ≤ 114688 → Does (.storeLog req) s fun d =>
      d.nvm.job = some ⟨5, 0, off, nvBuf s.dev 128, [], []⟩ ∧ d.regs = s.dev.regs) ∧
    (off + 512 ≤ 266240 → Does (.storeUser req) s fun d =>
      d.nvm.job = some ⟨6, 0, off, nvBuf s.dev 128, [], []⟩ ∧ d.regs = s.dev.regs)) ∧
  (∀ (s : State) (req : Req) (k : Nat), acc s.dev req Adr.NVM_CMD = true → s.dev.nvm.job ≠ none →
    ∀ c ∈ [Instr.storeRegs req, .storeBoot req, .storeKey req k, .storeCrash req k, .storeLog req, .storeUser req],
      Does c s fun d => rg d Adr.NVM_CNT_REJECT = rg s.dev Adr.NVM_CNT_REJECT + 1 ∧ d.nvm = s.dev.nvm) ∧
  (∀ (s : State) (j : NvJob), s.dev.nvm.job = some j → s.dev.pmu.warn = false →
    let ended (ok : Bool) (d : Dev) : Prop := d.nvm.job = none ∧ rg d Adr.NVM_CNT_STORE = rg s.dev Adr.NVM_CNT_STORE + 1 ∧
      rg d Adr.NVM_STAT = w32 (b2n ok * 2 ^ 29 + j.kind) ∧ pends d (Page.nvm.base 0) Bit.evt_NVM_DONE = true
    Does (.nvmDone true) s (ended true) ∧
    Does (.nvmDone false) s (fun d => ended false d ∧ latched d (Page.nvm.base 0) Bit.err_NVM_VERIFY_FAIL = true) ∧
    (∀ a, jobArea j = some a → Does (.nvmDone true) s fun d =>
      ∃ c x, nvNewest d a = some (c, x) ∧ x.data = j.data ∧ x.regs = j.regs ∧ x.rmps = j.rmps) ∧
    (jobArea j = none → Does (.nvmDone true) s fun d =>
      d.nvm.mram = s.dev.nvm.mram.write (jobOff s.dev j) j.data ∧ d.nvm.copies = s.dev.nvm.copies)) ∧
  (∀ (s : State) (ok : Bool), s.dev.nvm.job = none ∨ s.dev.pmu.warn = true → Does (.nvmDone ok) s fun d =>
    d.nvm = s.dev.nvm ∧ d.regs = s.dev.regs)

/-- STORE REGS loads the epoch, then snapshots every NV field; later writes wait for the next one. After STORE REGS starts,
TIM_EPOCH and TIM_EPOCH_HI hold the current seconds, and the store holds, for every NV word of a page, its NV fields as the
registers then stand. A register write of an NV word changes nothing of the store and of what NVM holds. Completion (exec
answers a next state with its effect): registerWrite, storeRegs. Rests on: R638. -/
def Obligations.StoreRegsTakesOneSnapshot : Prop :=
  (∀ (s : State) (req : Req), acc s.dev req Adr.NVM_CMD = true → s.dev.nvm.job = none →
    Does (.storeRegs req) s fun d =>
      rg d Adr.TIM_EPOCH = w32 s.dev.tim.sec ∧ rg d Adr.TIM_EPOCH_HI = w32 (s.dev.tim.sec / 2 ^ 32 % 2 ^ 16) ∧
      ∃ j, d.nvm.job = some j ∧ ∀ (a n : Nat) (p : Page) (r : RegRow), inWindow a = false → pageOf a = some (p, n) →
        p.row (a % 0x1000) = some r → 0x100 ≤ a % 0x1000 → r.nv ≠ 0 →
        (alGet j.regs a).getD (w32 (wordReset a) &&& w32 r.nv) = rg d a &&& w32 r.nv) ∧
  (∀ (s : State) (req : Req) (a n : Nat) (p : Page) (r : RegRow) (v : W32) (vc1 : Bool),
    pageOf a = some (p, n) → p.row (a % 0x1000) = some r → r.nv ≠ 0 →
    Does (.registerWrite req .bar0 4 a [v] vc1) s fun d => d.nvm = s.dev.nvm)

/-- The watchdog, kennel-away, CONFIRM and the core's resets do what KNL's rules say. The watchdog's interrupt latches WDOG and
begins kennel-away; its handler writes a crash record and resets the core, or the core stays until hardware resets it. A
core reset counts a boot, is in kennel-away, drops the command in service and leaves firmware or RECOVERY running. A kick
restarts the watchdog while MS is not 0. CONFIRM by firmware of the TRY slot makes that slot preferred and raises SVN_MIN to
its SVN. AWAY begins kennel-away, AWAY_END ends it and announces BOOTED; AWAY_EXPIRED latches at 5,000 ms and stays latched.
A sensor reading at its limits latches TEMP_WARN and OVERTEMP. Readings of the model that clauses of it rest on: log entries
20, 70, 74. Completion (exec answers a next state with its effect): wdog, wdogReset, knlKick, confirm, away, awayEnd,
reboot, awayExpired, tempCheck. Rests on: R624, R627, R629, R631, R632, R643, R645. -/
def Obligations.CoreBootsAndKennelAway : Prop :=
  (let booted (s d : Dev) : Prop := rg d Adr.KNL_CNT_BOOT = rg s Adr.KNL_CNT_BOOT + 1 ∧ d.knl.away = true ∧
      d.knl.nmi = false ∧ d.knl.cmd = none ∧ (d.knl.phase = 2 ∨ d.knl.phase = 3)
   (∀ s : State, pdOn s.dev 0 = true → fd s.dev Adr.KNL_WDOG 15 0 ≠ 0 → s.dev.knl.nmi = false → s.dev.knl.phase ≠ 0 →
      Does (.wdog false) s (fun d => d.knl.nmi = true ∧ d.knl.away = true ∧
        latched d (Page.knl.base 0) Bit.err_KNL_WDOG = true) ∧
      Does (.wdog true) s (fun d => booted s.dev d ∧ latched d (Page.knl.base 0) Bit.err_KNL_WDOG = true ∧
        latched d (Page.knl.base 0) Bit.err_KNL_CRASH = true)) ∧
   (∀ s : State, (s.dev.knl.nmi = true → Does .wdogReset s (booted s.dev)) ∧
      (s.dev.knl.nmi = false → Does .wdogReset s fun d => d.knl = s.dev.knl)) ∧
   (∀ (s : State) (req : Req), acc s.dev req Adr.KNL_KICK = true → Does (.knlKick req) s fun d =>
      d.knl = (if fd s.dev Adr.KNL_WDOG 15 0 = 0 then s.dev.knl else { s.dev.knl with wdogNs := 0 }) ∧ d.regs = s.dev.regs) ∧
   (∀ (s : State) (req : Req) (v : W32), acc s.dev req Adr.KNL_CMD = true → bits v 3 0 = 0 →
      let t := bits (bootRec s.dev).1 3 3
      (s.dev.knl.phase = 2 → s.dev.knl.slot = t → t ≠ bits (bootRec s.dev).1 2 2 → Does (.confirm req v) s fun d =>
        bits (bootRec d).1 2 2 = t ∧ bits (bootRec d).1 5 4 = 0 ∧
        svnMin d = max (svnMin s.dev) (rg s.dev Adr.KNL_FWSVN).toNat ∧ d.knl = s.dev.knl) ∧
      Does (.away req v) s (fun d => d.knl.away = true ∧ d.knl.awayNs = (if s.dev.knl.away then s.dev.knl.awayNs else 0)) ∧
      Does (.awayEnd req v) s (fun d => d.knl.away = false ∧ pends d (Page.knl.base 0) Bit.evt_KNL_BOOTED = true) ∧
      (latched s.dev (Page.knl.base 0) Bit.err_KNL_AWAY_EXPIRED = true → Does (.awayEnd req v) s fun d =>
        latched d (Page.knl.base 0) Bit.err_KNL_AWAY_EXPIRED = true) ∧
      Does (.reboot req v) s (booted s.dev))) ∧
  (∀ s : State, s.dev.knl.away = true → Does .awayExpired s fun d =>
    latched d (Page.knl.base 0) Bit.err_KNL_AWAY_EXPIRED = true ∧ d.knl.away = true ∧ 5000 * 10 ^ 6 ≤ d.knl.awayNs) ∧
  (∀ (s : State) (i v : Nat), pdOn s.dev 0 = true → s.dev.knl.sens = [] → i < 8 →
    let t := toS 16 (v % 65536)
    let limit : Int := 16 * ((fd s.dev Adr.KNL_TLIM 15 8 : Int) - 64)
    Does (.tempCheck [(i, some v)]) s fun d => d.knl.sens = [(i, v % 65536)] ∧
      (limit ≤ t → s.dev.knl.warnArm = true →
        d.knl.warnArm = false ∧ latched d (Page.knl.base 0) Bit.err_KNL_TEMP_WARN = true) ∧
      (2000 ≤ t → latched d (Page.knl.base 0) Bit.err_KNL_OVERTEMP = true))

/-- A load, a fetch and a narrow store of a poisoned SRAM word raise mcause 5, 1 and 7. Each of the three accesses to a poisoned
word of KNL SRAM leaves the word as it is and records its mcause with the address; an access to a good word while no
injection is armed raises nothing. A store of the whole word makes it good. Completion (exec answers a next state with its
effect): poisonedLoad. Rests on: R622. -/
def Obligations.PoisonedSramWordsRaiseTheirFault : Prop :=
  (∀ (s : State) (a : Nat), a < 0x80000 → a / 4 ∈ s.dev.knl.sramBad →
    let keeps (d : Dev) : Prop := d.knl.sram = s.dev.knl.sram ∧ d.knl.sramBad = s.dev.knl.sramBad
    Does (.poisonedLoad .load a) s (fun d => d.knl.trap = some (5, 0x10000000 + a) ∧ keeps d) ∧
    Does (.poisonedLoad .fetch a) s (fun d => d.knl.trap = some (1, 0x10000000 + a) ∧ keeps d) ∧
    Does (.poisonedLoad .narrowStore a) s (fun d => d.knl.trap = some (7, 0x10000000 + a) ∧ keeps d)) ∧
  (∀ (s : State) (k : CoreAccess) (a : Nat), a < 0x80000 → a / 4 ∉ s.dev.knl.sramBad →
    bits (rg s.dev (Page.knl.base 0 + oINJECT)) 2 0 = 0 → Does (.poisonedLoad k a) s fun d => d.knl = s.dev.knl) ∧
  (∀ (d : Dev) (w : Nat) (l : List Byte), w < 0x20000 → l.length = 4 → bits (rg d (Page.knl.base 0 + oINJECT)) 2 0 = 0 →
    w ∉ (sramWrite d (4 * w) l).knl.sramBad ∧
    ∀ x, x ≠ w → (x ∈ (sramWrite d (4 * w) l).knl.sramBad ↔ x ∈ d.knl.sramBad))

/-- The host's doorbell hands a command over, and each command served answers its result and its echo. KNL_H2K_DB hands the
sixteen words over when no command is in service, and is answered BUSY when one is. KNL's doorbell raises K2H and ends the
service. Each command served clears the service, echoes H2K0 in K2H1 and raises K2H; UPDATE, STORE, LOG_EXPORT and KEY_WRITE
answer the result codes of R647, an image that passes its check standing in its slot with the trial armed, a key in its slot
and its source zero, and REBOOT boots the core. Readings of the model that clauses of it rest on: log entry 71. Completion
(exec answers a next state with its effect): knlH2kDb, knlK2hDb, update, rebootCommand, storeCommand, logExport, keyWrite,
runSram. Rests on: R628, R629, R641, R646, R647, R668. -/
def Obligations.MailboxCommandsAreServed : Prop :=
  (∀ (s : State) (req : Req), acc s.dev req Adr.KNL_H2K_DB = true →
    (s.dev.knl.cmd = none → Does (.knlH2kDb req) s fun d =>
      d.knl.cmd = some ((List.range 16).map fun i => rg s.dev (Adr.KNL_H2K i)) ∧ .plic 1 ∈ d.outs ∧ d.regs = s.dev.regs) ∧
    (s.dev.knl.cmd ≠ none → Does (.knlH2kDb req) s fun d =>
      rg d (Adr.KNL_K2H 0) = 1 ∧ rg d (Adr.KNL_K2H 1) = rg s.dev (Adr.KNL_H2K 0) ∧ d.knl = s.dev.knl ∧
      pends d (Page.knl.base 0) Bit.evt_KNL_K2H = true)) ∧
  (∀ s : State, acc s.dev .knl Adr.KNL_K2H_DB = true → Does (.knlK2hDb .knl) s fun d =>
    d.knl = { s.dev.knl with cmd := none } ∧ pends d (Page.knl.base 0) Bit.evt_KNL_K2H = true) ∧
  (∀ (s : State) (w : List W32),
    let answered (d : Dev) : Prop := d.knl.cmd = none ∧ rg d (Adr.KNL_K2H 1) = nth w 0 0 ∧
      pends d (Page.knl.base 0) Bit.evt_KNL_K2H = true
    let result (d : Dev) (n : Nat) : Prop := rg d (Adr.KNL_K2H 0) = w32 n
    (serving s.dev 1 = some w →
      let da := mboxDa w 1
      let n := (nth w 3 0).toNat
      let h := hbmRead s.dev da 512
      let c := imageCheck s.dev h (hbmRead s.dev (da + 512) (n - 512))
      let slot := if s.dev.knl.slot = 0 then 1 else if s.dev.knl.slot = 1 then 0 else 1 - bits (bootRec s.dev).1 2 2
      (∀ flash, Does (.update flash) s answered) ∧
      (n < 528 ∨ 393728 < n → ∀ flash, Does (.update flash) s fun d => result d 2 ∧ d.nvm = s.dev.nvm) ∧
      (528 ≤ n → n = 512 + hdrW h 0x10 → n ≤ 393728 → da + n ≤ daSpan → hbmBad s.dev da n = false →
        (c ≠ 0 → ∀ flash, Does (.update flash) s fun d => result d c ∧ d.nvm = s.dev.nvm) ∧
        (c = 0 → Does (.update false) s (fun d => result d 5) ∧
          Does (.update true) s fun d => result d 0 ∧ bits (bootRec d).1 3 3 = slot ∧ bits (bootRec d).1 5 4 = 1 ∧
            bit (bootRec d).1 (6 + slot) = false))) ∧
    (serving s.dev 2 = some w → Does .rebootCommand s fun d => answered d ∧ result d 0 ∧
      rg d Adr.KNL_CNT_BOOT = rg s.dev Adr.KNL_CNT_BOOT + 1 ∧ d.knl.away = true) ∧
    (serving s.dev 3 = some w →
      Does .storeCommand s answered ∧
      (nth w 1 0 ≠ 1 → Does .storeCommand s fun d => result d 2 ∧ d.nvm = s.dev.nvm) ∧
      (nth w 1 0 = 1 → s.dev.nvm.job ≠ none → Does .storeCommand s fun d => result d 1 ∧ d.nvm = s.dev.nvm) ∧
      (nth w 1 0 = 1 → s.dev.nvm.job = none → Does .storeCommand s fun d =>
        result d 0 ∧ ∃ j, d.nvm.job = some j ∧ j.kind = 1)) ∧
    (serving s.dev 4 = some w → cdcRuns s.dev = true → Does .logExport s answered) ∧
    (serving s.dev 5 = some w →
      let da := mboxDa w 2
      let k := (nth w 1 0).toNat
      Does .keyWrite s answered ∧
      (16 ≤ k → Does .keyWrite s fun d => result d 2 ∧ d.nvm = s.dev.nvm) ∧
      (k < 16 → da + 32 ≤ daSpan → hbmBad s.dev da 32 = false → s.dev.nvm.job = none → s.dev.bob.lost = [] →
        Does .keyWrite s fun d => result d 0 ∧ alGet d.nvm.keys k = some (hbmRead s.dev da 32) ∧
          d.hbm = s.dev.hbm.write da (List.replicate 32 0))) ∧
    (serving s.dev 0x101 = some w → Does .runSram s answered))

/-- The management network sends, stamps, writes back and receives frames, and a stop datagram sets its level. A write of TXTAIL
stores it, and a frame handed over leaves at once, padded and with its FCS, unless it is an ONESTEP frame, which is held for
its deadline; at the deadline it leaves, with OS_MISS when it is not armed. A write-back gives the descriptor back, advances
TXHEAD and raises PLIC 3. A received frame with a good FCS goes into the next buffer that takes it, advances RXHEAD and
raises PLIC 2. A stop datagram with the keys and a later sequence number takes its sequence number and sets or clears the
level; any other, and a frame that carries a datagram of another length to the port, is counted. NSTOP_CLR clears the level.
The link's state shows in KNL_MAC_CFG. The firmware sends the report of the oldest sealed stripe that has none, with the
next REPORT_ID. Readings of the model that clauses of it rest on: log entries 73, 82, 95, 97. Completion (exec answers a
next state with its effect): knlMacTxtail, onestepDeadline, txWriteback, rxFrame, netstopDatagram, nstopClr,
managementNetworkLink. Rests on: R434, R659, R660, R661, R662, R665, R666, R667, R668. -/
def Obligations.ManagementNetworkMovesFrames : Prop :=
  (∀ (s : State) (req : Req) (v : W32), acc s.dev req Adr.KNL_MAC_TXTAIL = true →
    let e := storeReg s.dev Adr.KNL_MAC_TXTAIL v
    let free : Prop := macRuns s.dev = true ∧ s.dev.knl.tx = none ∧ s.dev.knl.osHeld = false ∧
      (rg e Adr.KNL_MAC_TXHEAD).toNat % ringSize s.dev Adr.KNL_MAC_TXRING ≠
        (rg e Adr.KNL_MAC_TXTAIL).toNat % ringSize s.dev Adr.KNL_MAC_TXRING ∧ bit (descW s.dev (txDesc s.dev) 0) 31 = true
    let l := txFrame s.dev ++ List.replicate (60 - (txFrame s.dev).length) 0
    Does (.knlMacTxtail req v) s (fun d => rg d Adr.KNL_MAC_TXTAIL = rg e Adr.KNL_MAC_TXTAIL ∧ d.knl.sram = s.dev.knl.sram) ∧
    (free → bit (descW s.dev (txDesc s.dev) 0) 30 = false → Does (.knlMacTxtail req v) s fun d =>
      .mac (l ++ leBytes 4 (crc32 l)) ∈ d.outs ∧ d.knl.tx ≠ none) ∧
    (free → bit (descW s.dev (txDesc s.dev) 0) 30 = true → Does (.knlMacTxtail req v) s fun d =>
      d.knl.osHeld = true ∧ d.knl.tx = none ∧ .plic 4 ∈ d.outs ∧ bit (rg d Adr.TIM_OS_STAT) 31 = true)) ∧
  (∀ s : State, s.dev.knl.osHeld = true →
    (bit (rg s.dev Adr.TIM_OS_STAT) 30 = true → Does .onestepDeadline s fun d =>
      d.knl.osHeld = false ∧ bits (rg d Adr.TIM_OS_STAT) 31 30 = 0 ∧ (∃ x, d.knl.tx = some x ∧ x.osMiss = false) ∧
      rg d Adr.TIM_CNT_OSMISS = rg s.dev Adr.TIM_CNT_OSMISS) ∧
    (bit (rg s.dev Adr.TIM_OS_STAT) 30 = false → Does .onestepDeadline s fun d =>
      d.knl.osHeld = false ∧ bits (rg d Adr.TIM_OS_STAT) 31 29 = 1 ∧ (∃ x, d.knl.tx = some x ∧ x.osMiss = true) ∧
      rg d Adr.TIM_CNT_OSMISS = rg s.dev Adr.TIM_CNT_OSMISS + 1 ∧
      latched d (Page.tim.base 0) Bit.err_TIM_OS_MISS = true)) ∧
  (∀ (s : State) (x : MacTx), s.dev.knl.tx = some x → Does .txWriteback s fun d =>
    rg d Adr.KNL_MAC_TXHEAD =
      w32 (((rg s.dev Adr.KNL_MAC_TXHEAD).toNat + 1) % ringSize s.dev Adr.KNL_MAC_TXRING % 1024) ∧ .plic 3 ∈ d.outs) ∧
  (∀ (s : State) (l : List Byte),
    let head := (rg s.dev Adr.KNL_MAC_RXHEAD).toNat
    let n := ringSize s.dev Adr.KNL_MAC_RXRING
    let a := ringAt s.dev Adr.KNL_MAC_RXRING head
    (macRuns s.dev = true → head % n ≠ (rg s.dev Adr.KNL_MAC_RXTAIL).toNat % n → bit (descW s.dev a 0) 31 = true →
      l.length ≤ bits (descW s.dev a 0) 10 0 → Does (.rxFrame l true) s fun d =>
        rg d Adr.KNL_MAC_RXHEAD = w32 ((head + 1) % n % 1024) ∧ .plic 2 ∈ d.outs) ∧
    (∀ p, macRuns s.dev = true → nstopPayload s.dev l = some p → p.length ≠ 16 → Does (.rxFrame l true) s fun d =>
      d.muz = s.dev.muz ∧ fd d Adr.KNL_NSTOP_CFG 31 16 = min 65535 (fd s.dev Adr.KNL_NSTOP_CFG 31 16 + 1)) ∧
    Does (.rxFrame l false) s (fun d => d.knl = s.dev.knl ∧ d.regs = s.dev.regs)) ∧
  (∀ (s : State) (w0 w1 w2 w3 : W32), macRuns s.dev = true → 0 < fd s.dev Adr.KNL_NSTOP_CFG 15 0 →
    let good : Prop := bits w0 31 16 = 0x57E1 ∧ w2 = rg s.dev Adr.KNL_NSTOP_KEY0 ∧ w3 = rg s.dev Adr.KNL_NSTOP_KEY1 ∧
      w1 ≠ rg s.dev Adr.KNL_NSTOP_SEQ ∧ (w1 - rg s.dev Adr.KNL_NSTOP_SEQ).toNat < 2 ^ 31
    (good → Does (.netstopDatagram w0 w1 w2 w3) s fun d => rg d Adr.KNL_NSTOP_SEQ = w1 ∧
      d.muz.netstop = (bit w0 0 || (s.dev.muz.netstop && !bit w0 1)) ∧
      (bit w0 0 = true → s.dev.muz.netstop = false → d.exp.run = none ∧ d.exp.halted = true) ∧
      (d.muz.netstop = true → s.dev.muz.pulses = [] → d.muz.muzzled = true)) ∧
    (¬good → Does (.netstopDatagram w0 w1 w2 w3) s fun d => rg d Adr.KNL_NSTOP_SEQ = rg s.dev Adr.KNL_NSTOP_SEQ ∧
      d.muz = s.dev.muz ∧ fd d Adr.KNL_NSTOP_CFG 31 16 = min 65535 (fd s.dev Adr.KNL_NSTOP_CFG 31 16 + 1))) ∧
  (∀ (s : State) (req : Req) (v : W32), acc s.dev req Adr.KNL_NSTOP_CMD = true → Does (.nstopClr req v) s fun d =>
    d.muz.netstop = false ∧ (muzCause { s.dev with muz := { s.dev.muz with netstop := false } } = false → d.muz.muzzled = false)) ∧
  (∀ (s : State) (up : Bool), pdOn s.dev 0 = true → Does (.managementNetworkLink up) s fun d =>
    bit (rg d Adr.KNL_MAC_CFG) 31 = up ∧ d.muz = s.dev.muz) ∧
  (∀ (d : Dev) (r : Report) (rest : List Report), d.glb.reports = r :: rest → macRuns d = true → fd d Adr.KNL_RPT_PORT 15 0 ≠ 0 →
    let id := (d.knl.rptLast.elim 0 fun p => p + 1) % 65536
    let e := reportSend d
    e.glb.reports = rest ∧ e.knl.rptLast = some id ∧
      (∃ l, .mac l ∈ e.outs ∧ (l.drop 42).take 40 = reportPayload d r id) ∧
      (d.tim.tsq.length < 16 → d.knl.rptLast = none → ∃ x, e.tim.tsq = d.tim.tsq ++ [(id, x)]))

/-- Requests switch power domains, waits are kept, and clocks are lost, return and lock. A granted request on a domain from 2
on, its POLICY not following GLR, starts the switch that its state allows, changes nothing that is already so, and waits
while the domain switches; POLICY is stored; domains 0 and 1 stand. A switch that ends leaves the domain on with its PLL
locked, or off. Both memory domains enter self-refresh when the idle conditions hold, and leave it. REFCLK lost unlocks
every PLL and latches REFCLK_LOST and TIME_UNTRUSTED; its return goes on with a sequence that waits for it; a PLL that loses
lock latches PLL_UNLOCK, and one that was started locks again. Readings of the model that clauses of it rest on: log entries
55, 90, 92. Completion (exec answers a next state with its effect): pdReqOn, pdReqOff, pdReqSelfRefresh, pdSwitchDone,
pmuMemidle, selfRefreshExit, refclkLost, refclkReturn, pllUnlock, pllLock. Rests on: R672, R673, R674, R675, R676, R678,
R679, R683, R684, R687, R688, R689. -/
def Obligations.PowerDomainsAndClocksSwitch : Prop :=
  (∀ (s : State) (req : Req) (n : Nat) (v : W32), n < 14 → s.dev.pmu.pd.length = 14 →
    acc s.dev req (Adr.PMU_PD n) = true → bits v 5 4 ≠ 2 →
    let was := pdState s.dev n
    let waits (q : Nat) (d : Dev) : Prop :=
      nth d.pmu.pd n {} = { nth s.dev.pmu.pd n {} with wait := (nth s.dev.pmu.pd n {}).wait ++ [q] }
    let asks : List (Instr × Nat) := [(.pdReqOn req n v, 1), (.pdReqOff req n v, 2), (.pdReqSelfRefresh req n v, 3)]
    (∀ c ∈ asks, Does c.1 s fun d => bits (rg d (Adr.PMU_PD n)) 5 4 = bits v 5 4 ∧
      (n < 2 → d.pmu.pd = s.dev.pmu.pd) ∧ (2 ≤ n → was = .switchingOn ∨ was = .switchingOff → waits c.2 d)) ∧
    (2 ≤ n →
      (was = .off → Does (.pdReqOn req n v) s (fun d => pdState d n = .switchingOn ∧ d.pmu.run.testBit (pllOf n) = true) ∧
        Does (.pdReqOff req n v) s (fun d => d.pmu.pd = s.dev.pmu.pd) ∧
        Does (.pdReqSelfRefresh req n v) s (fun d => d.pmu.pd = s.dev.pmu.pd)) ∧
      (was = .on → Does (.pdReqOn req n v) s (fun d => d.pmu.pd = s.dev.pmu.pd) ∧
        Does (.pdReqOff req n v) s (fun d => pdState d n = .switchingOff) ∧
        Does (.pdReqSelfRefresh req n v) s (fun d => pdState d n = if n = 9 ∨ n = 10 then .selfRefresh else .on)) ∧
      (was = .selfRefresh →
        Does (.pdReqOn req n v) s (fun d => pdState d n = .switchingOn ∧ (nth d.pmu.pd n {}).fromSr = true) ∧
        Does (.pdReqOff req n v) s (fun d => pdState d n = .switchingOff) ∧
        Does (.pdReqSelfRefresh req n v) s (fun d => d.pmu.pd = s.dev.pmu.pd)))) ∧
  (∀ (s : State) (n : Nat) (fails : List TestFail), n < 14 → s.dev.pmu.pd.length = 14 → (nth s.dev.pmu.pd n {}).wait = [] →
    (pdState s.dev n = .switchingOff → Does (.pdSwitchDone n fails) s fun d => pdState d n = .off) ∧
    (pdState s.dev n = .switchingOn → s.dev.pmu.refclk = true → Does (.pdSwitchDone n fails) s fun d =>
      pdState d n = .on ∧ d.pmu.lock.testBit (pllOf n) = true) ∧
    (pdState s.dev n = .off ∨ pdState s.dev n = .on ∨ pdState s.dev n = .selfRefresh →
      Does (.pdSwitchDone n fails) s fun d => d.pmu = s.dev.pmu)) ∧
  (∀ s : State, s.dev.pmu.pd.length = 14 →
    (pdState s.dev 9 = .on → pdState s.dev 10 = .on → fd s.dev (Adr.PMU_PD 9) 5 4 = 1 → fd s.dev (Adr.PMU_PD 10) 5 4 = 1 →
      bobIdle s.dev = true → dmaBusy s.dev = false → s.dev.bob.migBusy = false → (∀ e ∈ s.dev.engs, e.job = none) →
      s.dev.pmu.seq = .done → Does .pmuMemidle s fun d => pdState d 9 = .selfRefresh ∧ pdState d 10 = .selfRefresh) ∧
    (∀ n, n = 9 ∨ n = 10 → pdState s.dev n = .switchingOn → (nth s.dev.pmu.pd n {}).fromSr = true →
      (nth s.dev.pmu.pd n {}).wait = [] → Does .selfRefreshExit s fun d => pdState d n = .on)) ∧
  (∀ s : State,
    (s.dev.pmu.refclk = true → Does .refclkLost s fun d => d.pmu.refclk = false ∧ d.pmu.aclkRc = true ∧ d.pmu.lock = 0 ∧
      latched d (Page.pmu.base 0) Bit.err_PMU_REFCLK_LOST = true ∧ bit (rg d Adr.TIM_STAT) 31 = true) ∧
    (s.dev.pmu.refclk = false → s.dev.pmu.seq ≠ .off → Does .refclkReturn s fun d => d.pmu.refclk = true ∧
      d.pmu.aclkRc = false ∧ d.pmu.seq = (if s.dev.pmu.seq = .refclk ∧ s.dev.pmu.warn = false then .hlk else s.dev.pmu.seq)) ∧
    (∀ p < 11, s.dev.pmu.refclk = true →
      (s.dev.pmu.lock.testBit p = true → Does (.pllUnlock p) s fun d => d.pmu.lock.testBit p = false ∧
        d.pmu.run = s.dev.pmu.run ∧ d.pmu.pd = s.dev.pmu.pd ∧ latched d (Page.pmu.base 0) Bit.err_PMU_PLL_UNLOCK = true) ∧
      (s.dev.pmu.run.testBit p = true → Does (.pllLock p) s fun d => d.pmu.lock.testBit p = true)))

/-- A domain that does not come on sets PD_FAIL, returns to OFF and is not retried. PD_FAIL of a domain that switches on with no
request waiting leaves it OFF with nothing in progress, and latches PD_FAIL; the other domains stand. Completion (exec
answers a next state with its effect): pdFail. Rests on: R677. -/
def Obligations.DomainThatDoesNotComeOnFails : Prop :=
  ∀ (s : State) (n : Nat), n < 14 → s.dev.pmu.pd.length = 14 → pdState s.dev n = .switchingOn →
    (nth s.dev.pmu.pd n {}).wait = [] → Does (.pdFail n) s fun d =>
      nth d.pmu.pd n {} = { st := .off, fromSr := false, wait := [] } ∧
      latched d (Page.pmu.base 0) Bit.err_PMU_PD_FAIL = true ∧
      ∀ k < 14, k ≠ n → nth d.pmu.pd k {} = nth s.dev.pmu.pd k {}

/-- Power-on, PORST#, warm reset, brown-out and supply warnings leave the state their rules give. POWER_ON and BROWNOUT hold the
block in reset with every output high-impedance and the bobbin lost; PORST and BROWNOUT_RELEASE begin the sequence, waiting
for REFCLK where it is absent and for the end of a supply warning, with RSTCAUSE naming the cause. WRST and a keyed WARM
begin a warm reset once the sequence is done: it muzzles, ends the stripe and drops tickets and transfers; WARM_END shows
its cause and raises WARM_DONE. SUPPLY_WARN shows the rail and, when no warning was in force, muzzles, counts and latches
SUPPLY_WARN; the last rail's release lets WARNING_END end it. Readings of the model that clauses of it rest on: log entries
5, 56, 57. Completion (exec answers a next state with its effect): powerOn, porst, wrst, warm, warmEnd, supplyWarn,
railRelease, warningEnd, brownout, brownoutRelease. Rests on: R433, R652, R691, R692, R694, R695, R696, R697, R700, R701,
R702, R706. -/
def Obligations.ResetsAndSupplyWarningsAct : Prop :=
  (∀ s : State, s.dev.nvm.job = none → Does .powerOn s fun d => d.pmu.seq = .off ∧ d.pins = {} ∧ d.regs = [] ∧ d.hbm = [] ∧
    d.pmu.pd = List.replicate 14 {} ∧ d.exp.queue = [] ∧ d.nvm.copies = s.dev.nvm.copies ∧ d.knl.flash = s.dev.knl.flash) ∧
  (∀ (s : State) (lines : List Nat) (fails : List TestFail), s.dev.pmu.resetRails = 0 →
    let cause := if s.dev.pmu.seq = .off then 1 else 3
    let warned : Bool := (List.range 6).any fun r => s.dev.pmu.warnRails.testBit r
    Does (.porst true lines fails) s (fun d => d.pmu.seq = (if warned then .refclk else .hlk) ∧
      pdState d 1 = (if warned then .off else .switchingOn) ∧ d.knl.away = true ∧
      rg d Adr.PMU_RSTCAUSE = w32 cause ∧ bit (rg d Adr.TIM_STAT) 31 = true) ∧
    Does (.porst false lines fails) s (fun d => d.pmu.seq = .refclk ∧ pdState d 1 = .off ∧ d.knl.away = true ∧
      rg d Adr.PMU_RSTCAUSE = w32 cause ∧ bit (rg d Adr.TIM_STAT) 31 = true)) ∧
  (∀ (s : State) (req : Req) (v : W32),
    let warm (cause : Nat) (d : Dev) : Prop := d.pmu.seq = .warm ∧ d.pmu.warmCause = cause ∧ d.muz.reset = true ∧
      d.exp.run = none ∧ d.exp.queue = [] ∧ d.chans = List.replicate 16 {} ∧ .outputsOff true ∈ d.outs ∧
      (s.dev.muz.pulses = [] → d.muz.muzzled = true)
    (s.dev.pmu.seq = .done → Does .wrst s (warm 4) ∧ (acc s.dev req Adr.PMU_CMD = true → Does (.warm req v) s (warm 5))) ∧
    (s.dev.pmu.seq ≠ .done → Does .wrst s (fun d => d.pmu = s.dev.pmu ∧ d.regs = s.dev.regs) ∧
      Does (.warm req v) s (fun d => d.pmu = s.dev.pmu ∧ d.regs = s.dev.regs))) ∧
  (∀ s : State, s.dev.pmu.seq = .warm → s.dev.pmu.pd.length = 14 → Does .warmEnd s fun d => d.pmu.seq = .done ∧
    d.pmu.ready = true ∧ d.muz.reset = false ∧ rg d Adr.PMU_RSTCAUSE = w32 s.dev.pmu.warmCause ∧
    (∀ n, n = 9 ∨ n = 10 → pdState s.dev n = .selfRefresh → pdState d n = .on) ∧
    pends d (Page.pmu.base 0) Bit.evt_PMU_READY = true ∧ pends d (Page.pmu.base 0) Bit.evt_PMU_WARM_DONE = true) ∧
  (∀ (s : State) (r : Nat), r < 6 →
    (s.dev.pmu.seq ≠ .off → Does (.supplyWarn r) s fun d => d.pmu.warn = true ∧ d.pmu.warnRails.testBit r = true ∧
      bit (rg d Adr.PMU_SUPPLY) (16 + r) = true ∧
      (s.dev.pmu.warn = false → d.muz.supply = true ∧ (s.dev.muz.pulses = [] → d.muz.muzzled = true) ∧
        rg d Adr.PMU_CNT_WARN = rg s.dev Adr.PMU_CNT_WARN + 1 ∧
        latched d (Page.pmu.base 0) Bit.err_PMU_SUPPLY_WARN = true)) ∧
    (s.dev.pmu.warnRails.testBit r = true → Does (.railRelease r) s fun d => d.pmu.warnRails.testBit r = false ∧
      d.pmu = { s.dev.pmu with warnRails := d.pmu.warnRails } ∧ d.muz = s.dev.muz ∧ d.regs = s.dev.regs) ∧
    Does (.brownout r) s (fun d => d.pmu.seq = .off ∧ d.pins = {} ∧ d.hbm = [] ∧ d.pmu.resetRails.testBit r = true ∧
      d.pmu.pd = List.replicate 14 {} ∧
      (r ≠ 0 → s.dev.pmu.aonFell = false → rg d Adr.PMU_RSTCAUSE = rg s.dev Adr.PMU_RSTCAUSE))) ∧
  (∀ s : State, s.dev.pmu.warn = true → s.dev.pmu.warnRails = 0 → Does .warningEnd s fun d =>
    d.pmu.warn = false ∧ d.muz.supply = false) ∧
  (∀ (s : State) (refclk : Bool) (lines : List Nat) (fails : List TestFail), s.dev.pmu.seq = .off →
    s.dev.pmu.resetRails ≠ 0 ∨ s.dev.pmu.aonFell = true → Does (.brownoutRelease refclk lines fails) s fun d =>
      d.pmu.seq = (if refclk then .hlk else .refclk) ∧ d.pmu.resetRails = 0 ∧
      rg d Adr.PMU_RSTCAUSE = w32 (if s.dev.pmu.aonFell then 1 else 256 * s.dev.pmu.firstRail + 2))
end

