-- ==== Sys2Proof/Laws/State.lean ====
section
/-! SUPPORT. What each named update of the block leaves alone: one lemma per field and update, so that no proof unfolds a record
update. -/

namespace Sys2Proof.Machine

/-! ### Words -/

@[simp] theorem wr_bar2 (d : Dev) (a : Nat) (v : W32) : (wr d a v).bar2 = d.bar2 := rfl
@[simp] theorem wr_infoHeld (d : Dev) (a : Nat) (v : W32) : (wr d a v).infoHeld = d.infoHeld := rfl
@[simp] theorem wr_pins (d : Dev) (a : Nat) (v : W32) : (wr d a v).pins = d.pins := rfl
@[simp] theorem wr_outs (d : Dev) (a : Nat) (v : W32) : (wr d a v).outs = d.outs := rfl
@[simp] theorem wr_free (d : Dev) (a : Nat) (v : W32) : (wr d a v).free = d.free := rfl
@[simp] theorem wr_hbm (d : Dev) (a : Nat) (v : W32) : (wr d a v).hbm = d.hbm := rfl
@[simp] theorem wr_poison (d : Dev) (a : Nat) (v : W32) : (wr d a v).poison = d.poison := rfl
@[simp] theorem wr_exp (d : Dev) (a : Nat) (v : W32) : (wr d a v).exp = d.exp := rfl
@[simp] theorem wr_muz (d : Dev) (a : Nat) (v : W32) : (wr d a v).muz = d.muz := rfl
@[simp] theorem wr_glb (d : Dev) (a : Nat) (v : W32) : (wr d a v).glb = d.glb := rfl
@[simp] theorem wr_fcl (d : Dev) (a : Nat) (v : W32) : (wr d a v).fcl = d.fcl := rfl
@[simp] theorem wr_mei (d : Dev) (a : Nat) (v : W32) : (wr d a v).mei = d.mei := rfl
@[simp] theorem wr_hlk (d : Dev) (a : Nat) (v : W32) : (wr d a v).hlk = d.hlk := rfl
@[simp] theorem wr_chans (d : Dev) (a : Nat) (v : W32) : (wr d a v).chans = d.chans := rfl
@[simp] theorem wr_pmu (d : Dev) (a : Nat) (v : W32) : (wr d a v).pmu = d.pmu := rfl
@[simp] theorem wr_stc (d : Dev) (a : Nat) (v : W32) : (wr d a v).stc = d.stc := rfl
@[simp] theorem wr_bob (d : Dev) (a : Nat) (v : W32) : (wr d a v).bob = d.bob := rfl
@[simp] theorem wr_glr (d : Dev) (a : Nat) (v : W32) : (wr d a v).glr = d.glr := rfl
@[simp] theorem wr_tag (d : Dev) (a : Nat) (v : W32) : (wr d a v).tag = d.tag := rfl
@[simp] theorem wr_cdcHi (d : Dev) (a : Nat) (v : W32) : (wr d a v).cdcHi = d.cdcHi := rfl
@[simp] theorem wr_chks (d : Dev) (a : Nat) (v : W32) : (wr d a v).chks = d.chks := rfl
@[simp] theorem wr_testing (d : Dev) (a : Nat) (v : W32) : (wr d a v).testing = d.testing := rfl
@[simp] theorem wr_secs (d : Dev) (a : Nat) (v : W32) : (wr d a v).secs = d.secs := rfl
@[simp] theorem wr_spl (d : Dev) (a : Nat) (v : W32) : (wr d a v).spl = d.spl := rfl
@[simp] theorem wr_xpd (d : Dev) (a : Nat) (v : W32) : (wr d a v).xpd = d.xpd := rfl
@[simp] theorem wr_engs (d : Dev) (a : Nat) (v : W32) : (wr d a v).engs = d.engs := rfl
@[simp] theorem wr_ver (d : Dev) (a : Nat) (v : W32) : (wr d a v).ver = d.ver := rfl
@[simp] theorem wr_nvm (d : Dev) (a : Nat) (v : W32) : (wr d a v).nvm = d.nvm := rfl
@[simp] theorem wr_knl (d : Dev) (a : Nat) (v : W32) : (wr d a v).knl = d.knl := rfl
@[simp] theorem wr_tim (d : Dev) (a : Nat) (v : W32) : (wr d a v).tim = d.tim := rfl
@[simp] theorem wr_hel (d : Dev) (a : Nat) (v : W32) : (wr d a v).hel = d.hel := rfl

@[simp] theorem setFd_bar2 (d : Dev) (a hi lo v : Nat) : (setFd d a hi lo v).bar2 = d.bar2 := rfl
@[simp] theorem setFd_infoHeld (d : Dev) (a hi lo v : Nat) : (setFd d a hi lo v).infoHeld = d.infoHeld := rfl
@[simp] theorem setFd_pins (d : Dev) (a hi lo v : Nat) : (setFd d a hi lo v).pins = d.pins := rfl
@[simp] theorem setFd_outs (d : Dev) (a hi lo v : Nat) : (setFd d a hi lo v).outs = d.outs := rfl
@[simp] theorem setFd_free (d : Dev) (a hi lo v : Nat) : (setFd d a hi lo v).free = d.free := rfl
@[simp] theorem setFd_hbm (d : Dev) (a hi lo v : Nat) : (setFd d a hi lo v).hbm = d.hbm := rfl
@[simp] theorem setFd_poison (d : Dev) (a hi lo v : Nat) : (setFd d a hi lo v).poison = d.poison := rfl
@[simp] theorem setFd_exp (d : Dev) (a hi lo v : Nat) : (setFd d a hi lo v).exp = d.exp := rfl
@[simp] theorem setFd_muz (d : Dev) (a hi lo v : Nat) : (setFd d a hi lo v).muz = d.muz := rfl
@[simp] theorem setFd_glb (d : Dev) (a hi lo v : Nat) : (setFd d a hi lo v).glb = d.glb := rfl
@[simp] theorem setFd_fcl (d : Dev) (a hi lo v : Nat) : (setFd d a hi lo v).fcl = d.fcl := rfl
@[simp] theorem setFd_mei (d : Dev) (a hi lo v : Nat) : (setFd d a hi lo v).mei = d.mei := rfl
@[simp] theorem setFd_hlk (d : Dev) (a hi lo v : Nat) : (setFd d a hi lo v).hlk = d.hlk := rfl
@[simp] theorem setFd_chans (d : Dev) (a hi lo v : Nat) : (setFd d a hi lo v).chans = d.chans := rfl
@[simp] theorem setFd_pmu (d : Dev) (a hi lo v : Nat) : (setFd d a hi lo v).pmu = d.pmu := rfl
@[simp] theorem setFd_stc (d : Dev) (a hi lo v : Nat) : (setFd d a hi lo v).stc = d.stc := rfl
@[simp] theorem setFd_bob (d : Dev) (a hi lo v : Nat) : (setFd d a hi lo v).bob = d.bob := rfl
@[simp] theorem setFd_glr (d : Dev) (a hi lo v : Nat) : (setFd d a hi lo v).glr = d.glr := rfl
@[simp] theorem setFd_tag (d : Dev) (a hi lo v : Nat) : (setFd d a hi lo v).tag = d.tag := rfl
@[simp] theorem setFd_cdcHi (d : Dev) (a hi lo v : Nat) : (setFd d a hi lo v).cdcHi = d.cdcHi := rfl
@[simp] theorem setFd_chks (d : Dev) (a hi lo v : Nat) : (setFd d a hi lo v).chks = d.chks := rfl
@[simp] theorem setFd_testing (d : Dev) (a hi lo v : Nat) : (setFd d a hi lo v).testing = d.testing := rfl
@[simp] theorem setFd_secs (d : Dev) (a hi lo v : Nat) : (setFd d a hi lo v).secs = d.secs := rfl
@[simp] theorem setFd_spl (d : Dev) (a hi lo v : Nat) : (setFd d a hi lo v).spl = d.spl := rfl
@[simp] theorem setFd_xpd (d : Dev) (a hi lo v : Nat) : (setFd d a hi lo v).xpd = d.xpd := rfl
@[simp] theorem setFd_engs (d : Dev) (a hi lo v : Nat) : (setFd d a hi lo v).engs = d.engs := rfl
@[simp] theorem setFd_ver (d : Dev) (a hi lo v : Nat) : (setFd d a hi lo v).ver = d.ver := rfl
@[simp] theorem setFd_nvm (d : Dev) (a hi lo v : Nat) : (setFd d a hi lo v).nvm = d.nvm := rfl
@[simp] theorem setFd_knl (d : Dev) (a hi lo v : Nat) : (setFd d a hi lo v).knl = d.knl := rfl
@[simp] theorem setFd_tim (d : Dev) (a hi lo v : Nat) : (setFd d a hi lo v).tim = d.tim := rfl
@[simp] theorem setFd_hel (d : Dev) (a hi lo v : Nat) : (setFd d a hi lo v).hel = d.hel := rfl

@[simp] theorem addReg_bar2 (d : Dev) (a n : Nat) : (addReg d a n).bar2 = d.bar2 := rfl
@[simp] theorem addReg_infoHeld (d : Dev) (a n : Nat) : (addReg d a n).infoHeld = d.infoHeld := rfl
@[simp] theorem addReg_pins (d : Dev) (a n : Nat) : (addReg d a n).pins = d.pins := rfl
@[simp] theorem addReg_outs (d : Dev) (a n : Nat) : (addReg d a n).outs = d.outs := rfl
@[simp] theorem addReg_free (d : Dev) (a n : Nat) : (addReg d a n).free = d.free := rfl
@[simp] theorem addReg_hbm (d : Dev) (a n : Nat) : (addReg d a n).hbm = d.hbm := rfl
@[simp] theorem addReg_poison (d : Dev) (a n : Nat) : (addReg d a n).poison = d.poison := rfl
@[simp] theorem addReg_exp (d : Dev) (a n : Nat) : (addReg d a n).exp = d.exp := rfl
@[simp] theorem addReg_muz (d : Dev) (a n : Nat) : (addReg d a n).muz = d.muz := rfl
@[simp] theorem addReg_glb (d : Dev) (a n : Nat) : (addReg d a n).glb = d.glb := rfl
@[simp] theorem addReg_fcl (d : Dev) (a n : Nat) : (addReg d a n).fcl = d.fcl := rfl
@[simp] theorem addReg_mei (d : Dev) (a n : Nat) : (addReg d a n).mei = d.mei := rfl
@[simp] theorem addReg_hlk (d : Dev) (a n : Nat) : (addReg d a n).hlk = d.hlk := rfl
@[simp] theorem addReg_chans (d : Dev) (a n : Nat) : (addReg d a n).chans = d.chans := rfl
@[simp] theorem addReg_pmu (d : Dev) (a n : Nat) : (addReg d a n).pmu = d.pmu := rfl
@[simp] theorem addReg_stc (d : Dev) (a n : Nat) : (addReg d a n).stc = d.stc := rfl
@[simp] theorem addReg_bob (d : Dev) (a n : Nat) : (addReg d a n).bob = d.bob := rfl
@[simp] theorem addReg_glr (d : Dev) (a n : Nat) : (addReg d a n).glr = d.glr := rfl
@[simp] theorem addReg_tag (d : Dev) (a n : Nat) : (addReg d a n).tag = d.tag := rfl
@[simp] theorem addReg_cdcHi (d : Dev) (a n : Nat) : (addReg d a n).cdcHi = d.cdcHi := rfl
@[simp] theorem addReg_chks (d : Dev) (a n : Nat) : (addReg d a n).chks = d.chks := rfl
@[simp] theorem addReg_testing (d : Dev) (a n : Nat) : (addReg d a n).testing = d.testing := rfl
@[simp] theorem addReg_secs (d : Dev) (a n : Nat) : (addReg d a n).secs = d.secs := rfl
@[simp] theorem addReg_spl (d : Dev) (a n : Nat) : (addReg d a n).spl = d.spl := rfl
@[simp] theorem addReg_xpd (d : Dev) (a n : Nat) : (addReg d a n).xpd = d.xpd := rfl
@[simp] theorem addReg_engs (d : Dev) (a n : Nat) : (addReg d a n).engs = d.engs := rfl
@[simp] theorem addReg_ver (d : Dev) (a n : Nat) : (addReg d a n).ver = d.ver := rfl
@[simp] theorem addReg_nvm (d : Dev) (a n : Nat) : (addReg d a n).nvm = d.nvm := rfl
@[simp] theorem addReg_knl (d : Dev) (a n : Nat) : (addReg d a n).knl = d.knl := rfl
@[simp] theorem addReg_tim (d : Dev) (a n : Nat) : (addReg d a n).tim = d.tim := rfl
@[simp] theorem addReg_hel (d : Dev) (a n : Nat) : (addReg d a n).hel = d.hel := rfl

@[simp] theorem inc_bar2 (d : Dev) (a : Nat) : (inc d a).bar2 = d.bar2 := rfl
@[simp] theorem inc_infoHeld (d : Dev) (a : Nat) : (inc d a).infoHeld = d.infoHeld := rfl
@[simp] theorem inc_pins (d : Dev) (a : Nat) : (inc d a).pins = d.pins := rfl
@[simp] theorem inc_outs (d : Dev) (a : Nat) : (inc d a).outs = d.outs := rfl
@[simp] theorem inc_free (d : Dev) (a : Nat) : (inc d a).free = d.free := rfl
@[simp] theorem inc_hbm (d : Dev) (a : Nat) : (inc d a).hbm = d.hbm := rfl
@[simp] theorem inc_poison (d : Dev) (a : Nat) : (inc d a).poison = d.poison := rfl
@[simp] theorem inc_exp (d : Dev) (a : Nat) : (inc d a).exp = d.exp := rfl
@[simp] theorem inc_muz (d : Dev) (a : Nat) : (inc d a).muz = d.muz := rfl
@[simp] theorem inc_glb (d : Dev) (a : Nat) : (inc d a).glb = d.glb := rfl
@[simp] theorem inc_fcl (d : Dev) (a : Nat) : (inc d a).fcl = d.fcl := rfl
@[simp] theorem inc_mei (d : Dev) (a : Nat) : (inc d a).mei = d.mei := rfl
@[simp] theorem inc_hlk (d : Dev) (a : Nat) : (inc d a).hlk = d.hlk := rfl
@[simp] theorem inc_chans (d : Dev) (a : Nat) : (inc d a).chans = d.chans := rfl
@[simp] theorem inc_pmu (d : Dev) (a : Nat) : (inc d a).pmu = d.pmu := rfl
@[simp] theorem inc_stc (d : Dev) (a : Nat) : (inc d a).stc = d.stc := rfl
@[simp] theorem inc_bob (d : Dev) (a : Nat) : (inc d a).bob = d.bob := rfl
@[simp] theorem inc_glr (d : Dev) (a : Nat) : (inc d a).glr = d.glr := rfl
@[simp] theorem inc_tag (d : Dev) (a : Nat) : (inc d a).tag = d.tag := rfl
@[simp] theorem inc_cdcHi (d : Dev) (a : Nat) : (inc d a).cdcHi = d.cdcHi := rfl
@[simp] theorem inc_chks (d : Dev) (a : Nat) : (inc d a).chks = d.chks := rfl
@[simp] theorem inc_testing (d : Dev) (a : Nat) : (inc d a).testing = d.testing := rfl
@[simp] theorem inc_secs (d : Dev) (a : Nat) : (inc d a).secs = d.secs := rfl
@[simp] theorem inc_spl (d : Dev) (a : Nat) : (inc d a).spl = d.spl := rfl
@[simp] theorem inc_xpd (d : Dev) (a : Nat) : (inc d a).xpd = d.xpd := rfl
@[simp] theorem inc_engs (d : Dev) (a : Nat) : (inc d a).engs = d.engs := rfl
@[simp] theorem inc_ver (d : Dev) (a : Nat) : (inc d a).ver = d.ver := rfl
@[simp] theorem inc_nvm (d : Dev) (a : Nat) : (inc d a).nvm = d.nvm := rfl
@[simp] theorem inc_knl (d : Dev) (a : Nat) : (inc d a).knl = d.knl := rfl
@[simp] theorem inc_tim (d : Dev) (a : Nat) : (inc d a).tim = d.tim := rfl
@[simp] theorem inc_hel (d : Dev) (a : Nat) : (inc d a).hel = d.hel := rfl

/-! ### What is put out -/

@[simp] theorem emit_regs (d : Dev) (o : Out) : (emit d o).regs = d.regs := rfl
@[simp] theorem emit_bar2 (d : Dev) (o : Out) : (emit d o).bar2 = d.bar2 := rfl
@[simp] theorem emit_infoHeld (d : Dev) (o : Out) : (emit d o).infoHeld = d.infoHeld := rfl
@[simp] theorem emit_pins (d : Dev) (o : Out) : (emit d o).pins = d.pins := rfl
@[simp] theorem emit_free (d : Dev) (o : Out) : (emit d o).free = d.free := rfl
@[simp] theorem emit_hbm (d : Dev) (o : Out) : (emit d o).hbm = d.hbm := rfl
@[simp] theorem emit_poison (d : Dev) (o : Out) : (emit d o).poison = d.poison := rfl
@[simp] theorem emit_exp (d : Dev) (o : Out) : (emit d o).exp = d.exp := rfl
@[simp] theorem emit_muz (d : Dev) (o : Out) : (emit d o).muz = d.muz := rfl
@[simp] theorem emit_glb (d : Dev) (o : Out) : (emit d o).glb = d.glb := rfl
@[simp] theorem emit_fcl (d : Dev) (o : Out) : (emit d o).fcl = d.fcl := rfl
@[simp] theorem emit_mei (d : Dev) (o : Out) : (emit d o).mei = d.mei := rfl
@[simp] theorem emit_hlk (d : Dev) (o : Out) : (emit d o).hlk = d.hlk := rfl
@[simp] theorem emit_chans (d : Dev) (o : Out) : (emit d o).chans = d.chans := rfl
@[simp] theorem emit_pmu (d : Dev) (o : Out) : (emit d o).pmu = d.pmu := rfl
@[simp] theorem emit_stc (d : Dev) (o : Out) : (emit d o).stc = d.stc := rfl
@[simp] theorem emit_bob (d : Dev) (o : Out) : (emit d o).bob = d.bob := rfl
@[simp] theorem emit_glr (d : Dev) (o : Out) : (emit d o).glr = d.glr := rfl
@[simp] theorem emit_tag (d : Dev) (o : Out) : (emit d o).tag = d.tag := rfl
@[simp] theorem emit_cdcHi (d : Dev) (o : Out) : (emit d o).cdcHi = d.cdcHi := rfl
@[simp] theorem emit_chks (d : Dev) (o : Out) : (emit d o).chks = d.chks := rfl
@[simp] theorem emit_testing (d : Dev) (o : Out) : (emit d o).testing = d.testing := rfl
@[simp] theorem emit_secs (d : Dev) (o : Out) : (emit d o).secs = d.secs := rfl
@[simp] theorem emit_spl (d : Dev) (o : Out) : (emit d o).spl = d.spl := rfl
@[simp] theorem emit_xpd (d : Dev) (o : Out) : (emit d o).xpd = d.xpd := rfl
@[simp] theorem emit_engs (d : Dev) (o : Out) : (emit d o).engs = d.engs := rfl
@[simp] theorem emit_ver (d : Dev) (o : Out) : (emit d o).ver = d.ver := rfl
@[simp] theorem emit_nvm (d : Dev) (o : Out) : (emit d o).nvm = d.nvm := rfl
@[simp] theorem emit_knl (d : Dev) (o : Out) : (emit d o).knl = d.knl := rfl
@[simp] theorem emit_tim (d : Dev) (o : Out) : (emit d o).tim = d.tim := rfl
@[simp] theorem emit_hel (d : Dev) (o : Out) : (emit d o).hel = d.hel := rfl

@[simp] theorem emitAll_regs (d : Dev) (os : List Out) : (emitAll d os).regs = d.regs := by
  induction os generalizing d with
  | nil => rfl
  | cons o os ih => exact ih (emit d o)
@[simp] theorem emitAll_bar2 (d : Dev) (os : List Out) : (emitAll d os).bar2 = d.bar2 := by
  induction os generalizing d with
  | nil => rfl
  | cons o os ih => exact ih (emit d o)
@[simp] theorem emitAll_infoHeld (d : Dev) (os : List Out) : (emitAll d os).infoHeld = d.infoHeld := by
  induction os generalizing d with
  | nil => rfl
  | cons o os ih => exact ih (emit d o)
@[simp] theorem emitAll_pins (d : Dev) (os : List Out) : (emitAll d os).pins = d.pins := by
  induction os generalizing d with
  | nil => rfl
  | cons o os ih => exact ih (emit d o)
@[simp] theorem emitAll_free (d : Dev) (os : List Out) : (emitAll d os).free = d.free := by
  induction os generalizing d with
  | nil => rfl
  | cons o os ih => exact ih (emit d o)
@[simp] theorem emitAll_hbm (d : Dev) (os : List Out) : (emitAll d os).hbm = d.hbm := by
  induction os generalizing d with
  | nil => rfl
  | cons o os ih => exact ih (emit d o)
@[simp] theorem emitAll_poison (d : Dev) (os : List Out) : (emitAll d os).poison = d.poison := by
  induction os generalizing d with
  | nil => rfl
  | cons o os ih => exact ih (emit d o)
@[simp] theorem emitAll_exp (d : Dev) (os : List Out) : (emitAll d os).exp = d.exp := by
  induction os generalizing d with
  | nil => rfl
  | cons o os ih => exact ih (emit d o)
@[simp] theorem emitAll_muz (d : Dev) (os : List Out) : (emitAll d os).muz = d.muz := by
  induction os generalizing d with
  | nil => rfl
  | cons o os ih => exact ih (emit d o)
@[simp] theorem emitAll_glb (d : Dev) (os : List Out) : (emitAll d os).glb = d.glb := by
  induction os generalizing d with
  | nil => rfl
  | cons o os ih => exact ih (emit d o)
@[simp] theorem emitAll_fcl (d : Dev) (os : List Out) : (emitAll d os).fcl = d.fcl := by
  induction os generalizing d with
  | nil => rfl
  | cons o os ih => exact ih (emit d o)
@[simp] theorem emitAll_mei (d : Dev) (os : List Out) : (emitAll d os).mei = d.mei := by
  induction os generalizing d with
  | nil => rfl
  | cons o os ih => exact ih (emit d o)
@[simp] theorem emitAll_hlk (d : Dev) (os : List Out) : (emitAll d os).hlk = d.hlk := by
  induction os generalizing d with
  | nil => rfl
  | cons o os ih => exact ih (emit d o)
@[simp] theorem emitAll_chans (d : Dev) (os : List Out) : (emitAll d os).chans = d.chans := by
  induction os generalizing d with
  | nil => rfl
  | cons o os ih => exact ih (emit d o)
@[simp] theorem emitAll_pmu (d : Dev) (os : List Out) : (emitAll d os).pmu = d.pmu := by
  induction os generalizing d with
  | nil => rfl
  | cons o os ih => exact ih (emit d o)
@[simp] theorem emitAll_stc (d : Dev) (os : List Out) : (emitAll d os).stc = d.stc := by
  induction os generalizing d with
  | nil => rfl
  | cons o os ih => exact ih (emit d o)
@[simp] theorem emitAll_bob (d : Dev) (os : List Out) : (emitAll d os).bob = d.bob := by
  induction os generalizing d with
  | nil => rfl
  | cons o os ih => exact ih (emit d o)
@[simp] theorem emitAll_glr (d : Dev) (os : List Out) : (emitAll d os).glr = d.glr := by
  induction os generalizing d with
  | nil => rfl
  | cons o os ih => exact ih (emit d o)
@[simp] theorem emitAll_tag (d : Dev) (os : List Out) : (emitAll d os).tag = d.tag := by
  induction os generalizing d with
  | nil => rfl
  | cons o os ih => exact ih (emit d o)
@[simp] theorem emitAll_cdcHi (d : Dev) (os : List Out) : (emitAll d os).cdcHi = d.cdcHi := by
  induction os generalizing d with
  | nil => rfl
  | cons o os ih => exact ih (emit d o)
@[simp] theorem emitAll_chks (d : Dev) (os : List Out) : (emitAll d os).chks = d.chks := by
  induction os generalizing d with
  | nil => rfl
  | cons o os ih => exact ih (emit d o)
@[simp] theorem emitAll_testing (d : Dev) (os : List Out) : (emitAll d os).testing = d.testing := by
  induction os generalizing d with
  | nil => rfl
  | cons o os ih => exact ih (emit d o)
@[simp] theorem emitAll_secs (d : Dev) (os : List Out) : (emitAll d os).secs = d.secs := by
  induction os generalizing d with
  | nil => rfl
  | cons o os ih => exact ih (emit d o)
@[simp] theorem emitAll_spl (d : Dev) (os : List Out) : (emitAll d os).spl = d.spl := by
  induction os generalizing d with
  | nil => rfl
  | cons o os ih => exact ih (emit d o)
@[simp] theorem emitAll_xpd (d : Dev) (os : List Out) : (emitAll d os).xpd = d.xpd := by
  induction os generalizing d with
  | nil => rfl
  | cons o os ih => exact ih (emit d o)
@[simp] theorem emitAll_engs (d : Dev) (os : List Out) : (emitAll d os).engs = d.engs := by
  induction os generalizing d with
  | nil => rfl
  | cons o os ih => exact ih (emit d o)
@[simp] theorem emitAll_ver (d : Dev) (os : List Out) : (emitAll d os).ver = d.ver := by
  induction os generalizing d with
  | nil => rfl
  | cons o os ih => exact ih (emit d o)
@[simp] theorem emitAll_nvm (d : Dev) (os : List Out) : (emitAll d os).nvm = d.nvm := by
  induction os generalizing d with
  | nil => rfl
  | cons o os ih => exact ih (emit d o)
@[simp] theorem emitAll_knl (d : Dev) (os : List Out) : (emitAll d os).knl = d.knl := by
  induction os generalizing d with
  | nil => rfl
  | cons o os ih => exact ih (emit d o)
@[simp] theorem emitAll_tim (d : Dev) (os : List Out) : (emitAll d os).tim = d.tim := by
  induction os generalizing d with
  | nil => rfl
  | cons o os ih => exact ih (emit d o)
@[simp] theorem emitAll_hel (d : Dev) (os : List Out) : (emitAll d os).hel = d.hel := by
  induction os generalizing d with
  | nil => rfl
  | cons o os ih => exact ih (emit d o)

@[simp] theorem drive_regs (d : Dev) : (drive d).regs = d.regs := emitAll_regs d _
@[simp] theorem drive_bar2 (d : Dev) : (drive d).bar2 = d.bar2 := emitAll_bar2 d _
@[simp] theorem drive_infoHeld (d : Dev) : (drive d).infoHeld = d.infoHeld := emitAll_infoHeld d _
@[simp] theorem drive_free (d : Dev) : (drive d).free = d.free := emitAll_free d _
@[simp] theorem drive_hbm (d : Dev) : (drive d).hbm = d.hbm := emitAll_hbm d _
@[simp] theorem drive_poison (d : Dev) : (drive d).poison = d.poison := emitAll_poison d _
@[simp] theorem drive_exp (d : Dev) : (drive d).exp = d.exp := emitAll_exp d _
@[simp] theorem drive_muz (d : Dev) : (drive d).muz = d.muz := emitAll_muz d _
@[simp] theorem drive_glb (d : Dev) : (drive d).glb = d.glb := emitAll_glb d _
@[simp] theorem drive_fcl (d : Dev) : (drive d).fcl = d.fcl := emitAll_fcl d _
@[simp] theorem drive_mei (d : Dev) : (drive d).mei = d.mei := emitAll_mei d _
@[simp] theorem drive_hlk (d : Dev) : (drive d).hlk = d.hlk := emitAll_hlk d _
@[simp] theorem drive_chans (d : Dev) : (drive d).chans = d.chans := emitAll_chans d _
@[simp] theorem drive_pmu (d : Dev) : (drive d).pmu = d.pmu := emitAll_pmu d _
@[simp] theorem drive_stc (d : Dev) : (drive d).stc = d.stc := emitAll_stc d _
@[simp] theorem drive_bob (d : Dev) : (drive d).bob = d.bob := emitAll_bob d _
@[simp] theorem drive_glr (d : Dev) : (drive d).glr = d.glr := emitAll_glr d _
@[simp] theorem drive_tag (d : Dev) : (drive d).tag = d.tag := emitAll_tag d _
@[simp] theorem drive_cdcHi (d : Dev) : (drive d).cdcHi = d.cdcHi := emitAll_cdcHi d _
@[simp] theorem drive_chks (d : Dev) : (drive d).chks = d.chks := emitAll_chks d _
@[simp] theorem drive_testing (d : Dev) : (drive d).testing = d.testing := emitAll_testing d _
@[simp] theorem drive_secs (d : Dev) : (drive d).secs = d.secs := emitAll_secs d _
@[simp] theorem drive_spl (d : Dev) : (drive d).spl = d.spl := emitAll_spl d _
@[simp] theorem drive_xpd (d : Dev) : (drive d).xpd = d.xpd := emitAll_xpd d _
@[simp] theorem drive_engs (d : Dev) : (drive d).engs = d.engs := emitAll_engs d _
@[simp] theorem drive_ver (d : Dev) : (drive d).ver = d.ver := emitAll_ver d _
@[simp] theorem drive_nvm (d : Dev) : (drive d).nvm = d.nvm := emitAll_nvm d _
@[simp] theorem drive_knl (d : Dev) : (drive d).knl = d.knl := emitAll_knl d _
@[simp] theorem drive_tim (d : Dev) : (drive d).tim = d.tim := emitAll_tim d _
@[simp] theorem drive_hel (d : Dev) : (drive d).hel = d.hel := emitAll_hel d _
@[simp] theorem drive_pins (d : Dev) : (drive d).pins = pinLevels d := rfl

/-! ### Free values -/

@[simp] theorem takeFree_regs (d : Dev) : ((takeFree d).2).regs = d.regs := rfl
@[simp] theorem takeFree_bar2 (d : Dev) : ((takeFree d).2).bar2 = d.bar2 := rfl
@[simp] theorem takeFree_infoHeld (d : Dev) : ((takeFree d).2).infoHeld = d.infoHeld := rfl
@[simp] theorem takeFree_pins (d : Dev) : ((takeFree d).2).pins = d.pins := rfl
@[simp] theorem takeFree_outs (d : Dev) : ((takeFree d).2).outs = d.outs := rfl
@[simp] theorem takeFree_hbm (d : Dev) : ((takeFree d).2).hbm = d.hbm := rfl
@[simp] theorem takeFree_poison (d : Dev) : ((takeFree d).2).poison = d.poison := rfl
@[simp] theorem takeFree_exp (d : Dev) : ((takeFree d).2).exp = d.exp := rfl
@[simp] theorem takeFree_muz (d : Dev) : ((takeFree d).2).muz = d.muz := rfl
@[simp] theorem takeFree_glb (d : Dev) : ((takeFree d).2).glb = d.glb := rfl
@[simp] theorem takeFree_fcl (d : Dev) : ((takeFree d).2).fcl = d.fcl := rfl
@[simp] theorem takeFree_mei (d : Dev) : ((takeFree d).2).mei = d.mei := rfl
@[simp] theorem takeFree_hlk (d : Dev) : ((takeFree d).2).hlk = d.hlk := rfl
@[simp] theorem takeFree_chans (d : Dev) : ((takeFree d).2).chans = d.chans := rfl
@[simp] theorem takeFree_pmu (d : Dev) : ((takeFree d).2).pmu = d.pmu := rfl
@[simp] theorem takeFree_stc (d : Dev) : ((takeFree d).2).stc = d.stc := rfl
@[simp] theorem takeFree_bob (d : Dev) : ((takeFree d).2).bob = d.bob := rfl
@[simp] theorem takeFree_glr (d : Dev) : ((takeFree d).2).glr = d.glr := rfl
@[simp] theorem takeFree_tag (d : Dev) : ((takeFree d).2).tag = d.tag := rfl
@[simp] theorem takeFree_cdcHi (d : Dev) : ((takeFree d).2).cdcHi = d.cdcHi := rfl
@[simp] theorem takeFree_chks (d : Dev) : ((takeFree d).2).chks = d.chks := rfl
@[simp] theorem takeFree_testing (d : Dev) : ((takeFree d).2).testing = d.testing := rfl
@[simp] theorem takeFree_secs (d : Dev) : ((takeFree d).2).secs = d.secs := rfl
@[simp] theorem takeFree_spl (d : Dev) : ((takeFree d).2).spl = d.spl := rfl
@[simp] theorem takeFree_xpd (d : Dev) : ((takeFree d).2).xpd = d.xpd := rfl
@[simp] theorem takeFree_engs (d : Dev) : ((takeFree d).2).engs = d.engs := rfl
@[simp] theorem takeFree_ver (d : Dev) : ((takeFree d).2).ver = d.ver := rfl
@[simp] theorem takeFree_nvm (d : Dev) : ((takeFree d).2).nvm = d.nvm := rfl
@[simp] theorem takeFree_knl (d : Dev) : ((takeFree d).2).knl = d.knl := rfl
@[simp] theorem takeFree_tim (d : Dev) : ((takeFree d).2).tim = d.tim := rfl
@[simp] theorem takeFree_hel (d : Dev) : ((takeFree d).2).hel = d.hel := rfl

/-! ### Events -/

@[simp] theorem sendMsix_regs (d : Dev) (v : Nat) : (sendMsix d v).regs = d.regs := by
  unfold sendMsix; split
  · rfl
  · split <;> rfl
@[simp] theorem sendMsix_bar2 (d : Dev) (v : Nat) : (sendMsix d v).bar2 = d.bar2 := by
  unfold sendMsix; split
  · rfl
  · split <;> rfl
@[simp] theorem sendMsix_infoHeld (d : Dev) (v : Nat) : (sendMsix d v).infoHeld = d.infoHeld := by
  unfold sendMsix; split
  · rfl
  · split <;> rfl
@[simp] theorem sendMsix_pins (d : Dev) (v : Nat) : (sendMsix d v).pins = d.pins := by
  unfold sendMsix; split
  · rfl
  · split <;> rfl
@[simp] theorem sendMsix_free (d : Dev) (v : Nat) : (sendMsix d v).free = d.free := by
  unfold sendMsix; split
  · rfl
  · split <;> rfl
@[simp] theorem sendMsix_hbm (d : Dev) (v : Nat) : (sendMsix d v).hbm = d.hbm := by
  unfold sendMsix; split
  · rfl
  · split <;> rfl
@[simp] theorem sendMsix_poison (d : Dev) (v : Nat) : (sendMsix d v).poison = d.poison := by
  unfold sendMsix; split
  · rfl
  · split <;> rfl
@[simp] theorem sendMsix_exp (d : Dev) (v : Nat) : (sendMsix d v).exp = d.exp := by
  unfold sendMsix; split
  · rfl
  · split <;> rfl
@[simp] theorem sendMsix_muz (d : Dev) (v : Nat) : (sendMsix d v).muz = d.muz := by
  unfold sendMsix; split
  · rfl
  · split <;> rfl
@[simp] theorem sendMsix_glb (d : Dev) (v : Nat) : (sendMsix d v).glb = d.glb := by
  unfold sendMsix; split
  · rfl
  · split <;> rfl
@[simp] theorem sendMsix_fcl (d : Dev) (v : Nat) : (sendMsix d v).fcl = d.fcl := by
  unfold sendMsix; split
  · rfl
  · split <;> rfl
@[simp] theorem sendMsix_mei (d : Dev) (v : Nat) : (sendMsix d v).mei = d.mei := by
  unfold sendMsix; split
  · rfl
  · split <;> rfl
@[simp] theorem sendMsix_chans (d : Dev) (v : Nat) : (sendMsix d v).chans = d.chans := by
  unfold sendMsix; split
  · rfl
  · split <;> rfl
@[simp] theorem sendMsix_pmu (d : Dev) (v : Nat) : (sendMsix d v).pmu = d.pmu := by
  unfold sendMsix; split
  · rfl
  · split <;> rfl
@[simp] theorem sendMsix_stc (d : Dev) (v : Nat) : (sendMsix d v).stc = d.stc := by
  unfold sendMsix; split
  · rfl
  · split <;> rfl
@[simp] theorem sendMsix_bob (d : Dev) (v : Nat) : (sendMsix d v).bob = d.bob := by
  unfold sendMsix; split
  · rfl
  · split <;> rfl
@[simp] theorem sendMsix_glr (d : Dev) (v : Nat) : (sendMsix d v).glr = d.glr := by
  unfold sendMsix; split
  · rfl
  · split <;> rfl
@[simp] theorem sendMsix_tag (d : Dev) (v : Nat) : (sendMsix d v).tag = d.tag := by
  unfold sendMsix; split
  · rfl
  · split <;> rfl
@[simp] theorem sendMsix_cdcHi (d : Dev) (v : Nat) : (sendMsix d v).cdcHi = d.cdcHi := by
  unfold sendMsix; split
  · rfl
  · split <;> rfl
@[simp] theorem sendMsix_chks (d : Dev) (v : Nat) : (sendMsix d v).chks = d.chks := by
  unfold sendMsix; split
  · rfl
  · split <;> rfl
@[simp] theorem sendMsix_testing (d : Dev) (v : Nat) : (sendMsix d v).testing = d.testing := by
  unfold sendMsix; split
  · rfl
  · split <;> rfl
@[simp] theorem sendMsix_secs (d : Dev) (v : Nat) : (sendMsix d v).secs = d.secs := by
  unfold sendMsix; split
  · rfl
  · split <;> rfl
@[simp] theorem sendMsix_spl (d : Dev) (v : Nat) : (sendMsix d v).spl = d.spl := by
  unfold sendMsix; split
  · rfl
  · split <;> rfl
@[simp] theorem sendMsix_xpd (d : Dev) (v : Nat) : (sendMsix d v).xpd = d.xpd := by
  unfold sendMsix; split
  · rfl
  · split <;> rfl
@[simp] theorem sendMsix_engs (d : Dev) (v : Nat) : (sendMsix d v).engs = d.engs := by
  unfold sendMsix; split
  · rfl
  · split <;> rfl
@[simp] theorem sendMsix_ver (d : Dev) (v : Nat) : (sendMsix d v).ver = d.ver := by
  unfold sendMsix; split
  · rfl
  · split <;> rfl
@[simp] theorem sendMsix_nvm (d : Dev) (v : Nat) : (sendMsix d v).nvm = d.nvm := by
  unfold sendMsix; split
  · rfl
  · split <;> rfl
@[simp] theorem sendMsix_knl (d : Dev) (v : Nat) : (sendMsix d v).knl = d.knl := by
  unfold sendMsix; split
  · rfl
  · split <;> rfl
@[simp] theorem sendMsix_tim (d : Dev) (v : Nat) : (sendMsix d v).tim = d.tim := by
  unfold sendMsix; split
  · rfl
  · split <;> rfl
@[simp] theorem sendMsix_hel (d : Dev) (v : Nat) : (sendMsix d v).hel = d.hel := by
  unfold sendMsix; split
  · rfl
  · split <;> rfl

@[simp] theorem evt_bar2 (d : Dev) (base b : Nat) : (evt d base b).bar2 = d.bar2 := by
  unfold evt; dsimp only; split
  · simp only [sendMsix_bar2, wr_bar2]
  · rfl
@[simp] theorem evt_infoHeld (d : Dev) (base b : Nat) : (evt d base b).infoHeld = d.infoHeld := by
  unfold evt; dsimp only; split
  · simp only [sendMsix_infoHeld, wr_infoHeld]
  · rfl
@[simp] theorem evt_pins (d : Dev) (base b : Nat) : (evt d base b).pins = d.pins := by
  unfold evt; dsimp only; split
  · simp only [sendMsix_pins, wr_pins]
  · rfl
@[simp] theorem evt_free (d : Dev) (base b : Nat) : (evt d base b).free = d.free := by
  unfold evt; dsimp only; split
  · simp only [sendMsix_free, wr_free]
  · rfl
@[simp] theorem evt_hbm (d : Dev) (base b : Nat) : (evt d base b).hbm = d.hbm := by
  unfold evt; dsimp only; split
  · simp only [sendMsix_hbm, wr_hbm]
  · rfl
@[simp] theorem evt_poison (d : Dev) (base b : Nat) : (evt d base b).poison = d.poison := by
  unfold evt; dsimp only; split
  · simp only [sendMsix_poison, wr_poison]
  · rfl
@[simp] theorem evt_exp (d : Dev) (base b : Nat) : (evt d base b).exp = d.exp := by
  unfold evt; dsimp only; split
  · simp only [sendMsix_exp, wr_exp]
  · rfl
@[simp] theorem evt_muz (d : Dev) (base b : Nat) : (evt d base b).muz = d.muz := by
  unfold evt; dsimp only; split
  · simp only [sendMsix_muz, wr_muz]
  · rfl
@[simp] theorem evt_glb (d : Dev) (base b : Nat) : (evt d base b).glb = d.glb := by
  unfold evt; dsimp only; split
  · simp only [sendMsix_glb, wr_glb]
  · rfl
@[simp] theorem evt_fcl (d : Dev) (base b : Nat) : (evt d base b).fcl = d.fcl := by
  unfold evt; dsimp only; split
  · simp only [sendMsix_fcl, wr_fcl]
  · rfl
@[simp] theorem evt_mei (d : Dev) (base b : Nat) : (evt d base b).mei = d.mei := by
  unfold evt; dsimp only; split
  · simp only [sendMsix_mei, wr_mei]
  · rfl
@[simp] theorem evt_chans (d : Dev) (base b : Nat) : (evt d base b).chans = d.chans := by
  unfold evt; dsimp only; split
  · simp only [sendMsix_chans, wr_chans]
  · rfl
@[simp] theorem evt_pmu (d : Dev) (base b : Nat) : (evt d base b).pmu = d.pmu := by
  unfold evt; dsimp only; split
  · simp only [sendMsix_pmu, wr_pmu]
  · rfl
@[simp] theorem evt_stc (d : Dev) (base b : Nat) : (evt d base b).stc = d.stc := by
  unfold evt; dsimp only; split
  · simp only [sendMsix_stc, wr_stc]
  · rfl
@[simp] theorem evt_bob (d : Dev) (base b : Nat) : (evt d base b).bob = d.bob := by
  unfold evt; dsimp only; split
  · simp only [sendMsix_bob, wr_bob]
  · rfl
@[simp] theorem evt_glr (d : Dev) (base b : Nat) : (evt d base b).glr = d.glr := by
  unfold evt; dsimp only; split
  · simp only [sendMsix_glr, wr_glr]
  · rfl
@[simp] theorem evt_tag (d : Dev) (base b : Nat) : (evt d base b).tag = d.tag := by
  unfold evt; dsimp only; split
  · simp only [sendMsix_tag, wr_tag]
  · rfl
@[simp] theorem evt_cdcHi (d : Dev) (base b : Nat) : (evt d base b).cdcHi = d.cdcHi := by
  unfold evt; dsimp only; split
  · simp only [sendMsix_cdcHi, wr_cdcHi]
  · rfl
@[simp] theorem evt_chks (d : Dev) (base b : Nat) : (evt d base b).chks = d.chks := by
  unfold evt; dsimp only; split
  · simp only [sendMsix_chks, wr_chks]
  · rfl
@[simp] theorem evt_testing (d : Dev) (base b : Nat) : (evt d base b).testing = d.testing := by
  unfold evt; dsimp only; split
  · simp only [sendMsix_testing, wr_testing]
  · rfl
@[simp] theorem evt_secs (d : Dev) (base b : Nat) : (evt d base b).secs = d.secs := by
  unfold evt; dsimp only; split
  · simp only [sendMsix_secs, wr_secs]
  · rfl
@[simp] theorem evt_spl (d : Dev) (base b : Nat) : (evt d base b).spl = d.spl := by
  unfold evt; dsimp only; split
  · simp only [sendMsix_spl, wr_spl]
  · rfl
@[simp] theorem evt_xpd (d : Dev) (base b : Nat) : (evt d base b).xpd = d.xpd := by
  unfold evt; dsimp only; split
  · simp only [sendMsix_xpd, wr_xpd]
  · rfl
@[simp] theorem evt_engs (d : Dev) (base b : Nat) : (evt d base b).engs = d.engs := by
  unfold evt; dsimp only; split
  · simp only [sendMsix_engs, wr_engs]
  · rfl
@[simp] theorem evt_ver (d : Dev) (base b : Nat) : (evt d base b).ver = d.ver := by
  unfold evt; dsimp only; split
  · simp only [sendMsix_ver, wr_ver]
  · rfl
@[simp] theorem evt_nvm (d : Dev) (base b : Nat) : (evt d base b).nvm = d.nvm := by
  unfold evt; dsimp only; split
  · simp only [sendMsix_nvm, wr_nvm]
  · rfl
@[simp] theorem evt_knl (d : Dev) (base b : Nat) : (evt d base b).knl = d.knl := by
  unfold evt; dsimp only; split
  · simp only [sendMsix_knl, wr_knl]
  · rfl
@[simp] theorem evt_tim (d : Dev) (base b : Nat) : (evt d base b).tim = d.tim := by
  unfold evt; dsimp only; split
  · simp only [sendMsix_tim, wr_tim]
  · rfl
@[simp] theorem evt_hel (d : Dev) (base b : Nat) : (evt d base b).hel = d.hel := by
  unfold evt; dsimp only; split
  · simp only [sendMsix_hel, wr_hel]
  · rfl

/-! ### One structure each -/

@[simp] theorem setExp_regs (d : Dev) (f : Exp → Exp) : (setExp d f).regs = d.regs := rfl
@[simp] theorem setExp_bar2 (d : Dev) (f : Exp → Exp) : (setExp d f).bar2 = d.bar2 := rfl
@[simp] theorem setExp_infoHeld (d : Dev) (f : Exp → Exp) : (setExp d f).infoHeld = d.infoHeld := rfl
@[simp] theorem setExp_pins (d : Dev) (f : Exp → Exp) : (setExp d f).pins = d.pins := rfl
@[simp] theorem setExp_outs (d : Dev) (f : Exp → Exp) : (setExp d f).outs = d.outs := rfl
@[simp] theorem setExp_free (d : Dev) (f : Exp → Exp) : (setExp d f).free = d.free := rfl
@[simp] theorem setExp_hbm (d : Dev) (f : Exp → Exp) : (setExp d f).hbm = d.hbm := rfl
@[simp] theorem setExp_poison (d : Dev) (f : Exp → Exp) : (setExp d f).poison = d.poison := rfl
@[simp] theorem setExp_muz (d : Dev) (f : Exp → Exp) : (setExp d f).muz = d.muz := rfl
@[simp] theorem setExp_glb (d : Dev) (f : Exp → Exp) : (setExp d f).glb = d.glb := rfl
@[simp] theorem setExp_fcl (d : Dev) (f : Exp → Exp) : (setExp d f).fcl = d.fcl := rfl
@[simp] theorem setExp_mei (d : Dev) (f : Exp → Exp) : (setExp d f).mei = d.mei := rfl
@[simp] theorem setExp_hlk (d : Dev) (f : Exp → Exp) : (setExp d f).hlk = d.hlk := rfl
@[simp] theorem setExp_chans (d : Dev) (f : Exp → Exp) : (setExp d f).chans = d.chans := rfl
@[simp] theorem setExp_pmu (d : Dev) (f : Exp → Exp) : (setExp d f).pmu = d.pmu := rfl
@[simp] theorem setExp_stc (d : Dev) (f : Exp → Exp) : (setExp d f).stc = d.stc := rfl
@[simp] theorem setExp_bob (d : Dev) (f : Exp → Exp) : (setExp d f).bob = d.bob := rfl
@[simp] theorem setExp_glr (d : Dev) (f : Exp → Exp) : (setExp d f).glr = d.glr := rfl
@[simp] theorem setExp_tag (d : Dev) (f : Exp → Exp) : (setExp d f).tag = d.tag := rfl
@[simp] theorem setExp_cdcHi (d : Dev) (f : Exp → Exp) : (setExp d f).cdcHi = d.cdcHi := rfl
@[simp] theorem setExp_chks (d : Dev) (f : Exp → Exp) : (setExp d f).chks = d.chks := rfl
@[simp] theorem setExp_testing (d : Dev) (f : Exp → Exp) : (setExp d f).testing = d.testing := rfl
@[simp] theorem setExp_secs (d : Dev) (f : Exp → Exp) : (setExp d f).secs = d.secs := rfl
@[simp] theorem setExp_spl (d : Dev) (f : Exp → Exp) : (setExp d f).spl = d.spl := rfl
@[simp] theorem setExp_xpd (d : Dev) (f : Exp → Exp) : (setExp d f).xpd = d.xpd := rfl
@[simp] theorem setExp_engs (d : Dev) (f : Exp → Exp) : (setExp d f).engs = d.engs := rfl
@[simp] theorem setExp_ver (d : Dev) (f : Exp → Exp) : (setExp d f).ver = d.ver := rfl
@[simp] theorem setExp_nvm (d : Dev) (f : Exp → Exp) : (setExp d f).nvm = d.nvm := rfl
@[simp] theorem setExp_knl (d : Dev) (f : Exp → Exp) : (setExp d f).knl = d.knl := rfl
@[simp] theorem setExp_tim (d : Dev) (f : Exp → Exp) : (setExp d f).tim = d.tim := rfl
@[simp] theorem setExp_hel (d : Dev) (f : Exp → Exp) : (setExp d f).hel = d.hel := rfl
@[simp] theorem setExp_self (d : Dev) (f : Exp → Exp) : (setExp d f).exp = f d.exp := rfl

@[simp] theorem setMuz_regs (d : Dev) (f : Muz → Muz) : (setMuz d f).regs = d.regs := rfl
@[simp] theorem setMuz_bar2 (d : Dev) (f : Muz → Muz) : (setMuz d f).bar2 = d.bar2 := rfl
@[simp] theorem setMuz_infoHeld (d : Dev) (f : Muz → Muz) : (setMuz d f).infoHeld = d.infoHeld := rfl
@[simp] theorem setMuz_pins (d : Dev) (f : Muz → Muz) : (setMuz d f).pins = d.pins := rfl
@[simp] theorem setMuz_outs (d : Dev) (f : Muz → Muz) : (setMuz d f).outs = d.outs := rfl
@[simp] theorem setMuz_free (d : Dev) (f : Muz → Muz) : (setMuz d f).free = d.free := rfl
@[simp] theorem setMuz_hbm (d : Dev) (f : Muz → Muz) : (setMuz d f).hbm = d.hbm := rfl
@[simp] theorem setMuz_poison (d : Dev) (f : Muz → Muz) : (setMuz d f).poison = d.poison := rfl
@[simp] theorem setMuz_exp (d : Dev) (f : Muz → Muz) : (setMuz d f).exp = d.exp := rfl
@[simp] theorem setMuz_glb (d : Dev) (f : Muz → Muz) : (setMuz d f).glb = d.glb := rfl
@[simp] theorem setMuz_fcl (d : Dev) (f : Muz → Muz) : (setMuz d f).fcl = d.fcl := rfl
@[simp] theorem setMuz_mei (d : Dev) (f : Muz → Muz) : (setMuz d f).mei = d.mei := rfl
@[simp] theorem setMuz_hlk (d : Dev) (f : Muz → Muz) : (setMuz d f).hlk = d.hlk := rfl
@[simp] theorem setMuz_chans (d : Dev) (f : Muz → Muz) : (setMuz d f).chans = d.chans := rfl
@[simp] theorem setMuz_pmu (d : Dev) (f : Muz → Muz) : (setMuz d f).pmu = d.pmu := rfl
@[simp] theorem setMuz_stc (d : Dev) (f : Muz → Muz) : (setMuz d f).stc = d.stc := rfl
@[simp] theorem setMuz_bob (d : Dev) (f : Muz → Muz) : (setMuz d f).bob = d.bob := rfl
@[simp] theorem setMuz_glr (d : Dev) (f : Muz → Muz) : (setMuz d f).glr = d.glr := rfl
@[simp] theorem setMuz_tag (d : Dev) (f : Muz → Muz) : (setMuz d f).tag = d.tag := rfl
@[simp] theorem setMuz_cdcHi (d : Dev) (f : Muz → Muz) : (setMuz d f).cdcHi = d.cdcHi := rfl
@[simp] theorem setMuz_chks (d : Dev) (f : Muz → Muz) : (setMuz d f).chks = d.chks := rfl
@[simp] theorem setMuz_testing (d : Dev) (f : Muz → Muz) : (setMuz d f).testing = d.testing := rfl
@[simp] theorem setMuz_secs (d : Dev) (f : Muz → Muz) : (setMuz d f).secs = d.secs := rfl
@[simp] theorem setMuz_spl (d : Dev) (f : Muz → Muz) : (setMuz d f).spl = d.spl := rfl
@[simp] theorem setMuz_xpd (d : Dev) (f : Muz → Muz) : (setMuz d f).xpd = d.xpd := rfl
@[simp] theorem setMuz_engs (d : Dev) (f : Muz → Muz) : (setMuz d f).engs = d.engs := rfl
@[simp] theorem setMuz_ver (d : Dev) (f : Muz → Muz) : (setMuz d f).ver = d.ver := rfl
@[simp] theorem setMuz_nvm (d : Dev) (f : Muz → Muz) : (setMuz d f).nvm = d.nvm := rfl
@[simp] theorem setMuz_knl (d : Dev) (f : Muz → Muz) : (setMuz d f).knl = d.knl := rfl
@[simp] theorem setMuz_tim (d : Dev) (f : Muz → Muz) : (setMuz d f).tim = d.tim := rfl
@[simp] theorem setMuz_hel (d : Dev) (f : Muz → Muz) : (setMuz d f).hel = d.hel := rfl
@[simp] theorem setMuz_self (d : Dev) (f : Muz → Muz) : (setMuz d f).muz = f d.muz := rfl

@[simp] theorem setFcl_regs (d : Dev) (f : Fcl → Fcl) : (setFcl d f).regs = d.regs := rfl
@[simp] theorem setFcl_bar2 (d : Dev) (f : Fcl → Fcl) : (setFcl d f).bar2 = d.bar2 := rfl
@[simp] theorem setFcl_infoHeld (d : Dev) (f : Fcl → Fcl) : (setFcl d f).infoHeld = d.infoHeld := rfl
@[simp] theorem setFcl_pins (d : Dev) (f : Fcl → Fcl) : (setFcl d f).pins = d.pins := rfl
@[simp] theorem setFcl_outs (d : Dev) (f : Fcl → Fcl) : (setFcl d f).outs = d.outs := rfl
@[simp] theorem setFcl_free (d : Dev) (f : Fcl → Fcl) : (setFcl d f).free = d.free := rfl
@[simp] theorem setFcl_hbm (d : Dev) (f : Fcl → Fcl) : (setFcl d f).hbm = d.hbm := rfl
@[simp] theorem setFcl_poison (d : Dev) (f : Fcl → Fcl) : (setFcl d f).poison = d.poison := rfl
@[simp] theorem setFcl_exp (d : Dev) (f : Fcl → Fcl) : (setFcl d f).exp = d.exp := rfl
@[simp] theorem setFcl_muz (d : Dev) (f : Fcl → Fcl) : (setFcl d f).muz = d.muz := rfl
@[simp] theorem setFcl_glb (d : Dev) (f : Fcl → Fcl) : (setFcl d f).glb = d.glb := rfl
@[simp] theorem setFcl_mei (d : Dev) (f : Fcl → Fcl) : (setFcl d f).mei = d.mei := rfl
@[simp] theorem setFcl_hlk (d : Dev) (f : Fcl → Fcl) : (setFcl d f).hlk = d.hlk := rfl
@[simp] theorem setFcl_chans (d : Dev) (f : Fcl → Fcl) : (setFcl d f).chans = d.chans := rfl
@[simp] theorem setFcl_pmu (d : Dev) (f : Fcl → Fcl) : (setFcl d f).pmu = d.pmu := rfl
@[simp] theorem setFcl_stc (d : Dev) (f : Fcl → Fcl) : (setFcl d f).stc = d.stc := rfl
@[simp] theorem setFcl_bob (d : Dev) (f : Fcl → Fcl) : (setFcl d f).bob = d.bob := rfl
@[simp] theorem setFcl_glr (d : Dev) (f : Fcl → Fcl) : (setFcl d f).glr = d.glr := rfl
@[simp] theorem setFcl_tag (d : Dev) (f : Fcl → Fcl) : (setFcl d f).tag = d.tag := rfl
@[simp] theorem setFcl_cdcHi (d : Dev) (f : Fcl → Fcl) : (setFcl d f).cdcHi = d.cdcHi := rfl
@[simp] theorem setFcl_chks (d : Dev) (f : Fcl → Fcl) : (setFcl d f).chks = d.chks := rfl
@[simp] theorem setFcl_testing (d : Dev) (f : Fcl → Fcl) : (setFcl d f).testing = d.testing := rfl
@[simp] theorem setFcl_secs (d : Dev) (f : Fcl → Fcl) : (setFcl d f).secs = d.secs := rfl
@[simp] theorem setFcl_spl (d : Dev) (f : Fcl → Fcl) : (setFcl d f).spl = d.spl := rfl
@[simp] theorem setFcl_xpd (d : Dev) (f : Fcl → Fcl) : (setFcl d f).xpd = d.xpd := rfl
@[simp] theorem setFcl_engs (d : Dev) (f : Fcl → Fcl) : (setFcl d f).engs = d.engs := rfl
@[simp] theorem setFcl_ver (d : Dev) (f : Fcl → Fcl) : (setFcl d f).ver = d.ver := rfl
@[simp] theorem setFcl_nvm (d : Dev) (f : Fcl → Fcl) : (setFcl d f).nvm = d.nvm := rfl
@[simp] theorem setFcl_knl (d : Dev) (f : Fcl → Fcl) : (setFcl d f).knl = d.knl := rfl
@[simp] theorem setFcl_tim (d : Dev) (f : Fcl → Fcl) : (setFcl d f).tim = d.tim := rfl
@[simp] theorem setFcl_hel (d : Dev) (f : Fcl → Fcl) : (setFcl d f).hel = d.hel := rfl
@[simp] theorem setFcl_self (d : Dev) (f : Fcl → Fcl) : (setFcl d f).fcl = f d.fcl := rfl

@[simp] theorem setMei_regs (d : Dev) (f : Mei → Mei) : (setMei d f).regs = d.regs := rfl
@[simp] theorem setMei_bar2 (d : Dev) (f : Mei → Mei) : (setMei d f).bar2 = d.bar2 := rfl
@[simp] theorem setMei_infoHeld (d : Dev) (f : Mei → Mei) : (setMei d f).infoHeld = d.infoHeld := rfl
@[simp] theorem setMei_pins (d : Dev) (f : Mei → Mei) : (setMei d f).pins = d.pins := rfl
@[simp] theorem setMei_outs (d : Dev) (f : Mei → Mei) : (setMei d f).outs = d.outs := rfl
@[simp] theorem setMei_free (d : Dev) (f : Mei → Mei) : (setMei d f).free = d.free := rfl
@[simp] theorem setMei_hbm (d : Dev) (f : Mei → Mei) : (setMei d f).hbm = d.hbm := rfl
@[simp] theorem setMei_poison (d : Dev) (f : Mei → Mei) : (setMei d f).poison = d.poison := rfl
@[simp] theorem setMei_exp (d : Dev) (f : Mei → Mei) : (setMei d f).exp = d.exp := rfl
@[simp] theorem setMei_muz (d : Dev) (f : Mei → Mei) : (setMei d f).muz = d.muz := rfl
@[simp] theorem setMei_glb (d : Dev) (f : Mei → Mei) : (setMei d f).glb = d.glb := rfl
@[simp] theorem setMei_fcl (d : Dev) (f : Mei → Mei) : (setMei d f).fcl = d.fcl := rfl
@[simp] theorem setMei_hlk (d : Dev) (f : Mei → Mei) : (setMei d f).hlk = d.hlk := rfl
@[simp] theorem setMei_chans (d : Dev) (f : Mei → Mei) : (setMei d f).chans = d.chans := rfl
@[simp] theorem setMei_pmu (d : Dev) (f : Mei → Mei) : (setMei d f).pmu = d.pmu := rfl
@[simp] theorem setMei_stc (d : Dev) (f : Mei → Mei) : (setMei d f).stc = d.stc := rfl
@[simp] theorem setMei_bob (d : Dev) (f : Mei → Mei) : (setMei d f).bob = d.bob := rfl
@[simp] theorem setMei_glr (d : Dev) (f : Mei → Mei) : (setMei d f).glr = d.glr := rfl
@[simp] theorem setMei_tag (d : Dev) (f : Mei → Mei) : (setMei d f).tag = d.tag := rfl
@[simp] theorem setMei_cdcHi (d : Dev) (f : Mei → Mei) : (setMei d f).cdcHi = d.cdcHi := rfl
@[simp] theorem setMei_chks (d : Dev) (f : Mei → Mei) : (setMei d f).chks = d.chks := rfl
@[simp] theorem setMei_testing (d : Dev) (f : Mei → Mei) : (setMei d f).testing = d.testing := rfl
@[simp] theorem setMei_secs (d : Dev) (f : Mei → Mei) : (setMei d f).secs = d.secs := rfl
@[simp] theorem setMei_spl (d : Dev) (f : Mei → Mei) : (setMei d f).spl = d.spl := rfl
@[simp] theorem setMei_xpd (d : Dev) (f : Mei → Mei) : (setMei d f).xpd = d.xpd := rfl
@[simp] theorem setMei_engs (d : Dev) (f : Mei → Mei) : (setMei d f).engs = d.engs := rfl
@[simp] theorem setMei_ver (d : Dev) (f : Mei → Mei) : (setMei d f).ver = d.ver := rfl
@[simp] theorem setMei_nvm (d : Dev) (f : Mei → Mei) : (setMei d f).nvm = d.nvm := rfl
@[simp] theorem setMei_knl (d : Dev) (f : Mei → Mei) : (setMei d f).knl = d.knl := rfl
@[simp] theorem setMei_tim (d : Dev) (f : Mei → Mei) : (setMei d f).tim = d.tim := rfl
@[simp] theorem setMei_hel (d : Dev) (f : Mei → Mei) : (setMei d f).hel = d.hel := rfl
@[simp] theorem setMei_self (d : Dev) (f : Mei → Mei) : (setMei d f).mei = f d.mei := rfl

@[simp] theorem setGlr_regs (d : Dev) (f : Glr → Glr) : (setGlr d f).regs = d.regs := rfl
@[simp] theorem setGlr_bar2 (d : Dev) (f : Glr → Glr) : (setGlr d f).bar2 = d.bar2 := rfl
@[simp] theorem setGlr_infoHeld (d : Dev) (f : Glr → Glr) : (setGlr d f).infoHeld = d.infoHeld := rfl
@[simp] theorem setGlr_pins (d : Dev) (f : Glr → Glr) : (setGlr d f).pins = d.pins := rfl
@[simp] theorem setGlr_outs (d : Dev) (f : Glr → Glr) : (setGlr d f).outs = d.outs := rfl
@[simp] theorem setGlr_free (d : Dev) (f : Glr → Glr) : (setGlr d f).free = d.free := rfl
@[simp] theorem setGlr_hbm (d : Dev) (f : Glr → Glr) : (setGlr d f).hbm = d.hbm := rfl
@[simp] theorem setGlr_poison (d : Dev) (f : Glr → Glr) : (setGlr d f).poison = d.poison := rfl
@[simp] theorem setGlr_exp (d : Dev) (f : Glr → Glr) : (setGlr d f).exp = d.exp := rfl
@[simp] theorem setGlr_muz (d : Dev) (f : Glr → Glr) : (setGlr d f).muz = d.muz := rfl
@[simp] theorem setGlr_glb (d : Dev) (f : Glr → Glr) : (setGlr d f).glb = d.glb := rfl
@[simp] theorem setGlr_fcl (d : Dev) (f : Glr → Glr) : (setGlr d f).fcl = d.fcl := rfl
@[simp] theorem setGlr_mei (d : Dev) (f : Glr → Glr) : (setGlr d f).mei = d.mei := rfl
@[simp] theorem setGlr_hlk (d : Dev) (f : Glr → Glr) : (setGlr d f).hlk = d.hlk := rfl
@[simp] theorem setGlr_chans (d : Dev) (f : Glr → Glr) : (setGlr d f).chans = d.chans := rfl
@[simp] theorem setGlr_pmu (d : Dev) (f : Glr → Glr) : (setGlr d f).pmu = d.pmu := rfl
@[simp] theorem setGlr_stc (d : Dev) (f : Glr → Glr) : (setGlr d f).stc = d.stc := rfl
@[simp] theorem setGlr_bob (d : Dev) (f : Glr → Glr) : (setGlr d f).bob = d.bob := rfl
@[simp] theorem setGlr_tag (d : Dev) (f : Glr → Glr) : (setGlr d f).tag = d.tag := rfl
@[simp] theorem setGlr_cdcHi (d : Dev) (f : Glr → Glr) : (setGlr d f).cdcHi = d.cdcHi := rfl
@[simp] theorem setGlr_chks (d : Dev) (f : Glr → Glr) : (setGlr d f).chks = d.chks := rfl
@[simp] theorem setGlr_testing (d : Dev) (f : Glr → Glr) : (setGlr d f).testing = d.testing := rfl
@[simp] theorem setGlr_secs (d : Dev) (f : Glr → Glr) : (setGlr d f).secs = d.secs := rfl
@[simp] theorem setGlr_spl (d : Dev) (f : Glr → Glr) : (setGlr d f).spl = d.spl := rfl
@[simp] theorem setGlr_xpd (d : Dev) (f : Glr → Glr) : (setGlr d f).xpd = d.xpd := rfl
@[simp] theorem setGlr_engs (d : Dev) (f : Glr → Glr) : (setGlr d f).engs = d.engs := rfl
@[simp] theorem setGlr_ver (d : Dev) (f : Glr → Glr) : (setGlr d f).ver = d.ver := rfl
@[simp] theorem setGlr_nvm (d : Dev) (f : Glr → Glr) : (setGlr d f).nvm = d.nvm := rfl
@[simp] theorem setGlr_knl (d : Dev) (f : Glr → Glr) : (setGlr d f).knl = d.knl := rfl
@[simp] theorem setGlr_tim (d : Dev) (f : Glr → Glr) : (setGlr d f).tim = d.tim := rfl
@[simp] theorem setGlr_hel (d : Dev) (f : Glr → Glr) : (setGlr d f).hel = d.hel := rfl
@[simp] theorem setGlr_self (d : Dev) (f : Glr → Glr) : (setGlr d f).glr = f d.glr := rfl

@[simp] theorem setBob_regs (d : Dev) (f : Bob → Bob) : (setBob d f).regs = d.regs := rfl
@[simp] theorem setBob_bar2 (d : Dev) (f : Bob → Bob) : (setBob d f).bar2 = d.bar2 := rfl
@[simp] theorem setBob_infoHeld (d : Dev) (f : Bob → Bob) : (setBob d f).infoHeld = d.infoHeld := rfl
@[simp] theorem setBob_pins (d : Dev) (f : Bob → Bob) : (setBob d f).pins = d.pins := rfl
@[simp] theorem setBob_outs (d : Dev) (f : Bob → Bob) : (setBob d f).outs = d.outs := rfl
@[simp] theorem setBob_free (d : Dev) (f : Bob → Bob) : (setBob d f).free = d.free := rfl
@[simp] theorem setBob_hbm (d : Dev) (f : Bob → Bob) : (setBob d f).hbm = d.hbm := rfl
@[simp] theorem setBob_poison (d : Dev) (f : Bob → Bob) : (setBob d f).poison = d.poison := rfl
@[simp] theorem setBob_exp (d : Dev) (f : Bob → Bob) : (setBob d f).exp = d.exp := rfl
@[simp] theorem setBob_muz (d : Dev) (f : Bob → Bob) : (setBob d f).muz = d.muz := rfl
@[simp] theorem setBob_glb (d : Dev) (f : Bob → Bob) : (setBob d f).glb = d.glb := rfl
@[simp] theorem setBob_fcl (d : Dev) (f : Bob → Bob) : (setBob d f).fcl = d.fcl := rfl
@[simp] theorem setBob_mei (d : Dev) (f : Bob → Bob) : (setBob d f).mei = d.mei := rfl
@[simp] theorem setBob_hlk (d : Dev) (f : Bob → Bob) : (setBob d f).hlk = d.hlk := rfl
@[simp] theorem setBob_chans (d : Dev) (f : Bob → Bob) : (setBob d f).chans = d.chans := rfl
@[simp] theorem setBob_pmu (d : Dev) (f : Bob → Bob) : (setBob d f).pmu = d.pmu := rfl
@[simp] theorem setBob_stc (d : Dev) (f : Bob → Bob) : (setBob d f).stc = d.stc := rfl
@[simp] theorem setBob_glr (d : Dev) (f : Bob → Bob) : (setBob d f).glr = d.glr := rfl
@[simp] theorem setBob_tag (d : Dev) (f : Bob → Bob) : (setBob d f).tag = d.tag := rfl
@[simp] theorem setBob_cdcHi (d : Dev) (f : Bob → Bob) : (setBob d f).cdcHi = d.cdcHi := rfl
@[simp] theorem setBob_chks (d : Dev) (f : Bob → Bob) : (setBob d f).chks = d.chks := rfl
@[simp] theorem setBob_testing (d : Dev) (f : Bob → Bob) : (setBob d f).testing = d.testing := rfl
@[simp] theorem setBob_secs (d : Dev) (f : Bob → Bob) : (setBob d f).secs = d.secs := rfl
@[simp] theorem setBob_spl (d : Dev) (f : Bob → Bob) : (setBob d f).spl = d.spl := rfl
@[simp] theorem setBob_xpd (d : Dev) (f : Bob → Bob) : (setBob d f).xpd = d.xpd := rfl
@[simp] theorem setBob_engs (d : Dev) (f : Bob → Bob) : (setBob d f).engs = d.engs := rfl
@[simp] theorem setBob_ver (d : Dev) (f : Bob → Bob) : (setBob d f).ver = d.ver := rfl
@[simp] theorem setBob_nvm (d : Dev) (f : Bob → Bob) : (setBob d f).nvm = d.nvm := rfl
@[simp] theorem setBob_knl (d : Dev) (f : Bob → Bob) : (setBob d f).knl = d.knl := rfl
@[simp] theorem setBob_tim (d : Dev) (f : Bob → Bob) : (setBob d f).tim = d.tim := rfl
@[simp] theorem setBob_hel (d : Dev) (f : Bob → Bob) : (setBob d f).hel = d.hel := rfl
@[simp] theorem setBob_self (d : Dev) (f : Bob → Bob) : (setBob d f).bob = f d.bob := rfl

@[simp] theorem setHel_regs (d : Dev) (f : Hel → Hel) : (setHel d f).regs = d.regs := rfl
@[simp] theorem setHel_bar2 (d : Dev) (f : Hel → Hel) : (setHel d f).bar2 = d.bar2 := rfl
@[simp] theorem setHel_infoHeld (d : Dev) (f : Hel → Hel) : (setHel d f).infoHeld = d.infoHeld := rfl
@[simp] theorem setHel_pins (d : Dev) (f : Hel → Hel) : (setHel d f).pins = d.pins := rfl
@[simp] theorem setHel_outs (d : Dev) (f : Hel → Hel) : (setHel d f).outs = d.outs := rfl
@[simp] theorem setHel_free (d : Dev) (f : Hel → Hel) : (setHel d f).free = d.free := rfl
@[simp] theorem setHel_hbm (d : Dev) (f : Hel → Hel) : (setHel d f).hbm = d.hbm := rfl
@[simp] theorem setHel_poison (d : Dev) (f : Hel → Hel) : (setHel d f).poison = d.poison := rfl
@[simp] theorem setHel_exp (d : Dev) (f : Hel → Hel) : (setHel d f).exp = d.exp := rfl
@[simp] theorem setHel_muz (d : Dev) (f : Hel → Hel) : (setHel d f).muz = d.muz := rfl
@[simp] theorem setHel_glb (d : Dev) (f : Hel → Hel) : (setHel d f).glb = d.glb := rfl
@[simp] theorem setHel_fcl (d : Dev) (f : Hel → Hel) : (setHel d f).fcl = d.fcl := rfl
@[simp] theorem setHel_mei (d : Dev) (f : Hel → Hel) : (setHel d f).mei = d.mei := rfl
@[simp] theorem setHel_hlk (d : Dev) (f : Hel → Hel) : (setHel d f).hlk = d.hlk := rfl
@[simp] theorem setHel_chans (d : Dev) (f : Hel → Hel) : (setHel d f).chans = d.chans := rfl
@[simp] theorem setHel_pmu (d : Dev) (f : Hel → Hel) : (setHel d f).pmu = d.pmu := rfl
@[simp] theorem setHel_stc (d : Dev) (f : Hel → Hel) : (setHel d f).stc = d.stc := rfl
@[simp] theorem setHel_bob (d : Dev) (f : Hel → Hel) : (setHel d f).bob = d.bob := rfl
@[simp] theorem setHel_glr (d : Dev) (f : Hel → Hel) : (setHel d f).glr = d.glr := rfl
@[simp] theorem setHel_tag (d : Dev) (f : Hel → Hel) : (setHel d f).tag = d.tag := rfl
@[simp] theorem setHel_cdcHi (d : Dev) (f : Hel → Hel) : (setHel d f).cdcHi = d.cdcHi := rfl
@[simp] theorem setHel_chks (d : Dev) (f : Hel → Hel) : (setHel d f).chks = d.chks := rfl
@[simp] theorem setHel_testing (d : Dev) (f : Hel → Hel) : (setHel d f).testing = d.testing := rfl
@[simp] theorem setHel_secs (d : Dev) (f : Hel → Hel) : (setHel d f).secs = d.secs := rfl
@[simp] theorem setHel_spl (d : Dev) (f : Hel → Hel) : (setHel d f).spl = d.spl := rfl
@[simp] theorem setHel_xpd (d : Dev) (f : Hel → Hel) : (setHel d f).xpd = d.xpd := rfl
@[simp] theorem setHel_engs (d : Dev) (f : Hel → Hel) : (setHel d f).engs = d.engs := rfl
@[simp] theorem setHel_ver (d : Dev) (f : Hel → Hel) : (setHel d f).ver = d.ver := rfl
@[simp] theorem setHel_nvm (d : Dev) (f : Hel → Hel) : (setHel d f).nvm = d.nvm := rfl
@[simp] theorem setHel_knl (d : Dev) (f : Hel → Hel) : (setHel d f).knl = d.knl := rfl
@[simp] theorem setHel_tim (d : Dev) (f : Hel → Hel) : (setHel d f).tim = d.tim := rfl
@[simp] theorem setHel_self (d : Dev) (f : Hel → Hel) : (setHel d f).hel = f d.hel := rfl

@[simp] theorem setKnl_regs (d : Dev) (f : Knl → Knl) : (setKnl d f).regs = d.regs := rfl
@[simp] theorem setKnl_bar2 (d : Dev) (f : Knl → Knl) : (setKnl d f).bar2 = d.bar2 := rfl
@[simp] theorem setKnl_infoHeld (d : Dev) (f : Knl → Knl) : (setKnl d f).infoHeld = d.infoHeld := rfl
@[simp] theorem setKnl_pins (d : Dev) (f : Knl → Knl) : (setKnl d f).pins = d.pins := rfl
@[simp] theorem setKnl_outs (d : Dev) (f : Knl → Knl) : (setKnl d f).outs = d.outs := rfl
@[simp] theorem setKnl_free (d : Dev) (f : Knl → Knl) : (setKnl d f).free = d.free := rfl
@[simp] theorem setKnl_hbm (d : Dev) (f : Knl → Knl) : (setKnl d f).hbm = d.hbm := rfl
@[simp] theorem setKnl_poison (d : Dev) (f : Knl → Knl) : (setKnl d f).poison = d.poison := rfl
@[simp] theorem setKnl_exp (d : Dev) (f : Knl → Knl) : (setKnl d f).exp = d.exp := rfl
@[simp] theorem setKnl_muz (d : Dev) (f : Knl → Knl) : (setKnl d f).muz = d.muz := rfl
@[simp] theorem setKnl_glb (d : Dev) (f : Knl → Knl) : (setKnl d f).glb = d.glb := rfl
@[simp] theorem setKnl_fcl (d : Dev) (f : Knl → Knl) : (setKnl d f).fcl = d.fcl := rfl
@[simp] theorem setKnl_mei (d : Dev) (f : Knl → Knl) : (setKnl d f).mei = d.mei := rfl
@[simp] theorem setKnl_hlk (d : Dev) (f : Knl → Knl) : (setKnl d f).hlk = d.hlk := rfl
@[simp] theorem setKnl_chans (d : Dev) (f : Knl → Knl) : (setKnl d f).chans = d.chans := rfl
@[simp] theorem setKnl_pmu (d : Dev) (f : Knl → Knl) : (setKnl d f).pmu = d.pmu := rfl
@[simp] theorem setKnl_stc (d : Dev) (f : Knl → Knl) : (setKnl d f).stc = d.stc := rfl
@[simp] theorem setKnl_bob (d : Dev) (f : Knl → Knl) : (setKnl d f).bob = d.bob := rfl
@[simp] theorem setKnl_glr (d : Dev) (f : Knl → Knl) : (setKnl d f).glr = d.glr := rfl
@[simp] theorem setKnl_tag (d : Dev) (f : Knl → Knl) : (setKnl d f).tag = d.tag := rfl
@[simp] theorem setKnl_cdcHi (d : Dev) (f : Knl → Knl) : (setKnl d f).cdcHi = d.cdcHi := rfl
@[simp] theorem setKnl_chks (d : Dev) (f : Knl → Knl) : (setKnl d f).chks = d.chks := rfl
@[simp] theorem setKnl_testing (d : Dev) (f : Knl → Knl) : (setKnl d f).testing = d.testing := rfl
@[simp] theorem setKnl_secs (d : Dev) (f : Knl → Knl) : (setKnl d f).secs = d.secs := rfl
@[simp] theorem setKnl_spl (d : Dev) (f : Knl → Knl) : (setKnl d f).spl = d.spl := rfl
@[simp] theorem setKnl_xpd (d : Dev) (f : Knl → Knl) : (setKnl d f).xpd = d.xpd := rfl
@[simp] theorem setKnl_engs (d : Dev) (f : Knl → Knl) : (setKnl d f).engs = d.engs := rfl
@[simp] theorem setKnl_ver (d : Dev) (f : Knl → Knl) : (setKnl d f).ver = d.ver := rfl
@[simp] theorem setKnl_nvm (d : Dev) (f : Knl → Knl) : (setKnl d f).nvm = d.nvm := rfl
@[simp] theorem setKnl_tim (d : Dev) (f : Knl → Knl) : (setKnl d f).tim = d.tim := rfl
@[simp] theorem setKnl_hel (d : Dev) (f : Knl → Knl) : (setKnl d f).hel = d.hel := rfl
@[simp] theorem setKnl_self (d : Dev) (f : Knl → Knl) : (setKnl d f).knl = f d.knl := rfl

@[simp] theorem setNvm_regs (d : Dev) (f : Nvm → Nvm) : (setNvm d f).regs = d.regs := rfl
@[simp] theorem setNvm_bar2 (d : Dev) (f : Nvm → Nvm) : (setNvm d f).bar2 = d.bar2 := rfl
@[simp] theorem setNvm_infoHeld (d : Dev) (f : Nvm → Nvm) : (setNvm d f).infoHeld = d.infoHeld := rfl
@[simp] theorem setNvm_pins (d : Dev) (f : Nvm → Nvm) : (setNvm d f).pins = d.pins := rfl
@[simp] theorem setNvm_outs (d : Dev) (f : Nvm → Nvm) : (setNvm d f).outs = d.outs := rfl
@[simp] theorem setNvm_free (d : Dev) (f : Nvm → Nvm) : (setNvm d f).free = d.free := rfl
@[simp] theorem setNvm_hbm (d : Dev) (f : Nvm → Nvm) : (setNvm d f).hbm = d.hbm := rfl
@[simp] theorem setNvm_poison (d : Dev) (f : Nvm → Nvm) : (setNvm d f).poison = d.poison := rfl
@[simp] theorem setNvm_exp (d : Dev) (f : Nvm → Nvm) : (setNvm d f).exp = d.exp := rfl
@[simp] theorem setNvm_muz (d : Dev) (f : Nvm → Nvm) : (setNvm d f).muz = d.muz := rfl
@[simp] theorem setNvm_glb (d : Dev) (f : Nvm → Nvm) : (setNvm d f).glb = d.glb := rfl
@[simp] theorem setNvm_fcl (d : Dev) (f : Nvm → Nvm) : (setNvm d f).fcl = d.fcl := rfl
@[simp] theorem setNvm_mei (d : Dev) (f : Nvm → Nvm) : (setNvm d f).mei = d.mei := rfl
@[simp] theorem setNvm_hlk (d : Dev) (f : Nvm → Nvm) : (setNvm d f).hlk = d.hlk := rfl
@[simp] theorem setNvm_chans (d : Dev) (f : Nvm → Nvm) : (setNvm d f).chans = d.chans := rfl
@[simp] theorem setNvm_pmu (d : Dev) (f : Nvm → Nvm) : (setNvm d f).pmu = d.pmu := rfl
@[simp] theorem setNvm_stc (d : Dev) (f : Nvm → Nvm) : (setNvm d f).stc = d.stc := rfl
@[simp] theorem setNvm_bob (d : Dev) (f : Nvm → Nvm) : (setNvm d f).bob = d.bob := rfl
@[simp] theorem setNvm_glr (d : Dev) (f : Nvm → Nvm) : (setNvm d f).glr = d.glr := rfl
@[simp] theorem setNvm_tag (d : Dev) (f : Nvm → Nvm) : (setNvm d f).tag = d.tag := rfl
@[simp] theorem setNvm_cdcHi (d : Dev) (f : Nvm → Nvm) : (setNvm d f).cdcHi = d.cdcHi := rfl
@[simp] theorem setNvm_chks (d : Dev) (f : Nvm → Nvm) : (setNvm d f).chks = d.chks := rfl
@[simp] theorem setNvm_testing (d : Dev) (f : Nvm → Nvm) : (setNvm d f).testing = d.testing := rfl
@[simp] theorem setNvm_secs (d : Dev) (f : Nvm → Nvm) : (setNvm d f).secs = d.secs := rfl
@[simp] theorem setNvm_spl (d : Dev) (f : Nvm → Nvm) : (setNvm d f).spl = d.spl := rfl
@[simp] theorem setNvm_xpd (d : Dev) (f : Nvm → Nvm) : (setNvm d f).xpd = d.xpd := rfl
@[simp] theorem setNvm_engs (d : Dev) (f : Nvm → Nvm) : (setNvm d f).engs = d.engs := rfl
@[simp] theorem setNvm_ver (d : Dev) (f : Nvm → Nvm) : (setNvm d f).ver = d.ver := rfl
@[simp] theorem setNvm_knl (d : Dev) (f : Nvm → Nvm) : (setNvm d f).knl = d.knl := rfl
@[simp] theorem setNvm_tim (d : Dev) (f : Nvm → Nvm) : (setNvm d f).tim = d.tim := rfl
@[simp] theorem setNvm_hel (d : Dev) (f : Nvm → Nvm) : (setNvm d f).hel = d.hel := rfl
@[simp] theorem setNvm_self (d : Dev) (f : Nvm → Nvm) : (setNvm d f).nvm = f d.nvm := rfl

@[simp] theorem setPmu_regs (d : Dev) (f : Pmu → Pmu) : (setPmu d f).regs = d.regs := rfl
@[simp] theorem setPmu_bar2 (d : Dev) (f : Pmu → Pmu) : (setPmu d f).bar2 = d.bar2 := rfl
@[simp] theorem setPmu_infoHeld (d : Dev) (f : Pmu → Pmu) : (setPmu d f).infoHeld = d.infoHeld := rfl
@[simp] theorem setPmu_pins (d : Dev) (f : Pmu → Pmu) : (setPmu d f).pins = d.pins := rfl
@[simp] theorem setPmu_outs (d : Dev) (f : Pmu → Pmu) : (setPmu d f).outs = d.outs := rfl
@[simp] theorem setPmu_free (d : Dev) (f : Pmu → Pmu) : (setPmu d f).free = d.free := rfl
@[simp] theorem setPmu_hbm (d : Dev) (f : Pmu → Pmu) : (setPmu d f).hbm = d.hbm := rfl
@[simp] theorem setPmu_poison (d : Dev) (f : Pmu → Pmu) : (setPmu d f).poison = d.poison := rfl
@[simp] theorem setPmu_exp (d : Dev) (f : Pmu → Pmu) : (setPmu d f).exp = d.exp := rfl
@[simp] theorem setPmu_muz (d : Dev) (f : Pmu → Pmu) : (setPmu d f).muz = d.muz := rfl
@[simp] theorem setPmu_glb (d : Dev) (f : Pmu → Pmu) : (setPmu d f).glb = d.glb := rfl
@[simp] theorem setPmu_fcl (d : Dev) (f : Pmu → Pmu) : (setPmu d f).fcl = d.fcl := rfl
@[simp] theorem setPmu_mei (d : Dev) (f : Pmu → Pmu) : (setPmu d f).mei = d.mei := rfl
@[simp] theorem setPmu_hlk (d : Dev) (f : Pmu → Pmu) : (setPmu d f).hlk = d.hlk := rfl
@[simp] theorem setPmu_chans (d : Dev) (f : Pmu → Pmu) : (setPmu d f).chans = d.chans := rfl
@[simp] theorem setPmu_stc (d : Dev) (f : Pmu → Pmu) : (setPmu d f).stc = d.stc := rfl
@[simp] theorem setPmu_bob (d : Dev) (f : Pmu → Pmu) : (setPmu d f).bob = d.bob := rfl
@[simp] theorem setPmu_glr (d : Dev) (f : Pmu → Pmu) : (setPmu d f).glr = d.glr := rfl
@[simp] theorem setPmu_tag (d : Dev) (f : Pmu → Pmu) : (setPmu d f).tag = d.tag := rfl
@[simp] theorem setPmu_cdcHi (d : Dev) (f : Pmu → Pmu) : (setPmu d f).cdcHi = d.cdcHi := rfl
@[simp] theorem setPmu_chks (d : Dev) (f : Pmu → Pmu) : (setPmu d f).chks = d.chks := rfl
@[simp] theorem setPmu_testing (d : Dev) (f : Pmu → Pmu) : (setPmu d f).testing = d.testing := rfl
@[simp] theorem setPmu_secs (d : Dev) (f : Pmu → Pmu) : (setPmu d f).secs = d.secs := rfl
@[simp] theorem setPmu_spl (d : Dev) (f : Pmu → Pmu) : (setPmu d f).spl = d.spl := rfl
@[simp] theorem setPmu_xpd (d : Dev) (f : Pmu → Pmu) : (setPmu d f).xpd = d.xpd := rfl
@[simp] theorem setPmu_engs (d : Dev) (f : Pmu → Pmu) : (setPmu d f).engs = d.engs := rfl
@[simp] theorem setPmu_ver (d : Dev) (f : Pmu → Pmu) : (setPmu d f).ver = d.ver := rfl
@[simp] theorem setPmu_nvm (d : Dev) (f : Pmu → Pmu) : (setPmu d f).nvm = d.nvm := rfl
@[simp] theorem setPmu_knl (d : Dev) (f : Pmu → Pmu) : (setPmu d f).knl = d.knl := rfl
@[simp] theorem setPmu_tim (d : Dev) (f : Pmu → Pmu) : (setPmu d f).tim = d.tim := rfl
@[simp] theorem setPmu_hel (d : Dev) (f : Pmu → Pmu) : (setPmu d f).hel = d.hel := rfl
@[simp] theorem setPmu_self (d : Dev) (f : Pmu → Pmu) : (setPmu d f).pmu = f d.pmu := rfl

@[simp] theorem setSpl_regs (d : Dev) (f : Spl → Spl) : (setSpl d f).regs = d.regs := rfl
@[simp] theorem setSpl_bar2 (d : Dev) (f : Spl → Spl) : (setSpl d f).bar2 = d.bar2 := rfl
@[simp] theorem setSpl_infoHeld (d : Dev) (f : Spl → Spl) : (setSpl d f).infoHeld = d.infoHeld := rfl
@[simp] theorem setSpl_pins (d : Dev) (f : Spl → Spl) : (setSpl d f).pins = d.pins := rfl
@[simp] theorem setSpl_outs (d : Dev) (f : Spl → Spl) : (setSpl d f).outs = d.outs := rfl
@[simp] theorem setSpl_free (d : Dev) (f : Spl → Spl) : (setSpl d f).free = d.free := rfl
@[simp] theorem setSpl_hbm (d : Dev) (f : Spl → Spl) : (setSpl d f).hbm = d.hbm := rfl
@[simp] theorem setSpl_poison (d : Dev) (f : Spl → Spl) : (setSpl d f).poison = d.poison := rfl
@[simp] theorem setSpl_exp (d : Dev) (f : Spl → Spl) : (setSpl d f).exp = d.exp := rfl
@[simp] theorem setSpl_muz (d : Dev) (f : Spl → Spl) : (setSpl d f).muz = d.muz := rfl
@[simp] theorem setSpl_glb (d : Dev) (f : Spl → Spl) : (setSpl d f).glb = d.glb := rfl
@[simp] theorem setSpl_fcl (d : Dev) (f : Spl → Spl) : (setSpl d f).fcl = d.fcl := rfl
@[simp] theorem setSpl_mei (d : Dev) (f : Spl → Spl) : (setSpl d f).mei = d.mei := rfl
@[simp] theorem setSpl_hlk (d : Dev) (f : Spl → Spl) : (setSpl d f).hlk = d.hlk := rfl
@[simp] theorem setSpl_chans (d : Dev) (f : Spl → Spl) : (setSpl d f).chans = d.chans := rfl
@[simp] theorem setSpl_pmu (d : Dev) (f : Spl → Spl) : (setSpl d f).pmu = d.pmu := rfl
@[simp] theorem setSpl_stc (d : Dev) (f : Spl → Spl) : (setSpl d f).stc = d.stc := rfl
@[simp] theorem setSpl_bob (d : Dev) (f : Spl → Spl) : (setSpl d f).bob = d.bob := rfl
@[simp] theorem setSpl_glr (d : Dev) (f : Spl → Spl) : (setSpl d f).glr = d.glr := rfl
@[simp] theorem setSpl_tag (d : Dev) (f : Spl → Spl) : (setSpl d f).tag = d.tag := rfl
@[simp] theorem setSpl_cdcHi (d : Dev) (f : Spl → Spl) : (setSpl d f).cdcHi = d.cdcHi := rfl
@[simp] theorem setSpl_chks (d : Dev) (f : Spl → Spl) : (setSpl d f).chks = d.chks := rfl
@[simp] theorem setSpl_testing (d : Dev) (f : Spl → Spl) : (setSpl d f).testing = d.testing := rfl
@[simp] theorem setSpl_secs (d : Dev) (f : Spl → Spl) : (setSpl d f).secs = d.secs := rfl
@[simp] theorem setSpl_xpd (d : Dev) (f : Spl → Spl) : (setSpl d f).xpd = d.xpd := rfl
@[simp] theorem setSpl_engs (d : Dev) (f : Spl → Spl) : (setSpl d f).engs = d.engs := rfl
@[simp] theorem setSpl_ver (d : Dev) (f : Spl → Spl) : (setSpl d f).ver = d.ver := rfl
@[simp] theorem setSpl_nvm (d : Dev) (f : Spl → Spl) : (setSpl d f).nvm = d.nvm := rfl
@[simp] theorem setSpl_knl (d : Dev) (f : Spl → Spl) : (setSpl d f).knl = d.knl := rfl
@[simp] theorem setSpl_tim (d : Dev) (f : Spl → Spl) : (setSpl d f).tim = d.tim := rfl
@[simp] theorem setSpl_hel (d : Dev) (f : Spl → Spl) : (setSpl d f).hel = d.hel := rfl
@[simp] theorem setSpl_self (d : Dev) (f : Spl → Spl) : (setSpl d f).spl = f d.spl := rfl

@[simp] theorem setTim_regs (d : Dev) (f : Tim → Tim) : (setTim d f).regs = d.regs := rfl
@[simp] theorem setTim_bar2 (d : Dev) (f : Tim → Tim) : (setTim d f).bar2 = d.bar2 := rfl
@[simp] theorem setTim_infoHeld (d : Dev) (f : Tim → Tim) : (setTim d f).infoHeld = d.infoHeld := rfl
@[simp] theorem setTim_pins (d : Dev) (f : Tim → Tim) : (setTim d f).pins = d.pins := rfl
@[simp] theorem setTim_outs (d : Dev) (f : Tim → Tim) : (setTim d f).outs = d.outs := rfl
@[simp] theorem setTim_free (d : Dev) (f : Tim → Tim) : (setTim d f).free = d.free := rfl
@[simp] theorem setTim_hbm (d : Dev) (f : Tim → Tim) : (setTim d f).hbm = d.hbm := rfl
@[simp] theorem setTim_poison (d : Dev) (f : Tim → Tim) : (setTim d f).poison = d.poison := rfl
@[simp] theorem setTim_exp (d : Dev) (f : Tim → Tim) : (setTim d f).exp = d.exp := rfl
@[simp] theorem setTim_muz (d : Dev) (f : Tim → Tim) : (setTim d f).muz = d.muz := rfl
@[simp] theorem setTim_glb (d : Dev) (f : Tim → Tim) : (setTim d f).glb = d.glb := rfl
@[simp] theorem setTim_fcl (d : Dev) (f : Tim → Tim) : (setTim d f).fcl = d.fcl := rfl
@[simp] theorem setTim_mei (d : Dev) (f : Tim → Tim) : (setTim d f).mei = d.mei := rfl
@[simp] theorem setTim_hlk (d : Dev) (f : Tim → Tim) : (setTim d f).hlk = d.hlk := rfl
@[simp] theorem setTim_chans (d : Dev) (f : Tim → Tim) : (setTim d f).chans = d.chans := rfl
@[simp] theorem setTim_pmu (d : Dev) (f : Tim → Tim) : (setTim d f).pmu = d.pmu := rfl
@[simp] theorem setTim_stc (d : Dev) (f : Tim → Tim) : (setTim d f).stc = d.stc := rfl
@[simp] theorem setTim_bob (d : Dev) (f : Tim → Tim) : (setTim d f).bob = d.bob := rfl
@[simp] theorem setTim_glr (d : Dev) (f : Tim → Tim) : (setTim d f).glr = d.glr := rfl
@[simp] theorem setTim_tag (d : Dev) (f : Tim → Tim) : (setTim d f).tag = d.tag := rfl
@[simp] theorem setTim_cdcHi (d : Dev) (f : Tim → Tim) : (setTim d f).cdcHi = d.cdcHi := rfl
@[simp] theorem setTim_chks (d : Dev) (f : Tim → Tim) : (setTim d f).chks = d.chks := rfl
@[simp] theorem setTim_testing (d : Dev) (f : Tim → Tim) : (setTim d f).testing = d.testing := rfl
@[simp] theorem setTim_secs (d : Dev) (f : Tim → Tim) : (setTim d f).secs = d.secs := rfl
@[simp] theorem setTim_spl (d : Dev) (f : Tim → Tim) : (setTim d f).spl = d.spl := rfl
@[simp] theorem setTim_xpd (d : Dev) (f : Tim → Tim) : (setTim d f).xpd = d.xpd := rfl
@[simp] theorem setTim_engs (d : Dev) (f : Tim → Tim) : (setTim d f).engs = d.engs := rfl
@[simp] theorem setTim_ver (d : Dev) (f : Tim → Tim) : (setTim d f).ver = d.ver := rfl
@[simp] theorem setTim_nvm (d : Dev) (f : Tim → Tim) : (setTim d f).nvm = d.nvm := rfl
@[simp] theorem setTim_knl (d : Dev) (f : Tim → Tim) : (setTim d f).knl = d.knl := rfl
@[simp] theorem setTim_hel (d : Dev) (f : Tim → Tim) : (setTim d f).hel = d.hel := rfl
@[simp] theorem setTim_self (d : Dev) (f : Tim → Tim) : (setTim d f).tim = f d.tim := rfl

@[simp] theorem setVer_regs (d : Dev) (f : Ver → Ver) : (setVer d f).regs = d.regs := rfl
@[simp] theorem setVer_bar2 (d : Dev) (f : Ver → Ver) : (setVer d f).bar2 = d.bar2 := rfl
@[simp] theorem setVer_infoHeld (d : Dev) (f : Ver → Ver) : (setVer d f).infoHeld = d.infoHeld := rfl
@[simp] theorem setVer_pins (d : Dev) (f : Ver → Ver) : (setVer d f).pins = d.pins := rfl
@[simp] theorem setVer_outs (d : Dev) (f : Ver → Ver) : (setVer d f).outs = d.outs := rfl
@[simp] theorem setVer_free (d : Dev) (f : Ver → Ver) : (setVer d f).free = d.free := rfl
@[simp] theorem setVer_hbm (d : Dev) (f : Ver → Ver) : (setVer d f).hbm = d.hbm := rfl
@[simp] theorem setVer_poison (d : Dev) (f : Ver → Ver) : (setVer d f).poison = d.poison := rfl
@[simp] theorem setVer_exp (d : Dev) (f : Ver → Ver) : (setVer d f).exp = d.exp := rfl
@[simp] theorem setVer_muz (d : Dev) (f : Ver → Ver) : (setVer d f).muz = d.muz := rfl
@[simp] theorem setVer_glb (d : Dev) (f : Ver → Ver) : (setVer d f).glb = d.glb := rfl
@[simp] theorem setVer_fcl (d : Dev) (f : Ver → Ver) : (setVer d f).fcl = d.fcl := rfl
@[simp] theorem setVer_mei (d : Dev) (f : Ver → Ver) : (setVer d f).mei = d.mei := rfl
@[simp] theorem setVer_hlk (d : Dev) (f : Ver → Ver) : (setVer d f).hlk = d.hlk := rfl
@[simp] theorem setVer_chans (d : Dev) (f : Ver → Ver) : (setVer d f).chans = d.chans := rfl
@[simp] theorem setVer_pmu (d : Dev) (f : Ver → Ver) : (setVer d f).pmu = d.pmu := rfl
@[simp] theorem setVer_stc (d : Dev) (f : Ver → Ver) : (setVer d f).stc = d.stc := rfl
@[simp] theorem setVer_bob (d : Dev) (f : Ver → Ver) : (setVer d f).bob = d.bob := rfl
@[simp] theorem setVer_glr (d : Dev) (f : Ver → Ver) : (setVer d f).glr = d.glr := rfl
@[simp] theorem setVer_tag (d : Dev) (f : Ver → Ver) : (setVer d f).tag = d.tag := rfl
@[simp] theorem setVer_cdcHi (d : Dev) (f : Ver → Ver) : (setVer d f).cdcHi = d.cdcHi := rfl
@[simp] theorem setVer_chks (d : Dev) (f : Ver → Ver) : (setVer d f).chks = d.chks := rfl
@[simp] theorem setVer_testing (d : Dev) (f : Ver → Ver) : (setVer d f).testing = d.testing := rfl
@[simp] theorem setVer_secs (d : Dev) (f : Ver → Ver) : (setVer d f).secs = d.secs := rfl
@[simp] theorem setVer_spl (d : Dev) (f : Ver → Ver) : (setVer d f).spl = d.spl := rfl
@[simp] theorem setVer_xpd (d : Dev) (f : Ver → Ver) : (setVer d f).xpd = d.xpd := rfl
@[simp] theorem setVer_engs (d : Dev) (f : Ver → Ver) : (setVer d f).engs = d.engs := rfl
@[simp] theorem setVer_nvm (d : Dev) (f : Ver → Ver) : (setVer d f).nvm = d.nvm := rfl
@[simp] theorem setVer_knl (d : Dev) (f : Ver → Ver) : (setVer d f).knl = d.knl := rfl
@[simp] theorem setVer_tim (d : Dev) (f : Ver → Ver) : (setVer d f).tim = d.tim := rfl
@[simp] theorem setVer_hel (d : Dev) (f : Ver → Ver) : (setVer d f).hel = d.hel := rfl
@[simp] theorem setVer_self (d : Dev) (f : Ver → Ver) : (setVer d f).ver = f d.ver := rfl

@[simp] theorem setXpd_regs (d : Dev) (f : Xpd → Xpd) : (setXpd d f).regs = d.regs := rfl
@[simp] theorem setXpd_bar2 (d : Dev) (f : Xpd → Xpd) : (setXpd d f).bar2 = d.bar2 := rfl
@[simp] theorem setXpd_infoHeld (d : Dev) (f : Xpd → Xpd) : (setXpd d f).infoHeld = d.infoHeld := rfl
@[simp] theorem setXpd_pins (d : Dev) (f : Xpd → Xpd) : (setXpd d f).pins = d.pins := rfl
@[simp] theorem setXpd_outs (d : Dev) (f : Xpd → Xpd) : (setXpd d f).outs = d.outs := rfl
@[simp] theorem setXpd_free (d : Dev) (f : Xpd → Xpd) : (setXpd d f).free = d.free := rfl
@[simp] theorem setXpd_hbm (d : Dev) (f : Xpd → Xpd) : (setXpd d f).hbm = d.hbm := rfl
@[simp] theorem setXpd_poison (d : Dev) (f : Xpd → Xpd) : (setXpd d f).poison = d.poison := rfl
@[simp] theorem setXpd_exp (d : Dev) (f : Xpd → Xpd) : (setXpd d f).exp = d.exp := rfl
@[simp] theorem setXpd_muz (d : Dev) (f : Xpd → Xpd) : (setXpd d f).muz = d.muz := rfl
@[simp] theorem setXpd_glb (d : Dev) (f : Xpd → Xpd) : (setXpd d f).glb = d.glb := rfl
@[simp] theorem setXpd_fcl (d : Dev) (f : Xpd → Xpd) : (setXpd d f).fcl = d.fcl := rfl
@[simp] theorem setXpd_mei (d : Dev) (f : Xpd → Xpd) : (setXpd d f).mei = d.mei := rfl
@[simp] theorem setXpd_hlk (d : Dev) (f : Xpd → Xpd) : (setXpd d f).hlk = d.hlk := rfl
@[simp] theorem setXpd_chans (d : Dev) (f : Xpd → Xpd) : (setXpd d f).chans = d.chans := rfl
@[simp] theorem setXpd_pmu (d : Dev) (f : Xpd → Xpd) : (setXpd d f).pmu = d.pmu := rfl
@[simp] theorem setXpd_stc (d : Dev) (f : Xpd → Xpd) : (setXpd d f).stc = d.stc := rfl
@[simp] theorem setXpd_bob (d : Dev) (f : Xpd → Xpd) : (setXpd d f).bob = d.bob := rfl
@[simp] theorem setXpd_glr (d : Dev) (f : Xpd → Xpd) : (setXpd d f).glr = d.glr := rfl
@[simp] theorem setXpd_tag (d : Dev) (f : Xpd → Xpd) : (setXpd d f).tag = d.tag := rfl
@[simp] theorem setXpd_cdcHi (d : Dev) (f : Xpd → Xpd) : (setXpd d f).cdcHi = d.cdcHi := rfl
@[simp] theorem setXpd_chks (d : Dev) (f : Xpd → Xpd) : (setXpd d f).chks = d.chks := rfl
@[simp] theorem setXpd_testing (d : Dev) (f : Xpd → Xpd) : (setXpd d f).testing = d.testing := rfl
@[simp] theorem setXpd_secs (d : Dev) (f : Xpd → Xpd) : (setXpd d f).secs = d.secs := rfl
@[simp] theorem setXpd_spl (d : Dev) (f : Xpd → Xpd) : (setXpd d f).spl = d.spl := rfl
@[simp] theorem setXpd_engs (d : Dev) (f : Xpd → Xpd) : (setXpd d f).engs = d.engs := rfl
@[simp] theorem setXpd_ver (d : Dev) (f : Xpd → Xpd) : (setXpd d f).ver = d.ver := rfl
@[simp] theorem setXpd_nvm (d : Dev) (f : Xpd → Xpd) : (setXpd d f).nvm = d.nvm := rfl
@[simp] theorem setXpd_knl (d : Dev) (f : Xpd → Xpd) : (setXpd d f).knl = d.knl := rfl
@[simp] theorem setXpd_tim (d : Dev) (f : Xpd → Xpd) : (setXpd d f).tim = d.tim := rfl
@[simp] theorem setXpd_hel (d : Dev) (f : Xpd → Xpd) : (setXpd d f).hel = d.hel := rfl
@[simp] theorem setXpd_self (d : Dev) (f : Xpd → Xpd) : (setXpd d f).xpd = f d.xpd := rfl

@[simp] theorem setDbm_regs (d : Dev) (f : Dbm → Dbm) : (setDbm d f).regs = d.regs := rfl
@[simp] theorem setDbm_bar2 (d : Dev) (f : Dbm → Dbm) : (setDbm d f).bar2 = d.bar2 := rfl
@[simp] theorem setDbm_infoHeld (d : Dev) (f : Dbm → Dbm) : (setDbm d f).infoHeld = d.infoHeld := rfl
@[simp] theorem setDbm_pins (d : Dev) (f : Dbm → Dbm) : (setDbm d f).pins = d.pins := rfl
@[simp] theorem setDbm_outs (d : Dev) (f : Dbm → Dbm) : (setDbm d f).outs = d.outs := rfl
@[simp] theorem setDbm_free (d : Dev) (f : Dbm → Dbm) : (setDbm d f).free = d.free := rfl
@[simp] theorem setDbm_hbm (d : Dev) (f : Dbm → Dbm) : (setDbm d f).hbm = d.hbm := rfl
@[simp] theorem setDbm_poison (d : Dev) (f : Dbm → Dbm) : (setDbm d f).poison = d.poison := rfl
@[simp] theorem setDbm_exp (d : Dev) (f : Dbm → Dbm) : (setDbm d f).exp = d.exp := rfl
@[simp] theorem setDbm_muz (d : Dev) (f : Dbm → Dbm) : (setDbm d f).muz = d.muz := rfl
@[simp] theorem setDbm_glb (d : Dev) (f : Dbm → Dbm) : (setDbm d f).glb = d.glb := rfl
@[simp] theorem setDbm_fcl (d : Dev) (f : Dbm → Dbm) : (setDbm d f).fcl = d.fcl := rfl
@[simp] theorem setDbm_mei (d : Dev) (f : Dbm → Dbm) : (setDbm d f).mei = d.mei := rfl
@[simp] theorem setDbm_hlk (d : Dev) (f : Dbm → Dbm) : (setDbm d f).hlk = d.hlk := rfl
@[simp] theorem setDbm_chans (d : Dev) (f : Dbm → Dbm) : (setDbm d f).chans = d.chans := rfl
@[simp] theorem setDbm_pmu (d : Dev) (f : Dbm → Dbm) : (setDbm d f).pmu = d.pmu := rfl
@[simp] theorem setDbm_bob (d : Dev) (f : Dbm → Dbm) : (setDbm d f).bob = d.bob := rfl
@[simp] theorem setDbm_glr (d : Dev) (f : Dbm → Dbm) : (setDbm d f).glr = d.glr := rfl
@[simp] theorem setDbm_tag (d : Dev) (f : Dbm → Dbm) : (setDbm d f).tag = d.tag := rfl
@[simp] theorem setDbm_cdcHi (d : Dev) (f : Dbm → Dbm) : (setDbm d f).cdcHi = d.cdcHi := rfl
@[simp] theorem setDbm_chks (d : Dev) (f : Dbm → Dbm) : (setDbm d f).chks = d.chks := rfl
@[simp] theorem setDbm_testing (d : Dev) (f : Dbm → Dbm) : (setDbm d f).testing = d.testing := rfl
@[simp] theorem setDbm_secs (d : Dev) (f : Dbm → Dbm) : (setDbm d f).secs = d.secs := rfl
@[simp] theorem setDbm_spl (d : Dev) (f : Dbm → Dbm) : (setDbm d f).spl = d.spl := rfl
@[simp] theorem setDbm_xpd (d : Dev) (f : Dbm → Dbm) : (setDbm d f).xpd = d.xpd := rfl
@[simp] theorem setDbm_engs (d : Dev) (f : Dbm → Dbm) : (setDbm d f).engs = d.engs := rfl
@[simp] theorem setDbm_ver (d : Dev) (f : Dbm → Dbm) : (setDbm d f).ver = d.ver := rfl
@[simp] theorem setDbm_nvm (d : Dev) (f : Dbm → Dbm) : (setDbm d f).nvm = d.nvm := rfl
@[simp] theorem setDbm_knl (d : Dev) (f : Dbm → Dbm) : (setDbm d f).knl = d.knl := rfl
@[simp] theorem setDbm_tim (d : Dev) (f : Dbm → Dbm) : (setDbm d f).tim = d.tim := rfl
@[simp] theorem setDbm_hel (d : Dev) (f : Dbm → Dbm) : (setDbm d f).hel = d.hel := rfl

@[simp] theorem setChan_regs (d : Dev) (n : Nat) (f : Chan → Chan) : (setChan d n f).regs = d.regs := rfl
@[simp] theorem setChan_bar2 (d : Dev) (n : Nat) (f : Chan → Chan) : (setChan d n f).bar2 = d.bar2 := rfl
@[simp] theorem setChan_infoHeld (d : Dev) (n : Nat) (f : Chan → Chan) : (setChan d n f).infoHeld = d.infoHeld := rfl
@[simp] theorem setChan_pins (d : Dev) (n : Nat) (f : Chan → Chan) : (setChan d n f).pins = d.pins := rfl
@[simp] theorem setChan_outs (d : Dev) (n : Nat) (f : Chan → Chan) : (setChan d n f).outs = d.outs := rfl
@[simp] theorem setChan_free (d : Dev) (n : Nat) (f : Chan → Chan) : (setChan d n f).free = d.free := rfl
@[simp] theorem setChan_hbm (d : Dev) (n : Nat) (f : Chan → Chan) : (setChan d n f).hbm = d.hbm := rfl
@[simp] theorem setChan_poison (d : Dev) (n : Nat) (f : Chan → Chan) : (setChan d n f).poison = d.poison := rfl
@[simp] theorem setChan_exp (d : Dev) (n : Nat) (f : Chan → Chan) : (setChan d n f).exp = d.exp := rfl
@[simp] theorem setChan_muz (d : Dev) (n : Nat) (f : Chan → Chan) : (setChan d n f).muz = d.muz := rfl
@[simp] theorem setChan_glb (d : Dev) (n : Nat) (f : Chan → Chan) : (setChan d n f).glb = d.glb := rfl
@[simp] theorem setChan_fcl (d : Dev) (n : Nat) (f : Chan → Chan) : (setChan d n f).fcl = d.fcl := rfl
@[simp] theorem setChan_mei (d : Dev) (n : Nat) (f : Chan → Chan) : (setChan d n f).mei = d.mei := rfl
@[simp] theorem setChan_hlk (d : Dev) (n : Nat) (f : Chan → Chan) : (setChan d n f).hlk = d.hlk := rfl
@[simp] theorem setChan_pmu (d : Dev) (n : Nat) (f : Chan → Chan) : (setChan d n f).pmu = d.pmu := rfl
@[simp] theorem setChan_stc (d : Dev) (n : Nat) (f : Chan → Chan) : (setChan d n f).stc = d.stc := rfl
@[simp] theorem setChan_bob (d : Dev) (n : Nat) (f : Chan → Chan) : (setChan d n f).bob = d.bob := rfl
@[simp] theorem setChan_glr (d : Dev) (n : Nat) (f : Chan → Chan) : (setChan d n f).glr = d.glr := rfl
@[simp] theorem setChan_tag (d : Dev) (n : Nat) (f : Chan → Chan) : (setChan d n f).tag = d.tag := rfl
@[simp] theorem setChan_cdcHi (d : Dev) (n : Nat) (f : Chan → Chan) : (setChan d n f).cdcHi = d.cdcHi := rfl
@[simp] theorem setChan_chks (d : Dev) (n : Nat) (f : Chan → Chan) : (setChan d n f).chks = d.chks := rfl
@[simp] theorem setChan_testing (d : Dev) (n : Nat) (f : Chan → Chan) : (setChan d n f).testing = d.testing := rfl
@[simp] theorem setChan_secs (d : Dev) (n : Nat) (f : Chan → Chan) : (setChan d n f).secs = d.secs := rfl
@[simp] theorem setChan_spl (d : Dev) (n : Nat) (f : Chan → Chan) : (setChan d n f).spl = d.spl := rfl
@[simp] theorem setChan_xpd (d : Dev) (n : Nat) (f : Chan → Chan) : (setChan d n f).xpd = d.xpd := rfl
@[simp] theorem setChan_engs (d : Dev) (n : Nat) (f : Chan → Chan) : (setChan d n f).engs = d.engs := rfl
@[simp] theorem setChan_ver (d : Dev) (n : Nat) (f : Chan → Chan) : (setChan d n f).ver = d.ver := rfl
@[simp] theorem setChan_nvm (d : Dev) (n : Nat) (f : Chan → Chan) : (setChan d n f).nvm = d.nvm := rfl
@[simp] theorem setChan_knl (d : Dev) (n : Nat) (f : Chan → Chan) : (setChan d n f).knl = d.knl := rfl
@[simp] theorem setChan_tim (d : Dev) (n : Nat) (f : Chan → Chan) : (setChan d n f).tim = d.tim := rfl
@[simp] theorem setChan_hel (d : Dev) (n : Nat) (f : Chan → Chan) : (setChan d n f).hel = d.hel := rfl

@[simp] theorem setEng_regs (d : Dev) (n : Nat) (f : Eng → Eng) : (setEng d n f).regs = d.regs := rfl
@[simp] theorem setEng_bar2 (d : Dev) (n : Nat) (f : Eng → Eng) : (setEng d n f).bar2 = d.bar2 := rfl
@[simp] theorem setEng_infoHeld (d : Dev) (n : Nat) (f : Eng → Eng) : (setEng d n f).infoHeld = d.infoHeld := rfl
@[simp] theorem setEng_pins (d : Dev) (n : Nat) (f : Eng → Eng) : (setEng d n f).pins = d.pins := rfl
@[simp] theorem setEng_outs (d : Dev) (n : Nat) (f : Eng → Eng) : (setEng d n f).outs = d.outs := rfl
@[simp] theorem setEng_free (d : Dev) (n : Nat) (f : Eng → Eng) : (setEng d n f).free = d.free := rfl
@[simp] theorem setEng_hbm (d : Dev) (n : Nat) (f : Eng → Eng) : (setEng d n f).hbm = d.hbm := rfl
@[simp] theorem setEng_poison (d : Dev) (n : Nat) (f : Eng → Eng) : (setEng d n f).poison = d.poison := rfl
@[simp] theorem setEng_exp (d : Dev) (n : Nat) (f : Eng → Eng) : (setEng d n f).exp = d.exp := rfl
@[simp] theorem setEng_muz (d : Dev) (n : Nat) (f : Eng → Eng) : (setEng d n f).muz = d.muz := rfl
@[simp] theorem setEng_glb (d : Dev) (n : Nat) (f : Eng → Eng) : (setEng d n f).glb = d.glb := rfl
@[simp] theorem setEng_fcl (d : Dev) (n : Nat) (f : Eng → Eng) : (setEng d n f).fcl = d.fcl := rfl
@[simp] theorem setEng_mei (d : Dev) (n : Nat) (f : Eng → Eng) : (setEng d n f).mei = d.mei := rfl
@[simp] theorem setEng_hlk (d : Dev) (n : Nat) (f : Eng → Eng) : (setEng d n f).hlk = d.hlk := rfl
@[simp] theorem setEng_chans (d : Dev) (n : Nat) (f : Eng → Eng) : (setEng d n f).chans = d.chans := rfl
@[simp] theorem setEng_pmu (d : Dev) (n : Nat) (f : Eng → Eng) : (setEng d n f).pmu = d.pmu := rfl
@[simp] theorem setEng_stc (d : Dev) (n : Nat) (f : Eng → Eng) : (setEng d n f).stc = d.stc := rfl
@[simp] theorem setEng_bob (d : Dev) (n : Nat) (f : Eng → Eng) : (setEng d n f).bob = d.bob := rfl
@[simp] theorem setEng_glr (d : Dev) (n : Nat) (f : Eng → Eng) : (setEng d n f).glr = d.glr := rfl
@[simp] theorem setEng_tag (d : Dev) (n : Nat) (f : Eng → Eng) : (setEng d n f).tag = d.tag := rfl
@[simp] theorem setEng_cdcHi (d : Dev) (n : Nat) (f : Eng → Eng) : (setEng d n f).cdcHi = d.cdcHi := rfl
@[simp] theorem setEng_chks (d : Dev) (n : Nat) (f : Eng → Eng) : (setEng d n f).chks = d.chks := rfl
@[simp] theorem setEng_testing (d : Dev) (n : Nat) (f : Eng → Eng) : (setEng d n f).testing = d.testing := rfl
@[simp] theorem setEng_secs (d : Dev) (n : Nat) (f : Eng → Eng) : (setEng d n f).secs = d.secs := rfl
@[simp] theorem setEng_spl (d : Dev) (n : Nat) (f : Eng → Eng) : (setEng d n f).spl = d.spl := rfl
@[simp] theorem setEng_xpd (d : Dev) (n : Nat) (f : Eng → Eng) : (setEng d n f).xpd = d.xpd := rfl
@[simp] theorem setEng_ver (d : Dev) (n : Nat) (f : Eng → Eng) : (setEng d n f).ver = d.ver := rfl
@[simp] theorem setEng_nvm (d : Dev) (n : Nat) (f : Eng → Eng) : (setEng d n f).nvm = d.nvm := rfl
@[simp] theorem setEng_knl (d : Dev) (n : Nat) (f : Eng → Eng) : (setEng d n f).knl = d.knl := rfl
@[simp] theorem setEng_tim (d : Dev) (n : Nat) (f : Eng → Eng) : (setEng d n f).tim = d.tim := rfl
@[simp] theorem setEng_hel (d : Dev) (n : Nat) (f : Eng → Eng) : (setEng d n f).hel = d.hel := rfl

@[simp] theorem setLane_regs (d : Dev) (n : Nat) (f : Lane → Lane) : (setLane d n f).regs = d.regs := rfl
@[simp] theorem setLane_bar2 (d : Dev) (n : Nat) (f : Lane → Lane) : (setLane d n f).bar2 = d.bar2 := rfl
@[simp] theorem setLane_infoHeld (d : Dev) (n : Nat) (f : Lane → Lane) : (setLane d n f).infoHeld = d.infoHeld := rfl
@[simp] theorem setLane_pins (d : Dev) (n : Nat) (f : Lane → Lane) : (setLane d n f).pins = d.pins := rfl
@[simp] theorem setLane_outs (d : Dev) (n : Nat) (f : Lane → Lane) : (setLane d n f).outs = d.outs := rfl
@[simp] theorem setLane_free (d : Dev) (n : Nat) (f : Lane → Lane) : (setLane d n f).free = d.free := rfl
@[simp] theorem setLane_hbm (d : Dev) (n : Nat) (f : Lane → Lane) : (setLane d n f).hbm = d.hbm := rfl
@[simp] theorem setLane_poison (d : Dev) (n : Nat) (f : Lane → Lane) : (setLane d n f).poison = d.poison := rfl
@[simp] theorem setLane_exp (d : Dev) (n : Nat) (f : Lane → Lane) : (setLane d n f).exp = d.exp := rfl
@[simp] theorem setLane_muz (d : Dev) (n : Nat) (f : Lane → Lane) : (setLane d n f).muz = d.muz := rfl
@[simp] theorem setLane_glb (d : Dev) (n : Nat) (f : Lane → Lane) : (setLane d n f).glb = d.glb := rfl
@[simp] theorem setLane_fcl (d : Dev) (n : Nat) (f : Lane → Lane) : (setLane d n f).fcl = d.fcl := rfl
@[simp] theorem setLane_mei (d : Dev) (n : Nat) (f : Lane → Lane) : (setLane d n f).mei = d.mei := rfl
@[simp] theorem setLane_hlk (d : Dev) (n : Nat) (f : Lane → Lane) : (setLane d n f).hlk = d.hlk := rfl
@[simp] theorem setLane_chans (d : Dev) (n : Nat) (f : Lane → Lane) : (setLane d n f).chans = d.chans := rfl
@[simp] theorem setLane_pmu (d : Dev) (n : Nat) (f : Lane → Lane) : (setLane d n f).pmu = d.pmu := rfl
@[simp] theorem setLane_stc (d : Dev) (n : Nat) (f : Lane → Lane) : (setLane d n f).stc = d.stc := rfl
@[simp] theorem setLane_bob (d : Dev) (n : Nat) (f : Lane → Lane) : (setLane d n f).bob = d.bob := rfl
@[simp] theorem setLane_tag (d : Dev) (n : Nat) (f : Lane → Lane) : (setLane d n f).tag = d.tag := rfl
@[simp] theorem setLane_cdcHi (d : Dev) (n : Nat) (f : Lane → Lane) : (setLane d n f).cdcHi = d.cdcHi := rfl
@[simp] theorem setLane_chks (d : Dev) (n : Nat) (f : Lane → Lane) : (setLane d n f).chks = d.chks := rfl
@[simp] theorem setLane_testing (d : Dev) (n : Nat) (f : Lane → Lane) : (setLane d n f).testing = d.testing := rfl
@[simp] theorem setLane_secs (d : Dev) (n : Nat) (f : Lane → Lane) : (setLane d n f).secs = d.secs := rfl
@[simp] theorem setLane_spl (d : Dev) (n : Nat) (f : Lane → Lane) : (setLane d n f).spl = d.spl := rfl
@[simp] theorem setLane_xpd (d : Dev) (n : Nat) (f : Lane → Lane) : (setLane d n f).xpd = d.xpd := rfl
@[simp] theorem setLane_engs (d : Dev) (n : Nat) (f : Lane → Lane) : (setLane d n f).engs = d.engs := rfl
@[simp] theorem setLane_ver (d : Dev) (n : Nat) (f : Lane → Lane) : (setLane d n f).ver = d.ver := rfl
@[simp] theorem setLane_nvm (d : Dev) (n : Nat) (f : Lane → Lane) : (setLane d n f).nvm = d.nvm := rfl
@[simp] theorem setLane_knl (d : Dev) (n : Nat) (f : Lane → Lane) : (setLane d n f).knl = d.knl := rfl
@[simp] theorem setLane_tim (d : Dev) (n : Nat) (f : Lane → Lane) : (setLane d n f).tim = d.tim := rfl
@[simp] theorem setLane_hel (d : Dev) (n : Nat) (f : Lane → Lane) : (setLane d n f).hel = d.hel := rfl

@[simp] theorem setPd_regs (d : Dev) (n : Nat) (f : Pd → Pd) : (setPd d n f).regs = d.regs := rfl
@[simp] theorem setPd_bar2 (d : Dev) (n : Nat) (f : Pd → Pd) : (setPd d n f).bar2 = d.bar2 := rfl
@[simp] theorem setPd_infoHeld (d : Dev) (n : Nat) (f : Pd → Pd) : (setPd d n f).infoHeld = d.infoHeld := rfl
@[simp] theorem setPd_pins (d : Dev) (n : Nat) (f : Pd → Pd) : (setPd d n f).pins = d.pins := rfl
@[simp] theorem setPd_outs (d : Dev) (n : Nat) (f : Pd → Pd) : (setPd d n f).outs = d.outs := rfl
@[simp] theorem setPd_free (d : Dev) (n : Nat) (f : Pd → Pd) : (setPd d n f).free = d.free := rfl
@[simp] theorem setPd_hbm (d : Dev) (n : Nat) (f : Pd → Pd) : (setPd d n f).hbm = d.hbm := rfl
@[simp] theorem setPd_poison (d : Dev) (n : Nat) (f : Pd → Pd) : (setPd d n f).poison = d.poison := rfl
@[simp] theorem setPd_exp (d : Dev) (n : Nat) (f : Pd → Pd) : (setPd d n f).exp = d.exp := rfl
@[simp] theorem setPd_muz (d : Dev) (n : Nat) (f : Pd → Pd) : (setPd d n f).muz = d.muz := rfl
@[simp] theorem setPd_glb (d : Dev) (n : Nat) (f : Pd → Pd) : (setPd d n f).glb = d.glb := rfl
@[simp] theorem setPd_fcl (d : Dev) (n : Nat) (f : Pd → Pd) : (setPd d n f).fcl = d.fcl := rfl
@[simp] theorem setPd_mei (d : Dev) (n : Nat) (f : Pd → Pd) : (setPd d n f).mei = d.mei := rfl
@[simp] theorem setPd_hlk (d : Dev) (n : Nat) (f : Pd → Pd) : (setPd d n f).hlk = d.hlk := rfl
@[simp] theorem setPd_chans (d : Dev) (n : Nat) (f : Pd → Pd) : (setPd d n f).chans = d.chans := rfl
@[simp] theorem setPd_stc (d : Dev) (n : Nat) (f : Pd → Pd) : (setPd d n f).stc = d.stc := rfl
@[simp] theorem setPd_bob (d : Dev) (n : Nat) (f : Pd → Pd) : (setPd d n f).bob = d.bob := rfl
@[simp] theorem setPd_glr (d : Dev) (n : Nat) (f : Pd → Pd) : (setPd d n f).glr = d.glr := rfl
@[simp] theorem setPd_tag (d : Dev) (n : Nat) (f : Pd → Pd) : (setPd d n f).tag = d.tag := rfl
@[simp] theorem setPd_cdcHi (d : Dev) (n : Nat) (f : Pd → Pd) : (setPd d n f).cdcHi = d.cdcHi := rfl
@[simp] theorem setPd_chks (d : Dev) (n : Nat) (f : Pd → Pd) : (setPd d n f).chks = d.chks := rfl
@[simp] theorem setPd_testing (d : Dev) (n : Nat) (f : Pd → Pd) : (setPd d n f).testing = d.testing := rfl
@[simp] theorem setPd_secs (d : Dev) (n : Nat) (f : Pd → Pd) : (setPd d n f).secs = d.secs := rfl
@[simp] theorem setPd_spl (d : Dev) (n : Nat) (f : Pd → Pd) : (setPd d n f).spl = d.spl := rfl
@[simp] theorem setPd_xpd (d : Dev) (n : Nat) (f : Pd → Pd) : (setPd d n f).xpd = d.xpd := rfl
@[simp] theorem setPd_engs (d : Dev) (n : Nat) (f : Pd → Pd) : (setPd d n f).engs = d.engs := rfl
@[simp] theorem setPd_ver (d : Dev) (n : Nat) (f : Pd → Pd) : (setPd d n f).ver = d.ver := rfl
@[simp] theorem setPd_nvm (d : Dev) (n : Nat) (f : Pd → Pd) : (setPd d n f).nvm = d.nvm := rfl
@[simp] theorem setPd_knl (d : Dev) (n : Nat) (f : Pd → Pd) : (setPd d n f).knl = d.knl := rfl
@[simp] theorem setPd_tim (d : Dev) (n : Nat) (f : Pd → Pd) : (setPd d n f).tim = d.tim := rfl
@[simp] theorem setPd_hel (d : Dev) (n : Nat) (f : Pd → Pd) : (setPd d n f).hel = d.hel := rfl

@[simp] theorem setTile_regs (d : Dev) (n : Nat) (f : Tile → Tile) : (setTile d n f).regs = d.regs := rfl
@[simp] theorem setTile_bar2 (d : Dev) (n : Nat) (f : Tile → Tile) : (setTile d n f).bar2 = d.bar2 := rfl
@[simp] theorem setTile_infoHeld (d : Dev) (n : Nat) (f : Tile → Tile) : (setTile d n f).infoHeld = d.infoHeld := rfl
@[simp] theorem setTile_pins (d : Dev) (n : Nat) (f : Tile → Tile) : (setTile d n f).pins = d.pins := rfl
@[simp] theorem setTile_outs (d : Dev) (n : Nat) (f : Tile → Tile) : (setTile d n f).outs = d.outs := rfl
@[simp] theorem setTile_free (d : Dev) (n : Nat) (f : Tile → Tile) : (setTile d n f).free = d.free := rfl
@[simp] theorem setTile_hbm (d : Dev) (n : Nat) (f : Tile → Tile) : (setTile d n f).hbm = d.hbm := rfl
@[simp] theorem setTile_poison (d : Dev) (n : Nat) (f : Tile → Tile) : (setTile d n f).poison = d.poison := rfl
@[simp] theorem setTile_exp (d : Dev) (n : Nat) (f : Tile → Tile) : (setTile d n f).exp = d.exp := rfl
@[simp] theorem setTile_muz (d : Dev) (n : Nat) (f : Tile → Tile) : (setTile d n f).muz = d.muz := rfl
@[simp] theorem setTile_glb (d : Dev) (n : Nat) (f : Tile → Tile) : (setTile d n f).glb = d.glb := rfl
@[simp] theorem setTile_fcl (d : Dev) (n : Nat) (f : Tile → Tile) : (setTile d n f).fcl = d.fcl := rfl
@[simp] theorem setTile_mei (d : Dev) (n : Nat) (f : Tile → Tile) : (setTile d n f).mei = d.mei := rfl
@[simp] theorem setTile_hlk (d : Dev) (n : Nat) (f : Tile → Tile) : (setTile d n f).hlk = d.hlk := rfl
@[simp] theorem setTile_chans (d : Dev) (n : Nat) (f : Tile → Tile) : (setTile d n f).chans = d.chans := rfl
@[simp] theorem setTile_pmu (d : Dev) (n : Nat) (f : Tile → Tile) : (setTile d n f).pmu = d.pmu := rfl
@[simp] theorem setTile_stc (d : Dev) (n : Nat) (f : Tile → Tile) : (setTile d n f).stc = d.stc := rfl
@[simp] theorem setTile_bob (d : Dev) (n : Nat) (f : Tile → Tile) : (setTile d n f).bob = d.bob := rfl
@[simp] theorem setTile_glr (d : Dev) (n : Nat) (f : Tile → Tile) : (setTile d n f).glr = d.glr := rfl
@[simp] theorem setTile_tag (d : Dev) (n : Nat) (f : Tile → Tile) : (setTile d n f).tag = d.tag := rfl
@[simp] theorem setTile_cdcHi (d : Dev) (n : Nat) (f : Tile → Tile) : (setTile d n f).cdcHi = d.cdcHi := rfl
@[simp] theorem setTile_chks (d : Dev) (n : Nat) (f : Tile → Tile) : (setTile d n f).chks = d.chks := rfl
@[simp] theorem setTile_testing (d : Dev) (n : Nat) (f : Tile → Tile) : (setTile d n f).testing = d.testing := rfl
@[simp] theorem setTile_secs (d : Dev) (n : Nat) (f : Tile → Tile) : (setTile d n f).secs = d.secs := rfl
@[simp] theorem setTile_spl (d : Dev) (n : Nat) (f : Tile → Tile) : (setTile d n f).spl = d.spl := rfl
@[simp] theorem setTile_xpd (d : Dev) (n : Nat) (f : Tile → Tile) : (setTile d n f).xpd = d.xpd := rfl
@[simp] theorem setTile_engs (d : Dev) (n : Nat) (f : Tile → Tile) : (setTile d n f).engs = d.engs := rfl
@[simp] theorem setTile_nvm (d : Dev) (n : Nat) (f : Tile → Tile) : (setTile d n f).nvm = d.nvm := rfl
@[simp] theorem setTile_knl (d : Dev) (n : Nat) (f : Tile → Tile) : (setTile d n f).knl = d.knl := rfl
@[simp] theorem setTile_tim (d : Dev) (n : Nat) (f : Tile → Tile) : (setTile d n f).tim = d.tim := rfl
@[simp] theorem setTile_hel (d : Dev) (n : Nat) (f : Tile → Tile) : (setTile d n f).hel = d.hel := rfl

@[simp] theorem setSec_regs (d : Dev) (k : Nat) (f : Sec → Sec) : (setSec d k f).regs = d.regs := rfl
@[simp] theorem setSec_bar2 (d : Dev) (k : Nat) (f : Sec → Sec) : (setSec d k f).bar2 = d.bar2 := rfl
@[simp] theorem setSec_infoHeld (d : Dev) (k : Nat) (f : Sec → Sec) : (setSec d k f).infoHeld = d.infoHeld := rfl
@[simp] theorem setSec_pins (d : Dev) (k : Nat) (f : Sec → Sec) : (setSec d k f).pins = d.pins := rfl
@[simp] theorem setSec_outs (d : Dev) (k : Nat) (f : Sec → Sec) : (setSec d k f).outs = d.outs := rfl
@[simp] theorem setSec_free (d : Dev) (k : Nat) (f : Sec → Sec) : (setSec d k f).free = d.free := rfl
@[simp] theorem setSec_hbm (d : Dev) (k : Nat) (f : Sec → Sec) : (setSec d k f).hbm = d.hbm := rfl
@[simp] theorem setSec_poison (d : Dev) (k : Nat) (f : Sec → Sec) : (setSec d k f).poison = d.poison := rfl
@[simp] theorem setSec_exp (d : Dev) (k : Nat) (f : Sec → Sec) : (setSec d k f).exp = d.exp := rfl
@[simp] theorem setSec_muz (d : Dev) (k : Nat) (f : Sec → Sec) : (setSec d k f).muz = d.muz := rfl
@[simp] theorem setSec_glb (d : Dev) (k : Nat) (f : Sec → Sec) : (setSec d k f).glb = d.glb := rfl
@[simp] theorem setSec_fcl (d : Dev) (k : Nat) (f : Sec → Sec) : (setSec d k f).fcl = d.fcl := rfl
@[simp] theorem setSec_mei (d : Dev) (k : Nat) (f : Sec → Sec) : (setSec d k f).mei = d.mei := rfl
@[simp] theorem setSec_hlk (d : Dev) (k : Nat) (f : Sec → Sec) : (setSec d k f).hlk = d.hlk := rfl
@[simp] theorem setSec_chans (d : Dev) (k : Nat) (f : Sec → Sec) : (setSec d k f).chans = d.chans := rfl
@[simp] theorem setSec_pmu (d : Dev) (k : Nat) (f : Sec → Sec) : (setSec d k f).pmu = d.pmu := rfl
@[simp] theorem setSec_stc (d : Dev) (k : Nat) (f : Sec → Sec) : (setSec d k f).stc = d.stc := rfl
@[simp] theorem setSec_bob (d : Dev) (k : Nat) (f : Sec → Sec) : (setSec d k f).bob = d.bob := rfl
@[simp] theorem setSec_glr (d : Dev) (k : Nat) (f : Sec → Sec) : (setSec d k f).glr = d.glr := rfl
@[simp] theorem setSec_tag (d : Dev) (k : Nat) (f : Sec → Sec) : (setSec d k f).tag = d.tag := rfl
@[simp] theorem setSec_cdcHi (d : Dev) (k : Nat) (f : Sec → Sec) : (setSec d k f).cdcHi = d.cdcHi := rfl
@[simp] theorem setSec_chks (d : Dev) (k : Nat) (f : Sec → Sec) : (setSec d k f).chks = d.chks := rfl
@[simp] theorem setSec_testing (d : Dev) (k : Nat) (f : Sec → Sec) : (setSec d k f).testing = d.testing := rfl
@[simp] theorem setSec_spl (d : Dev) (k : Nat) (f : Sec → Sec) : (setSec d k f).spl = d.spl := rfl
@[simp] theorem setSec_xpd (d : Dev) (k : Nat) (f : Sec → Sec) : (setSec d k f).xpd = d.xpd := rfl
@[simp] theorem setSec_engs (d : Dev) (k : Nat) (f : Sec → Sec) : (setSec d k f).engs = d.engs := rfl
@[simp] theorem setSec_ver (d : Dev) (k : Nat) (f : Sec → Sec) : (setSec d k f).ver = d.ver := rfl
@[simp] theorem setSec_nvm (d : Dev) (k : Nat) (f : Sec → Sec) : (setSec d k f).nvm = d.nvm := rfl
@[simp] theorem setSec_knl (d : Dev) (k : Nat) (f : Sec → Sec) : (setSec d k f).knl = d.knl := rfl
@[simp] theorem setSec_tim (d : Dev) (k : Nat) (f : Sec → Sec) : (setSec d k f).tim = d.tim := rfl
@[simp] theorem setSec_hel (d : Dev) (k : Nat) (f : Sec → Sec) : (setSec d k f).hel = d.hel := rfl

@[simp] theorem setRun_regs (d : Dev) (f : Run → Run) : (setRun d f).regs = d.regs := rfl
@[simp] theorem setRun_bar2 (d : Dev) (f : Run → Run) : (setRun d f).bar2 = d.bar2 := rfl
@[simp] theorem setRun_infoHeld (d : Dev) (f : Run → Run) : (setRun d f).infoHeld = d.infoHeld := rfl
@[simp] theorem setRun_pins (d : Dev) (f : Run → Run) : (setRun d f).pins = d.pins := rfl
@[simp] theorem setRun_outs (d : Dev) (f : Run → Run) : (setRun d f).outs = d.outs := rfl
@[simp] theorem setRun_free (d : Dev) (f : Run → Run) : (setRun d f).free = d.free := rfl
@[simp] theorem setRun_hbm (d : Dev) (f : Run → Run) : (setRun d f).hbm = d.hbm := rfl
@[simp] theorem setRun_poison (d : Dev) (f : Run → Run) : (setRun d f).poison = d.poison := rfl
@[simp] theorem setRun_muz (d : Dev) (f : Run → Run) : (setRun d f).muz = d.muz := rfl
@[simp] theorem setRun_glb (d : Dev) (f : Run → Run) : (setRun d f).glb = d.glb := rfl
@[simp] theorem setRun_fcl (d : Dev) (f : Run → Run) : (setRun d f).fcl = d.fcl := rfl
@[simp] theorem setRun_mei (d : Dev) (f : Run → Run) : (setRun d f).mei = d.mei := rfl
@[simp] theorem setRun_hlk (d : Dev) (f : Run → Run) : (setRun d f).hlk = d.hlk := rfl
@[simp] theorem setRun_chans (d : Dev) (f : Run → Run) : (setRun d f).chans = d.chans := rfl
@[simp] theorem setRun_pmu (d : Dev) (f : Run → Run) : (setRun d f).pmu = d.pmu := rfl
@[simp] theorem setRun_stc (d : Dev) (f : Run → Run) : (setRun d f).stc = d.stc := rfl
@[simp] theorem setRun_bob (d : Dev) (f : Run → Run) : (setRun d f).bob = d.bob := rfl
@[simp] theorem setRun_glr (d : Dev) (f : Run → Run) : (setRun d f).glr = d.glr := rfl
@[simp] theorem setRun_tag (d : Dev) (f : Run → Run) : (setRun d f).tag = d.tag := rfl
@[simp] theorem setRun_cdcHi (d : Dev) (f : Run → Run) : (setRun d f).cdcHi = d.cdcHi := rfl
@[simp] theorem setRun_chks (d : Dev) (f : Run → Run) : (setRun d f).chks = d.chks := rfl
@[simp] theorem setRun_testing (d : Dev) (f : Run → Run) : (setRun d f).testing = d.testing := rfl
@[simp] theorem setRun_secs (d : Dev) (f : Run → Run) : (setRun d f).secs = d.secs := rfl
@[simp] theorem setRun_spl (d : Dev) (f : Run → Run) : (setRun d f).spl = d.spl := rfl
@[simp] theorem setRun_xpd (d : Dev) (f : Run → Run) : (setRun d f).xpd = d.xpd := rfl
@[simp] theorem setRun_engs (d : Dev) (f : Run → Run) : (setRun d f).engs = d.engs := rfl
@[simp] theorem setRun_ver (d : Dev) (f : Run → Run) : (setRun d f).ver = d.ver := rfl
@[simp] theorem setRun_nvm (d : Dev) (f : Run → Run) : (setRun d f).nvm = d.nvm := rfl
@[simp] theorem setRun_knl (d : Dev) (f : Run → Run) : (setRun d f).knl = d.knl := rfl
@[simp] theorem setRun_tim (d : Dev) (f : Run → Run) : (setRun d f).tim = d.tim := rfl
@[simp] theorem setRun_hel (d : Dev) (f : Run → Run) : (setRun d f).hel = d.hel := rfl

@[simp] theorem halt_regs (d : Dev) : (halt d).regs = d.regs := rfl
@[simp] theorem halt_bar2 (d : Dev) : (halt d).bar2 = d.bar2 := rfl
@[simp] theorem halt_infoHeld (d : Dev) : (halt d).infoHeld = d.infoHeld := rfl
@[simp] theorem halt_pins (d : Dev) : (halt d).pins = d.pins := rfl
@[simp] theorem halt_outs (d : Dev) : (halt d).outs = d.outs := rfl
@[simp] theorem halt_free (d : Dev) : (halt d).free = d.free := rfl
@[simp] theorem halt_hbm (d : Dev) : (halt d).hbm = d.hbm := rfl
@[simp] theorem halt_poison (d : Dev) : (halt d).poison = d.poison := rfl
@[simp] theorem halt_muz (d : Dev) : (halt d).muz = d.muz := rfl
@[simp] theorem halt_glb (d : Dev) : (halt d).glb = d.glb := rfl
@[simp] theorem halt_fcl (d : Dev) : (halt d).fcl = d.fcl := rfl
@[simp] theorem halt_mei (d : Dev) : (halt d).mei = d.mei := rfl
@[simp] theorem halt_hlk (d : Dev) : (halt d).hlk = d.hlk := rfl
@[simp] theorem halt_chans (d : Dev) : (halt d).chans = d.chans := rfl
@[simp] theorem halt_pmu (d : Dev) : (halt d).pmu = d.pmu := rfl
@[simp] theorem halt_stc (d : Dev) : (halt d).stc = d.stc := rfl
@[simp] theorem halt_bob (d : Dev) : (halt d).bob = d.bob := rfl
@[simp] theorem halt_glr (d : Dev) : (halt d).glr = d.glr := rfl
@[simp] theorem halt_tag (d : Dev) : (halt d).tag = d.tag := rfl
@[simp] theorem halt_cdcHi (d : Dev) : (halt d).cdcHi = d.cdcHi := rfl
@[simp] theorem halt_chks (d : Dev) : (halt d).chks = d.chks := rfl
@[simp] theorem halt_testing (d : Dev) : (halt d).testing = d.testing := rfl
@[simp] theorem halt_secs (d : Dev) : (halt d).secs = d.secs := rfl
@[simp] theorem halt_spl (d : Dev) : (halt d).spl = d.spl := rfl
@[simp] theorem halt_xpd (d : Dev) : (halt d).xpd = d.xpd := rfl
@[simp] theorem halt_engs (d : Dev) : (halt d).engs = d.engs := rfl
@[simp] theorem halt_ver (d : Dev) : (halt d).ver = d.ver := rfl
@[simp] theorem halt_nvm (d : Dev) : (halt d).nvm = d.nvm := rfl
@[simp] theorem halt_knl (d : Dev) : (halt d).knl = d.knl := rfl
@[simp] theorem halt_tim (d : Dev) : (halt d).tim = d.tim := rfl
@[simp] theorem halt_hel (d : Dev) : (halt d).hel = d.hel := rfl

end Sys2Proof.Machine
end

