-- ==== Sys2Proof/Laws/Words.lean ====
section
/-! SUPPORT. The word store: what a read gives after each named update (R12), bits of a word, and the canonical form that every
write of a word keeps. -/

namespace Sys2Proof.Machine

/-! ### Key lists -/

theorem alGet_alSet {α : Type} (l : List (Nat × α)) (a : Nat) (x : α) (b : Nat) :
    alGet (alSet l a x) b = if b = a then some x else alGet l b := by
  induction l with
  | nil => simp [alSet, alGet]
  | cons e r ih =>
    obtain ⟨k, v⟩ := e
    unfold alSet
    by_cases h1 : a < k
    · simp only [if_pos h1, alGet]
    · rw [if_neg h1]
      by_cases h2 : a = k
      · subst h2
        rw [if_pos rfl]
        simp only [alGet]
        by_cases h3 : b = a
        · rw [if_pos h3, if_pos h3]
        · rw [if_neg h3, if_neg h3, if_neg h3]
      · rw [if_neg h2]
        simp only [alGet, ih]
        by_cases h3 : b = k
        · subst h3
          rw [if_pos rfl, if_neg (fun h => h2 h.symm), if_pos rfl]
        · rw [if_neg h3, if_neg h3]

theorem alGet_alDel {α : Type} (l : List (Nat × α)) (a b : Nat) :
    alGet (alDel l a) b = if b = a then none else alGet l b := by
  induction l with
  | nil => simp [alDel, alGet]
  | cons e r ih =>
    obtain ⟨k, v⟩ := e
    unfold alDel
    by_cases h : a = k
    · subst h
      rw [if_pos rfl, ih]
      simp only [alGet]
      by_cases hb : b = a
      · rw [if_pos hb, if_pos hb]
      · rw [if_neg hb, if_neg hb, if_neg hb]
    · rw [if_neg h]
      simp only [alGet, ih]
      by_cases hb : b = k
      · subst hb
        rw [if_pos rfl, if_neg (fun h' => h h'.symm), if_pos rfl]
      · rw [if_neg hb, if_neg hb]

/-! ### Words -/

/-- A word reads as it was last written (R12). -/
theorem rg_wr (d : Dev) (a : Nat) (v : W32) (b : Nat) : rg (wr d a v) b = if b = a then v else rg d b := by
  unfold rg wr
  dsimp only
  by_cases hv : v = w32 (wordReset a)
  · rw [if_pos hv, alGet_alDel]
    by_cases hb : b = a
    · subst hb; rw [if_pos rfl, if_pos rfl, hv]; rfl
    · rw [if_neg hb, if_neg hb]
  · rw [if_neg hv, alGet_alSet]
    by_cases hb : b = a
    · subst hb; rw [if_pos rfl, if_pos rfl]; rfl
    · rw [if_neg hb, if_neg hb]

@[simp] theorem rg_wr_self (d : Dev) (a : Nat) (v : W32) : rg (wr d a v) a = v := by rw [rg_wr, if_pos rfl]

theorem rg_wr_ne (d : Dev) {a b : Nat} (v : W32) (h : b ≠ a) : rg (wr d a v) b = rg d b := by rw [rg_wr, if_neg h]

/-- Reading depends on the word store alone. -/
theorem rg_congr {d e : Dev} (h : d.regs = e.regs) (a : Nat) : rg d a = rg e a := by unfold rg; rw [h]

@[simp] theorem rg_emit (d : Dev) (o : Out) (a : Nat) : rg (emit d o) a = rg d a := rfl
@[simp] theorem rg_emitAll (d : Dev) (os : List Out) (a : Nat) : rg (emitAll d os) a = rg d a := rg_congr (emitAll_regs d os) a
@[simp] theorem rg_drive (d : Dev) (a : Nat) : rg (drive d) a = rg d a := rg_congr (drive_regs d) a
@[simp] theorem rg_takeFree (d : Dev) (a : Nat) : rg (takeFree d).2 a = rg d a := rfl
@[simp] theorem rg_sendMsix (d : Dev) (v a : Nat) : rg (sendMsix d v) a = rg d a := rg_congr (sendMsix_regs d v) a
@[simp] theorem rg_setExp (d : Dev) (f : Exp → Exp) (a : Nat) : rg (setExp d f) a = rg d a := rfl
@[simp] theorem rg_setMuz (d : Dev) (f : Muz → Muz) (a : Nat) : rg (setMuz d f) a = rg d a := rfl
@[simp] theorem rg_setFcl (d : Dev) (f : Fcl → Fcl) (a : Nat) : rg (setFcl d f) a = rg d a := rfl
@[simp] theorem rg_setMei (d : Dev) (f : Mei → Mei) (a : Nat) : rg (setMei d f) a = rg d a := rfl
@[simp] theorem rg_setGlr (d : Dev) (f : Glr → Glr) (a : Nat) : rg (setGlr d f) a = rg d a := rfl
@[simp] theorem rg_setBob (d : Dev) (f : Bob → Bob) (a : Nat) : rg (setBob d f) a = rg d a := rfl
@[simp] theorem rg_setHel (d : Dev) (f : Hel → Hel) (a : Nat) : rg (setHel d f) a = rg d a := rfl
@[simp] theorem rg_setKnl (d : Dev) (f : Knl → Knl) (a : Nat) : rg (setKnl d f) a = rg d a := rfl
@[simp] theorem rg_setNvm (d : Dev) (f : Nvm → Nvm) (a : Nat) : rg (setNvm d f) a = rg d a := rfl
@[simp] theorem rg_setPmu (d : Dev) (f : Pmu → Pmu) (a : Nat) : rg (setPmu d f) a = rg d a := rfl
@[simp] theorem rg_setSpl (d : Dev) (f : Spl → Spl) (a : Nat) : rg (setSpl d f) a = rg d a := rfl
@[simp] theorem rg_setTim (d : Dev) (f : Tim → Tim) (a : Nat) : rg (setTim d f) a = rg d a := rfl
@[simp] theorem rg_setVer (d : Dev) (f : Ver → Ver) (a : Nat) : rg (setVer d f) a = rg d a := rfl
@[simp] theorem rg_setXpd (d : Dev) (f : Xpd → Xpd) (a : Nat) : rg (setXpd d f) a = rg d a := rfl
@[simp] theorem rg_setDbm (d : Dev) (f : Dbm → Dbm) (a : Nat) : rg (setDbm d f) a = rg d a := rfl
@[simp] theorem rg_setChan (d : Dev) (n : Nat) (f : Chan → Chan) (a : Nat) : rg (setChan d n f) a = rg d a := rfl
@[simp] theorem rg_setEng (d : Dev) (n : Nat) (f : Eng → Eng) (a : Nat) : rg (setEng d n f) a = rg d a := rfl
@[simp] theorem rg_setLane (d : Dev) (n : Nat) (f : Lane → Lane) (a : Nat) : rg (setLane d n f) a = rg d a := rfl
@[simp] theorem rg_setPd (d : Dev) (n : Nat) (f : Pd → Pd) (a : Nat) : rg (setPd d n f) a = rg d a := rfl
@[simp] theorem rg_setTile (d : Dev) (n : Nat) (f : Tile → Tile) (a : Nat) : rg (setTile d n f) a = rg d a := rfl
@[simp] theorem rg_setSec (d : Dev) (k : Nat) (f : Sec → Sec) (a : Nat) : rg (setSec d k f) a = rg d a := rfl
@[simp] theorem rg_setRun (d : Dev) (f : Run → Run) (a : Nat) : rg (setRun d f) a = rg d a := rfl
@[simp] theorem rg_halt (d : Dev) (a : Nat) : rg (halt d) a = rg d a := rfl

theorem rg_setFd (d : Dev) (a hi lo v b : Nat) :
    rg (setFd d a hi lo v) b = if b = a then setBits (rg d a) hi lo v else rg d b := rg_wr d a _ b

theorem rg_addReg (d : Dev) (a n b : Nat) : rg (addReg d a n) b = if b = a then rg d a + w32 n else rg d b := rg_wr d a _ b

theorem rg_inc (d : Dev) (a b : Nat) : rg (inc d a) b = if b = a then rg d a + 1 else rg d b := rg_wr d a _ b

/-- An event changes no word but _EVT_PEND of its page (R738). -/
theorem rg_evt (d : Dev) (base b a : Nat) :
    rg (evt d base b) a = if a = base + oEVTPEND then putBit (rg d (base + oEVTPEND)) b true else rg d a := by
  unfold evt
  dsimp only
  split
  · rw [rg_sendMsix, rg_wr]
  · rw [rg_wr]

theorem rg_evt_ne (d : Dev) (base b : Nat) {a : Nat} (h : a ≠ base + oEVTPEND) : rg (evt d base b) a = rg d a := by
  rw [rg_evt, if_neg h]

/-- What an event does to HLK: at most, it leaves a message pending (R494, R741). -/
theorem evt_hlk (d : Dev) (base b : Nat) :
    (evt d base b).hlk = { d.hlk with msixPend := (evt d base b).hlk.msixPend } := by
  unfold evt sendMsix
  dsimp only
  split
  · split
    · rfl
    · split <;> rfl
  · rfl

/-! ### Bits of a word -/

theorem bit_one_shl (i j : Nat) (h : i < 32) (hj : j < 32) : bit (w32 (1 <<< i)) j = decide (j = i) := by
  unfold bit w32
  rw [BitVec.getLsbD_ofNat, Nat.one_shiftLeft, Nat.testBit_two_pow]
  by_cases e : i = j
  · subst e; simp [h]
  · simp [e, hj]; exact fun h => e h.symm

/-- Bit `j` of a word after bit `i` is set or cleared. -/
theorem bit_putBit (w : W32) (i : Nat) (b : Bool) (j : Nat) (h : i < 32) :
    bit (putBit w i b) j = if j = i then b else bit w j := by
  have hm : maskOf i i = 1 <<< i := by unfold maskOf; simp
  have key : ∀ v : W32, bit ((w &&& ~~~ w32 (maskOf i i)) ||| v) j
      = ((bit w j && (decide (j < 32) && !bit (w32 (1 <<< i)) j)) || bit v j) := by
    intro v; unfold bit; rw [hm]; simp only [BitVec.getLsbD_or, BitVec.getLsbD_and, BitVec.getLsbD_not]
  unfold putBit setBits
  rw [key]
  by_cases hj : j < 32
  · rw [bit_one_shl i j h hj]
    cases b
    · have : bit (w32 (((if false = true then 1 else 0) % 2 ^ (i - i + 1)) <<< i)) j = false := by
        unfold bit w32; simp
      rw [this]
      by_cases e : j = i <;> simp [e, hj]
    · have : bit (w32 (((if true = true then 1 else 0) % 2 ^ (i - i + 1)) <<< i)) j = decide (j = i) := by
        rw [show (if true = true then 1 else 0) % 2 ^ (i - i + 1) = 1 by simp]
        exact bit_one_shl i j h hj
      rw [this]
      by_cases e : j = i <;> simp [e, hj]
  · have e : j ≠ i := by omega
    have hw : ∀ v : W32, bit v j = false := fun v => BitVec.getLsbD_of_ge v j (by omega)
    simp [hw, e]

/-! ### The canonical form -/

theorem alSet_mem {α : Type} (l : List (Nat × α)) (a : Nat) (x : α) (e : Nat × α) (h : e ∈ alSet l a x) :
    e = (a, x) ∨ e ∈ l := by
  induction l with
  | nil => simpa [alSet] using h
  | cons c r ih =>
    obtain ⟨k, v⟩ := c
    unfold alSet at h
    split at h
    · simpa using h
    · split at h
      · rcases List.mem_cons.1 h with h | h
        · exact .inl h
        · exact .inr (List.mem_cons_of_mem _ h)
      · rcases List.mem_cons.1 h with h | h
        · exact .inr (h ▸ List.mem_cons_self)
        · rcases ih h with h | h
          · exact .inl h
          · exact .inr (List.mem_cons_of_mem _ h)

theorem alDel_mem {α : Type} (l : List (Nat × α)) (a : Nat) (e : Nat × α) (h : e ∈ alDel l a) : e ∈ l := by
  induction l with
  | nil => simp [alDel] at h
  | cons c r ih =>
    obtain ⟨k, v⟩ := c
    unfold alDel at h
    split at h
    · exact List.mem_cons_of_mem _ (ih h)
    · rcases List.mem_cons.1 h with h | h
      · exact h ▸ List.mem_cons_self
      · exact List.mem_cons_of_mem _ (ih h)

theorem alSet_rising {α : Type} (l : List (Nat × α)) (a : Nat) (x : α)
    (h : l.Pairwise (fun e f => e.1 < f.1)) : (alSet l a x).Pairwise (fun e f => e.1 < f.1) := by
  induction l with
  | nil => simp [alSet]
  | cons c r ih =>
    obtain ⟨k, v⟩ := c
    have h' := List.pairwise_cons.1 h
    unfold alSet
    split
    · rename_i hlt
      refine List.pairwise_cons.2 ⟨fun e he => ?_, h⟩
      rcases List.mem_cons.1 he with he | he
      · subst he; exact hlt
      · exact Nat.lt_trans hlt (h'.1 e he)
    · split
      · rename_i heq
        subst heq
        exact List.pairwise_cons.2 ⟨h'.1, h'.2⟩
      · rename_i hn hne
        refine List.pairwise_cons.2 ⟨fun e he => ?_, ih h'.2⟩
        rcases alSet_mem r a x e he with he | he
        · subst he; dsimp only; omega
        · exact h'.1 e he

theorem alDel_rising {α : Type} (l : List (Nat × α)) (a : Nat)
    (h : l.Pairwise (fun e f => e.1 < f.1)) : (alDel l a).Pairwise (fun e f => e.1 < f.1) := by
  induction l with
  | nil => simp [alDel]
  | cons c r ih =>
    obtain ⟨k, v⟩ := c
    have h' := List.pairwise_cons.1 h
    unfold alDel
    split
    · exact ih h'.2
    · exact List.pairwise_cons.2 ⟨fun e he => h'.1 e (alDel_mem r a e he), ih h'.2⟩

/-- A write of a word keeps the word store canonical. -/
theorem wr_canonical (d : Dev) (a : Nat) (v : W32) (h : WordsCanonical d) : WordsCanonical (wr d a v) := by
  unfold WordsCanonical wr at *
  dsimp only
  split
  · exact ⟨alDel_rising _ _ h.1, fun e he => h.2 e (alDel_mem _ _ e he)⟩
  · rename_i hv
    refine ⟨alSet_rising _ _ _ h.1, fun e he => ?_⟩
    rcases alSet_mem _ _ _ e he with he | he
    · subst he; exact hv
    · exact h.2 e he

end Sys2Proof.Machine
end

