-- ==== Sys2Proof/Laws/Frame.lean ====
section
/-! SUPPORT. Frames: two states of the block that agree on a view of the typed state and on every word outside a set. -/

namespace Sys2Proof.Machine

/-- `e` agrees with `d` on the view `R`, and on every word outside `W`. -/
structure Frame (W : Nat → Prop) (R : Dev → Dev) (d e : Dev) : Prop where
  view : R e = R d
  words : ∀ a, ¬W a → rg e a = rg d a

namespace Frame

variable {W : Nat → Prop} {R : Dev → Dev} {d e f : Dev}

theorem refl (d : Dev) : Frame W R d d := ⟨rfl, fun _ _ => rfl⟩

theorem trans (h : Frame W R d e) (k : Frame W R e f) : Frame W R d f :=
  ⟨k.1.trans h.1, fun a ha => (k.2 a ha).trans (h.2 a ha)⟩

/-- The later part first. -/
theorem after (k : Frame W R e f) (h : Frame W R d e) : Frame W R d f := h.trans k

/-- Typed state that the view leaves out changes; no word does. -/
theorem of (h : R e = R d) (hr : e.regs = d.regs) : Frame W R d e := ⟨h, fun a _ => rg_congr hr a⟩

theorem foldl {α : Type} {f : Dev → α → Dev} (h : ∀ d x, Frame W R d (f d x)) (l : List α) (d : Dev) :
    Frame W R d (l.foldl f d) := by
  induction l generalizing d with
  | nil => exact refl d
  | cons x l ih => exact (h d x).trans (ih _)

theorem ite {c : Prop} [Decidable c] (h : Frame W R d e) (k : Frame W R d f) : Frame W R d (if c then e else f) := by
  split
  · exact h
  · exact k

/-- A frame with fewer words and a finer view gives one with more words and a coarser view. -/
theorem weaken {W' : Nat → Prop} {R' : Dev → Dev} (g : Dev → Dev) (hg : ∀ d, R' d = g (R d)) (hw : ∀ a, W a → W' a)
    (h : Frame W R d e) : Frame W' R' d e :=
  ⟨by rw [hg, hg, h.1], fun a ha => h.2 a fun w => ha (hw a w)⟩

theorem wr (hR : ∀ d a v, R (Machine.wr d a v) = R d) (d : Dev) (a : Nat) (v : W32) (h : W a) : Frame W R d (Machine.wr d a v) :=
  ⟨hR d a v, fun _ hb => rg_wr_ne d v fun e => hb (e ▸ h)⟩

end Frame

end Sys2Proof.Machine
end

