-- ==== Sys2Proof/Laws/Err.lean ====
section
/-! SUPPORT. What raising an error can change, said once (R606 to R617, R434): the response may stop exposure, make mending
entries and seal stripes; everything else of the block stands. -/

namespace Sys2Proof.Machine

/-- The words that the response to an error can change, beside the latch and the capture of its own page. -/
def ErrWord (a : Nat) : Prop :=
  a = Adr.FCL_CNT ∨ a = Adr.FCL_FIRST ∨ a = Adr.FCL_FIRST_S ∨ a = Adr.FCL_FIRST_NS ∨
  a = Page.fcl.base 0 + oEVTPEND ∨ a = Page.fcl.base 0 + oERRLATCH ∨ a = Page.fcl.base 0 + oINFO0 ∨
  a = Page.fcl.base 0 + oINFO1 ∨ a = Page.fcl.base 0 + oINJECT ∨
  a = Adr.MEI_CNT_CE ∨ a = Adr.MUZ_CNT ∨ a = Page.muz.base 0 + oEVTPEND ∨
  a = Adr.BOB_MEND_WR ∨ a = Page.bob.base 0 + oEVTPEND ∨ a = Adr.EXP_HWM ∨ a = Page.exp.base 0 + oEVTPEND ∨
  a = Adr.GLB_SEAL_INDEX ∨ a = Adr.GLB_SEAL_WR ∨ a = Adr.GLB_SEAL_STAT ∨ a = Page.glb.base 0 + oEVTPEND ∨
  ∃ p, a = Page.mc.base p + oINJECT

/-- The block without what the response to an error can change. -/
def Dev.errRest (d : Dev) : Dev := { d with
  regs := [], infoHeld := [], outs := [], hbm := [], poison := []
  exp := { d.exp with
    run := none, queue := [], sinceRun := false, wakeHead := false, halted := false, swapWork := false, lastSlotB := false }
  muz := { d.muz with
    muzzled := false, momentary := false, sev3 := false, blankFrom := none, whFrom := none, supplyFrom := none, track := false }
  glb := {}, fcl := {}
  mei := { d.mei with badSectors := [] }
  hlk := { d.hlk with msixPend := [] }
  stc := { d.stc with cur := none }
  bob := { d.bob with waitq := [], wiped := [], low := false }
  glr := { d.glr with hist := [], ended := [], frames := [], leaving := [] }
  hel := { d.hel with seen := 0 } }

/-- `e` differs from `d` in nothing but what the response to an error can change. -/
abbrev ErrFrame : Dev → Dev → Prop := Frame ErrWord Dev.errRest

/-- A change of plain state that the frame allows. -/
theorem errFrame_of {d e : Dev} (h : e.errRest = d.errRest) (hr : e.regs = d.regs) : ErrFrame d e :=
  Frame.of h hr

theorem wr_errFrame (d : Dev) (a : Nat) (v : W32) (h : ErrWord a) : ErrFrame d (wr d a v) :=
  ⟨rfl, fun _ hb => rg_wr_ne d v fun e => hb (e ▸ h)⟩

theorem inc_errFrame (d : Dev) (a : Nat) (h : ErrWord a) : ErrFrame d (inc d a) := wr_errFrame d a _ h

theorem emit_errFrame (d : Dev) (o : Out) : ErrFrame d (emit d o) := errFrame_of rfl rfl

theorem emitAll_errFrame (d : Dev) (l : List Out) : ErrFrame d (emitAll d l) := Frame.foldl emit_errFrame l d

theorem evt_errRest (d : Dev) (base b : Nat) : (evt d base b).errRest = d.errRest := by
  unfold evt sendMsix
  dsimp only
  split
  · split
    · rfl
    · split <;> rfl
  · rfl

theorem evt_errFrame (d : Dev) (base b : Nat) (h : ErrWord (base + oEVTPEND)) : ErrFrame d (evt d base b) :=
  ⟨evt_errRest d base b, fun _ ha => rg_evt_ne d base b fun e => ha (e ▸ h)⟩

/-! ### The bobbin and the mending list -/

theorem injTake_errFrame (d : Dev) (base : Nat) (w : Bool) (h : ErrWord (base + oINJECT)) : ErrFrame d (injTake d base w).2 := by
  unfold injTake
  dsimp only
  split
  · exact .refl d
  · dsimp only
    split
    · exact (wr_errFrame d _ _ h).trans (inc_errFrame _ _ (by unfold ErrWord; simp))
    · exact wr_errFrame d _ _ h

theorem hbmInjWrite_errFrame (d : Dev) (da : Nat) : ErrFrame d (hbmInjWrite d da) := by
  have h := injTake_errFrame d (Page.mc.base (pcOf d da / 2)) true (by unfold ErrWord; right; right; right; right; right; right; right; right; right; right; right; right; right; right; right; right; right; right; right; right; exact ⟨_, rfl⟩)
  unfold hbmInjWrite
  dsimp only
  split
  · exact h
  · refine h.trans ?_
    split <;> split <;> exact errFrame_of rfl rfl

theorem hbmWrite_errFrame (d : Dev) (da : Nat) (l : List Byte) : ErrFrame d (hbmWrite d da l) := by
  unfold hbmWrite
  dsimp only
  refine Frame.ite (Frame.trans ?_ (hbmInjWrite_errFrame _ _)) ?_ <;> exact errFrame_of rfl rfl

theorem mendStore_errFrame (d : Dev) (e : MEnt) : ErrFrame d (mendStore d e) := by
  unfold mendStore
  exact (hbmWrite_errFrame _ _ _).trans (wr_errFrame _ _ _ (by unfold ErrWord; simp))

theorem putEnt_errFrame (d : Dev) (e : MEnt) : ErrFrame d (putEnt d e) := by
  unfold putEnt
  dsimp only
  have h : ErrFrame d { d with bob := { d.bob with waitq := d.bob.waitq ++ [e] } } := errFrame_of rfl rfl
  refine Frame.ite (mendStore_errFrame d e) (Frame.ite ?_ h)
  exact h.trans (evt_errFrame _ _ _ (by unfold ErrWord; simp))

/-! ### The muzzle -/

theorem muzBegin_errFrame (d : Dev) : ErrFrame d (muzBegin d) := by
  unfold muzBegin
  refine Frame.after (evt_errFrame _ _ _ (by unfold ErrWord; simp)) ?_
  exact Frame.after (inc_errFrame _ _ (by unfold ErrWord; simp)) (errFrame_of rfl rfl)

theorem muzEnd_errFrame (d : Dev) : ErrFrame d (muzEnd d) := by
  unfold muzEnd
  exact Frame.after (evt_errFrame _ _ _ (by unfold ErrWord; simp)) (errFrame_of rfl rfl)

theorem muzUpdate_errFrame (d : Dev) : ErrFrame d (muzUpdate d) := by
  unfold muzUpdate
  exact Frame.ite (Frame.ite (.refl d) (muzEnd_errFrame d)) (Frame.ite (muzBegin_errFrame d) (.refl d))

theorem muzBlink_errFrame (d : Dev) : ErrFrame d (muzBlink d) := by
  unfold muzBlink
  have h := (muzBegin_errFrame d).trans (muzUpdate_errFrame _)
  exact Frame.ite h (h.trans (emitAll_errFrame _ _))

theorem muzMoment_errFrame (d : Dev) : ErrFrame d (muzMoment d) := by
  unfold muzMoment
  exact Frame.ite (.refl d) (Frame.ite (errFrame_of rfl rfl) (muzBlink_errFrame d))

/-! ### The end of a stripe -/

theorem stripeBoundary_errFrame (d : Dev) : ErrFrame d (stripeBoundary d) := by
  unfold stripeBoundary
  split
  · exact .refl d
  · refine Frame.ite ?_ (.refl d)
    exact Frame.after (evt_errFrame _ _ _ (by unfold ErrWord; simp)) (errFrame_of rfl rfl)

theorem glbPut_errFrame (d : Dev) (g : Glb) : ErrFrame d { d with glb := g } := errFrame_of rfl rfl

theorem sealOne_errFrame (d : Dev) (e : Ended) (u : Bool) : ErrFrame d (sealOne d e u) := by
  unfold sealOne
  have h (x y : W32) : ErrFrame d (wr (wr (wr d Adr.GLB_SEAL_INDEX e.index) Adr.GLB_SEAL_WR x) Adr.GLB_SEAL_STAT y) := by
    refine Frame.after (wr_errFrame _ _ _ (by unfold ErrWord; simp)) ?_
    refine Frame.after (wr_errFrame _ _ _ (by unfold ErrWord; simp)) ?_
    exact wr_errFrame _ _ _ (by unfold ErrWord; simp)
  refine Frame.after (evt_errFrame _ _ _ (by unfold ErrWord; simp)) ?_
  exact Frame.ite (h _ _) ((h _ _).trans (glbPut_errFrame _ _))

theorem sealCheck_errFrame (d : Dev) : ErrFrame d (sealCheck d) := by
  unfold sealCheck
  refine Frame.foldl (fun d e => Frame.ite ?_ (.refl d)) _ d
  exact Frame.after (sealOne_errFrame _ _ _) (errFrame_of rfl rfl)

theorem closeCover_errFrame (d : Dev) (r : Run) (f : Nat) : ErrFrame d (closeCover d r f) := by
  have one : ∀ (d : Dev) (s : Option Nat) (c : Nat), ErrFrame d (match s with
      | some a => if a < f && !r.refused then putEnt d (mkEnt d .exp r.tkt c 2 (w32 a) (w32 (f - 1))) else d
      | none => d) := by
    intro d s c
    split
    · exact Frame.ite (putEnt_errFrame _ _) (.refl d)
    · exact .refl d
  unfold closeCover
  dsimp only
  exact (((one _ _ _).trans (one _ _ _)).trans (one _ _ _)).trans (errFrame_of rfl rfl)

theorem sendCommit_errFrame (d : Dev) (fire : Bool) (l : Nat) : ErrFrame d (sendCommit d fire l) := errFrame_of rfl rfl

theorem endStripe_errFrame (d : Dev) (r : Run) : ErrFrame d (endStripe d r) := by
  unfold endStripe
  dsimp only
  refine Frame.after (sealCheck_errFrame _) ?_
  refine Frame.after (stripeBoundary_errFrame _) ?_
  refine Frame.after (evt_errFrame _ _ _ (by unfold ErrWord; simp)) ?_
  refine Frame.trans (Frame.trans (closeCover_errFrame d r r.shots) (wr_errFrame _ Adr.EXP_HWM _ (by unfold ErrWord; simp)))
    (errFrame_of rfl rfl)

theorem abortFrom_errFrame (d : Dev) (c f : Option Nat) : ErrFrame d (abortFrom d c f) := by
  unfold abortFrom
  split
  · exact .refl d
  · dsimp only
    refine Frame.after (endStripe_errFrame _ _) ?_
    have h : ∀ (l : List (Nat × Hist)) (d : Dev),
        ErrFrame d (l.foldl (fun d h => if d.glr.st < 6 then d else sendCommit d false h.2.lseq) d) :=
      Frame.foldl fun d x => Frame.ite (.refl d) (sendCommit_errFrame _ _ _)
    split
    · exact (h _ d).trans (Frame.ite (putEnt_errFrame _ _) (.refl _))
    · exact h _ d

theorem abortStripe_errFrame (d : Dev) (c : Option Nat) : ErrFrame d (abortStripe d c) := abortFrom_errFrame d c none

theorem halt_errFrame (d : Dev) : ErrFrame d (halt d) := errFrame_of rfl rfl

/-! ### Fault collection -/

theorem fclLog_errFrame (d : Dev) (s i l b : Nat) : ErrFrame d (fclLog d s i l b) := by
  unfold fclLog
  dsimp only
  refine Frame.ite (errFrame_of rfl rfl) (Frame.ite ?_ (errFrame_of rfl rfl))
  exact Frame.after (evt_errFrame _ _ _ (by unfold ErrWord; simp)) (errFrame_of rfl rfl)

theorem fclFirst_errFrame (d : Dev) (s i l b : Nat) : ErrFrame d (fclFirst d s i l b) := by
  unfold fclFirst
  refine Frame.ite (.refl d) ?_
  refine Frame.after (wr_errFrame _ _ _ (by unfold ErrWord; simp)) ?_
  refine Frame.after (wr_errFrame _ _ _ (by unfold ErrWord; simp)) ?_
  exact wr_errFrame _ _ _ (by unfold ErrWord; simp)

theorem sevStop_errFrame (d : Dev) : ErrFrame d (sevStop d) :=
  ((muzMoment_errFrame d).trans (abortStripe_errFrame _ _)).trans (halt_errFrame _)

theorem sevHalt_errFrame (d : Dev) : ErrFrame d (sevHalt d) := by
  unfold sevHalt
  refine Frame.after (halt_errFrame _) ?_
  refine Frame.after (abortStripe_errFrame _ _) ?_
  exact Frame.after (muzUpdate_errFrame _) (errFrame_of rfl rfl)

theorem fclAct_errFrame (d : Dev) (s i b : Nat) : ErrFrame d (fclAct d s i b) := by
  have ev : ∀ (d : Dev) (n k l : Nat), ErrFrame d (if n ≤ l then evt d (Page.fcl.base 0) k else d) := fun d n k l =>
    Frame.ite (evt_errFrame _ _ _ (by unfold ErrWord; simp)) (.refl d)
  unfold fclAct
  dsimp only
  have h : ErrFrame d { d with fcl := { d.fcl with
      status := putBit d.fcl.status s true, lvl := modNth d.fcl.lvl s (fun x => max x (sevOf d s b)) } } := errFrame_of rfl rfl
  have g := ((((h.trans (inc_errFrame _ Adr.FCL_CNT (by unfold ErrWord; simp))).trans (fclFirst_errFrame _ s i (sevOf d s b) b)).trans
    (fclLog_errFrame _ s i (sevOf d s b) b)).trans (ev _ 1 Bit.evt_FCL_SEV1 (sevOf d s b))).trans
    (ev _ 2 Bit.evt_FCL_SEV2 (sevOf d s b)) |>.trans (ev _ 3 Bit.evt_FCL_SEV3 (sevOf d s b))
  have t (d : Dev) (c : Prop) [Decidable c] : ErrFrame d (if c then { d with muz := { d.muz with track := true } } else d) :=
    Frame.ite (errFrame_of rfl rfl) (.refl d)
  exact Frame.ite ((g.trans (t _ _)).trans (sevStop_errFrame _))
    (Frame.ite ((g.trans (t _ _)).trans (sevHalt_errFrame _)) (g.trans (t _ _)))

/-- What latching an error changes: the latch, and the capture when it takes one (R606, R739). -/
theorem rg_errSet (d : Dev) (base b : Nat) (i0 i1 : W32) (a : Nat) (h0 : a ≠ base + oINFO0) (h1 : a ≠ base + oINFO1) :
    rg (errSet d base b i0 i1).2 a
      = if a = base + oERRLATCH then putBit (rg d (base + oERRLATCH)) b true else rg d a := by
  unfold errSet
  dsimp only
  split
  · exact rg_wr d _ _ a
  · dsimp only
    split
    · refine (rg_congr (e := wr (wr (wr d (base + oERRLATCH) _) (base + oINFO0) i0) (base + oINFO1) i1) rfl a).trans ?_
      rw [rg_wr_ne _ _ h1, rg_wr_ne _ _ h0, rg_wr]
    · exact rg_wr d _ _ a

theorem errSet_errRest (d : Dev) (base b : Nat) (i0 i1 : W32) : (errSet d base b i0 i1).2.errRest = d.errRest := by
  unfold errSet
  dsimp only
  split
  · rfl
  · dsimp only
    split <;> rfl

theorem errSet_fcl_errFrame (d : Dev) (b : Nat) (i0 i1 : W32) : ErrFrame d (errSet d (Page.fcl.base 0) b i0 i1).2 := by
  refine ⟨errSet_errRest d _ b i0 i1, fun a ha => ?_⟩
  rw [rg_errSet d _ b i0 i1 a (fun e => ha (by unfold ErrWord; simp [e])) (fun e => ha (by unfold ErrWord; simp [e])),
    if_neg fun e => ha (by unfold ErrWord; simp [e])]

theorem sevUe_errFrame (d : Dev) (s : Nat) : ErrFrame d (sevUe d s) := by
  have h : ErrFrame d { d with fcl := { d.fcl with sevUe := d.fcl.sevUe ||| 2 ^ s } } := errFrame_of rfl rfl
  exact (h.trans (errSet_fcl_errFrame _ _ _ _)).trans (fclAct_errFrame _ _ _ _)

theorem fclTake_errFrame (d : Dev) (s i b : Nat) : ErrFrame d (fclTake d s i b) := by
  unfold fclTake
  dsimp only
  refine Frame.trans (injTake_errFrame d (Page.fcl.base 0) false (by unfold ErrWord; simp)) ?_
  refine Frame.after (fclAct_errFrame _ s i b) ?_
  exact Frame.ite (sevUe_errFrame _ s) (.refl _)

/-- The response to an error stays within its frame, once the error has latched. -/
theorem err_errFrame (d : Dev) (base b : Nat) (i0 i1 : W32) : ErrFrame (errSet d base b i0 i1).2 (err d base b i0 i1) := by
  unfold err
  dsimp only
  refine Frame.ite ?_ (.refl _)
  split
  · exact .refl _
  · exact fclTake_errFrame _ _ _ _

theorem err_errRest (d : Dev) (base b : Nat) (i0 i1 : W32) : (err d base b i0 i1).errRest = d.errRest :=
  (err_errFrame d base b i0 i1).1.trans (errSet_errRest d base b i0 i1)

/-- A word that an error leaves alone. -/
theorem rg_err (d : Dev) (base b : Nat) (i0 i1 : W32) {a : Nat} (h : ¬ErrWord a) (hl : a ≠ base + oERRLATCH)
    (h0 : a ≠ base + oINFO0) (h1 : a ≠ base + oINFO1) : rg (err d base b i0 i1) a = rg d a := by
  rw [(err_errFrame d base b i0 i1).2 a h, rg_errSet d base b i0 i1 a h0 h1, if_neg hl]

/-- An error latches (R606). -/
theorem err_latch (d : Dev) (base b : Nat) (i0 i1 : W32) (h : ¬ErrWord (base + oERRLATCH)) :
    rg (err d base b i0 i1) (base + oERRLATCH) = putBit (rg d (base + oERRLATCH)) b true := by
  rw [(err_errFrame d base b i0 i1).2 _ h, rg_errSet, if_pos rfl]
  · unfold oERRLATCH oINFO0; omega
  · unfold oERRLATCH oINFO1; omega

/-! ### Entries -/

theorem errHold_errRest (d : Dev) (base b : Nat) (i0 i1 : W32) : (errHold d base b i0 i1).errRest = d.errRest := by
  unfold errHold
  split
  · exact err_errRest d base b i0 i1
  · split
    · exact err_errRest d base b i0 i1
    · dsimp only
      split
      · exact errSet_errRest d base b i0 i1
      · refine Eq.trans ?_ (errSet_errRest d base b i0 i1)
        split <;> (try rw [evt_errRest]) <;> split <;> (try rw [evt_errRest]) <;>
          rw [(fclLog_errFrame _ _ _ _ _).1, (fclFirst_errFrame _ _ _ _ _).1] <;> rfl

theorem listCheck_errRest (d : Dev) : (listCheck d).errRest = d.errRest := by
  unfold listCheck
  dsimp only
  split
  · rw [(halt_errFrame _).1, err_errRest, (abortStripe_errFrame _ _).1]
  · rfl

theorem putEnts_errFrame (l : List MEnt) (d : Dev) : ErrFrame d (l.foldl putEnt d) := Frame.foldl putEnt_errFrame l d

theorem addEnt_errRest (d : Dev) (e : MEnt) : (addEnt d e).errRest = d.errRest := by
  unfold addEnt
  rw [listCheck_errRest, (putEnt_errFrame _ _).1]

theorem addEnts_errRest (d : Dev) (l : List MEnt) : (addEnts d l).errRest = d.errRest := by
  unfold addEnts
  split
  · rfl
  · rw [listCheck_errRest, (putEnts_errFrame l d).1]

theorem stripeEnt_errRest (d : Dev) (b : Blk) (t : Tkt) (c k : Nat) (w2 w3 : W32) :
    (stripeEnt d b t c k w2 w3).errRest = d.errRest := by
  unfold stripeEnt
  split
  · rfl
  · exact addEnt_errRest _ _

theorem stripeEnts_errRest (d : Dev) (b : Blk) (t : Tkt) (l : List EntWords) : (stripeEnts d b t l).errRest = d.errRest := by
  unfold stripeEnts
  split
  · rfl
  · exact addEnts_errRest _ _

end Sys2Proof.Machine
end

