-- ==== Sys2Proof/Laws/Settle.lean ====
section
/-! SUPPORT. What `settle` (R302, R316, R317, R336) and `drive` can do, said once, and the shape of every answer. -/

namespace Sys2Proof.Machine

/-! ### Settling -/

/-- What the look-ahead check can change: BOB's two conditions, BOB_CNT_LOW, and BOB's events (R336). -/
theorem rg_lookCheck (d : Dev) {a : Nat} (h1 : a ≠ Adr.BOB_CNT_LOW) (h2 : a ≠ Page.bob.base 0 + oEVTPEND) :
    rg (lookCheck d) a = rg d a := by
  unfold lookCheck
  dsimp only
  split <;> split <;> (try simp only [rg_evt_ne _ _ _ h2, rg_inc, if_neg h1]) <;> exact rg_congr rfl a

/-- Freeing space changes no word (R316, R317). -/
@[simp] theorem rg_bobFree (d : Dev) (a : Nat) : rg (bobFree d) a = rg d a := rfl

/-- Settling changes no word but BOB_CNT_LOW and BOB's _EVT_PEND. -/
theorem rg_settle (d : Dev) {a : Nat} (h1 : a ≠ Adr.BOB_CNT_LOW) (h2 : a ≠ Page.bob.base 0 + oEVTPEND) :
    rg (settle d) a = rg d a := by
  unfold settle
  rw [rg_lookCheck _ h1 h2, rg_bobFree]

@[simp] theorem settle_bar2 (d : Dev) : (settle d).bar2 = d.bar2 := by
  unfold settle lookCheck; dsimp only; split <;> split <;> simp only [evt_bar2, inc_bar2] <;> rfl
@[simp] theorem settle_infoHeld (d : Dev) : (settle d).infoHeld = d.infoHeld := by
  unfold settle lookCheck; dsimp only; split <;> split <;> simp only [evt_infoHeld, inc_infoHeld] <;> rfl
@[simp] theorem settle_pins (d : Dev) : (settle d).pins = d.pins := by
  unfold settle lookCheck; dsimp only; split <;> split <;> simp only [evt_pins, inc_pins] <;> rfl
@[simp] theorem settle_free (d : Dev) : (settle d).free = d.free := by
  unfold settle lookCheck; dsimp only; split <;> split <;> simp only [evt_free, inc_free] <;> rfl
@[simp] theorem settle_hbm (d : Dev) : (settle d).hbm = d.hbm := by
  unfold settle lookCheck; dsimp only; split <;> split <;> simp only [evt_hbm, inc_hbm] <;> rfl
@[simp] theorem settle_poison (d : Dev) : (settle d).poison = d.poison := by
  unfold settle lookCheck; dsimp only; split <;> split <;> simp only [evt_poison, inc_poison] <;> rfl
@[simp] theorem settle_exp (d : Dev) : (settle d).exp = d.exp := by
  unfold settle lookCheck; dsimp only; split <;> split <;> simp only [evt_exp, inc_exp] <;> rfl
@[simp] theorem settle_muz (d : Dev) : (settle d).muz = d.muz := by
  unfold settle lookCheck; dsimp only; split <;> split <;> simp only [evt_muz, inc_muz] <;> rfl
@[simp] theorem settle_glb (d : Dev) : (settle d).glb = d.glb := by
  unfold settle lookCheck; dsimp only; split <;> split <;> simp only [evt_glb, inc_glb] <;> rfl
@[simp] theorem settle_fcl (d : Dev) : (settle d).fcl = d.fcl := by
  unfold settle lookCheck; dsimp only; split <;> split <;> simp only [evt_fcl, inc_fcl] <;> rfl
@[simp] theorem settle_mei (d : Dev) : (settle d).mei = d.mei := by
  unfold settle lookCheck; dsimp only; split <;> split <;> simp only [evt_mei, inc_mei] <;> rfl
@[simp] theorem settle_chans (d : Dev) : (settle d).chans = d.chans := by
  unfold settle lookCheck; dsimp only; split <;> split <;> simp only [evt_chans, inc_chans] <;> rfl
@[simp] theorem settle_pmu (d : Dev) : (settle d).pmu = d.pmu := by
  unfold settle lookCheck; dsimp only; split <;> split <;> simp only [evt_pmu, inc_pmu] <;> rfl
@[simp] theorem settle_stc (d : Dev) : (settle d).stc = d.stc := by
  unfold settle lookCheck; dsimp only; split <;> split <;> simp only [evt_stc, inc_stc] <;> rfl
@[simp] theorem settle_glr (d : Dev) : (settle d).glr = d.glr := by
  unfold settle lookCheck; dsimp only; split <;> split <;> simp only [evt_glr, inc_glr] <;> rfl
@[simp] theorem settle_tag (d : Dev) : (settle d).tag = d.tag := by
  unfold settle lookCheck; dsimp only; split <;> split <;> simp only [evt_tag, inc_tag] <;> rfl
@[simp] theorem settle_cdcHi (d : Dev) : (settle d).cdcHi = d.cdcHi := by
  unfold settle lookCheck; dsimp only; split <;> split <;> simp only [evt_cdcHi, inc_cdcHi] <;> rfl
@[simp] theorem settle_chks (d : Dev) : (settle d).chks = d.chks := by
  unfold settle lookCheck; dsimp only; split <;> split <;> simp only [evt_chks, inc_chks] <;> rfl
@[simp] theorem settle_testing (d : Dev) : (settle d).testing = d.testing := by
  unfold settle lookCheck; dsimp only; split <;> split <;> simp only [evt_testing, inc_testing] <;> rfl
@[simp] theorem settle_xpd (d : Dev) : (settle d).xpd = d.xpd := by
  unfold settle lookCheck; dsimp only; split <;> split <;> simp only [evt_xpd, inc_xpd] <;> rfl
@[simp] theorem settle_spl (d : Dev) : (settle d).spl = d.spl := by
  unfold settle lookCheck; dsimp only; split <;> split <;> simp only [evt_spl, inc_spl] <;> rfl
@[simp] theorem settle_engs (d : Dev) : (settle d).engs = d.engs := by
  unfold settle lookCheck; dsimp only; split <;> split <;> simp only [evt_engs, inc_engs] <;> rfl
@[simp] theorem settle_ver (d : Dev) : (settle d).ver = d.ver := by
  unfold settle lookCheck; dsimp only; split <;> split <;> simp only [evt_ver, inc_ver] <;> rfl
@[simp] theorem settle_nvm (d : Dev) : (settle d).nvm = d.nvm := by
  unfold settle lookCheck; dsimp only; split <;> split <;> simp only [evt_nvm, inc_nvm] <;> rfl
@[simp] theorem settle_knl (d : Dev) : (settle d).knl = d.knl := by
  unfold settle lookCheck; dsimp only; split <;> split <;> simp only [evt_knl, inc_knl] <;> rfl
@[simp] theorem settle_tim (d : Dev) : (settle d).tim = d.tim := by
  unfold settle lookCheck; dsimp only; split <;> split <;> simp only [evt_tim, inc_tim] <;> rfl
@[simp] theorem settle_hel (d : Dev) : (settle d).hel = d.hel := by
  unfold settle lookCheck; dsimp only; split <;> split <;> simp only [evt_hel, inc_hel] <;> rfl

/-- Settling frees space of the bobbin and sets BOB's two conditions; the rest of BOB stands (R316, R317, R336). -/
theorem settle_bob (d : Dev) : (settle d).bob = { d.bob with
    win := (settle d).bob.win, patchUsed := (settle d).bob.patchUsed, low := (settle d).bob.low
    wasHigh := (settle d).bob.wasHigh } := by
  unfold settle lookCheck; dsimp only; split <;> split <;> simp only [evt_bob, inc_bob] <;> rfl

/-! ### Answers -/

/-- Every meaning answers a next state with the queue as it was. -/
theorem run_eq (s : State) (f : Dev → Dev) : run s f = .next { s with dev := drive (f s.dev) } := rfl

theorem runS_eq (s : State) (f : Dev → Dev) : runS s f = .next { s with dev := drive (settle (f s.dev)) } := rfl

/-- The output pins follow the state after every answer (R427, R433, R616, R617, R654, R702). -/
theorem run_pinsFollow (s t : State) (f : Dev → Dev) (h : run s f = .next t) : PinsFollow t := by
  have e := Host.Outcome.next.inj h
  subst e
  unfold PinsFollow pinLevels faultLow pdOn pdState fd
  simp only [drive_pins, drive_pmu, drive_muz, drive_fcl, drive_tim, drive_hel, rg_drive]
  rfl

end Sys2Proof.Machine
end

