-- ==== Sys2Proof/Laws/Link.lean ====
section
/-! SUPPORT. What the operations of the Glaur link, the plate tag and the dead-beam map can change, said once per operation, and
what a message that arrives in turn does first. -/

namespace Sys2Proof.Machine

/-- The words that the link's operations can change, beside the counters and taps that a message names. -/
def LinkWord (a : Nat) : Prop :=
  ErrWord a ∨
  a = Page.bob.base 0 + oERRLATCH ∨ a = Page.bob.base 0 + oINFO0 ∨ a = Page.bob.base 0 + oINFO1 ∨
  a = Page.glr.base 0 + oEVTPEND ∨ a = Page.glr.base 0 + oERRLATCH ∨ a = Page.glr.base 0 + oINFO0 ∨
  a = Page.glr.base 0 + oINFO1 ∨ a = Page.glr.base 0 + oINJECT ∨
  a = Adr.GLR_CNT_LANE ∨ a = Adr.GLR_CNT_RESEND ∨ a = Adr.GLR_CNT_ROWFAIL ∨
  a = Page.tag.base 0 + oEVTPEND ∨ a = Page.tag.base 0 + oERRLATCH ∨ a = Page.tag.base 0 + oINFO0 ∨
  a = Page.tag.base 0 + oINFO1 ∨ a = Adr.TAG_CTRL ∨ (∃ i, a = Adr.TAG_NONCE i) ∨
  (∃ n, a = Page.lane.base n + oCTRL ∨ a = Page.lane.base n + oEVTPEND ∨ a = Page.lane.base n + oERRLATCH ∨
    a = Page.lane.base n + oINFO0 ∨ a = Page.lane.base n + oINFO1 ∨ a = Adr.LANE_CNT_LOSS n) ∨
  (∃ i k, i < 16 ∧ k < 0x10000 ∧ a = Adr.DBM_BITS i 0 + k)

/-- The block without what the link's operations can change. -/
def Dev.linkRest (d : Dev) : Dev := { d.errRest with glr := {}, tag := {}, free := 0, stc := {} }

/-- `e` differs from `d` in nothing but what the link's operations can change. -/
abbrev LinkFrame : Dev → Dev → Prop := Frame LinkWord Dev.linkRest

theorem Frame.link {d e : Dev} (h : ErrFrame d e) : LinkFrame d e :=
  Frame.weaken (fun d => { d with glr := {}, tag := {}, free := 0, stc := {} }) (fun _ => rfl) (fun _ w => Or.inl w) h

theorem linkRest_of_err {d e : Dev} (h : e.errRest = d.errRest) : e.linkRest = d.linkRest :=
  congrArg (fun d : Dev => { d with glr := {}, tag := {}, free := 0, stc := {} }) h

theorem wr_linkFrame (d : Dev) (a : Nat) (v : W32) (h : LinkWord a) : LinkFrame d (wr d a v) :=
  Frame.wr (fun _ _ _ => rfl) d a v h

theorem inc_linkFrame (d : Dev) (a : Nat) (h : LinkWord a) : LinkFrame d (inc d a) := wr_linkFrame d a _ h

theorem evt_linkFrame (d : Dev) (base b : Nat) (h : LinkWord (base + oEVTPEND)) : LinkFrame d (evt d base b) :=
  ⟨linkRest_of_err (evt_errRest d base b), fun _ ha => rg_evt_ne d base b fun e => ha (e ▸ h)⟩

/-- An error of a page whose latch and capture the link may change. -/
theorem err_linkFrame (d : Dev) (base b : Nat) (i0 i1 : W32) (h : LinkWord (base + oERRLATCH)) (h0 : LinkWord (base + oINFO0))
    (h1 : LinkWord (base + oINFO1)) : LinkFrame d (err d base b i0 i1) :=
  ⟨linkRest_of_err (err_errRest d base b i0 i1), fun _ ha =>
    rg_err d base b i0 i1 (fun e => ha (.inl e)) (fun e => ha (e ▸ h)) (fun e => ha (e ▸ h0)) (fun e => ha (e ▸ h1))⟩

theorem listCheck_linkFrame (d : Dev) : LinkFrame d (listCheck d) := by
  unfold listCheck
  dsimp only
  refine Frame.ite ?_ (.refl d)
  refine Frame.after (halt_errFrame _).link ?_
  refine Frame.after (err_linkFrame _ _ _ _ _ (by unfold LinkWord; simp) (by unfold LinkWord; simp) (by unfold LinkWord; simp)) ?_
  exact (abortStripe_errFrame _ _).link

theorem addEnt_linkFrame (d : Dev) (e : MEnt) : LinkFrame d (addEnt d e) :=
  (putEnt_errFrame d e).link.trans (listCheck_linkFrame _)

theorem addEnts_linkFrame (d : Dev) (l : List MEnt) : LinkFrame d (addEnts d l) := by
  unfold addEnts
  exact Frame.ite (.refl d) ((putEnts_errFrame l d).link.trans (listCheck_linkFrame _))

theorem stripeEnt_linkFrame (d : Dev) (b : Blk) (t : Tkt) (c k : Nat) (w2 w3 : W32) : LinkFrame d (stripeEnt d b t c k w2 w3) := by
  unfold stripeEnt
  exact Frame.ite (.refl d) (addEnt_linkFrame _ _)

theorem takeFree_linkFrame (d : Dev) : LinkFrame d (takeFree d).2 := Frame.of rfl rfl

theorem freeBytes_linkFrame (d : Dev) (n : Nat) : LinkFrame d (freeBytes d n).2 := Frame.of rfl rfl

theorem emit_linkFrame (d : Dev) (o : Out) : LinkFrame d (emit d o) := Frame.of rfl rfl

theorem tag_linkFrame (d : Dev) (t : Tag) : LinkFrame d { d with tag := t } := Frame.of rfl rfl

theorem setGlr_linkFrame (d : Dev) (f : Glr → Glr) : LinkFrame d (setGlr d f) := Frame.of rfl rfl

theorem setLane_linkFrame (d : Dev) (n : Nat) (f : Lane → Lane) : LinkFrame d (setLane d n f) := Frame.of rfl rfl

theorem setDbm_linkFrame (d : Dev) (f : Dbm → Dbm) : LinkFrame d (setDbm d f) := Frame.of rfl rfl

theorem glrErr_linkFrame (d : Dev) (b l : Nat) (x : W32) : LinkFrame d (glrErr d b l x) :=
  err_linkFrame _ _ _ _ _ (by unfold LinkWord; simp) (by unfold LinkWord; simp) (by unfold LinkWord; simp)

theorem glrEvt_linkFrame (d : Dev) (b : Nat) : LinkFrame d (glrEvt d b) := evt_linkFrame _ _ _ (by unfold LinkWord; simp)

/-! ### The tag (R391 to R397, R751) -/

theorem tagErr_linkFrame (d : Dev) (b : Nat) : LinkFrame d (tagErr d b) :=
  err_linkFrame _ _ _ _ _ (by unfold LinkWord; simp) (by unfold LinkWord; simp) (by unfold LinkWord; simp)

theorem setFd_tagCtrl_linkFrame (d : Dev) (hi lo v : Nat) : LinkFrame d (setFd d Adr.TAG_CTRL hi lo v) :=
  wr_linkFrame _ _ _ (by unfold LinkWord; simp)

theorem tagSend_linkFrame (d : Dev) : LinkFrame d (tagSend d) := by
  unfold tagSend
  split
  · exact .refl d
  · dsimp only
    refine Frame.ite ?_ (emit_linkFrame _ _)
    split
    · exact emit_linkFrame _ _
    · exact (freeBytes_linkFrame d 32).trans (emit_linkFrame _ _)

theorem tagStart_linkFrame (d : Dev) (adv : Bool) : LinkFrame d (tagStart d adv) := by
  have h1 : LinkFrame d { d with
      free := d.free + 1, tag := { d.tag with x := some ⟨adv, (Config.nonce d.free).toNat, 0⟩ } } := Frame.of rfl rfl
  have h2 : ∀ (v : Nat → W32) (d : Dev), LinkFrame d ((List.range 4).foldl (fun d i => wr d (Adr.TAG_NONCE i) (v i)) d) :=
    fun v => Frame.foldl (fun d i => wr_linkFrame d _ _ (by unfold LinkWord; simp)) _
  exact (h1.trans (h2 _ _)).trans (tagSend_linkFrame _)

theorem tagAdvance_linkFrame (d : Dev) : LinkFrame d (tagAdvance d) := by
  unfold tagAdvance
  exact Frame.ite ((tag_linkFrame d _).trans (tagStart_linkFrame _ _)) (.refl d)

theorem tagEnd_linkFrame (d : Dev) : LinkFrame d (tagEnd d) := by
  have h : LinkFrame d { d with tag := { d.tag with x := none } } := Frame.of rfl rfl
  unfold tagEnd
  dsimp only
  have k : LinkFrame d { d with tag := { d.tag with x := none, chalWait := false } } := Frame.of rfl rfl
  refine Frame.ite (k.trans (tagStart_linkFrame _ _)) (h.trans (Frame.trans ?_ (tagAdvance_linkFrame _)))
  exact Frame.ite (setFd_tagCtrl_linkFrame _ _ _ _) (.refl _)

theorem tagCount_linkFrame (d : Dev) : LinkFrame d (tagCount d) :=
  have h : LinkFrame d { d with tag := { d.tag with resid := d.tag.resid + 1 } } := Frame.of rfl rfl
  h.trans (tagAdvance_linkFrame _)

theorem tagChal_linkFrame (d : Dev) : LinkFrame d (tagChal d) := by
  unfold tagChal
  refine Frame.ite (setFd_tagCtrl_linkFrame _ _ _ _) (Frame.trans (setFd_tagCtrl_linkFrame d 0 0 1) ?_)
  exact Frame.ite (Frame.of rfl rfl) (tagStart_linkFrame _ _)

theorem tagSetCount_linkFrame (d : Dev) (c : Nat) : LinkFrame d (tagSetCount d c) := by
  have h : LinkFrame d { d with tag := { d.tag with count := c % 4294967296 } } := Frame.of rfl rfl
  unfold tagSetCount
  exact Frame.ite (h.trans (tagErr_linkFrame _ _)) h

theorem tagDown_linkFrame (d : Dev) : LinkFrame d (tagDown d) :=
  have h : LinkFrame d { d with tag := { d.tag with auth := false, x := none, chalWait := false } } := Frame.of rfl rfl
  h.trans (setFd_tagCtrl_linkFrame _ _ _ _)

theorem tagResp_linkFrame (d : Dev) (p c m : Nat) : LinkFrame d (tagResp d p c m).1 := by
  have h1 : LinkFrame d { d with tag := { d.tag with auth := true, resid := 0 } } := Frame.of rfl rfl
  have h2 : LinkFrame d { d with tag := { d.tag with auth := false } } := Frame.of rfl rfl
  unfold tagResp
  split
  · split
    · exact .refl d
    · split
      · exact (h1.trans (tagSetCount_linkFrame _ _)).trans (tagEnd_linkFrame _)
      · exact (h2.trans (tagErr_linkFrame _ _)).trans (tagEnd_linkFrame _)
  · exact .refl d

theorem tagAck_linkFrame (d : Dev) (m : Nat) : LinkFrame d (tagAck d m) := by
  unfold tagAck
  split
  · dsimp only
    refine Frame.ite (.refl d) (Frame.ite ?_ ((tagErr_linkFrame _ _).trans (tagEnd_linkFrame _)))
    exact ((tagSetCount_linkFrame _ _).trans (evt_linkFrame _ _ _ (by unfold LinkWord; simp))).trans (tagEnd_linkFrame _)
  · exact .refl d

theorem tagRetry_linkFrame (d : Dev) : LinkFrame d (tagRetry d).1 := by
  unfold tagRetry
  split
  · exact .refl d
  · rename_i x _
    have h : LinkFrame d { d with tag := { d.tag with x := some { x with repeats := x.repeats + 1 } } } := Frame.of rfl rfl
    split
    · exact h.trans (tagSend_linkFrame _)
    · exact (tagErr_linkFrame _ _).trans (tagEnd_linkFrame _)

/-! ### Lanes, the frame history, entries (R366 to R380) -/

theorem mapChanged_linkFrame (d : Dev) : LinkFrame d (mapChanged d) := by
  have h := (glrEvt_linkFrame d Bit.evt_GLR_MAP_CHANGE)
  unfold mapChanged
  dsimp only
  refine Frame.ite ?_ (h.trans (setGlr_linkFrame _ _))
  exact (h.trans (setGlr_linkFrame _ _)).trans (glrErr_linkFrame _ _ _ _)

theorem injTake_glr_linkFrame (d : Dev) (w : Bool) : LinkFrame d (injTake d (Page.glr.base 0) w).2 := by
  unfold injTake
  dsimp only
  split
  · exact .refl d
  · have h : ∀ v, LinkFrame d (wr d (Page.glr.base 0 + oINJECT) v) := fun v => wr_linkFrame _ _ _ (by unfold LinkWord; simp)
    dsimp only
    split
    · exact (h _).trans (inc_linkFrame _ _ (by unfold LinkWord ErrWord; simp))
    · exact h _

theorem histRead_dev (d : Dev) (l : Nat) : (histRead d l).2.2 = (injTake d (Page.glr.base 0) false).2 := by
  unfold histRead
  dsimp only
  generalize (injTake d (Page.glr.base 0) false) = x
  cases alGet x.2.glr.hist (l % 4096) with
  | none => rfl
  | some h =>
    dsimp only
    split
    · rfl
    · rw [apply_ite (fun t : Option Hist × Bool × Dev => t.2.2)]
      exact ite_self _

theorem histRead_linkFrame (d : Dev) (l : Nat) : LinkFrame d (histRead d l).2.2 := by
  rw [histRead_dev]; exact injTake_glr_linkFrame d false

theorem histEnts_linkFrame (d : Dev) (h : Hist) (l : List EntWords) : LinkFrame d (histEnts d h l) := by
  unfold histEnts
  exact Frame.ite (.refl d) (addEnts_linkFrame _ _)

theorem lane_lossWord (n : Nat) : LinkWord (Adr.LANE_CNT_LOSS n) := by
  unfold LinkWord; right; right; right; right; right; right; right; right; right; right; right; right; right; right; right; right
  right; right; left; exact ⟨n, by simp⟩

theorem lane_pageWord (n o : Nat) (h : o = oCTRL ∨ o = oEVTPEND ∨ o = oERRLATCH ∨ o = oINFO0 ∨ o = oINFO1) :
    LinkWord (Page.lane.base n + o) := by
  unfold LinkWord; right; right; right; right; right; right; right; right; right; right; right; right; right; right; right; right
  right; right; left; refine ⟨n, ?_⟩
  rcases h with h | h | h | h | h <;> subst h <;> simp

theorem laneOut_linkFrame (d : Dev) (n : Nat) : LinkFrame d (laneOut d n) :=
  ((setLane_linkFrame d n _).trans (inc_linkFrame _ _ (lane_lossWord n))).trans (inc_linkFrame _ _ (by unfold LinkWord; simp))

theorem lostPackets_linkFrame (d : Dev) (l : Nat) (ks : List Nat) : LinkFrame d (lostPackets d l ks) := by
  unfold lostPackets
  refine Frame.ite (.refl d) ?_
  dsimp only
  split
  · exact (histRead_linkFrame _ _).trans (histEnts_linkFrame _ _ _)
  · exact Frame.ite ((histRead_linkFrame _ _).trans (glrErr_linkFrame _ _ _ _)) (histRead_linkFrame _ _)

theorem laneDrop_linkFrame (d : Dev) (n u : Nat) : LinkFrame d (laneDrop d n u) := by
  unfold laneDrop
  refine Frame.ite (setLane_linkFrame _ _ _) ?_
  dsimp only
  refine Frame.after (err_linkFrame _ _ _ _ _ (lane_pageWord n _ (by simp)) (lane_pageWord n _ (by simp))
    (lane_pageWord n _ (by simp))) ?_
  refine (laneOut_linkFrame d n).trans ?_
  split
  · exact .refl _
  · exact (lostPackets_linkFrame _ _ _).trans (lostPackets_linkFrame _ _ _)

theorem laneDropFree_linkFrame (d : Dev) (n : Nat) : LinkFrame d (laneDropFree d n) := by
  unfold laneDropFree
  exact Frame.ite (laneDrop_linkFrame _ _ _) ((takeFree_linkFrame d).trans (laneDrop_linkFrame _ _ _))

theorem latchUnack_linkFrame (d : Dev) : LinkFrame d (latchUnack d) := by
  unfold latchUnack
  refine Frame.ite (.refl d) ?_
  dsimp only
  split
  · exact .refl d
  · exact setGlr_linkFrame _ _

theorem glrOff_linkFrame (d : Dev) : LinkFrame d (glrOff d) := by
  unfold glrOff
  exact Frame.ite ((setGlr_linkFrame d _).trans (glrEvt_linkFrame _ _)) (setGlr_linkFrame d _)

theorem sealDown_errFrame (d : Dev) : ErrFrame d (sealDown d) :=
  Frame.after (sealCheck_errFrame _) (errFrame_of rfl rfl)

theorem linkDownIf_linkFrame (r : Bool) (d : Dev) : LinkFrame d (linkDownIf r d) := by
  unfold linkDownIf
  refine Frame.ite (Frame.ite (.refl d) (glrOff_linkFrame d)) ?_
  dsimp only
  refine Frame.after (setGlr_linkFrame _ _) ?_
  refine Frame.after (sealDown_errFrame _).link ?_
  have h1 : LinkFrame d (if unackEmpty (latchUnack d) then latchUnack d
      else setGlr (latchUnack d) fun g => { g with unackOld := true }) :=
    (latchUnack_linkFrame d).trans (Frame.ite (.refl _) (setGlr_linkFrame _ _))
  have h2 : ∀ (e : Dev) (f : Dbm → Dbm), LinkFrame e
      (setDbm (tagDown (setGlr (glrOff e) fun g => { g with frames := e.glr.frames })) f) := fun e f =>
    (((glrOff_linkFrame e).trans (setGlr_linkFrame _ _)).trans (tagDown_linkFrame _)).trans (setDbm_linkFrame _ _)
  have h3 := h1.trans (h2 _ fun m => { m with
      valid := false, pendMap := false, heldOld := m.heldOld || m.heldMap.isSome })
  have h4 := fun l x => h3.trans (Frame.ite (c := r = true) (glrErr_linkFrame _ Bit.err_GLR_LINK_DOWN l x) (.refl _))
  refine Frame.after (Frame.ite ?_ (.refl _)) (h4 _ _)
  exact ((muzMoment_errFrame _).trans ((abortStripe_errFrame _ _).trans (halt_errFrame _))).link

theorem linkDown_linkFrame (d : Dev) : LinkFrame d (linkDown d) := linkDownIf_linkFrame true d

theorem linkCheck_linkFrame (d : Dev) : LinkFrame d (linkCheck d) := by
  unfold linkCheck
  exact Frame.ite (linkDown_linkFrame d) (.refl d)

theorem lanesDrop_linkFrame (d : Dev) (ns : List Nat) (f : Dev → Nat → Dev) (h : ∀ d n, LinkFrame d (f d n)) :
    LinkFrame d (lanesDrop d ns f) := by
  unfold lanesDrop
  have k := Frame.foldl h ns d
  exact Frame.ite k (k.trans ((mapChanged_linkFrame _).trans (linkCheck_linkFrame _)))

/-! ### Messages (R374 to R383) -/

theorem sendResend_linkFrame (d : Dev) (a b : Nat) : LinkFrame d (sendResend d a b) :=
  ((setGlr_linkFrame d _).trans (inc_linkFrame _ _ (by unfold LinkWord; simp))).trans (emit_linkFrame _ _)

theorem rxGap_linkFrame (d : Dev) (a b : Nat) : LinkFrame d (rxGap d a b) :=
  (setGlr_linkFrame d _).trans (sendResend_linkFrame _ _ _)

theorem rxSettle_linkFrame (d : Dev) : LinkFrame d (rxSettle d) := by
  unfold rxSettle
  exact setGlr_linkFrame d _

theorem ackTake_linkFrame (d : Dev) : LinkFrame d (ackTake d) := by
  unfold ackTake
  split
  · exact .refl d
  · refine Frame.ite ?_ (.refl d)
    refine Frame.after (sealCheck_errFrame _).link ?_
    exact Frame.after (Frame.ite (setGlr_linkFrame _ _) (.refl _)) (setGlr_linkFrame _ _)

theorem rxMsg_linkFrame (d : Dev) (n q : Nat) : LinkFrame d (rxMsg d n q).2 := by
  unfold rxMsg
  split
  · exact .refl d
  · split
    · dsimp only
      exact Frame.after (rxSettle_linkFrame _) (setGlr_linkFrame d _)
    · split
      · dsimp only
        exact setGlr_linkFrame d _
      · split
        · dsimp only
          exact (rxGap_linkFrame _ _ _).trans (setGlr_linkFrame _ _)
        · exact .refl d

/-- A message that arrives in turn is taken, and RSEQ moves on (R377). -/
theorem rxMsg_next {d : Dev} {n q : Nat} (h : NextMsg d n q) :
    rxMsg d n q = (true, setGlr d fun g => { g with rxNext := (q + 1) % 65536 }) := by
  obtain ⟨h1, h2, h3, h4, h5⟩ := h
  unfold rxMsg
  have e : (!retUse d n || decide (d.glr.st < 2)) = false := by simp [h1]; omega
  have c : (d.glr.rxMiss.contains q || d.glr.rxLost.contains q) = false := by simp [h4, h5]
  rw [if_neg (by rw [e]; simp), if_neg (by rw [c]; simp), if_pos h3]

/-- The block without what taking an acknowledgement can change. -/
def Dev.ackRest (d : Dev) : Dev := { d.errRest with glr := { d.errRest.glr with ack := 0, ackWant := none, unFirst := 0 } }

theorem ackRest_of {d e : Dev} (h : e.errRest = d.errRest) : e.ackRest = d.ackRest :=
  congrArg (fun d : Dev => { d with glr := { d.glr with ack := 0, ackWant := none, unFirst := 0 } }) h

/-- What taking an acknowledgement can change (R378, R386, R564). -/
theorem ackTake_ackRest (d : Dev) : (ackTake d).ackRest = d.ackRest := by
  unfold ackTake
  split
  · rfl
  · split
    · dsimp only
      rw [ackRest_of (sealCheck_errFrame _).1]
      split <;> rfl
    · rfl

theorem rg_ackTake (d : Dev) (a : Nat) (h : ¬ErrWord a) : rg (ackTake d) a = rg d a := by
  unfold ackTake
  split
  · rfl
  · split
    · dsimp only
      rw [(sealCheck_errFrame _).2 a h]
      split <;> rfl
    · rfl

theorem laneFails_linkFrame (d : Dev) (h : Hist) (l : List Nat) : LinkFrame d (laneFails d h l) := ⟨rfl, fun _ _ => rfl⟩

theorem glrRowFail_linkFrame (d : Dev) (l : Nat) (nc : Bool) (c s : Nat) : LinkFrame d (glrRowFail d l nc c s) := by
  unfold glrRowFail
  dsimp only
  generalize popcount 512 (c ||| s) = p
  have h : LinkFrame d (addReg d Adr.GLR_CNT_ROWFAIL p) := wr_linkFrame _ _ _ (by unfold LinkWord; simp)
  have k := h.trans (histRead_linkFrame _ l)
  split
  · exact Frame.ite (k.trans (glrErr_linkFrame _ _ _ _)) k
  · rename_i e _
    have w := k.trans (laneFails_linkFrame _ e (packetsOf (c ||| s)))
    refine Frame.ite w (Frame.ite ?_ (Frame.ite ?_ w))
    · exact (w.trans (histEnts_linkFrame _ _ _)).trans (glrErr_linkFrame _ _ _ _)
    · exact (w.trans (histEnts_linkFrame _ _ _)).trans (glrErr_linkFrame _ _ _ _)

end Sys2Proof.Machine
end

