-- ==== Sys2Proof/Laws/Mem.lean ====
section
/-! SUPPORT. Byte memories: every operation keeps the canonical form, and a byte reads as it was last written. -/

namespace Sys2Proof.Machine

/-- The canonical form as a proposition. -/
theorem Mem.wf_iff (m : Mem) :
    Mem.wf m = true ↔ m.Pairwise (fun c e => c.1 < e.1) ∧ ∀ c ∈ m, c.2 ≠ Mem.blank := by
  have hr : ∀ m : Mem, Mem.rising m = true ↔ m.Pairwise (fun c e => c.1 < e.1) := by
    intro m
    induction m with
    | nil => simp [Mem.rising]
    | cons a r ih =>
      cases r with
      | nil => simp [Mem.rising]
      | cons b r =>
        rw [Mem.rising, Bool.and_eq_true, ih, decide_eq_true_iff, List.pairwise_cons (a := a)]
        constructor
        · rintro ⟨h, hp⟩
          refine ⟨fun e he => ?_, hp⟩
          rcases List.mem_cons.1 he with he | he
          · exact he ▸ h
          · exact Nat.lt_trans h ((List.pairwise_cons.1 hp).1 e he)
        · rintro ⟨h, hp⟩
          exact ⟨h b List.mem_cons_self, hp⟩
  unfold Mem.wf
  rw [Bool.and_eq_true, hr, List.all_eq_true]
  simp

/-- The cells of a byte string lie in its range, rise, and hold no blank byte. -/
theorem Mem.run_spec (l : List Byte) (a : Nat) :
    (Mem.run a l).Pairwise (fun c e => c.1 < e.1) ∧ ∀ c ∈ Mem.run a l, a ≤ c.1 ∧ c.1 < a + l.length ∧ c.2 ≠ Mem.blank := by
  induction l generalizing a with
  | nil => simp [Mem.run]
  | cons b r ih =>
    obtain ⟨hp, hm⟩ := ih (a + 1)
    unfold Mem.run
    split
    · refine ⟨hp, fun c hc => ?_⟩
      obtain ⟨h1, h2, h3⟩ := hm c hc
      refine ⟨?_, ?_, h3⟩
      · omega
      · rw [List.length_cons]; omega
    · rename_i hb
      refine ⟨List.pairwise_cons.2 ⟨fun e he => ?_, hp⟩, fun c hc => ?_⟩
      · have := (hm e he).1; dsimp only; omega
      · rcases List.mem_cons.1 hc with hc | hc
        · subst hc; refine ⟨Nat.le_refl _, ?_, hb⟩
          rw [List.length_cons]; dsimp only; omega
        · obtain ⟨h1, h2, h3⟩ := hm c hc
          refine ⟨?_, ?_, h3⟩
          · omega
          · rw [List.length_cons]; omega

/-- Dropping cells keeps the canonical form. -/
theorem Mem.filter_wf (m : Mem) (p : Host.Cell → Bool) (h : Mem.wf m = true) : Mem.wf (m.filter p) = true := by
  rw [Mem.wf_iff] at h ⊢
  exact ⟨h.1.filter p, fun c hc => h.2 c (List.mem_of_mem_filter hc)⟩

/-- A write keeps the canonical form. -/
theorem Mem.write_wf (m : Mem) (a : Nat) (l : List Byte) (h : Mem.wf m = true) : Mem.wf (m.write a l) = true := by
  rw [Mem.wf_iff] at h ⊢
  obtain ⟨rp, rm⟩ := Mem.run_spec l a
  unfold Mem.write
  constructor
  · rw [List.pairwise_append, List.pairwise_append]
    refine ⟨⟨h.1.filter _, rp, fun c hc e he => ?_⟩, h.1.filter _, fun c hc e he => ?_⟩
    · have h1 := (List.mem_filter.1 hc).2
      have h2 := (rm e he).1
      simp only [decide_eq_true_eq] at h1
      omega
    · have h3 := (List.mem_filter.1 he).2
      simp only [decide_eq_true_eq] at h3
      rcases List.mem_append.1 hc with hc | hc
      · have h1 := (List.mem_filter.1 hc).2
        simp only [decide_eq_true_eq] at h1
        omega
      · have h2 := (rm c hc).2.1
        omega
  · intro c hc
    rcases List.mem_append.1 hc with hc | hc
    · rcases List.mem_append.1 hc with hc | hc
      · exact h.2 c (List.mem_of_mem_filter hc)
      · exact (rm c hc).2.2
    · exact h.2 c (List.mem_of_mem_filter hc)

/-- Blanking a range keeps the canonical form. -/
theorem Mem.zero_wf (m : Mem) (a n : Nat) (h : Mem.wf m = true) : Mem.wf (m.zero a n) = true := Mem.filter_wf m _ h

theorem Mem.read_append (m k : Mem) (a : Nat) :
    Mem.read (m ++ k) a = if (m.any fun c => a = c.1) then Mem.read m a else Mem.read k a := by
  induction m with
  | nil => simp
  | cons c r ih =>
    simp only [List.cons_append, Mem.read, List.any_cons]
    by_cases h : a = c.1
    · simp [h]
    · simp [h, ih]

theorem Mem.read_filter (m : Mem) (p : Host.Cell → Bool) (q : Nat → Bool) (hp : ∀ c, p c = q c.1) (a : Nat) :
    Mem.read (m.filter p) a = if q a then Mem.read m a else Mem.blank := by
  induction m with
  | nil => simp [Mem.read]
  | cons c r ih =>
    rw [List.filter_cons, hp]
    by_cases hq : q c.1 = true
    · rw [if_pos hq]
      simp only [Mem.read, ih]
      by_cases h : a = c.1
      · subst h; simp [hq]
      · simp [h]
    · rw [if_neg hq, ih]
      by_cases h : a = c.1
      · subst h; simp [hq]
      · simp [Mem.read, h]

theorem Mem.read_run (l : List Byte) (a b : Nat) :
    Mem.read (Mem.run a l) b = if a ≤ b ∧ b < a + l.length then l.getD (b - a) Mem.blank else Mem.blank := by
  induction l generalizing a with
  | nil => simp [Mem.run, Mem.read]
  | cons x r ih =>
    unfold Mem.run
    have hlen : (x :: r).length = r.length + 1 := rfl
    by_cases hx : x = Mem.blank
    · rw [if_pos hx, ih]
      by_cases h : b = a
      · subst h; rw [if_neg (by omega), if_pos (by rw [hlen]; omega)]; simp [hx]
      · by_cases h2 : a + 1 ≤ b ∧ b < a + 1 + r.length
        · rw [if_pos h2, if_pos (by rw [hlen]; omega), show b - a = (b - (a + 1)) + 1 by omega]; rfl
        · rw [if_neg h2, if_neg (by rw [hlen]; omega)]
    · rw [if_neg hx]
      simp only [Mem.read, ih]
      by_cases h : b = a
      · subst h; rw [if_pos rfl, if_pos (by rw [hlen]; omega)]; simp
      · rw [if_neg h]
        by_cases h2 : a + 1 ≤ b ∧ b < a + 1 + r.length
        · rw [if_pos h2, if_pos (by rw [hlen]; omega), show b - a = (b - (a + 1)) + 1 by omega]; rfl
        · rw [if_neg h2, if_neg (by rw [hlen]; omega)]

theorem Mem.read_unlisted (m : Mem) (a : Nat) (h : (m.any fun c => a = c.1) = false) : Mem.read m a = Mem.blank := by
  induction m with
  | nil => rfl
  | cons c r ih =>
    rw [List.any_cons, Bool.or_eq_false_iff] at h
    rw [Mem.read, if_neg (by simpa using h.1), ih h.2]

/-- A byte reads as it was last written, and a write leaves every other byte. -/
theorem Mem.read_write (m : Mem) (a : Nat) (l : List Byte) (b : Nat) :
    Mem.read (m.write a l) b = if a ≤ b ∧ b < a + l.length then l.getD (b - a) Mem.blank else Mem.read m b := by
  unfold Mem.write
  have low := Mem.read_filter m (fun c => decide (c.1 < a)) (fun k => decide (k < a)) (fun _ => rfl) b
  have high := Mem.read_filter m (fun c => decide (a + l.length ≤ c.1)) (fun k => decide (a + l.length ≤ k)) (fun _ => rfl) b
  have mid := Mem.read_run l a b
  have lowAny : (m.filter (fun c => decide (c.1 < a))).any (fun c => b = c.1) = true → b < a := by
    intro h
    obtain ⟨c, hc, e⟩ := List.any_eq_true.1 h
    have := (List.mem_filter.1 hc).2
    simp only [decide_eq_true_eq] at this e
    omega
  have midAny : (Mem.run a l).any (fun c => b = c.1) = true → a ≤ b ∧ b < a + l.length := by
    intro h
    obtain ⟨c, hc, e⟩ := List.any_eq_true.1 h
    have := (Mem.run_spec l a).2 c hc
    simp only [decide_eq_true_eq] at e
    omega
  simp only [decide_eq_true_eq] at low high
  rw [List.append_assoc, Mem.read_append, Mem.read_append, low, high, mid]
  by_cases h1 : b < a
  · rw [if_pos h1, if_neg (show ¬(a ≤ b ∧ b < a + l.length) by omega), if_neg (show ¬ a + l.length ≤ b by omega),
      if_neg (show ¬(a ≤ b ∧ b < a + l.length) by omega)]
    split
    · rfl
    · rename_i hn
      rw [Bool.not_eq_true] at hn
      have := Mem.read_unlisted _ b hn
      rw [low, if_pos h1] at this
      rw [this]; split <;> rfl
  · have nl : ¬ ((m.filter (fun c => decide (c.1 < a))).any (fun c => b = c.1) = true) := fun h => h1 (lowAny h)
    rw [if_neg nl]
    by_cases h2 : b < a + l.length
    · have hin : a ≤ b ∧ b < a + l.length := by omega
      rw [if_neg (show ¬ a + l.length ≤ b by omega), if_pos hin, if_pos hin]
      split
      · rfl
      · rename_i hn
        rw [Bool.not_eq_true] at hn
        have := Mem.read_unlisted _ b hn
        rw [mid, if_pos (show a ≤ b ∧ b < a + l.length by omega)] at this
        exact this.symm
    · rw [if_neg (show ¬(a ≤ b ∧ b < a + l.length) by omega), if_pos (show a + l.length ≤ b by omega),
        if_neg (show ¬(a ≤ b ∧ b < a + l.length) by omega)]
      split
      · rename_i h; exact absurd (midAny h) (by omega)
      · rfl

end Sys2Proof.Machine
end

