-- ==== Sys2Proof/Machine/Wire.lean ====
section
/-! DEFINITION. The units of the Glaur lanes as bytes (R355 to R359, R362): what the frames, commits and control units that the
block puts out (`Out`) are on the wire, before scrambling and coding. -/

namespace Sys2Proof.Machine

/-- Bytes followed by their CRC-32C (R356, R358, R359). -/
def withCrc (l : List Byte) : List Byte := l ++ leBytes 4 (crc32c l)

/-- An IDLE unit (R355). -/
def idleUnit : List Byte := leBytes 4 0x3C000000 ++ List.replicate 12 0

/-- The code of wire position `j` of packet `k` of a frame (R283, R356). -/
def packetCode (f : OutFrame) (k j : Nat) : Nat := (alGet f.codes (1024 * k + j)).getD 0

/-- The ROW unit of packet `k` of a frame on lane `n` (R356, R357). -/
def rowUnit (f : OutFrame) (n k : Nat) : List Byte :=
  withCrc (leBytes 4 (0xD5000000 + f.commit % 4 * 4194304 + n % 64 * 65536 + k % 512) ++ leBytes 4 f.lseq ++
    leBytes 4 (f.serial % 65536 * 65536) ++
    (List.range 512).map fun b => byte (packetCode f k (2 * b) % 16 + packetCode f k (2 * b + 1) % 16 * 16))

/-- What lane `n` sends of a frame: its packets in ascending K (R362). -/
def laneUnits (f : OutFrame) (n : Nat) : List (List Byte) := (lanePackets f.lanes f.lseq n).map (rowUnit f n)

/-- A COMMIT unit, FIRE or BLANK, for a frame (R358). -/
def commitBytes (fire : Bool) (lseq : Nat) : List Byte :=
  withCrc (leBytes 4 (0x6A000000 + (if fire then 1 else 2) * 4194304) ++ leBytes 4 lseq ++ leBytes 4 0)

/-- The body of a CTRL unit (R359): the places of the fields of TUNE_ACK and RESEND are open. -/
def ctrlBody (op : Nat) (fields : List Nat) : List Byte :=
  if op = 0x01 then leBytes 8 (nth fields 0 0)
  else if op = 0x10 then []
  else if op = 0x20 then leBytes 16 (nth fields 0 0)
  else if op = 0x21 then leBytes 16 (nth fields 0 0) ++ leBytes 4 (nth fields 1 0) ++ leBytes 32 (nth fields 2 0)
  else Config.ctrlBody op fields

/-- A CTRL unit (R359): as many units of 16 bytes as word 0, the body and the CRC need, filled with zeros. -/
def ctrlUnit (op : Nat) (fields : List Nat) : List Byte :=
  let b := ctrlBody op fields
  let n := (4 + b.length + 4 + 15) / 16
  withCrc (leBytes 4 (0x7E000000 + op % 256 * 65536 + n % 256 * 256) ++ b ++ List.replicate (16 * n - 8 - b.length) 0)

/-- The lane that carries CTRL units: the lowest-numbered live lane, or lane 0 during training (R359). -/
def controlLane (map : List Nat) : Nat := map.foldl min (if map = [] then 0 else 63)

/-- What lane `n` sends for one thing that the block put out, its frame's map naming the live lanes (R355). -/
def laneSends (map : List Nat) (n : Nat) : Out → List (List Byte)
  | .frame f => laneUnits f n
  | .commit fire l => if n ∈ map then [commitBytes fire l] else []
  | .ctrl op body => if n = controlLane map then [ctrlUnit op body] else []
  | _ => []

/-! ### Return messages (R374, R375) -/

/-- TYPE of the message that a command stands for, and the fields of its body (R375); HELLO carries the protocol version, 512 rows
and 1,024 columns. -/
def retFields : Instr → Option (Nat × List Nat)
  | .hello _ _ b => some (0x01, [b.plateId, 0x01, b.depth, 512, 1024])
  | .laneStatus _ _ lock fec errs uncorr =>
    some (0x02, [lock % 2 ^ 48, fec % 2 ^ 48] ++ (List.range 48).flatMap fun n => [nth errs n 0, nth uncorr n 0])
  | .tuneReq _ _ txLane tap action preset => some (0x03, [txLane, tap, action, preset])
  | .rowFail _ _ lseq nocommit crc seqf => some (0x10, [lseq, b2n nocommit, crc % 2 ^ 512, seqf % 2 ^ 512])
  | .beamDied _ _ lseq k j => some (0x11, [lseq, k, j])
  | .dbmPart _ _ p bitmap => some (0x20, [p, bitmap % 2 ^ 8192])
  | .dbmEnd _ _ count crc => some (0x21, [count, crc])
  | .tagResp _ _ plateId count mac => some (0x30, [plateId, count, mac])
  | .tagAck _ _ count mac => some (0x31, [count, mac])
  | .status _ ackLseq firedLseq nextRseq flags => some (0x3E, [ackLseq, firedLseq, nextRseq, flags])
  | _ => none

/-- A return message (R374): the header of TYPE, length in 8-byte words and RSEQ, the body, zero fill, and the word of the CRC-32C. -/
def retMessage (type rseq : Nat) (body : List Byte) : List Byte :=
  let n := 2 + (body.length + 7) / 8
  withCrc (leBytes 4 (type % 256 * 16777216 + n % 256 * 65536 + rseq % 65536) ++ leBytes 4 0 ++ body ++
    List.replicate (8 * (n - 2) - body.length) 0) ++ leBytes 4 0

/-- The RSEQ that a message command carries; STATUS takes no number of its own (R375). -/
def retRseq : Instr → Nat
  | .hello _ r _ | .laneStatus _ r _ _ _ _ | .tuneReq _ r _ _ _ _ | .rowFail _ r _ _ _ _ | .beamDied _ r _ _ _
  | .dbmPart _ r _ _ | .dbmEnd _ r _ _ | .tagResp _ r _ _ _ | .tagAck _ r _ _ => r
  | _ => 0

/-- The bytes of the message that a command stands for (R374, R375). -/
def retBytes (i : Instr) : Option (List Byte) :=
  (retFields i).map fun f => retMessage f.1 (retRseq i) (Config.retBody f.1 f.2)

/-- Whether GLR takes a message as valid (R374, R377): BADMSG is the arrival of one that it does not. -/
def retGood (l : List Byte) : Bool :=
  let n := leNat (l.take 4) / 65536 % 256
  decide (16 ≤ l.length ∧ l.length = 8 * n) && leNat ((l.drop (l.length - 8)).take 4) = crc32c (l.take (l.length - 8)) &&
  leNat (l.drop (l.length - 4)) = 0

end Sys2Proof.Machine
end

