-- ==== Sys2Proof/Tests/Slice0.lean ====
section
/-! SUPPORT. Tests: for the clauses of the statements, states and operands that meet their hypotheses, with what the command then
does; the checks of WellFormed. Expected values come from the rule that each test names. -/

namespace Sys2Proof.Tests

set_option Elab.async false
open Sys2Proof Sys2Proof.Machine

/-! ### Small states -/

/-- Every domain on, the power-up sequence done. -/
def on : Dev := { ({} : Dev) with
  pmu := { ({} : Dev).pmu with
    pd := List.replicate 14 { st := .on }, seq := .done, ready := true, refclk := true, aclkRc := false, lock := 2047, run := 2047 }
  knl := { ({} : Dev).knl with away := false, phase := 2 } }

/-- The state made of a block, with an empty queue. -/
def st (d : Dev) : State := ⟨d, []⟩

/-- Whether a command answers a next state with the queue left alone and a block with the property named. -/
def does (c : Instr) (d : Dev) (p : Dev → Bool) : Bool :=
  match exec c (st d) with
  | .next t => decide (t.pending = []) && p t.dev
  | _ => false

/-! ### The Glaur link -/

/-- The link in state `n` with every lane live, and a change of it. -/
def link (n : Nat) (f : Glr → Glr) : Dev := setGlr on fun g => f { g with
  st := n, lclk := true, rxNext := 7, lseq := some 5, plate := 9
  lanes := List.replicate 48 { live := true, lock := true, fec := true, good := true } ++
    List.replicate 4 { live := true, lock := true } }

/-- A frame of the history, committed FIRE. -/
def fired : Hist := ⟨5, 1, 3, 10, false, false, 0, 1, 0, 1, false, false, []⟩

/-- R375, R388: HELLO in bring-up. -/
theorem test_hello : (link 2 id).glr.st = 2 ∧ retUse (link 2 id) 51 = true ∧
    does (.hello 51 65535 ⟨9, 3⟩) (link 2 id) (fun d => d.glr.st = 4 ∧ d.glr.rxNext = 0 ∧ d.glr.plate = 9) = true := by decide +kernel

/-- R369: LANE_STATUS, with the last RSEQ before the count returns to 0. -/
theorem test_laneStatus : NextMsg (link 4 fun g => { g with rxNext := 65535 }) 48 65535 ∧
    does (.laneStatus 48 65535 0 0 [3, 4] [1]) (link 4 fun g => { g with rxNext := 65535 }) (fun d =>
      d.glr.rxNext = 0 ∧ rg d (Adr.LANE_BER 1) = 4 ∧ rg d (Adr.LANE_CNT_UNCORR 0) = 1 ∧ rg d (Adr.LANE_BER 47) = 0) = true := by
  unfold NextMsg; decide +kernel

/-- R359: TUNE_REQ stops at the ends of s8. -/
theorem test_tuneReq : NextMsg (link 4 id) 48 7 ∧
    does (.tuneReq 48 7 47 0 1 0) (wr (link 4 id) (Adr.LANE_FFE 47) 0x7F000080) (fun d => fd d (Adr.LANE_FFE 47) 31 24 = 127) = true ∧
    does (.tuneReq 48 7 47 3 2 0) (wr (link 4 id) (Adr.LANE_FFE 47) 0x7F000080) (fun d => fd d (Adr.LANE_FFE 47) 7 0 = 128) = true ∧
    does (.tuneReq 48 7 47 3 1 0) (wr (link 4 id) (Adr.LANE_FFE 47) 0x7F000080) (fun d => fd d (Adr.LANE_FFE 47) 7 0 = 129) = true := by
  unfold NextMsg; decide +kernel

/-- R380: ROW_FAIL of a frame committed FIRE. -/
theorem test_rowFail : let d := link 7 fun g => { g with hist := [(5, fired)] }
    NextMsg d 48 7 ∧ d.glr.buf = [] ∧ blkWaits d .glr = false ∧ (injTake d (Page.glr.base 0) false).1 = 0 ∧
    alGet d.glr.hist (5 % 4096) = some fired ∧
    does (.rowFail 48 7 5 false 5 6) d (fun e =>
      rg e Adr.GLR_CNT_ROWFAIL = 3 ∧ latched e (Page.glr.base 0) Bit.err_GLR_ROW_FAIL) = true := by unfold NextMsg; decide +kernel

/-- R383: the parts of a map, and an end with parts missing. -/
theorem test_dbmPart : let d := link 7 fun g => { g with dbmAsked := true }
    NextMsg d 48 7 ∧ d.glr.parts.length ≠ 64 ∧ blkWaits d .glr = false ∧
    does (.dbmPart 48 7 63 5) d (fun e => alGet e.glr.parts 63 = some 5) = true ∧
    does (.dbmEnd 48 7 0 0) d (fun e =>
      e.glr.parts = [] ∧ e.glr.dbmAsked = false ∧ latched e (Page.glr.base 0) Bit.err_GLR_DBM_BAD) = true := by
  unfold NextMsg; decide +kernel

/-- R383, R388: where a complete map may end. -/
theorem test_dbmEnd : let d := setDbm (link 7 fun g => { g with dbmAsked := true, parts := (List.range 64).map fun p => (p, if p = 63 then 2 ^ 8191 else 0) }) fun m => { m with copying := true }
    NextMsg d 48 7 ∧ d.glr.parts.length = 64 ∧ d.glr.buf = [] ∧ blkWaits d .glr = false ∧ d.stc.dbm.copying = true := by
  unfold NextMsg; decide +kernel

/-- R378, R377: STATUS moves GLR_ACK, and a bad message is counted. -/
theorem test_status : retUse (link 6 id) 48 = true ∧ (link 6 id).glr.rxMiss = [] ∧ (link 6 id).glr.rxLost = [] ∧
    does (.status 48 4 4 7 0) (link 6 id) (fun d => d.glr.ack = 4 ∧ d.glr.ackWant = none) = true ∧
    does (.badmsg 48) (link 6 id) (fun d => rg d Adr.GLR_CNT_BADMSG = 1) = true := by decide +kernel

/-- R382: a beam found dead is withheld from a frame that has not begun. -/
theorem test_beamDied : let d := link 7 fun g => { g with frames := [⟨6, [(1024 * 511 + 1023, 4), (3, 5)]⟩] }
    NextMsg d 48 7 ∧ blkWaits d .glr = false ∧ dbmFull d = false ∧
    does (.beamDied 48 7 5 511 1023) d (fun e => e.glr.frames = [⟨6, [(3, 5)]⟩]) = true := by unfold NextMsg; decide +kernel

/-- R388, R389: bring-up goes through its steps and ends. -/
theorem test_bringUp :
    does .lclkLocked (setGlr on fun g => { g with st := 1 }) (fun d => d.glr.lclk ∧ d.glr.st = 1) = true ∧
    does .retLock (setGlr on fun g => { g with st := 1, lclk := true }) (fun d => d.glr.st = 2) = true ∧
    does .trainHalfTimeout (link 5 id) (fun d => d.glr.half) = true ∧
    does .trainHalfTimeout (link 1 id) (fun d => d.glr.half) = true ∧
    does .trainFail (link 6 id) (fun d => d.glr.st = 0 ∧ latched d (Page.glr.base 0) Bit.err_GLR_TRAIN_FAIL) = true ∧
    does .dbmMs (link 6 fun g => { g with dbmAsked := true }) (fun d =>
      d.glr.dbmAsked = false ∧ latched d (Page.glr.base 0) Bit.err_GLR_DBM_BAD) = true ∧
    does .glrHb (link 6 id) (fun d => d.glr.st = 0 ∧ !d.stc.dbm.valid ∧ latched d (Page.glr.base 0) Bit.err_GLR_LINK_DOWN) = true ∧
    does .blockLockLost (link 8 id) (fun d => d.glr.st = 0) = true := by decide +kernel

/-- R388: the error window completes and the link comes up with no frame begun. -/
theorem test_fecAlign : trainStep (link 5 id) (fun l => l.lock && l.fec) = true ∧
    fd (link 5 id) Adr.GLR_CFG 5 0 ≤ ((List.range 48).filter fun n =>
      laneAllowed (link 5 id) n && (lane (link 5 id) n).lock && (lane (link 5 id) n).fec && laneGood (link 5 id) n).length ∧
    does .fecAlign (link 5 id) (fun d => d.glr.st = 6 ∧ d.glr.lseq = none ∧ d.glr.ack = 0xFFFFFFFF) = true := by decide +kernel

/-- R369, R372, R402: lanes lose, train and lock. -/
theorem test_lanes : (lane (link 7 id) 47).live = true ∧
    does (.transmitterFault 47 2) (link 7 id) (fun d =>
      !(lane d 47).live ∧ rg d (Adr.LANE_CNT_LOSS 47) = 1 ∧ rg d Adr.GLR_CNT_LANE = 1) = true ∧
    does (.trained 51) (setLane (link 7 id) 51 fun l => { l with alone := true }) (fun d =>
      !(lane d 51).alone ∧ pends d (Page.lane.base 51) Bit.evt_LANE_TRAINED) = true ∧
    does (.trained 0) (setLane (link 7 id) 0 fun l => { l with alone := true }) (fun d => !(lane d 0).alone) = true ∧
    does (.returnLaneBlockLock 51 false) (link 2 id) (fun d => !(lane d 51).lock) = true := by decide +kernel

/-- R377, R386, R388: a RESEND is repeated once; GLR_CMD. -/
theorem test_resend :
    does .resendTimeout (link 7 fun g => { g with resends := [⟨1, 2, false⟩, ⟨4, 4, true⟩] }) (fun d =>
      d.glr.resends = [⟨4, 4, true⟩, ⟨1, 2, true⟩] ∧ rg d Adr.GLR_CNT_RESEND = 1) = true ∧
    does .resendTimeout (link 7 fun g => { g with resends := [⟨1, 2, true⟩] }) (fun d =>
      d.glr.resends = [] ∧ latched d (Page.glr.base 0) Bit.err_GLR_MSG_LOST) = true ∧
    acc (link 7 id) .host Adr.GLR_CMD = true ∧
    does (.unackClr .host 0) (link 7 id) (fun d => unackEmpty d) = true ∧
    does (.dbmReq .host 0) (link 7 id) (fun d => d.glr.dbmAsked) = true := by decide +kernel

/-- R572, R574: a lane that failed in four frames is isolated. -/
theorem test_repairTurn : let d := link 7 fun g => { g with fails := [(3, 9), (3, 8), (3, 7), (3, 6)] }
    pageOn d .lane 3 = true ∧ ctrlBit d (Page.lane.base 3) 2 = false ∧ d.knl.repairs.find? (fwReady d) = none ∧
    fwNext d = some (Page.lane.base 3) ∧ fwNext (link 7 fun g => { g with fails := [(3, 9), (3, 8), (3, 7)] }) = none ∧
    !(lane (repairTurn d) 3).live ∧ ctrlBit (repairTurn d) (Page.lane.base 3) 2 ∧
    rg (repairTurn d) (Page.lane.base 3 + oOWNER) = 2 := by decide +kernel

/-- The link with key 0 stored and an exchange outstanding. -/
def tagged (adv : Bool) (repeats : Nat) : Dev :=
  { link 6 id with
    nvm := { ({} : Nvm) with keys := [(0, (List.range 32).map byte)] }
    tag := { ({} : Tag) with count := 41, x := some ⟨adv, 0x1234, repeats⟩ } }

/-- R392, R396: where a challenge may start (its nonce is open); repeats, and the last of them. -/
theorem test_tag : acc (link 6 id) .knl Adr.TAG_CTRL = true ∧ linkUp (link 6 id) = true ∧
    (link 6 id).tag.x = none ∧
    NextMsg (tagged false 0) 48 7 ∧
    does (.tagRetry) (tagged false 2) (fun d => d.tag.x = some ⟨false, 0x1234, 3⟩) = true ∧
    does (.tagRetry) (tagged false 3) (fun d => latched d (Page.tag.base 0) Bit.err_TAG_TAG_TIMEOUT) = true := by
  unfold NextMsg; decide +kernel

/-- R392, with an HMAC-SHA-256 worked outside. -/
theorem test_tagResp : does (.tagResp 48 7 9 41 0xf5) (tagged false 0) (fun d =>
      !d.tag.auth ∧ latched d (Page.tag.base 0) Bit.err_TAG_TAG_FAIL) = true ∧
    does (.tagResp 48 7 9 41 0xcc0d4ecfc82ef25d68fcf0ba7061799f334ea8b5c5d489188a7d03b41e5167ef) (tagged false 0) (fun d => d.tag.auth ∧ d.tag.count = 41 ∧ d.glr.st = 7) = true := by decide +kernel

/-- R395, with an HMAC-SHA-256 worked outside. -/
theorem test_tagAck : does (.tagAck 48 7 42 0x5d0c182f5145afa24623a16c7e436c6973d42206d051f4b8a04e705d1a3ca7aa) (tagged true 0) (fun d =>
      d.tag.count = 42 ∧ pends d (Page.tag.base 0) Bit.evt_TAG_ADVANCED) = true := by decide +kernel

/-- R399 to R401: CRC-32 of the nine digits, begun and fed on the last unit. -/
theorem test_chk : chkAlg on 7 < 4 ∧ acc on .host (Adr.CHK_CMD 7) = true ∧ acc on .host (Adr.CHK_D32 7) = true ∧
    acc on .host (Adr.CHK_D8 7) = true ∧ acc on .host (Adr.CHK_D16 7) = true ∧
    does (.chkStart .host 7 0) (wr on (Adr.CHK_BYTES 7) 5) (fun d => rg d (Adr.CHK_BYTES 7) = 0 ∧
      (nth d.chks 7 {}).crc = chkInit (chkAlg on 7) ^^^ chkSeed on 7 ^^^ chkFold on 7) = true ∧
    chkFifo on 7 = [] ∧ (let busy := { on with chks := List.replicate 8 { fifo := List.replicate 15 (.data 1 0) } }
      chkLevel busy 7 < 16 ∧ chkFifo busy 7 ≠ [] ∧
      does (.chkD8 .host 7 0x31) busy (fun d => chkFifo d 7 = List.replicate 15 (.data 1 0) ++ [.data 1 0x31]) = true ∧
      does (.chkStart .host 7 0) busy (fun d => chkFifo d 7 = List.replicate 15 (.data 1 0) ++ [.start]) = true) ∧
    does (.chkD16 .host 7 0x3231) on (fun d => chkFifo d 7 = [.data 2 0x3231]) = true ∧
    does (.chkD32 .host 7 0x34333231) on (fun d => chkFifo d 7 = [.data 4 0x34333231]) = true := by decide +kernel

/-- R400: a unit takes the word in its FIFO. -/
theorem test_chkTick : let d := { on with chks := List.replicate 8 { fifo := [.data 4 0x34333231] } }
    chkAlg d 7 < 4 ∧ chkFifo d 7 = [.data 4 0x34333231] ∧ chkFifo (chkTicks d) 7 = [] ∧
    rg (chkTicks d) (Adr.CHK_BYTES 7) = 4 := by decide +kernel

/-! ### The Heel -/

/-- The Heel in TRACK with its program at address 255, `cyc` QCLK used, one word there, and h1 = `a`, h2 = `b`. -/
def uc (cyc op imm : Nat) (a b : Int) : Dev :=
  let w := w32 (op * 2 ^ 27 + 3 * 2 ^ 23 + 1 * 2 ^ 19 + 2 * 2 ^ 15 + imm)
  setHel (wr on (Adr.HEL_UC 255) w) fun h => { h with
    mode := 3, going := true, pc := 255, cyc := cyc, h := [0, a, b] ++ List.replicate 13 0
    smp := (List.range 20).map fun i => w32 (2 ^ 32 - 1 - i), ports := (List.range 16).map fun i => -(i : Int)
    capCur := some 1023, y := 134217727 }

/-- Whether the instruction wrote `v` to h3, moved to address 0 and used `cost` QCLK. -/
def wrote (d d' : Dev) (cost : Nat) (v : Int) : Bool :=
  decide (d'.hel = { d.hel with h := [0, nth d.hel.h 1 0, nth d.hel.h 2 0, v] ++ List.replicate 12 0, pc := 0, cyc := d.hel.cyc + cost })

/-- R470: the instructions of loads and sums, at the last QCLK of the sample, with saturation. -/
theorem test_sums :
    UcReady (uc 47 0x01 0 0 0) 0x01 1 ∧ UcReady (uc 47 0x02 0 0 0) 0x02 1 ∧ UcReady (uc 47 0x03 0 0 0) 0x03 1 ∧
    UcReady (uc 47 0x04 0 0 0) 0x04 1 ∧ UcReady (uc 47 0x05 0x7FFF 5 0) 0x05 1 ∧
    does .ldi (uc 47 0x01 7 0 0) (fun d => wrote (uc 47 0x01 7 0 0) d 1 (1 * 2 ^ 19 + 2 * 2 ^ 15 + 7)) = true ∧
    does .ldh (uc 47 0x02 9 0 0) (fun d => wrote (uc 47 0x02 9 0 0) d 1 (9 * 65536)) = true ∧
    does .add (uc 47 0x03 0 2147483647 1) (fun d => wrote (uc 47 0x03 0 2147483647 1) d 1 2147483647) = true ∧
    does .sub (uc 47 0x04 0 (-2147483648) 1) (fun d => wrote (uc 47 0x04 0 (-2147483648) 1) d 1 (-2147483648)) = true ∧
    does .addi (uc 47 0x05 0x7FFF 5 0) (fun d => wrote (uc 47 0x05 0x7FFF 5 0) d 1 4) = true := by
  unfold UcReady; decide +kernel

/-- R470: products, shifts, ends, ports and coefficients. -/
theorem test_products :
    UcReady (uc 46 0x06 1 0 0) 0x06 2 ∧ UcReady (uc 47 0x07 1 0 0) 0x07 1 ∧ UcReady (uc 47 0x08 1 0 0) 0x08 1 ∧
    UcReady (uc 47 0x09 1 0 0) 0x09 1 ∧ UcReady (uc 47 0x0A 1 0 0) 0x0A 1 ∧ UcReady (uc 47 0x0B 1 0 0) 0x0B 1 ∧
    UcReady (uc 47 0x0C 1 0 0) 0x0C 1 ∧
    does .mul (uc 46 0x06 1 (-3) 5) (fun d => wrote (uc 46 0x06 1 (-3) 5) d 2 (-7)) = true ∧
    does .mul (uc 46 0x06 0 65536 65536) (fun d => wrote (uc 46 0x06 0 65536 65536) d 2 2147483647) = true ∧
    does .shr (uc 47 0x07 31 (-1) 0) (fun d => wrote (uc 47 0x07 31 (-1) 0) d 1 (-1)) = true ∧
    does .shl (uc 47 0x08 31 (-2) 0) (fun d => wrote (uc 47 0x08 31 (-2) 0) d 1 (-2147483648)) = true ∧
    does .minI (uc 47 0x09 0 (-2) 3) (fun d => wrote (uc 47 0x09 0 (-2) 3) d 1 (-2)) = true ∧
    does .maxI (uc 47 0x0A 0 (-2) 3) (fun d => wrote (uc 47 0x0A 0 (-2) 3) d 1 3) = true ∧
    does .inPort (uc 47 0x0B 15 0 0) (fun d => wrote (uc 47 0x0B 15 0 0) d 1 (-15)) = true ∧
    does .cf (uc 47 0x0C 15 0 0) (fun d => wrote (uc 47 0x0C 15 0 0) d 1 (-20)) = true := by
  unfold UcReady; decide +kernel

/-- R470, R471: branches taken and not, and NOP. -/
theorem test_branches :
    UcReady (uc 47 0x00 0 0 0) 0x00 1 ∧ UcReady (uc 46 0x10 0 0 0) 0x10 2 ∧ UcReady (uc 46 0x11 0 0 0) 0x11 2 ∧
    UcReady (uc 46 0x12 0 0 0) 0x12 2 ∧
    does .nop (uc 47 0x00 0 0 0) (fun d => d.hel.pc = 0 ∧ d.hel.cyc = 48) = true ∧
    does .br (uc 46 0x10 200 0 0) (fun d => d.hel.pc = 200 ∧ d.hel.cyc = 48) = true ∧
    does .bz (uc 46 0x11 200 0 0) (fun d => d.hel.pc = 200 ∧ d.hel.cyc = 48) = true ∧
    does .bz (uc 47 0x11 200 1 0) (fun d => d.hel.pc = 0 ∧ d.hel.cyc = 48) = true ∧
    does .bn (uc 46 0x12 200 (-1) 0) (fun d => d.hel.pc = 200 ∧ d.hel.cyc = 48) = true ∧
    does .bn (uc 47 0x12 200 0 0) (fun d => d.hel.pc = 0 ∧ d.hel.cyc = 48) = true := by
  unfold UcReady; decide +kernel

/-- R458, R460, R473, R479: the outputs of a program. -/
theorem test_outputs :
    UcReady (uc 47 0x0D 0 1 0) 0x0D 1 ∧ UcReady (uc 47 0x0E 0 1 0) 0x0E 1 ∧ UcReady (uc 47 0x0F 0 1 0) 0x0F 1 ∧
    UcReady (uc 47 0x13 0 1 0) 0x13 1 ∧
    does .hyst (uc 47 0x0D 0 2147483647 0) (fun d => d.hel.pc = 0 ∧ rg d Adr.HEL_ERR_LAST = 0x7FFFFFFF ∧ d.hel.y = 134217727 ∧
      d.hel.ystage = clampI (-134217728) 134217727 (134217727 + d.hel.v * smpS d.hel)) = true ∧
    does .outI (uc 47 0x0E 0 2147483647 0) (fun d => d.hel.ystage = 134217727 ∧ d.hel.pc = 0) = true ∧
    does .capI (uc 47 0x0F 0 (-1) 2) (fun d => rg d (Adr.HEL_CAP 1023 + 4) = 0xFFFFFFFF ∧ rg d (Adr.HEL_CAP 1023 + 8) = 2) = true ∧
    does .waitInstruction (uc 47 0x13 0 0 0) (fun d => d.hel.complete ∧ !d.hel.going ∧ rg d Adr.HEL_CYC = 0x3030) = true ∧
    does (.ucFault true) (uc 47 0x1F 0 0 0) (fun d =>
      !d.hel.going ∧ d.hel.safeReq ∧ latched d (Page.hel.base 0) Bit.err_HEL_UC_FAULT) = true := by
  unfold UcReady; decide +kernel

/-- The Heel in mode `m` with ENABLE set. -/
def heel (m : Nat) (f : Hel → Hel) : Dev :=
  setHel (wr on (Page.hel.base 0 + oCTRL) 1) fun h => f { h with mode := m, ticked := true, complete := true, ystage := 77, seq := 15 }

/-- R457, R458, R462: the tick. -/
theorem test_tick : helRuns (heel 3 id) = true ∧
    does (.tick 0 true) (heel 3 id) (fun d => rg d Adr.HEL_SAMPLE = 1 ∧ d.hel.seq = 0 ∧ d.hel.going ∧ d.hel.y = 77) = true ∧
    does (.tick 0 false) (heel 1 id) (fun d => rg d Adr.HEL_SAMPLE = 1 ∧ d.hel.pc = 0 ∧ d.hel.cyc = 0) = true := by decide +kernel

/-- R464, R478, R481, R482: the commands. -/
theorem test_heelCommands : acc (heel 1 id) .host Adr.HEL_CMD = true ∧ acc (heel 1 id) .host Adr.HEL_INJ_CTRL = true ∧
    acc (heel 1 id) .host Adr.HEL_CAP_CTRL = true ∧ inStripe (heel 1 id) = false ∧
    does (.peakClr .host 0) (wr (heel 1 id) Adr.HEL_PEAK 5) (fun d => rg d Adr.HEL_PEAK = 0) = true ∧
    does (.reload .host 0) (setHel (wr on (Adr.HEL_UC 255) 5) fun h => { h with bad := [3] }) (fun d =>
      d.hel.bad = [] ∧ rg d (Adr.HEL_UC 255) = w32 (wordReset (Adr.HEL_UC 255))) = true ∧
    does (.safe .host 0) (heel 3 id) (fun d => d.hel.safeReq) = true ∧
    does (.acq .host 0) (heel 1 id) (fun d => d.hel.acqReq) = true ∧
    does (.injArm .host 0x10) (heel 1 id) (fun d => bit (rg d Adr.HEL_INJ_CTRL) 0) = true ∧
    does (.injStop .host 0) (heel 3 fun h => { h with inj := true }) (fun d =>
      !d.hel.inj ∧ latched d (Page.hel.base 0) Bit.err_HEL_INJ_ABORT) = true ∧
    does (.capArm .host 0xFFFFFFFF) (heel 1 fun h => { h with capDone := true, capN := 3 }) (fun d =>
      d.hel.capArmed ∧ !d.hel.capDone ∧ d.hel.capN = 0 ∧ rg d Adr.HEL_CAP_CTRL = 0x077FFF00) = true := by decide +kernel

/-- R468: the last microcode word. -/
theorem test_microcode : acc on .host (Adr.HEL_UC 255) = true ∧ (injTake on (Page.hel.base 0) true).1 = 0 ∧
    does (.microcodeWrite .host 255 0x12345678) (setHel on fun h => { h with bad := [255] }) (fun d =>
      rg d (Adr.HEL_UC 255) = 0x12345678 ∧ d.hel.bad = []) = true := by decide +kernel


/-! ### Units of the lanes -/

/-- R355, R356: a row packet has 528 bytes, its code at the place the rule gives; R358, R359: units of 16 bytes; R366: lane 32 carries
packets 352 to 361. -/
theorem test_units : let f : OutFrame := ⟨7, 3, 1, List.range 48, [(1024 * 352 + 5, 9)]⟩
    (rowUnit f 32 352).length = 528 ∧ ((rowUnit f 32 352).take 16).drop 12 = [0, 0, 0x90, 0] ∧
    (rowUnit f 32 352).take 4 = [0x60, 1, 0x60, 0xD5] ∧ (laneUnits f 32).length = 10 ∧
    (commitBytes true 7).length = 16 ∧ (ctrlUnit 0x21 [1, 2, 3]).length = 64 ∧ (ctrlUnit 0x10 []).length = 16 ∧
    controlLane [3, 5] = 3 := by decide +kernel
/-! ### Exposure -/

/-- A ticket of ten shots in slot A. -/
def tk : Tkt := ⟨0, 77, 1, false, false, false, 2, 0, 0, 10, 0, 0, 0, [], false, none, 0, none, false⟩

/-- A stripe whose boundary number `n` is reached at time 100,000. -/
def rn (n : Nat) : Run := ⟨tk, false, 65536, 20, 4, 0, 0, 0, 0, n + 1, none, [100000], n, n - 4, none, none, 0, [], 0, 0⟩

/-- That stripe running with the link ready, frame 0 on it, and every acknowledgement in. -/
def exposing1 (r : Run) (f : Glr → Glr) : Dev :=
  setExp (setGlr { wr on Adr.TAG_LIMIT 100 with
    stc := { ({} : Stc) with dbm := { ({} : Dbm) with valid := true } }, tag := { ({} : Tag) with auth := true } } fun g => f { g with
    st := 8, lclk := true, lseq := some 5, ack := 5, unFirst := 1, unLast := 0
    lanes := List.replicate 48 { live := true, lock := true, fec := true, good := true } ++ List.replicate 4 { live := true, lock := true }
    hist := [(5, ⟨5, 77, 0, 10, false, false, 0, 1, 0, 0, false, false, []⟩)] }) fun e => { e with
      run := some r, queue := [tk], count := 1 }

/-- R406 to R408: counts move POS modulo 2^48. -/
theorem test_counts :
    does (.countEdge true true 1000 50) (setExp on fun e => { e with pos := 2 ^ 48 - 1 }) (fun d => d.exp.pos = 0) = true ∧
    does (.countEdge true false 1000 50) on (fun d => d.exp.pos = 2 ^ 48 - 1) = true ∧
    fd on Adr.EXP_CFG 9 8 = 0 ∧ 2 * fd on Adr.EXP_CFG 3 0 ≤ 1000 ∧
    does (.countEdge true false 1000 50) (setFd on Adr.EXP_CFG 9 8 1) (fun d => d.exp.pos = 1 ∧ d.exp.qA) = true ∧
    does .osreqExpiry (setExp on fun e => { e with osLeft := 1 }) (fun d => d.exp.osLeft = 0) = true := by decide +kernel

/-- R424, R425: a stage fault ends the stripe. -/
theorem test_stageFault : inStripe (exposing1 (rn 4) id) = true ∧ (exposing1 (rn 4) id).muz.supply = false ∧
    (∀ c ∈ [Instr.lossOfInputSwing, .encValidLow, .freeze],
      does c (setHel (exposing1 (rn 4) id) fun h => { h with mode := 3 }) (fun d =>
        d.exp.run = none ∧ d.exp.halted ∧ d.hel.safeReq) = true) ∧
    does .freeze (exposing1 (rn 4) id) (fun d => latched d (Page.exp.base 0) Bit.err_EXP_FREEZE) = true ∧
    does .encValidLow (exposing1 (rn 4) id) (fun d => latched d (Page.exp.base 0) Bit.err_EXP_FEEDBACK_LOST) = true := by
  decide +kernel

/-- R413, R446, R447: STRIPE_GO starts, refuses and ignores. -/
theorem test_stripeGo :
    let d := setExp (exposing1 (rn 4) id) fun e => { e with run := none }
    let bad := setExp d fun e => { e with halted := true }
    refuseWhy d = 0 ∧ slotShadow d false = false ∧ wakeLate d = false ∧ (fd d Adr.HEL_CFG 8 8 = 1 → d.hel.mode = 3) ∧
    does (.stripeGo 5) d (fun e => (e.exp.run.any fun r => r.tkt = tk ∧ !r.refused ∧ 2 ≤ r.goLead ∧ r.shots = 0) ∧
      rg e Adr.EXP_STRIPE = 77 ∧ rg e Adr.EXP_N = 10 ∧ rg e Adr.EXP_REFUSE = 0) = true ∧
    refuseWhy bad = 16 ∧
    does (.stripeGo 5) bad (fun e => (e.exp.run.all fun r => r.refused) ∧ rg e Adr.EXP_REFUSE = 16 ∧
      latched e (Page.exp.base 0) Bit.err_EXP_REFUSED) = true ∧
    does (.stripeGo 5) (exposing1 (rn 4) id) (fun e => rg e Adr.EXP_CNT_GO_IGNORED = 1) = true ∧
    does (.stripeGo 5) on (fun e => rg e Adr.EXP_CNT_GO_IGNORED = 1 ∧ e.exp = on.exp) = true := by decide +kernel

/-- R414: lead boundaries. -/
theorem test_leadBoundary :
    (∃ r, takeBoundary (exposing1 (rn 0) id) = some (100000, r) ∧ r.next + 1 < r.goLead ∧ 1 ≤ r.next) ∧
    does .leadBoundary (exposing1 (rn 0) id) (fun d => d.exp.run.any fun r => r.next = 1 ∧ r.lastB = some 100000 ∧ r.begun = 0) = true ∧
    (∃ r, takeBoundary (exposing1 (rn 3) id) = some (100000, r) ∧ r.goLead ≤ r.next + 1 ∧ r.next ≤ r.goLead ∧
      r.next + 1 - r.goLead < r.tkt.n) ∧
    does .leadBoundary (exposing1 (rn 3) id) (fun d => d.exp.run.all fun r => 1 < r.begun) = true :=
  ⟨⟨_, rfl, by decide +kernel⟩, by decide +kernel, ⟨_, rfl, by decide +kernel⟩, by decide +kernel⟩

/-- R420, R422, R427, R437: a shot fires, is skipped, is covered. -/
theorem test_shotBoundary :
    let skip := exposing1 { rn 4 with lastFired := some 99999 } id
    let blank := setMuz (exposing1 (rn 4) id) fun m => { m with blankPin := true, muzzled := true }
    (∃ r, takeBoundary (exposing1 (rn 4) id) = some (100000, r) ∧ r.next = r.goLead + 0 + 1 ∧ r.tkt.stopAt = none ∧ r.lastFired = none) ∧
    covered (exposing1 (rn 4) id) = false ∧ frameLseq (exposing1 (rn 4) id) 0 0 = some 5 ∧
    ackBlocked (exposing1 (rn 4) id) 5 = false ∧ unackEmpty (exposing1 (rn 4) id) = true ∧
    2 * tminNs (exposing1 (rn 4) id) ≤ 100000 ∧
    does .shotBoundary (exposing1 (rn 4) id) (fun d =>
      rg d Adr.EXP_CNT_SHOTS = 1 ∧ rg d Adr.EXP_SHOT = 0 ∧ d.muz.pulses = [{ shot := 0, tkt := tk }]) = true ∧
    covered skip = false ∧ 100000 - 99999 < 2 * tminNs skip ∧
    does .shotBoundary skip (fun d => rg d Adr.EXP_CNT_SKIP = 1 ∧ latched d (Page.exp.base 0) Bit.err_EXP_SKIP ∧ d.muz.pulses = []) = true ∧
    covered blank = true ∧
    does .shotBoundary blank (fun d => rg d Adr.EXP_CNT_SKIP = 0 ∧ rg d Adr.EXP_CNT_SHOTS = 0 ∧ d.muz.pulses = []) = true :=
  ⟨⟨_, rfl, by decide +kernel⟩, by decide +kernel⟩

/-- The block with a strobe in progress. -/
def pulsing (high : Bool) : Dev := drive (setMuz on fun m => { m with pulses := [⟨3, tk, high, false⟩] })

/-- R427, R432, R438, R439, R746: strobes. -/
theorem test_strobes :
    does .strobeRise (wr (pulsing false) (Page.muz.base 0 + oINJECT) 1) (fun d =>
      d.muz.pulses = [⟨3, tk, true, true⟩] ∧ d.pins.strobe = some true) = true ∧
    does .strobeFall (pulsing true) (fun d => d.muz.pulses = [] ∧ d.pins.strobe = some false) = true ∧
    does .strobeCut (pulsing true) (fun d => d.muz.stuck ∧ d.muz.muzzled ∧ d.pins.blankAll = some false ∧
      rg d Adr.MUZ_CUT_SHOT = 3 ∧ latched d (Page.muz.base 0) Bit.err_MUZ_STUCK) = true ∧
    (let two := drive (setMuz (wr on (Page.muz.base 0 + oINJECT) 1) fun m => { m with pulses := [⟨3, tk, true, true⟩, ⟨4, tk, false, false⟩] })
     does .strobeFall two (fun d => d.muz.stuck ∧ d.muz.pulses = [] ∧ d.muz.muzzled ∧ d.pins.blankAll = some false ∧
       rg d Adr.MUZ_CUT_SHOT = 3 ∧ rg d Adr.MUZ_CUT_STRIPE = 77 ∧ rg d (Page.muz.base 0 + oINJECT) = 0) = true) ∧
    does (.calibration false 9) on (fun d => rg d Adr.MUZ_CAL = 9 ∧ latched d (Page.muz.base 0) Bit.err_MUZ_CAL_FAIL) = true ∧
    acc on .knl Adr.MUZ_CMD = true ∧ (∀ l ∈ on.fcl.lvl, l < 3) ∧ acc on .knl (Page.muz.base 0 + oINJECT) = true ∧
    does (.clearStuck .knl 0) (setMuz on fun m => { m with stuck := true }) (fun d => !d.muz.stuck) = true ∧
    does (.muzInjectCut .knl 0) on (fun d => bit (rg d (Page.muz.base 0 + oINJECT)) 0) = true := by decide +kernel

/-- R434, R441: causes hold the muzzle and let it go. -/
theorem test_muzzle :
    let both := setMuz on fun m => { m with abortPin := true, blankPin := true, muzzled := true }
    does .abortAsserted (exposing1 (rn 4) id) (fun d => d.exp.run = none ∧ d.exp.halted ∧ d.muz.muzzled) = true ∧
    does .blankReqAsserted (exposing1 (rn 4) id) (fun d => d.exp.run.isSome ∧ d.muz.muzzled ∧ d.pins.blankAll = some false) = true ∧
    does .abortReleased both (fun d => d.muz.muzzled ∧ !d.muz.abortPin) = true ∧
    does .blankReqReleased both (fun d => d.muz.muzzled ∧ !d.muz.blankPin) = true ∧
    does .blankReqReleased (setMuz on fun m => { m with blankPin := true, muzzled := true }) (fun d =>
      !d.muz.muzzled ∧ d.pins.blankAll = some true) = true ∧
    acc on .host Adr.EXP_CMD = true ∧
    does (.resume .host 0) (setExp on fun e => { e with halted := true }) (fun d => !d.exp.halted) = true ∧
    does (.resume .host 0) (setExp both fun e => { e with halted := true }) (fun d => d.exp.halted) = true ∧
    does (.tktClr .host 0) (setExp on fun e => { e with words := [1] }) (fun d => d.exp.words = []) = true := by decide +kernel

/-- R443, R444, R448, R450: tickets. -/
theorem test_tickets : acc on .host Adr.EXP_TKT = true ∧
    does (.expTkt .host 8) (setExp on fun e => { e with words := [1, 2, 3, 4, 5, 6, 7] }) (fun d =>
      d.exp.words = [] ∧ d.exp.arriving = [[1, 2, 3, 4, 5, 6, 7, 8]]) = true ∧
    does (.expTkt .host 7) (setExp on fun e => { e with words := [1, 2, 3, 4, 5, 6] }) (fun d =>
      d.exp.words = [1, 2, 3, 4, 5, 6, 7] ∧ d.exp.arriving = []) = true ∧
    does .accepted (setExp on fun e => { e with queue := [tk, tk, tk], count := 3, arriving := [[77, 4, 0, 0, 0, 10, 0, 0]] }) (fun d =>
      d.exp.arriving = [] ∧ d.exp.count = 4 ∧ d.exp.queue.length = 4 ∧ d.stc.todo.length = 1 ∧
      ((d.exp.queue.drop 3).all fun t => t.index = 77 ∧ t.slotB ∧ t.len = 10) ∧
      pends d (Page.exp.base 0) Bit.evt_EXP_ACCEPTED) = true ∧
    does .wake (setExp on fun e => { e with queue := [tk] }) (fun d => d.exp.wakeHead) = true ∧
    does .paceFrame on (fun d => d.outs.head? = some (.pace (paceFrame on))) = false ∧
    does .paceFrame (drive on) (fun d => d.outs.head? = some (.pace (paceFrame on))) = true := by decide +kernel

/-- R558, R559, R613, R615, R616: fault collection and slots. -/
theorem test_fcl :
    acc on .host Adr.FCL_STATUS_LO = true ∧ acc on .host (Adr.FCL_SEV 31) = true ∧ acc on .host Adr.FCL_LOG_W2 = true ∧
    acc on .knl Adr.FCL_CMD = true ∧ acc on .host Adr.GLB_JOB_SWAP = true ∧ sev3Held on = false ∧
    does (.fclStatus .host 0x80000000) (setFcl on fun f => { f with status := 0x80000001 }) (fun d => d.fcl.status = 1) = true ∧
    does (.fclSev .host 31 3) on (fun d => rg d (Adr.FCL_SEV 31) = sevStored 31 3) = true ∧
    does (.fclLogW2 .host) (setFcl on fun f => { f with log := [(1, 2, 3), (4, 5, 6)] }) (fun d => d.fcl.log = [(4, 5, 6)]) = true ∧
    does (.restart .knl 0) (setFcl (setMuz on fun m => { m with sev3 := true, muzzled := true }) fun f => { f with halted := true }) (fun d =>
      !d.fcl.halted ∧ !d.muz.sev3 ∧ d.fcl.barkArm ∧ !d.muz.muzzled) = true ∧
    does .bark (setFcl on fun f => { f with barkGrid := true, barkRun := true, bark := true }) (fun d => !d.fcl.bark ∧ d.fcl.barkRun) = true ∧
    does .bark (setFcl on fun f => { f with barkGrid := true, barkArm := true }) (fun d => d.fcl.bark) = true ∧
    does (.jobSwapGo .host 0) on (fun d => d.glb.pend) = true ∧
    does (.jobSwapCancel .host 0) { on with glb := { activeB := true, pend := true } } (fun d => d.glb = { activeB := true }) = true ∧
    does .swapWorkDone (setExp (wr (wr on Adr.GLB_SLOT_B 3) Adr.PMU_RASPLAN 0x40) fun e => { e with swapWork := true }) (fun d => !d.exp.swapWork ∧
      d.pmu.plan = fd d Adr.PMU_RASPLAN (2 * fd d Adr.GLB_SLOT_A 1 0 + 1) (2 * fd d Adr.GLB_SLOT_A 1 0)) = true := by decide +kernel

/-! ### Control words and registers -/

/-- R16, R736, R740: the three bits of _CTRL of a page, and of pages with a self-test, with every requester that is granted. -/
theorem test_ctrl : pageOn on .bst 0 = true ∧ owns on .host .bst 0 = true ∧
    does (.enableSet .host (Page.bst.base 0) 0xF2) on (fun d => rg d (Page.bst.base 0 + oCTRL) = 3) = true ∧
    does (.enableClear .host (Page.bst.base 0) 7) on (fun d => rg d (Page.bst.base 0 + oCTRL) = 6) = true ∧
    does (.quiesceSet .host (Page.bst.base 0) 1) on (fun d => rg d (Page.bst.base 0 + oCTRL) = 3) = true ∧
    does (.quiesceClear .host (Page.bst.base 0) 7) on (fun d => rg d (Page.bst.base 0 + oCTRL) = 5) = true ∧
    does (.isolateSet .host (Page.bst.base 0) 1) on (fun d => rg d (Page.bst.base 0 + oCTRL) = 5) = true ∧
    does (.isolateClear .host (Page.bst.base 0) 7) on (fun d => rg d (Page.bst.base 0 + oCTRL) = 3) = true ∧
    does (.softReset .host (Page.bst.base 0) 1) on (fun d => rg d (Page.bst.base 0 + oCTRL) = 1) = true := by decide +kernel

/-- R599, R601: self-tests begin and end, at the last tile, engine, channel and lane. -/
theorem test_selfTest :
    (∀ b ∈ [Page.ras.base 33, Page.cdcE.base 7, Page.dmaCh.base 15, Page.lane.base 51],
      does (.enableSet .knl b (rg (wr on (b + oCTRL) 0) (b + oCTRL))) (wr on (b + oCTRL) 0) (fun d => decide (b ∈ d.testing)) = true ∧
      does (.enableSelfTestDone b true) { wr on (b + oCTRL) 1 with testing := [b] } (fun d =>
        b ∉ d.testing ∧ ctrlBit d b 2 ∧ ctrlBit d b 0) = true) ∧
    does (.enableSelfTestDone (Page.ras.base 33) false) { wr on (Page.ras.base 33 + oCTRL) 1 with testing := [Page.ras.base 33] }
      (fun d => d.testing = [] ∧ !ctrlBit d (Page.ras.base 33) 0 ∧ rg d (Adr.RAS_ROLE 33) = 0) = true := by decide +kernel

/-- R243, R388, R389, R521: resources leave and return. -/
theorem test_leave :
    let tile := setTile (wr on (Page.ras.base 33 + oCTRL) 1) 33 id
    ctrlBit tile (Page.ras.base 33) 2 = false ∧ ctrlBit tile (Page.ras.base 33) 0 = true ∧ owns tile .host .ras 33 = true ∧
    does (.isolateSet .host (Page.ras.base 33) 1) tile (fun d => (tileOf d 33).work = [] ∧ ctrlBit d (Page.ras.base 33) 2) = true ∧
    does (.enableClear .host (Page.ras.base 33) 1) tile (fun d => (tileOf d 33).work = [] ∧ !(tileOf d 33).awake) = true ∧
    does (.isolateSet .host (Page.lane.base 47) 1) (setLane (wr on (Page.lane.base 47 + oCTRL) 1) 47 fun l => { l with live := true })
      (fun d => !(lane d 47).live) = true ∧
    does (.enableClear .host (Page.hel.base 0) 1) (setHel (wr on (Page.hel.base 0 + oCTRL) 1) fun h => { h with mode := 3 })
      (fun d => d.hel.mode = 0) = true ∧
    does (.enableSet .host (Page.glr.base 0) 0) (wr on (Page.glr.base 0 + oCTRL) 0) (fun d => d.glr.st = 1) = true ∧
    does (.enableClear .host (Page.glr.base 0) 1) (setGlr (wr on (Page.glr.base 0 + oCTRL) 1) fun g => { g with st := 8 })
      (fun d => d.glr.st = 0) = true ∧
    does (.isolateClear .knl (Page.dmaCh.base 15) 5) (setChan (wr on (Page.dmaCh.base 15 + oCTRL) 5) 15 fun c => { c with
      cstate := .halted, cause := 3, dbPend := true }) (fun d => (chanOf d 15).cstate = .idle ∧ (chanOf d 15).cause = 0) = true ∧
    does (.isolateSet .host (Page.cdcE.base 7) 1) (setEng (wr on (Page.cdcE.base 7 + oCTRL) 1) 7 fun e => { e with frame := some (false, 3) })
      (fun d => (engOf d 7).frame = none) = true := by decide +kernel

/-- R9 to R12, R16, R488, R489: writes follow their access codes, and are turned away. -/
theorem test_registerWrite :
    let off := { on with pmu := { on.pmu with pd := List.replicate 14 {} } }
    pageOf Adr.ALT_MAX_SEG_A = some (.alt, 0) ∧ acc on .host Adr.ALT_MAX_SEG_A = true ∧
    (∃ r, Page.alt.row (Adr.ALT_MAX_SEG_A % 0x1000) = some r) ∧
    does (.registerWrite .host .bar0 4 Adr.ALT_MAX_SEG_A [0xFFFFFFFF] false) on (fun d =>
      decide (rg d Adr.ALT_MAX_SEG_A = rg (storeReg on Adr.ALT_MAX_SEG_A 0xFFFFFFFF) Adr.ALT_MAX_SEG_A)) = true ∧
    (∃ r, Page.alt.row ((Adr.ALT_MAX_SEG_A + 4) % 0x1000) = some r) ∧
    does (.registerWrite .host .bar0 8 Adr.ALT_MAX_SEG_A [0xFFFFFFFF, 0xFFFFFFFF] false) on (fun d =>
      decide (rg d Adr.ALT_MAX_SEG_A = rg (storeReg on Adr.ALT_MAX_SEG_A 0xFFFFFFFF) Adr.ALT_MAX_SEG_A ∧
        rg d (Adr.ALT_MAX_SEG_A + 4) = rg (storeReg on (Adr.ALT_MAX_SEG_A + 4) 0xFFFFFFFF) (Adr.ALT_MAX_SEG_A + 4))) = true ∧
    does (.registerWrite .host .bar2 4 0xBFC [0xFFFFFFFF] true) { on with hlk := { on.hlk with cfg := { vc1 := true } } } (fun d =>
      bar2Value d 0xBFC = 1) = true ∧
    does (.registerWrite .host .bar0 2 Adr.ALT_MAX_SEG_A [5] false) on (fun d => d.regs = on.regs) = true ∧
    does (.registerWrite .host .bar0 4 (Adr.ALT_MAX_SEG_A + 2) [5] false) on (fun d => d.regs = on.regs) = true ∧
    acc off .host Adr.ALT_MAX_SEG_A = false ∧
    does (.registerWrite .host .bar0 4 Adr.ALT_MAX_SEG_A [5] false) off (fun d => d.regs = off.regs) = true ∧
    acc on .host Adr.KNL_CMD = false ∧
    does (.registerWrite .host .bar0 4 Adr.KNL_CMD [0x4B4E0002] false) on (fun d => d.knl = on.knl) = true ∧
    acc off .host Adr.EXP_POS_LO = false ∧
    does (.readOfLo .host ⟨.bar0, Adr.EXP_POS_LO, 4, false⟩) (drive off) (fun d => d.outs.head? = some (.readData .host Adr.EXP_POS_LO [0])) = true :=
  ⟨by decide +kernel, by decide +kernel, ⟨_, rfl⟩, by decide +kernel, ⟨_, rfl⟩, by decide +kernel⟩

/-- R526: reads of LO words latch. -/
theorem test_readOfLo :
    let d := setChan (setExp (drive on) fun e => { e with pos := 0x123456789ABC, goPos := 0xFFFF00000001 }) 15 fun c => { c with
      cur := 0x500000040 }
    (∀ a ∈ [Adr.EXP_POS_LO, Adr.EXP_GO_POS_LO, Adr.MEI_LAST_UE_LO, Adr.CDC_CNT_OUT_LO, Adr.DMA_BYTES_H2D_LO, Adr.DMA_BYTES_D2H_LO,
      Adr.DMA_CUR_LO 15, Adr.DMA_CNT_BYTES_LO 15], acc d .knl a = true) ∧
    does (.readOfLo .knl ⟨.bar0, Adr.EXP_POS_LO, 4, false⟩) d (fun e => e.exp.posHi = 0x1234 ∧ e.outs.head? = some (.readData .knl Adr.EXP_POS_LO [0x56789ABC])) = true ∧
    acc d .knl Adr.EXP_POS_HI = true ∧
    does (.readOfLo .knl ⟨.bar0, Adr.EXP_POS_LO, 8, false⟩) d (fun e => e.outs.head? = some (.readData .knl Adr.EXP_POS_LO [0x56789ABC, 0x1234])) = true ∧
    does (.readOfLo .knl ⟨.bar0, (Adr.EXP_POS_LO + 3), 2, false⟩) d (fun e => e.outs.head? = some (.readData .knl (Adr.EXP_POS_LO + 3) [0, 0]) ∧
      e.regs = d.regs) = true ∧
    does (.readOfLo .knl ⟨.bar0, Adr.EXP_GO_POS_LO, 4, false⟩) d (fun e => e.exp.goPosHi = 0xFFFF) = true ∧
    does (.readOfLo .knl ⟨.bar0, Adr.MEI_LAST_UE_LO, 4, false⟩) (wr d Adr.MEI_LAST_UE_HI 7) (fun e => liveMei e Adr.MEI_LAST_UE_HI = 7) = true ∧
    does (.readOfLo .knl ⟨.bar0, Adr.CDC_CNT_OUT_LO, 4, false⟩) (wr d Adr.CDC_CNT_OUT_HI 8) (fun e => liveCdcG e Adr.CDC_CNT_OUT_HI = 8) = true ∧
    does (.readOfLo .knl ⟨.bar0, Adr.DMA_BYTES_H2D_LO, 4, false⟩) (wr d Adr.DMA_BYTES_H2D_HI 9) (fun e => liveDmaG e Adr.DMA_BYTES_H2D_HI = 9) = true ∧
    does (.readOfLo .knl ⟨.bar0, (Adr.DMA_CUR_LO 15), 4, false⟩) d (fun e => liveDmaCh e 15 (Adr.DMA_CUR_HI 15) = 5) = true ∧
    does (.readOfLo .knl ⟨.bar0, (Adr.DMA_CNT_BYTES_LO 15), 4, false⟩) (wr d (Adr.DMA_CNT_BYTES_HI 15) 6) (fun e =>
      liveDmaCh e 15 (Adr.DMA_CNT_BYTES_HI 15) = 6) = true := by decide +kernel

/-- R494, R603, R36: header words and the row table. -/
theorem test_header :
    let b := Page.dmaCh.base 3
    let d := drive { wr (wr on (b + oEVTPEND) 0xFFFFFFFF) (b + oEVTEN) 3 with hlk := { on.hlk with up := true, cfg := { msixEn := true } }, bar2 := [(0x800 + 16 * 3 + 12, 0)] }
    acc d .host (b + oEVTPEND) = true ∧ msixMasked d 3 = false ∧ PinsFollow (st d) ∧
    does (.evtPendWrite .host b 1) d (fun e => rg e (b + oEVTPEND) = 0xFFFFFFFE ∧ vectorLevel e 3 ∧ e.outs.head? = some (.msix 3)) = true ∧
    does (.evtPendWrite .host b 3) d (fun e => !vectorLevel e 3 ∧ e.outs = d.outs) = true ∧
    acc on .host (Page.bst.base 0 + oINJECT) = true ∧
    does (.inject .host (Page.bst.base 0) 0xFF) on (fun e => rg e (Page.bst.base 0 + oINJECT) = 0x17) = true ∧
    acc on .host (Adr.ROW_DELAY 511) = true ∧
    does .geomDmaxDone (wr (wr on (Adr.ROW_DELAY 511) 0x3FFF) Adr.GEOM_DMAX 0x80000001) (fun e => rg e Adr.GEOM_DMAX = 0x3FFF) = true := by
  unfold PinsFollow; decide +kernel

/-! ### The pattern stream -/

/-- Pages enabled and out of quiesce. -/
def ena (l : List Nat) (d : Dev) : Dev := l.foldl (fun d b => wr d (b + oCTRL) 1) d

/-- The data path enabled, with a region of 512 MiB for the spool, the cells and the patches. -/
def path : Dev :=
  [0, 1, 2].foldl (fun d i => wr d (Adr.BOB_RGN i) 0x400000)
    (ena [Page.spl.base 0, Page.xpd.base 0, Page.alt.base 0, Page.bst.base 0, Page.pxc.base 0, Page.ver.base 0, Page.stc.base 0,
      Page.cdcG.base 0] on)

/-- The bytes of a raw or KQZ block of the payload words given, with the checksum of R73. -/
def blkBytes (seq typ raw : Nat) (pay : List W32) : List Byte :=
  let n := ceil16 (36 + 4 * pay.length)
  let w := [0x5B1C0100, w32 seq, 7, w32 typ, w32 n, w32 raw, 0, 0] ++ pay ++ List.replicate (n / 4 - 9 - pay.length) 0
  bytesOfWords (w ++ [0 - w.foldl (· + ·) 0])

/-- A damaged block. -/
def blkHurt : List Byte := (blkBytes 0 0x20000000 4 [0x100]).map fun b => b + 1

/-- Channel 0 with a descriptor that carries 48 bytes to the spool. -/
def spooling (f : Chan → Chan) : Dev :=
  setChan (wr path Adr.SPL_CFG 1) 0 fun c => f { c with cstate := .run, phase := .xfer, desc := [0, 48] }

/-- R76, R115, R125, R128: a damaged block, and one whose number was taken. -/
theorem test_block : let d := spooling id
    chanSpools d 0 = true ∧ (chanOf d 0).block = none ∧ blkRuns d .spl .spl = true ∧
    spoolRoom d blkHurt = true ∧ blkBad blkHurt = true ∧
    does (.block 0 blkHurt) d (fun e => rg e Adr.SPL_CNT_DAMAGED = 1 ∧
      e.spl.reqs = [(0x11000000, w32 (hw blkHurt 4), w32 (hw blkHurt 8))]) = true ∧
    spoolRoom d (blkBytes 0x80000000 0x20000000 4 [0x400]) = true ∧ blkBad (blkBytes 0x80000000 0x20000000 4 [0x400]) = false ∧
    seqTaken d 0x80000000 = true ∧
    does (.block 0 (blkBytes 0x80000000 0x20000000 4 [0x400])) d (fun e => rg e Adr.SPL_CNT_DISCARD = 1 ∧ e.spl = d.spl) = true := by
  decide +kernel

/-- R77, R117, R119: a KQZ block is held and closes its NAK, a raw one in its turn is handed on. -/
theorem test_blockHeld : let d := setSpl (spooling fun c => { c with desc := [0, 64] }) fun s => { s with naks := [⟨5, none⟩] }
    let l := blkBytes 5 0x21000000 4 [0x5A514B31, 0, 0, 0]
    spoolRoom d l = true ∧ blkBad l = false ∧ (blkOf l).refetch = false ∧ (blkOf l).kqz = true ∧ d.spl.line = [] ∧
    seqTaken d 5 = false ∧
    does (.block 0 l) d (fun e => alGet e.spl.line 5 = some (.held (blkOf l)) ∧ e.spl.naks = []) = true ∧
    (let r := blkBytes 0 0x20000000 8 [0x400, 0x400]
    blkBad r = false ∧ (blkOf r).recs = some [0x400, 0x400] ∧ (blkOf r).seq = d.spl.pos ∧ d.spl.skip = 0 ∧
    does (.block 0 r) (spooling id) (fun e => e.spl.cur = some (blkOf r) ∧ e.spl.pos = 0) = true) := by decide +kernel

/-- R319: a block without room waits; the grant takes it. -/
theorem test_spoolGrant : let l := blkHurt
    spoolRoom (wr (spooling id) (Adr.BOB_RGN 0) 0) l = false ∧
    does (.block 0 l) (wr (spooling id) (Adr.BOB_RGN 0) 0) (fun e => (chanOf e 0).block = some l ∧ e.spl = path.spl) = true ∧
    chanSpools (spooling fun c => { c with block := some l }) 0 = true ∧
    does (.spoolGrant 0) (spooling fun c => { c with block := some l }) (fun e =>
      (chanOf e 0).block = none ∧ (chanOf e 0).given ∧ rg e Adr.SPL_CNT_DAMAGED = 1) = true := by decide +kernel

/-- R117, R119, R129: the gap's NAKs, a NAK given up, the request queue. -/
theorem test_naks : let d := setSpl path fun s => { s with gaps := 1, top := 3, line := [(2, .held (blkOf (blkBytes 2 0x20000000 4 [0x400])))] }
    missing d = [0, 1] ∧ does .gapWait d (fun e => e.spl.gaps = 0 ∧ e.spl.naks.map (·.seq) = [0, 1]) = true ∧
    (let h := { d with fcl := { d.fcl with halted := true } }
     does .gapWait h (fun e => e.spl = h.spl) = true) ∧
    does (.splNakHold 9) (setSpl path fun s => { s with naks := [⟨9, none⟩] }) (fun e =>
      rg e Adr.SPL_CNT_GIVEUP = 1 ∧ latched e (Page.spl.base 0) Bit.err_SPL_GIVEUP) = true ∧
    acc path .host Adr.SPL_REQ_W2 = true ∧
    does (.splReqW2 .host) (setSpl path fun s => { s with reqs := [(1, 2, 3), (4, 5, 6)] }) (fun e =>
      e.spl.reqs = [(4, 5, 6)] ∧ Out.readData .host Adr.SPL_REQ_W2 [3] ∈ e.outs) = true := by decide +kernel

/-- A block of type `bt` at the front of the stream with the record words given, one word of another record behind them. -/
def front (bt : Nat) (w : List W32) : SBlk :=
  { blkOf (blkBytes 0 (bt * 0x10000000) 8 [0, 0]) with recs := some (w ++ [0x400]) }

/-- The stream at that block, with a change of XPD. -/
def stream (bt : Nat) (w : List W32) (f : Xpd → Xpd) : Dev :=
  setXpd (setSpl path fun s => { s with cur := some (front bt w) }) f

/-- Cell 6, open or defined. -/
def cell6 : Cell := { id := 6, box := (0, 0, 1024, 1024), cid := 7 }

/-- R82, R88: PAD and CELL_OPEN. -/
theorem test_pad : FrontRec (stream 1 [0x400] id) (front 1 [0x400]) [0x400] [0x400] ∧
    does (.pad .none) (stream 1 [0x400] id) (fun d => d.spl.cur = some (front 1 []) ∧ d.xpd = path.xpd) = true ∧
    FrontRec (stream 2 [0x1810, 6, 0, 0, 1024, 1024] id) (front 2 [0x1810, 6, 0, 0, 1024, 1024]) [0x1810, 6, 0, 0, 1024, 1024] [0x400] ∧
    does (.cellOpen .none) (stream 2 [0x1810, 6, 0, 0, 1024, 1024] id) (fun d =>
      d.spl.cur = some (front 2 []) ∧ d.xpd.defn = some { cell6 with box := (0, 0, 1024, 1024) }) = true := by
  unfold FrontRec; decide +kernel

/-- R131 to R133: CELL_CLOSE and CELL_DROP. -/
theorem test_cellClose : let d := stream 2 [0x811, 6] fun x => { x with defn := some { cell6 with recs := [[0x1420, 0]] } }
    FrontRec d (front 2 [0x811, 6]) [0x811, 6] [0x400] ∧ (injTake d (Page.xpd.base 0) true).1 < 2 ∧
    cacheUsed d - 0 + cellBytes { cell6 with recs := [[0x1420, 0]], defd := true } ≤ rgnSize d 1 ∧
    does (.cellClose .none) d (fun e => e.xpd.defn = none ∧
      cellOf e 6 = some { cell6 with recs := [[0x1420, 0]], defd := true }) = true ∧
    (let e := stream 2 [0x811, 6] fun x => { x with defn := some { cell6 with bad := true } }
     does (.cellClose .none) e (fun e => cellOf e 6 = some { cell6 with bad := true, defd := true, refetch := true }) = true) ∧
    does (.cellDrop .none) (stream 2 [0x812, 6] fun x => { x with deaf := true, cells := [{ cell6 with defd := true }] }) (fun e =>
      e.xpd.cells = [{ cell6 with defd := true }]) = true ∧
    FrontRec (stream 2 [0x812, 6] fun x => { x with cells := [{ cell6 with defd := true }] }) (front 2 [0x812, 6]) [0x812, 6] [0x400] ∧
    does (.cellDrop .none) (stream 2 [0x812, 6] fun x => { x with cells := [{ cell6 with defd := true }] }) (fun e =>
      e.xpd.cells = []) = true := by unfold FrontRec; decide +kernel

/-- A FIGURE record: one contour from (0, 0) to (1,024, 0) to (0, 1,024). -/
def triangle : List W32 := [0x2020, 0x10000, 2, 0, 0, 0x00040000, 0xFC000000, 0x00000400]

/-- R94, R101, R102 in a LIB block: the records are stored. -/
theorem test_cellRecords : let d (w : List W32) := stream 2 w fun x => { x with defn := some cell6 }
    (∃ f, figure triangle = some f) ∧
    (∀ w ∈ [triangle, [0x1421, 6, 0, 0, 0], [0x2822, 6, 0, 0, 0, 0x10001, 1, 0, 0, 1]], FrontRec (d w) (front 2 w) w [0x400]) ∧
    does (.figure .none) (d triangle) (fun e => e.xpd.defn = some { cell6 with recs := [triangle] }) = true ∧
    does (.place .none) (d [0x1421, 6, 0, 0, 0]) (fun e =>
      e.spl.cur = some (front 2 []) ∧ e.xpd.defn = some { cell6 with recs := [[0x1421, 6, 0, 0, 0]] }) = true ∧
    does (.array .none) (d [0x2822, 6, 0, 0, 0, 0x10001, 1, 0, 0, 1]) (fun e =>
      e.xpd.defn = some { cell6 with recs := [[0x2822, 6, 0, 0, 0, 0x10001, 1, 0, 0, 1]] }) = true := by
  unfold FrontRec; exact ⟨⟨_, rfl⟩, by decide +kernel⟩

/-- A ticket and a section of 1,024 rows in slot A, its eight row bands in the writing frame at (0, 0). -/
def tkS : Tkt := ⟨0, 77, 0, false, false, false, 0, 0, 0, 1024, 0, 0, 0, [], false, none, 0, none, false⟩
def par0 : PxcPar := ⟨[], 0, 0, [], 0, 4095⟩
def sec0 : Sec := {
  num := 0, slotB := false, b := 8, minus := false, len := 1024, tkt := tkS, selvBins := 0, reachBins := 0
  selvX := 0, orx := 0, ory := 0, fieldId := 0, gridId := 0, par := some par0 }

/-- The block with that section, changed. -/
def withSec (f : Sec → Sec) (d : Dev) : Dev := { d with secs := [f sec0] }

/-- R105, R106: STRIPE_OPEN. -/
def opening : List W32 := [0x3030, 77, 0x12340004, 0x56, 0, 0, 2048, 0, 0, 0, 0xFFFFFFFF, 3]
theorem test_stripeOpen : let d := stream 3 opening id
    FrontRec d (front 3 opening) opening [0x400] ∧ opening.length = 12 ∧ recType opening = 0x30 ∧ blkRuns d .alt .alt = true ∧
    does (.stripeOpen .none) d (fun e => e.spl.opens = 1 ∧ rg e Adr.ALT_CUR = 0x12340056 ∧
      (e.secs.any fun x => x.num = 0 && !x.closed && x.tkt.index = 77 && x.slotB && !x.minus && x.len = 2048 && x.orx = -1 &&
        x.ory = 3 && x.fieldId = 0x1234 && x.gridId = 0x56)) = true := by unfold FrontRec; decide +kernel

/-- R108, R109, R111, R114: records of an open section. -/
theorem test_section : let d (w : List W32) := withSec id (stream 3 w id)
    OpenSec (d []) sec0 ∧
    (∀ w ∈ [[0x831, 2], [0xC32, 4, 0xFFFFFFFB], [0x833, 0x00010002], [0x834, 0]], FrontRec (d w) (front 3 w) w [0x400]) ∧
    does (.bin .none) (d [0x831, 2]) (fun e => e.secs.any fun x => x.bin = 2 && !x.closed) = true ∧
    does (.origin .none) (d [0xC32, 4, 0xFFFFFFFB]) (fun e => e.secs.any fun x => x.orx = 4 && x.ory = -5) = true ∧
    does (.field .none) (d [0x833, 0x00010002]) (fun e => (e.secs.any fun x => x.fieldId = 1 && x.gridId = 2) ∧
      rg e Adr.ALT_CUR = 0x10002) = true ∧
    does (.stripeClose .none) (d [0x834, 0]) (fun e => (e.secs.any fun x => x.closed) ∧
      pends e (Page.spl.base 0) Bit.evt_SPL_SECTION_DONE) = true := by unfold FrontRec OpenSec; decide +kernel

/-- R84 to R86: a SLOT_WRITE, and one that waits for an earlier section of its slot. -/
theorem test_slotWrite : let w : List W32 := [0x1402, 1, 1, w32 Adr.EXP_STROBE_B, 0x77]
    let d := stream 1 w id
    FrontRec d (front 1 w) w [0x400] ∧ slotFree d true = true ∧ slotOwns true Adr.EXP_STROBE_B = true ∧
    acc d .host Adr.EXP_STROBE_B = true ∧
    does (.slotWrite .none) d (fun e => rg e Adr.EXP_STROBE_B = rg (storeReg d Adr.EXP_STROBE_B 0x77) Adr.EXP_STROBE_B ∧
      rg e Adr.EXP_STROBE_B ≠ rg d Adr.EXP_STROBE_B ∧ rg e Adr.EXP_RATIO_B = rg d Adr.EXP_RATIO_B) = true ∧
    let b := withSec (fun s => { s with slotB := true }) d
    slotFree b true = false ∧
    does (.slotWrite .none) b (fun e => e.spl.cur = some (front 1 w) ∧ rg e Adr.EXP_STROBE_B = rg d Adr.EXP_STROBE_B) = true := by
  unfold FrontRec; decide +kernel

/-- The grid directory's entry 0 empty, field 0 the identity. -/
def flat (d : Dev) : Dev := wr (wr d (Adr.GRID_MEM 0) 0x40000000) (Adr.GRID_MEM 12) 0x40000000

/-- R94, R138, R167, R177 to R179: a figure and instances of a cell in a STRIPE block. -/
theorem test_pieces : let d (w : List W32) := withSec id (flat (stream 3 w fun x => { x with cells := [{ cell6 with defd := true, recs := [triangle] }] }))
    let pl : List W32 := [0x1421, 6, 0, 0, 0]
    let ar : List W32 := [0x2822, 6, 0, 0, 0, 0x10002, 0x4000, 0, 0, 0x4000]
    (∀ w ∈ [triangle, pl, ar], FrontRec (d w) (front 3 w) w [0x400]) ∧ OpenSec (d []) sec0 ∧
    (injTake (d []) (Page.alt.base 0) false).1 < 2 ∧ (injTake (d []) (Page.xpd.base 0) false).1 < 2 ∧
    placements ar = [(0, 0), (0x4000, 0)] ∧
    (∀ off ∈ placements ar, (walk (d ar) (kept (d ar) sec0) (256 * (cullMargin (d ar) sec0 : Int)) 15 6
      ((originPlace sec0).under 0 off) false ⟨[], [], none, []⟩).miss = none) ∧
    does (.figure .none) (d triangle) (fun e => e.secs.map (·.pieces) =
      [[⟨(1024, 0), (0, 1024), false, 0, 0⟩, ⟨(0, 1024), (0, 0), false, 0, 0⟩]]) = true ∧
    does (.place .none) (d pl) (fun e => e.secs.map (·.pieces) =
      [[⟨(1024, 0), (0, 1024), false, 0, 0⟩, ⟨(0, 1024), (0, 0), false, 0, 0⟩]]) = true ∧
    does (.array .none) (d ar) (fun e => e.secs.map (·.pieces) =
      [[⟨(1024, 0), (0, 1024), false, 0, 0⟩, ⟨(0, 1024), (0, 0), false, 0, 0⟩,
        ⟨(0x4400, 0), (0x4000, 1024), false, 1, 0⟩, ⟨(0x4000, 1024), (0x4000, 0), false, 1, 0⟩]]) = true := by
  unfold FrontRec OpenSec; decide +kernel

/-- R170: a lookup. -/
theorem test_xpdQuery : acc path .host Adr.XPD_QUERY = true ∧
    does (.xpdQuery .host 6) path (fun d => rg d Adr.XPD_QUERY = 6 ∧ d.xpd.qBusy) = true ∧
    does .xpdLookupDone (setXpd (wr path Adr.XPD_QUERY 6) fun x => { x with qBusy := true, cells := [{ cell6 with defd := true }] })
      (fun d => !d.xpd.qBusy ∧ d.xpd.qState = 1) = true := by decide +kernel

/-- R185, R199 to R201, R317: the last record of a band, a section latched, a band released. -/
theorem test_bands :
    (let s := { sec0 with closed := true, todo := some [(3, 31)] }
     let d := withSec (fun _ => s) path
     (mkPatch d s 31 3).1.units ≤ patchFree d ∧ s.bands + 1 = secBins s ∧
     does .patchRecordAllocated d (fun e => rg e Adr.BST_CNT_PATCHES = 1 ∧ fd e Adr.BST_BAND 31 16 = 1 ∧
       rg e Adr.BST_LAST_PATCH = 0x3001F ∧ pends e (Page.bst.base 0) Bit.evt_BST_BAND_DONE ∧
       (e.secs.any fun x => x.todo = none && x.bands = 1)) = true) ∧
    (let d := withSec (fun s => { s with par := none }) path
     pxcSec d = none ∧ does .latched d (fun e => rg e Adr.PXC_POS = 77 ∧ pends e (Page.pxc.base 0) Bit.evt_PXC_LATCHED ∧
       (e.secs.any fun x => x.par = some (pxcLatch d false) && x.b = slotBands d false)) = true) ∧
    (let x : Patch := { q := 3, p := 31, edges := [], ap := 0, apBad := false, units := 1 }
     let d := withSec (fun s => { s with bands := 1, closed := true, patches := [x] }) path
     (injAny d (Page.pxc.base 0)).1 = false ∧ does (.released .none) d (fun e =>
       rg e Adr.PXC_BAND = 0x10000 ∧ e.ver.wait = [{ sec := 0, q := 3, p := 31 }] ∧
       (e.secs.any fun x => x.released = 1) ∧ pends e (Page.pxc.base 0) Bit.evt_PXC_RELEASED) = true) := by decide +kernel

/-- R761: the stream's number is given up once the next ticket's section is over. -/
theorem test_rowDue :
    let d := { setSpl path fun s => { s with naks := [⟨0, none⟩] } with exp := { path.exp with count := 1 } }
    d.xpd.wait = none ∧ nakDue d = true ∧ does .rowDue d (fun e =>
      rg e Adr.SPL_CNT_GIVEUP = 1 ∧ latched e (Page.spl.base 0) Bit.err_SPL_GIVEUP) = true := by decide +kernel

/-! ### The data path -/

/-- The work of patch (1, 2) of section 0, and the block with tile 3 ACTIVE and tile 4 SPARE, the patch's row in the window. -/
def wk : Work := { sec := 0, q := 1, p := 2 }
def rasters (f : Ver → Ver) : Dev :=
  let d := ena [Page.ras.base 3, Page.ras.base 4] (wr (wr path (Adr.RAS_ROLE 3) 1) (Adr.RAS_ROLE 4) 2)
  setVer (withSec (fun s => { s with patches := [{ q := 1, p := 2, edges := [], ap := 0, apBad := false, units := 1 }] })
    { wr (wr d (Adr.BOB_RGN 3) 0x10000) Adr.BOB_WM_HIGH 1000 with bob := { d.bob with win := [⟨0, 1, 0, 32 * 98304⟩] } }) f

/-- Tile `n` holds the patch. -/
def holding (n : Nat) : Dev := rasters fun v => { v with tiles := modNth v.tiles n fun _ => ⟨true, [wk]⟩ }

/-- R224, R237, R238: DISPATCH to the ACTIVE tile, SECOND_RASTER to the SPARE one. -/
theorem test_dispatch : let d := rasters fun v => { v with wait := [wk] }
    retryReady d 0 = false ∧ firstTile d 0 = some 0 ∧ belowHigh d = true ∧ winOf d 0 1 ≠ none ∧ blkRuns d .ver .ver = true ∧
    does (.dispatch 0) d (fun e => e.ver.wait = [] ∧ (tileOf e 0).work = [wk]) = true ∧
    (let w2 : Work := { wk with second := true, avoid := [3] }
    let r := rasters fun v => { v with retry := [w2] }
    secondTile r 0 [3] = some 4 ∧
    does (.secondRaster 0) r (fun e => e.ver.retry = [] ∧ (tileOf e 4).work = [w2]) = true) := by decide +kernel

/-- R232, R233, R239: a timeout fences; a tile's clock stops and starts. -/
theorem test_tile : (tileOf (holding 33) 33).work = [wk] ∧
    does (.verTimeout 33) (holding 33) (fun e => ctrlBit e (Page.ras.base 33) 2 ∧ tileRole e 33 = 0 ∧
      (tileOf e 33).work = [] ∧ latched e (Page.ver.base 0) Bit.err_VER_TILE_FENCED) = true ∧
    does (.tileClockStop 33 7) (setTile (holding 33) 33 fun t => { t with work := [] }) (fun e =>
      !(tileOf e 33).awake ∧ rg e (Adr.RAS_CNT_AWAKE 33) = 7) = true ∧
    pageOn (holding 33) .ras 33 = true ∧
    does (.tileWake 33) (setTile (holding 33) 33 fun t => { t with awake := false }) (fun e => (tileOf e 33).awake) = true := by
  decide +kernel

/-- R240, R241: an idle raster domain is switched off. -/
theorem test_pdIdle : let d := wr (wr (wr path Adr.VER_PD_IDLE 5) (Adr.PMU_PD 6) 0x10) Adr.PMU_RASPLAN 0
    fd d Adr.VER_PD_IDLE 15 0 ≠ 0 ∧ (rasTiles 6).all (tileAsleep d) = true ∧ pdState d 6 = .on ∧ fd d (Adr.PMU_PD 6) 5 4 = 1 ∧
    does (.pdIdle 6) d (fun e => pdState e 6 = .switchingOff) = true := by decide +kernel

/-- R245, R250: RAS_TEST and VER's _INJECT. -/
theorem test_rasTest : let d := wr path (Page.ras.base 33 + oCTRL) 5
    acc d .host (Adr.RAS_TEST 33) = true ∧ ctrlBit d (Page.ras.base 33) 2 = true ∧
    does (.rasTestStart .host 33 0) d (fun e => bit (rg e (Adr.RAS_TEST 33)) 31) = true ∧
    does (.testDone 33 false) (wr d (Adr.RAS_TEST 33) 0x80000000) (fun e => rg e (Adr.RAS_TEST 33) = 4 ∧
      latched e (Page.ras.base 33) Bit.err_RAS_TEST_FAIL) = true ∧
    does (.testDone 33 true) (wr d (Adr.RAS_TEST 33) 0x80000000) (fun e => rg e (Adr.RAS_TEST 33) = 6) = true ∧
    acc d .host (Page.ver.base 0 + oINJECT) = true ∧
    does (.verInject .host 0xFF) (wr d (Page.ver.base 0 + oINJECT) 1) (fun e => rg e (Page.ver.base 0 + oINJECT) = 15) = true := by
  decide +kernel

/-- A fold keeps what every step keeps. -/
theorem foldl_keeps {α β : Type} (P : α → Prop) (f : α → β → α) (l : List β) (h : ∀ a, ∀ b ∈ l, P a → P (f a b)) (a : α) (ha : P a) :
    P (l.foldl f a) := by
  induction l generalizing a with
  | nil => exact ha
  | cons b l ih => exact ih (fun a c hc => h a c (List.mem_cons_of_mem _ hc)) _ (h a b List.mem_cons_self ha)

/-- A report all of whose sums are 0 and whose residues agree. -/
def Zero (y : Rep) : Prop :=
  y.asum = 0 ∧ y.csum = 0 ∧ y.nfrac = 0 ∧ y.rmMain = y.rmRes ∧ y.rpMain = y.rpRes ∧ y.nxi = 0 ∧ y.nyi = 0 ∧ y.rmMain < 255

/-- A pixel of area 0 with modulations 0 leaves them so. -/
theorem repPixel_zero (r i : Nat) (x : Rep × List Nat) (h : Zero x.1) : Zero (repPixel [] [] r x (i, 0)).1 := by
  obtain ⟨h1, h2, h3, h4, h5, h6, h7, h8⟩ := h
  have e : ∀ k, nth ([] : List Nat) k 0 = 0 := fun k => by simp [nth]
  refine ⟨?_, ?_, ?_, ?_, ?_, ?_, ?_, Nat.mod_lt _ (by decide)⟩ <;>
    simp [repPixel, pixMods, pixSw, pixWeights, e, cRaw, clampI, sumN, alGet, b2n, h1, h2, h3, h4, h5, h6, h7]
  omega

/-- So does a row of them, and a patch. -/
theorem row_zero (r : Nat) (l : List (Nat × Int)) (hl : ∀ b ∈ l, b.2 = 0) (y : Rep) (h : Zero y) :
    Zero (l.foldl (repPixel [] [] r) (y, [])).1 :=
  foldl_keeps (fun x => Zero x.1) (repPixel [] [] r) l
    (fun a b hb ha => by
      obtain ⟨i, z⟩ := b
      obtain rfl : z = 0 := hl _ hb
      exact repPixel_zero r i a ha) (y, []) h

theorem rows_zero (n : List Nat) (l : List (Nat × Int)) (hl : ∀ b ∈ l, b.2 = 0) (x : Rep) (hx : Zero x) :
    Zero (n.foldl (fun x r =>
      let (y, ds) := l.foldl (repPixel [] [] r) (x, [])
      { y with doses := ds.reverse :: y.doses }) x) := by
  apply foldl_keeps Zero _ _ _ _ hx
  intro y r _ h
  have k := row_zero r l hl y h
  generalize l.foldl (repPixel [] [] r) (y, []) = p at k ⊢
  exact k

/-- A wrapped 0 is 0. -/
theorem zero_wrap (y : Rep) (h : Zero y) (ds : List (List Nat)) : Zero { y with csum := wrapS 32 y.csum, doses := ds } :=
  ⟨h.1, (congrArg (wrapS 32) h.2.1).trans (by decide), h.2.2⟩

/-- A patch without edges, its modulations 0, has such a report. -/
theorem raster_empty : Zero (rasterPatch [] [] []) := by
  unfold rasterPatch
  generalize List.range 256 = n
  simp only [List.map_nil, List.flatMap_nil, keptFrags, List.filter_nil, sumN, List.foldl_nil, List.length_nil, if_true]
  generalize hr : List.replicate 256 (0 : Int) = z
  refine zero_wrap _ (rows_zero n (n.zip z) (fun b hb => ?_) _ ⟨rfl, rfl, rfl, rfl, rfl, rfl, rfl, by decide⟩) _
  subst hr
  exact List.eq_of_mem_replicate (List.of_mem_zip hb).2

/-- Such a report passes the four checks, and one whose area sum is off by one does not. -/
theorem zero_checks (r : Rep) (h : Zero r) :
    let rep (a : Int) : Rep := { r with asum := r.asum + a, csum := wrapS 32 (r.csum + 0), rmMain := (r.rmMain + 0) % 255 }
    areaOk (rep 0) 0 = true ∧ roundOk (rep 0) = true ∧ resmOk (rep 0) = true ∧ respOk (rep 0) = true ∧ mmKind (rep 1) 0 false ≠ 0 := by
  obtain ⟨h1, h2, h3, h4, h5, h6, h7, h8⟩ := h
  have w : wrapS 32 0 = 0 := by decide
  simp [areaOk, roundOk, resmOk, respOk, mmKind, boundArea, boundRound, w, h1, h2, h3, h4, h5, h6, h7, Nat.mod_eq_of_lt (h4 ▸ h8)]

/-- R218 to R226: the conditions of a report that passes, and of one whose area sum is off by one. -/
theorem test_patchReport : let d := holding 3
    ((tileOf d 3).work = [wk] ∧ (tileOf d 3).awake = true ∧ verInj d wk = 0 ∧ secondCould d [3] = true) ∧
    Zero (rasterPatch [] [] []) :=
  ⟨by decide +kernel, raster_empty⟩

/-- R66, R276, R294: BEGIN. -/
theorem test_begin : let d := { path with stc := { path.stc with todo := [tkS, { tkS with seq := 1 }], serial := 65535, dbm := { path.stc.dbm with pending := true } } }
    blkRuns d .stc .stc = true ∧ tktOver d 0 = false ∧
    does .begin d (fun e => e.stc.todo.map (·.seq) = [1] ∧ e.stc.serial = 1 ∧ e.stc.dbm.curGen = 1 ∧ rg e Adr.STC_STRIPE = 77 ∧
      pends e (Page.stc.base 0) Bit.evt_STC_BEGIN ∧ (e.stc.cur.any fun x => x.gen = 1 && x.serial = 1 && x.rows = 0)) = true := by
  decide +kernel

/-- STC at work on the ticket, with a pass queue of 128 MiB; the frames of its first rows are gathered. -/
def stitching (n : Nat) : Dev :=
  let d := wr path (Adr.BOB_RGN 4) 0x100000
  withSec (fun s => { s with verd := (List.range 32).map fun p => ((0, p), .withheld) })
    { d with stc := { d.stc with cur := some ⟨tkS, 8, 0, 0, 3, [], none, [], 7, n, false, []⟩ } }

/-- R265 to R268, R299: STITCH_ROW. -/
theorem test_stitchRow : let d := stitching 9
    (d.stc.cur.all fun st => rowFits d st st.rows) = true ∧ (d.secs.all fun s => rowVerdicts s 0) = true ∧
    (injTake d (Page.stc.base 0) false).1 < 2 ∧
    does (.stitchRow 0) d (fun e => fd e Adr.STC_ROW 23 0 = 8 ∧ (e.stc.cur.any fun x => x.rows = 8)) = true ∧
    does (.stitchRow 2) d (fun e => latched e (Page.stc.base 0) Bit.err_STC_DBM_UE ∧ (e.stc.cur.any fun x => x.rows = 8)) = true := by
  decide +kernel

/-- The running stripe: in minus direction with no delay but DMAX, no row is active at shot 0. -/
def rnG : Run := ⟨{ tkS with minus := true, dmax := 1 }, false, 1, 1, 2, 0, 0, 0, 0, 0, none, [], 0, 0, none, none, 0, [], 0, 0⟩

/-- R279, R431: GATHER. -/
theorem test_gather : let d := { path with exp := { path.exp with run := some rnG } }
    gatherMay rnG = true ∧ (∀ k < 512, findRow d rnG.tkt rnG.gathered k = .ready ∨ findRow d rnG.tkt rnG.gathered k = .inactive) ∧
    does (.gather [] 0) d (fun e => e.glr.frames = [⟨0, []⟩] ∧ rg e Adr.STC_GATHER = 0 ∧
      (e.exp.run.any fun r => r.gathered = 1)) = true := by decide +kernel

/-- R288 to R293: the host's write of NEXT_SLOT, a commit, the copy. -/
theorem test_dbm : let a := Adr.DBM_BITS 1 16383
    acc path .host a = true ∧ acc path .host Adr.DBM_COMMIT = true ∧
    does (.dbmBitmapWrite .host 1 16383 9) path (fun d => rg d a = 9 ∧ d.stc.dbm.pending) = true ∧
    does (.dbmBitmapWrite .host 2 16383 9) path (fun d => d.regs = path.regs) = true ∧
    does (.dbmCommit .host 0) path (fun d => d.stc.dbm.curGen = 1 ∧ d.stc.dbm.curSlot = 1 ∧ d.stc.dbm.copying ∧ d.stc.dbm.nextSlot = 0) = true ∧
    (let c := setDbm (wr path (Adr.DBM_BITS 0 5) 6) fun m => { m with copying := true }
    WordsCanonical c ∧ (∀ e ∈ c.regs, e.1 % 4 = 0) ∧
    does .copyDone c (fun d => !d.stc.dbm.copying ∧ rg d (Adr.DBM_BITS 1 5) = 6) = true) := by unfold WordsCanonical; decide +kernel

/-- The codec with engines 0 and 7 enabled, and the KQZ block 0 held; engine 0 decodes it when `b`. -/
def kqz (crc : W32) : SBlk :=
  blkOf (blkBytes 0 0x21000000 4 [0x9E5A0110, 6, 4, 0x60616063, 0, crc])
def codec (b : Bool) (crc : W32) : Dev :=
  setSpl { ena [Page.cdcE.base 0, Page.cdcE.base 7] path with
    engs := modNth path.engs 0 fun e => { e with frame := if b then some (false, 0) else none } }
    fun s => { s with line := [(0, .held (kqz crc))] }

/-- R529, R530: CDC_DISPATCH. -/
theorem test_cdcDispatch : let d := codec false 0
    roleSettle d = d ∧ cdcRuns d = true ∧
    ((frameQueue d).find? fun y => decide (resvNeed d y ≤ spoolFree d) && (engFor d y.2.2).isSome) = some (false, 0, kqz 0) ∧
    engFor d (kqz 0) = some 0 ∧
    does .cdcDispatch d (fun e => (engOf e 0).frame = some (false, 0) ∧ e.bob.spoolUsed = 4) = true := by decide +kernel

/-- R77 to R80, R531, R532: a frame that a DEFLATE compressor made, with its CRC-32C worked outside, and with another. -/
theorem test_frameDecoded : (kqz 0).bad = false ∧ blkAt (codec true 0) false 0 = some (kqz 0) ∧
    kqzDecode (kqz 0xd6b9efdd).payload 4 = .ok [0, 4, 0, 0] ∧ kqzDecode (kqz 0).payload 4 = .badCrc ∧
    does (.frameDecoded 0) (codec true 0xd6b9efdd) (fun e => (engOf e 0).frame = none ∧ rg e Adr.CDC_CNT_FRAMES = 1) = true ∧
    does (.frameDecoded 0) (codec true 0) (fun e => (engOf e 0).frame = none ∧ rg e Adr.CDC_CNT_CRC = 1 ∧
      latched e (Page.cdcG.base 0) Bit.err_CDCG_KQZ_CRC) = true ∧
    does (.engUe 0) (codec true 0) (fun e => (engOf e 0).frame = none ∧ latched e (Page.cdcE.base 0) Bit.err_CDCE_ENG_UE) = true ∧
    does (.cdcRole .host 2) (codec false 0) (fun e => !(engOf e 0).out ∧ (engOf e 1).out ∧ !(engOf e 7).out) = true := by decide +kernel

/-- A job of four bytes of the bobbin on engine 7. -/
def jb : Job := ⟨0, 0, false, 0, 4, 64, 64, .host, false, none⟩
def jobbing (f : Job → Job) : Dev :=
  let d := codec false 0
  { d with engs := modNth d.engs 7 fun e => { e with job := some (f jb) } }

/-- R541, R545, R549 to R551: jobs. -/
theorem test_job : let d := codec false 0
    engInSvc d 7 = true ∧ ctrlBit d (Page.cdcE.base 7) 1 = false ∧ acc d .host (Adr.CDC_JOB_CTRL 7) = true ∧
    does (.jobGo .host 7 0x80000002) (wr d (Adr.CDC_JOB_LEN 7) 4) (fun e =>
      (engOf e 7).job.any fun j => j.kind = 0 && j.level = 2 && j.len = 4 && !j.waiting) = true ∧
    (let s := withSec (fun s => { s with verd := (List.range 32).map fun p => ((0, p), .released) })
        (jobbing fun j => { j with kind := 1, waiting := true, hold := some (0, 0) })
     does (.snapReady 7) s (fun e => (engOf e 7).job.any fun j => !j.waiting) = true) := by decide +kernel

/-- R550: a job of level 0 ends; the CRC-32C of four zero bytes is worked outside. -/
theorem test_jobDone : cdcRuns (jobbing id) = true ∧ jobData (jobbing id) jb = some [0, 0, 0, 0] ∧ (compress jb [0, 0, 0, 0]).1 = 1 ∧
    does (.jobDone 7) (jobbing id) (fun e => (engOf e 7).job = none ∧ fd e (Adr.CDC_JOB_STAT 7) 7 0 = 1 ∧
      rg e (Adr.CDC_JOB_CRC 7) = 0x48674BC7 ∧ pends e (Page.cdcE.base 7) Bit.evt_CDCE_JOB_DONE) = true := by decide +kernel

/-- R311, R586: bytes that straddle two sectors. -/
theorem test_hbm : path.bob.lost = [] ∧ mcArmed path = false ∧
    hbmRead (hbmWrite path 30 [1, 2, 3, 4]) 28 8 = hbmRead path 28 2 ++ [1, 2, 3, 4] ++ hbmRead path 34 2 ∧
    (hbmWrite path 30 [1, 2, 3, 4]).hbm.wf = true := by decide +kernel

/-! ### The bobbin -/

/-- A mending ring of 8 MiB. -/
def mend : Dev := wr path (Adr.BOB_RGN 5) 0x10000

/-- R63, R321, R322, R588: the mending ring. -/
theorem test_mend : acc mend .host Adr.BOB_MEND_RD = true ∧
    does (.bobMendRd .host 9) mend (fun d => rg d Adr.BOB_MEND_RD = 9 ∧ d.bob = mend.bob) = true ∧
    (let d := setBob (wr mend Adr.BOB_MEND_WR 3) fun b => { b with waitq := [⟨1, 2, 3, 4, .stc⟩] }
     mendFree d ≠ 0 ∧ d.glr.buf = [] ∧ rgnBase d 5 + 16 * 3 + 16 ≤ daSpan ∧
     does .mendWaitEnd d (fun e => e.bob.waitq = [] ∧ rg e Adr.BOB_MEND_WR = 4 ∧
       hbmRead e (rgnBase d 5 + 48) 16 = bytesOfWords [1, 2, 3, 4]) = true) ∧
    (let d := hbmWrite mend (rgnBase mend 5 + 0x30) [7]
     acc d .host (Adr.MEND_VIEW 0xFFFFFC) = true ∧ hbmBad d (rgnBase d 5 + 48) 16 = false ∧
     does (.mendViewRead .host 0x30) d (fun e => Out.readData .host (Adr.MEND_VIEW 0x30) [7] ∈ e.outs) = true ∧
     does (.mendViewRead .host 0xFFFFFC) d (fun e => Out.readData .host (Adr.MEND_VIEW 0xFFFFFC) [0] ∈ e.outs) = true) ∧
    (let d := hbmPoison mend (rgnBase mend 5 + 0x30)
     does (.mendViewRead .host 0x3C) d (fun e => Out.readData .host (Adr.MEND_VIEW 0x3C) [0xFFFFFFFF] ∈ e.outs ∧
       latched e (Page.mei.base 0) Bit.err_MEI_MEND_POISON) = true) := by decide +kernel

/-- R564: a stripe with an entry that waits seals after a link-down only when the entry has been written, with UNACK. -/
theorem test_sealDown :
    let e : Ended := { index := 7, serial := 3, lastLseq := 9, sent := true }
    let d := setGlr (setBob mend fun b => { b with waitq := [⟨7, 2, 3, 4, .stc⟩] }) fun g => { g with ended := [e], ack := 5 }
    (sealDown d).glr.ended = [{ e with down := true }] ∧ rg (sealDown d) Adr.GLB_SEAL_STAT = 0 ∧
    does .mendWaitEnd (sealDown d) (fun e => e.glr.ended = [] ∧ rg e Adr.GLB_SEAL_STAT = 0x80000003) = true := by decide +kernel

/-- A migration of logical 125 to physical 127 after `n` chunks. -/
def migrating (n : Nat) : Dev :=
  setBob (setPcState (setPcState path 126 2) 127 3) fun b => { b with migBusy := true, migPtr := n, migSrc := 125, migDst := 127 }

/-- R341 to R346: a migration. -/
theorem test_migrate : acc path .host Adr.BOB_MIG_CTRL = true ∧ pcState path 127 = 1 ∧ fd path (Adr.BOB_PCMAP 125) 6 0 = 126 ∧
    does (.migStart .host 0x7F7D) path (fun d => d.bob.migBusy ∧ d.bob.migDst = 127 ∧ pcState d 127 = 3 ∧ pcState d 126 = 2) = true ∧
    (∀ i < 32, hbmBad (migrating 786431) (1024 * (786431 * 126 + 125) + 32 * i) 32 = false) ∧
    does (.migChunk []) (migrating 0) (fun d => d.bob.migPtr = 1 ∧ d.hbm = path.hbm) = true ∧
    does (.migChunk []) (migrating 786431) (fun d => !d.bob.migBusy ∧ rg d (Adr.BOB_PCMAP 125) = 127 ∧ pcState d 127 = 0 ∧
      pcState d 126 = 4 ∧ pends d (Page.bob.base 0) Bit.evt_BOB_MIG_DONE) = true ∧
    acc path .host (Adr.BOB_PCSTATE 127) = true ∧
    does (.bobPcstate .host 127 1) (setPcState path 127 4) (fun d => pcState d 127 = 1) = true ∧
    does (.bobPcstate .host 127 2) (setPcState path 127 4) (fun d => pcState d 127 = 4) = true := by decide +kernel

/-- R348: lost at once, and on the fourth parity error. -/
theorem test_pcLost : does (.pcLost 127) path (fun d => d.bob.lost = [127] ∧ pcState d 127 = 5 ∧
      latched d (Page.mc.base 63) Bit.err_MC_PC_LOST ∧ latched d (Page.bob.base 0) Bit.err_BOB_PC_LOST) = true ∧
    (let d := setPc path 127 fun c => { c with parity := [1002, 1001, 1000] }
     does (.caParity 127 47 3 1999) d (fun e => e.bob.lost = [127]) = true ∧
     does (.caParity 127 47 3 2000) d (fun e => e.bob.lost = [] ∧ latched e (Page.mc.base 63) Bit.err_MC_CA_PARITY) = true) := by
  decide +kernel

/-- A request, and pseudo-channel 0 with bank 0 at work on it. -/
def rq : BReq := ⟨0, 14, 0, false, 0, false⟩
def atBank (f : Bank → Bank) : Dev := setPc path 0 fun c => { c with banks := [f { k := 0, q := [rq] }] }

/-- R326, R342: a request waits at its pseudo-channel, or for the copy of its chunk; one is admitted. -/
theorem test_bobRequest : mcRoute path 0 = some 0 ∧
    does (.bobRequest 14 0 false 0) path (fun d => (mcPc d 0).held = [rq] ∧ d.bob.reqNo = 1) = true ∧
    mcRoute (migrating 0) (1024 * 125) = none ∧
    does (.bobRequest 14 (1024 * 125) false 0) (migrating 0) (fun d => d.bob.migHeld = [{ rq with da := 1024 * 125 }]) = true ∧
    (let d := setPc path 0 fun c => { c with held := [rq] }
     mcRoom d 0 rq = true ∧ (pcBank (mcPc (mcAdmit d 0 9) 0) 0).q = [rq] ∧ (mcPc (mcAdmit d 0 9) 0).held = [] ∧
     (mcPc (mcAdmit d 0 9) 0).rr = 14 ∧ (mcPc (mcAdmit d 0 9) 0).admitAt = 10) := by decide +kernel

/-- R328: activate, precharge, read. -/
theorem test_commandSlot :
    nextCmd { k := 0, q := [rq] } rq = .act ∧ nextCmd { k := 0, q := [rq], opn := some 1 } rq = .pre ∧
    nextCmd { k := 0, q := [rq], opn := some 0 } rq = .col ∧ timingOk (atBank id) 0 { k := 0, q := [rq] } rq 9 = true ∧
    does (.commandSlot 0 9) (atBank id) (fun d => (pcBank (mcPc d 0) 0).opn = some 0 ∧ rg d (Adr.MC_CNT_ACT 0) = 1) = true ∧
    does (.commandSlot 0 9) (atBank fun b => { b with opn := some 1 }) (fun d =>
      (pcBank (mcPc d 0) 0).opn = none ∧ (pcBank (mcPc d 0) 0).q = [rq]) = true ∧
    does (.commandSlot 0 9) (atBank fun b => { b with opn := some 0 }) (fun d =>
      (pcBank (mcPc d 0) 0).q = [] ∧ (mcPc d 0).done = [rq] ∧ rg d (Adr.MC_CNT_RD 0) = 1) = true := by decide +kernel

/-- R306, R330: refreshes and an idle page. -/
theorem test_refresh : let d := atBank fun b => { b with opn := some 1, rd := some 5 }
    (mcPc d 0).refBank = 0 ∧
    does (.refresh 0 9) d (fun e => (pcBank (mcPc e 0) 0).opn = none ∧ (mcPc e 0).refBank = 1) = true ∧
    does (.refreshManagement 0 9 [47, 0]) d (fun e => (pcBank (mcPc e 0) 0).opn = none) = true ∧
    5 + fd d (Adr.MC_CFG 0) 31 16 ≤ 100000 ∧
    does (.openPageIdle 0 0 100000) d (fun e => (pcBank (mcPc e 0) 0).opn = none) = true := by decide +kernel

/-- R331: from 1,000, a latency of 360 moves the estimate by −10. -/
theorem test_bobCompletion : let d := wr path (Adr.BOB_LAT_EST 14) 1000
    portOldest d 14 = none ∧ does (.bobCompletion 14 360) d (fun e => rg e (Adr.BOB_LAT_EST 14) = 990) = true := by decide +kernel

/-! ### Host link and DMA -/

/-- The link up, with channel 0, 11 and 15 enabled, and a change of one channel. -/
def host (n : Nat) (f : Chan → Chan) : Dev :=
  setChan { ena [Page.dmaCh.base 0, Page.dmaCh.base 11, Page.dmaCh.base 15] path with hlk := { path.hlk with up := true } } n f

/-- R506: DMA_HEAD, HI and LO. -/
theorem test_dmaHead : acc (host 15 id) .knl (Adr.DMA_HEAD_HI 15) = true ∧
    does (.dmaHead .knl 15 true 2) (wr (host 15 fun c => { c with cstate := .parked }) (Adr.DMA_HEAD_LO 15) 0x40) (fun d =>
      (chanOf d 15).cstate = .idle ∧ (chanOf d 15).head = 0x200000040) = true ∧
    does (.dmaHead .host 11 false 0x40) (host 11 id) (fun d => (chanOf d 11).cstate = .idle ∧
      rg d (Adr.DMA_HEAD_LO 11) = 0x40 ∧ (chanOf d 11).head = 0) = true := by decide +kernel

/-- R505, R508 to R511: doorbells. -/
theorem test_dmaDb : acc (host 0 id) .host (Adr.DMA_DB 0) = true ∧ chInSvc (host 0 id) 0 = true ∧ chStops (host 0 id) 0 = false ∧
    does (.dmaDb .host 0) (host 0 fun c => { c with head := 0x40 }) (fun d =>
      (chanOf d 0).cstate = .run ∧ (chanOf d 0).phase = .fetch ∧ (chanOf d 0).cur = 0x40) = true ∧
    does (.dmaDb .host 0) (host 0 fun c => { c with head := 0x50 }) (fun d =>
      (chanOf d 0).cstate = .halted ∧ (chanOf d 0).cause = 4) = true ∧
    does (.dmaDb .host 0) (host 0 fun c => { c with cstate := .parked, cur := 0x80 }) (fun d => (chanOf d 0).phase = .reread) = true ∧
    does (.dmaDb .host 0) (host 0 fun c => { c with cstate := .run }) (fun d => (chanOf d 0).dbPend) = true ∧
    does (.dmaDb .host 0) (host 0 fun c => { c with cstate := .halted, cur := 0xC0, cause := 2 }) (fun d =>
      (chanOf d 0).phase = .fetch ∧ (chanOf d 0).cur = 0xC0 ∧ (chanOf d 0).cause = 0) = true := by decide +kernel

/-- A descriptor: a transfer of 16 bytes from host memory to the bobbin at 0x100, with STOP when `stop`; the next one at 0x80. -/
def descr (stop : Bool) : List W32 := [if stop then 0x80100000 else 0x00100000, 16, 0, 0, 0x100, 0, 0x80] ++ List.replicate 9 0

/-- R505, R507, R516: a descriptor is fetched, or not. -/
theorem test_fetched : let d := host 0 fun c => { c with cstate := .run, phase := .fetch, cur := 0x40 }
    chFetching d 0 = true ∧ (injAny d (Page.dmaCh.base 0)).1 = false ∧ (descr true).length = 16 ∧
    does (.descriptorFetched 0 (.words (descr true) false)) d (fun e => (chanOf e 0).phase = .xfer ∧ (chanOf e 0).desc = descr true) = true ∧
    does (.descriptorFetched 0 (.words (descr true) true)) d (fun e => (chanOf e 0).cause = 5 ∧
      latched e (Page.dmaCh.base 0) Bit.err_DMACH_DESC_UE) = true ∧
    does (.descriptorFetched 0 .bad) d (fun e => (chanOf e 0).cause = 3) = true ∧
    does (.fetchTimeout 0) d (fun e => (chanOf e 0).cstate = .halted ∧ (chanOf e 0).cause = 2 ∧ (chanOf e 0).cur = 0x40) = true := by
  decide +kernel

/-- R520: the conditions of DISABLE on a channel of KNL (what its counters then read is open), and channel 11. -/
theorem test_disable : acc (host 15 id) .knl (Adr.DMA_DISABLE 15) = true ∧ acc (host 11 id) .host (Adr.DMA_DISABLE 11) = true ∧
    does (.disable .host 11) (host 11 fun c => { c with cstate := .run }) (fun d => (chanOf d 11).cstate = .run) = true := by decide +kernel

/-- R502 to R515: a transfer ends: STOP parks, a link goes on, the hop budget halts; a timeout is counted as bad. -/
theorem test_done : let d (stop : Bool) := host 0 fun c => { c with cstate := .run, phase := .xfer, cur := 0x40, desc := descr stop }
    let l : List Byte := [1, 2, 3, 4, 5, 6, 7, 8, 9, 10, 11, 12, 13, 14, 15, 16]
    chMoving (d true) 0 = true ∧ xDefined (d true) 0 = true ∧ xDir (d true) 0 = 0 ∧ xTgt (d true) 0 = 1 ∧ xLen (d true) 0 = 16 ∧
    1 < fd (d true) (Adr.DMA_HOPS 0) 15 0 ∧ descNext (chanOf (d true) 0) = 0x80 ∧
    does (.descriptorDone 0 (.ok l)) (d true) (fun e => hbmRead e 0x100 16 = l ∧ (chanOf e 0).cstate = .parked ∧
      rg e (Adr.DMA_CNT_DESC 0) = 1 ∧ Out.hostWrite 0x70 (bytesOfWords [0x80000001, 16, 0, 0]) false false false ∈ e.outs ∧
      pends e (Page.dmaCh.base 0) Bit.evt_DMACH_PARKED) = true ∧
    does (.descriptorDone 0 (.ok l)) (d false) (fun e => (chanOf e 0).cstate = .run ∧ (chanOf e 0).cur = 0x80) = true ∧
    does (.descriptorDone 0 (.ok l)) (wr (d false) (Adr.DMA_HOPS 0) 1) (fun e => (chanOf e 0).cause = 1 ∧
      latched e (Page.dmaCh.base 0) Bit.err_DMACH_HOPS_EXCEEDED) = true ∧
    (∀ c ∈ [Instr.hostTimeout 0 0 [], .devTimeout 0 0 [], .descriptorDone 0 (.bad 0 [])], does c (d true) (fun e =>
      rg e (Adr.DMA_CNT_BAD 0) = 1 ∧ latched e (Page.dmaCh.base 0) Bit.err_DMACH_BAD) = true) := by decide +kernel

/-- R485, R486, R524: the link. -/
theorem test_link : pdOn on 1 = true ∧
    does (.linkUp 6 16 true) (host 0 id) (fun d => rg d Adr.HLK_LINK = 0xC0100006 ∧ rg d Adr.HLK_CNT_RECOV = 1 ∧
      pends d (Page.hlk.base 0) Bit.evt_HLK_LINK_UP) = true ∧
    does (.linkUp 3 8 false) path (fun d => latched d (Page.hlk.base 0) Bit.err_HLK_DOWNTRAINED) = true ∧
    does (.hlkLinkDown []) (host 15 fun c => { c with cstate := .run, phase := .fetch }) (fun d =>
      !d.hlk.up ∧ (chanOf d 15).cause = 2 ∧ latched d (Page.hlk.base 0) Bit.err_HLK_LINK_DOWN) = true ∧
    does .perst (wr (host 0 fun c => { c with head := 9 }) (Adr.DMA_HEAD_LO 15) 9) (fun d =>
      d.chans = List.replicate 16 {} ∧ !d.hlk.up ∧ rg d (Adr.DMA_HEAD_LO 15) = 0) = true ∧
    does .flr (host 0 fun c => { c with head := 9 }) (fun d => d.chans = List.replicate 16 {} ∧ d.hlk.up) = true := by decide +kernel

/-- R490, R492, R499: BAR4. -/
theorem test_bar4 : let d := wr (host 0 id) Adr.HLK_BAR4 2
    let e := { d with hlk := { d.hlk with cfg := { vc1 := true } } }
    does (.bar4Access 5 (some [9]) 0 false) d (fun e => hbmRead e 0x200005 1 = [9]) = true ∧
    does (.bar4Access 5 (some [9]) 0 true) e (fun e => e.hbm = d.hbm ∧ rg e Adr.HLK_CNT_UR = 1 ∧ rg e Adr.HLK_CNT_VC1 = 1) = true := by
  decide +kernel

/-- R495 to R501: the whistle page. -/
theorem test_whistle : let vc := { path with hlk := { path.hlk with cfg := { vc1 := true } } }
    path.muz.pulses = [] ∧ path.muz.whStop = false ∧
    does (.blankSet 0x57E10000 true) vc (fun d => d.muz.whBlank ∧ d.muz.muzzled ∧ d.hlk.whCnt = 1) = true ∧
    does (.stopSet 0x57E10000 false) path (fun d => d.muz.whStop ∧ d.exp.halted) = true ∧
    does (.blankClr 0x57E10002 false) (setMuz path fun m => { m with whBlank := true }) (fun d => !d.muz.whBlank) = true ∧
    does (.stopClr 0x57E10008 false) (setMuz path fun m => { m with whStop := true }) (fun d => !d.muz.whStop) = true ∧
    (∀ c ∈ [Instr.blankSet 1 true, .blankClr 2 true, .stopSet 4 true, .stopClr 8 true], does c vc (fun d =>
      d.hlk.whStray = 1 ∧ d.hlk.whCnt = 0 ∧ d.muz = path.muz) = true) := by decide +kernel


/-- R523: a turn of the link goes to the channel that has one left, and sends a read request. -/
theorem test_linkTurn : let d (t : Nat) := host 0 fun c => { c with cstate := .run, phase := .xfer, cur := 0x40, desc := descr true, turns := t }
    0 < fd (d 0) (Adr.DMA_CH_CFG 0) 3 0 ∧ chMoving (d 0) 0 = true ∧ xDir (d 0) 0 = 0 ∧
    linkPick (d 0) = some (0, false) ∧ linkPick (d 99) = some (0, true) ∧ linkPick (host 0 id) = none ∧
    (chanOf (linkTurn (d 0)) 0).sent = 16 ∧ (chanOf (linkTurn (d 0)) 0).reads = 1 ∧ (chanOf (linkTurn (d 0)) 0).turns = 1 ∧
    (linkTurn (d 0)).outs.head? = some (.hostRead 0 0 16 (dmaNs (d 0))) := by decide +kernel
/-! ### Scrubbers and the time base -/

/-- MEI with K = 2 and one tracked word. -/
def scrub (f : Mei → Mei) : Dev := setMei (wr path Adr.MEI_CE_K 2) f
def trk (c : Nat) : Track := ⟨true, 4095, 65535, c, false⟩

/-- R593 to R595: an SRAM word found clean, poisoned, corrected once and twice, uncorrectable. -/
theorem test_sramScrub : let d := scrub id
    rg d (Page.mei.base 0 + oINJECT) = 0 ∧ fd d Adr.MEI_CE_K 3 0 = 2 ∧ rmpFree d true 4095 = some 16380 ∧
    does (.sramScrub 4095 65535 .clean .other false) d (fun e => e.mei = d.mei ∧ rg e Adr.MEI_CNT_CE = 0) = true ∧
    does (.sramScrub 4095 65535 .poisoned .other false) d (fun e => rg e Adr.MEI_CNT_POISON = 1) = true ∧
    does (.sramScrub 4095 65535 .corrected .other false) d (fun e => e.mei.track = [⟨true, 4095, 65535, 1, true⟩] ∧ rg e Adr.MEI_CNT_CE = 1) = true ∧
    does (.sramScrub 4095 65535 .corrected .other false) (scrub fun m => { m with track := [trk 1] }) (fun e =>
      e.mei.track = [] ∧ e.mei.remaps = [⟨true, 16380, false, 4095, 65535, none⟩] ∧ rg e Adr.MEI_CNT_REMAP = 1) = true ∧
    does (.sramScrub 4095 65535 .corrected .other false) (wr (scrub fun m => { m with track := [trk 1] }) Adr.MEI_CE_K 3) (fun e =>
      e.mei.track = [⟨true, 4095, 65535, 2, true⟩]) = true ∧
    does (.sramScrub 4095 65535 .uncorrectable .other false) d (fun e =>
      rg e Adr.MEI_LAST_UE_LO = 0xFFFFFFF ∧ rg e Adr.MEI_LAST_UE_HI = 0x80000000 ∧ latched e (Page.mei.base 0) Bit.err_MEI_SCRUB_UE) = true := by
  decide +kernel

/-- R589 to R592: the position of the HBM scrubber. -/
theorem test_scrubRead : let d (c x : Nat) := wr (scrub fun m => { m with initTest := true }) Adr.MEI_SCRUB_POS (w32 (x * 0x100000 + c))
    0 < fd (d 0 0) Adr.MEI_SCRUB 15 0 ∧ pdState (d 0 0) 9 = .on ∧ pdState (d 0 0) 10 = .on ∧
    does (.scrubRead []) (d 5 30) (fun e => rg e Adr.MEI_SCRUB_POS = 0x1F00005) = true ∧
    does (.scrubRead []) (d 5 31) (fun e => rg e Adr.MEI_SCRUB_POS = 6) = true ∧
    does (.scrubRead []) (d 786431 31) (fun e => rg e Adr.MEI_SCRUB_POS = 0 ∧ rg e Adr.MEI_SCRUB_PASS = 1 ∧
      pends e (Page.mei.base 0) Bit.evt_MEI_PASS_DONE) = true := by decide +kernel

/-- R582, R605, R618. -/
theorem test_odePoll :
    does (.odePoll [1, 70000, 3, 4]) path (fun d => fd d Adr.MEI_ODE 31 16 = 65535 ∧ latched d (Page.mei.base 0) Bit.err_MEI_ODE_HIGH) = true ∧
    (let d := wr path Adr.MEI_INJ_ADDR_LO 0x45
     acc d .host Adr.MEI_INJ_CTRL = true ∧
     does (.meiInjGo .host 1) d (fun e => e.mei.badSectors = [(2, 1)] ∧ e.poison = []) = true ∧
     does (.meiInjGo .host 2) d (fun e => e.mei.badSectors = [(2, 2)] ∧ e.poison = [2]) = true ∧
     does (.meiInjGo .host 3) d (fun e => e.mei.badSectors = [] ∧ e.poison = [2]) = true) ∧
    (let d := wr (scrub fun m => { m with remaps := [⟨true, 5, false, 1, 9, none⟩, ⟨false, 5, false, 0, 9, none⟩] }) Adr.MEI_RMP_SEL 0x80000005
     acc d .knl Adr.MEI_RMP_ENT0 = true ∧
     does (.remapEntryRetire .knl 0) d (fun e => e.mei.remaps = [⟨false, 5, false, 0, 9, none⟩]) = true) := by decide +kernel

/-- R595, R618: a retired entry's address shows its own storage again; R583, R604: a sector with one inverted check bit is counted. -/
theorem test_retire :
    let d := scrub fun m => { m with remaps := [⟨false, 0, false, 0, 1, some (List.replicate 32 7, true)⟩] }
    (does (.remapEntryRetire .knl 0) d fun e => e.mei.remaps = [] ∧ hbmRead e 32 2 = [7, 7] ∧ e.poison = [1]) = true ∧
    rmpDa d 0 0x2F000401 = some (1024 * (126 * 95) + 32) ∧
    rg (hbmCe (scrub fun m => { m with badSectors := [(2, 1), (3, 2), (4, 1)] }) 95 34) Adr.MEI_CNT_CE = 2 := by decide +kernel

/-- The time base at the last nanosecond of its 48 bits of seconds. -/
def late : Dev := setTim (wr (wr path Adr.TIM_PPS 0x80000000) Adr.TIM_STAT 0x40000003) fun t => { t with sec := 2 ^ 48 - 1, ns := 999999999 }

/-- R648, R650, R652 to R654. -/
theorem test_secondCarry : late.pmu.seq ≠ .off ∧
    does .secondCarry late (fun d => d.tim.sec = 0 ∧ d.tim.pps ∧ fd d Adr.TIM_STAT 15 0 = 4) = true ∧
    does .ppsOutEnd (setTim late fun t => { t with pps := true }) (fun d => !d.tim.pps) = true ∧
    does (.ppsIn true) late (fun d => rg d Adr.TIM_PPSIN_NS = 999999999 ∧ rg d Adr.TIM_PPSIN_S = 0xFFFFFFFF ∧
      pends d (Page.tim.base 0) Bit.evt_TIM_PPS_IN) = true ∧
    does (.ppsIn false) late (fun d => d.regs = late.regs) = true ∧
    acc late .host Adr.TIM_NS = true ∧
    does (.timNs .host) late (fun d => rg d Adr.TIM_S_LO = 0xFFFFFFFF ∧ rg d Adr.TIM_S_HI = 0xFFFF) = true := by decide +kernel

/-- R651 to R653: STEP by −1 s and +1 ns, TRUST, HOLD, HOLD_MAX. -/
theorem test_step : let d := wr (wr late Adr.TIM_STEP_S 0xFFFFFFFF) Adr.TIM_STEP_NS 1
    acc d .knl Adr.TIM_CMD = true ∧
    does (.step .knl 1) d (fun e => e.tim.sec = 2 ^ 48 - 1 ∧ e.tim.ns = 0) = true ∧
    does (.trust .knl 2) (wr d Adr.TIM_STAT 0xC0000007) (fun e => rg e Adr.TIM_STAT = 0) = true ∧
    does (.hold .knl 4) (wr d Adr.TIM_STAT 0) (fun e => rg e Adr.TIM_STAT = 0x40000000) = true ∧
    does .holdMax (wr (wr d Adr.TIM_HOLD 3) Adr.TIM_STAT 0x40000003) (fun e => rg e Adr.TIM_STAT = 0xC0000003 ∧
      latched e (Page.tim.base 0) Bit.err_TIM_UNTRUSTED) = true := by decide +kernel

/-- R661, R663. -/
theorem test_tsq : acc path .knl Adr.TIM_OS_CORR_HI = true ∧ acc path .knl Adr.TIM_TSQ_NS = true ∧
    does (.timOsCorrHi .knl 5) path (fun d => rg d Adr.TIM_OS_CORR_HI = 5 ∧ rg d Adr.TIM_OS_STAT = 0x40000000) = true ∧
    does (.timTsqNs .knl) (setTim path fun t => { t with tsq := [(1, 2, 3)] }) (fun d => d.tim.tsq = [] ∧
      Out.readData .knl Adr.TIM_TSQ_NS [3] ∈ d.outs) = true := by decide +kernel

/-! ### NVM and the kennel -/

/-- NVM with a store of `kind` running. -/
def storing (kind index : Nat) : Dev := setNvm path fun n => { n with job := some ⟨kind, index, 0, [1, 2], [(0x1000, 3)], []⟩ }

/-- R637, R638: the six STOREs. -/
theorem test_store : let d := setTim (setNvm path fun n => { n with buf := [(0, 7)] }) fun t => { t with sec := 0x500000002 }
    acc d .knl Adr.NVM_CMD = true ∧ d.nvm.job = none ∧
    does (.storeRegs .knl) d (fun e => (e.nvm.job.any fun j => j.kind = 1) ∧ rg e Adr.TIM_EPOCH = 2 ∧ rg e Adr.TIM_EPOCH_HI = 5) = true ∧
    does (.storeBoot .knl) d (fun e => e.nvm.job.any fun j => j.kind = 2) = true ∧
    does (.storeKey .knl 15) d (fun e => e.nvm.job = some ⟨3, 15, 0, 7 :: List.replicate 31 0, [], []⟩) = true ∧
    does (.storeCrash .knl 7) d (fun e => e.nvm.job = some ⟨4, 7, 0, 7 :: List.replicate 511 0, [], []⟩) = true ∧
    does (.storeLog .knl) (wr d Adr.NVM_OFF 114176) (fun e => e.nvm.job = some ⟨5, 0, 114176, 7 :: List.replicate 511 0, [], []⟩) = true ∧
    does (.storeUser .knl) (wr d Adr.NVM_OFF 265728) (fun e => e.nvm.job = some ⟨6, 0, 265728, 7 :: List.replicate 511 0, [], []⟩) = true := by
  decide +kernel

/-- R635, R637, R639, R670: a STORE turned away, and stores that finish or do not. -/
theorem test_nvmDone : (storing 1 0).pmu.warn = false ∧ jobArea ⟨1, 0, 0, [1, 2], [(0x1000, 3)], []⟩ = some 0 ∧
    does (.storeUser .knl) (storing 1 0) (fun e => rg e Adr.NVM_CNT_REJECT = 1 ∧ e.nvm = (storing 1 0).nvm) = true ∧
    does (.nvmDone true) (storing 1 0) (fun e => e.nvm.job = none ∧ rg e Adr.NVM_CNT_STORE = 1 ∧ rg e Adr.NVM_STAT = 0x20000001 ∧
      pends e (Page.nvm.base 0) Bit.evt_NVM_DONE ∧ ((nvNewest e 0).any fun x => x.2.regs = [(0x1000, 3)])) = true ∧
    does (.nvmDone false) (storing 3 5) (fun e => rg e Adr.NVM_STAT = 3 ∧ latched e (Page.nvm.base 0) Bit.err_NVM_VERIFY_FAIL) = true ∧
    jobArea ⟨6, 0, 0, [1, 2], [(0x1000, 3)], []⟩ = none ∧
    does (.nvmDone true) (storing 6 0) (fun e => e.nvm.mram.readN 0x3F000 2 = [1, 2]) = true ∧
    does (.nvmDone true) { storing 6 0 with pmu := { path.pmu with warn := true } } (fun e => e.nvm.job.isSome) = true := by decide +kernel

/-- R638: an NV word of a page, its fields stored and written while the store runs. -/
theorem test_storeRegs : let a := Adr.BOB_PCMAP 125
    let d := wr path a 5
    inWindow a = false ∧ pageOf a = some (.bob, 0) ∧ 0x100 ≤ a % 0x1000 ∧
    ((Page.bob.row (a % 0x1000)).any fun r => decide (r.nv ≠ 0)) = true ∧
    does (.storeRegs .knl) d (fun e => e.nvm.job.any fun j => alGet j.regs a = some 5) = true ∧
    does (.registerWrite .knl .bar0 4 a [6] false) (storing 1 0) (fun e => e.nvm = (storing 1 0).nvm) = true := by decide +kernel

/-- R622: accesses to a poisoned word of KNL SRAM, and a store that mends it. -/
theorem test_poisonedLoad : let d := setKnl path fun k => { k with sramBad := [0x1FFFF] }
    does (.poisonedLoad .load 0x7FFFF) d (fun e => e.knl.trap = some (5, 0x1007FFFF)) = true ∧
    does (.poisonedLoad .fetch 0x7FFFC) d (fun e => e.knl.trap = some (1, 0x1007FFFC)) = true ∧
    does (.poisonedLoad .narrowStore 0x7FFFE) d (fun e => e.knl.trap = some (7, 0x1007FFFE) ∧ e.knl.sramBad = [0x1FFFF]) = true ∧
    bits (rg d (Page.knl.base 0 + oINJECT)) 2 0 = 0 ∧
    does (.poisonedLoad .load 0x7FFFB) d (fun e => e.knl.trap = none) = true ∧
    (sramWrite d 0x7FFFC [1, 2, 3, 4]).knl.sramBad = [] := by decide +kernel

/-- R624, R631, R632: the watchdog, core resets, kennel-away. -/
theorem test_wdog : let d := wr path Adr.KNL_WDOG 100
    pdOn d 0 = true ∧ fd d Adr.KNL_WDOG 15 0 ≠ 0 ∧ d.knl.nmi = false ∧ d.knl.phase ≠ 0 ∧
    does (.wdog false) d (fun e => e.knl.nmi ∧ e.knl.away ∧ latched e (Page.knl.base 0) Bit.err_KNL_WDOG) = true ∧
    does .wdogReset (setKnl d fun k => { k with nmi := true }) (fun e => rg e Adr.KNL_CNT_BOOT = 1 ∧ e.knl.away ∧ !e.knl.nmi ∧ e.knl.phase = 3) = true ∧
    acc d .knl Adr.KNL_KICK = true ∧
    does (.knlKick .knl) (setKnl d fun k => { k with wdogNs := 9 }) (fun e => e.knl.wdogNs = 0) = true ∧
    does (.knlKick .knl) (setKnl path fun k => { k with wdogNs := 9 }) (fun e => e.knl.wdogNs = if fd path Adr.KNL_WDOG 15 0 = 0 then 9 else 0) = true ∧
    does .awayExpired (setKnl d fun k => { k with away := true }) (fun e => latched e (Page.knl.base 0) Bit.err_KNL_AWAY_EXPIRED ∧ e.knl.away) = true := by
  decide +kernel

/-- R629, R631: KNL_CMD. Firmware runs from slot B, which the boot record tries. -/
theorem test_knlCmd : let d := setKnl (setNvm (wr path Adr.KNL_FWSVN 4) fun n =>
      { n with copies := [(1, some ⟨1, bootBytes (0x4B420028, 3, 0), [], []⟩, none)] }) fun k => { k with slot := 1 }
    acc d .knl Adr.KNL_CMD = true ∧ bits (bootRec d).1 3 3 = 1 ∧ bits (bootRec d).1 2 2 = 0 ∧
    does (.confirm .knl 0x4B4E0008) d (fun e => bits (bootRec e).1 2 2 = 1 ∧ bits (bootRec e).1 5 4 = 0 ∧ svnMin e = 4) = true ∧
    does (.away .knl 0x4B4E0002) d (fun e => e.knl.away) = true ∧
    does (.awayEnd .knl 0x4B4E0004) (setKnl d fun k => { k with away := true }) (fun e => !e.knl.away ∧
      pends e (Page.knl.base 0) Bit.evt_KNL_BOOTED) = true ∧
    does (.reboot .knl 0x4B4E0001) d (fun e => rg e Adr.KNL_CNT_BOOT = 1 ∧ e.knl.away ∧ e.knl.phase = 3) = true := by decide +kernel

/-- R645: a die sensor at 125 °C. -/
theorem test_tempCheck : path.knl.sens = [] ∧ path.knl.warnArm = true ∧
    does (.tempCheck [(7, some 2000)]) path (fun d => !d.knl.warnArm ∧ latched d (Page.knl.base 0) Bit.err_KNL_TEMP_WARN ∧
      latched d (Page.knl.base 0) Bit.err_KNL_OVERTEMP) = true ∧
    does (.tempCheck [(7, some 16)]) path (fun d => d.knl.warnArm ∧ d.knl.sens = [(7, 16)]) = true := by decide +kernel

/-- The mailbox with a command in service. -/
def mbox (w : List W32) (f : Knl → Knl) : Dev := setKnl path fun k => f { k with cmd := some w, slot := 0 }

/-- R646: the doorbells. -/
theorem test_mailbox : let o := fun d : Dev => wr d (Page.knl.base 0 + oOWNER) 7
    acc (o path) .host Adr.KNL_H2K_DB = true ∧ acc path .knl Adr.KNL_K2H_DB = true ∧
    does (.knlH2kDb .host) (o (wr path (Adr.KNL_H2K 0) 9)) (fun d => d.knl.cmd = some (9 :: List.replicate 15 0) ∧ Out.plic 1 ∈ d.outs) = true ∧
    does (.knlH2kDb .host) (o (wr (mbox [1] id) (Adr.KNL_H2K 0) 9)) (fun d => rg d (Adr.KNL_K2H 0) = 1 ∧ rg d (Adr.KNL_K2H 1) = 9) = true ∧
    does (.knlK2hDb .knl) (mbox [1] id) (fun d => d.knl.cmd = none ∧ pends d (Page.knl.base 0) Bit.evt_KNL_K2H) = true := by decide +kernel

/-- R647: UPDATE of a bad length and of an image whose MAGIC is wrong. -/
theorem test_update : serving (mbox [1, 0, 0, 527] id) 1 = some [1, 0, 0, 527] ∧
    does (.update true) (mbox [1, 0, 0, 527] id) (fun d => d.knl.cmd = none ∧ rg d (Adr.KNL_K2H 0) = 2 ∧ rg d (Adr.KNL_K2H 1) = 1) = true ∧
    (let d := hbmWrite (mbox [1, 0, 0, 528] id) 16 [16]
     hdrW (hbmRead d 0 512) 0x10 = 16 ∧ hbmBad d 0 528 = false ∧ imageCheck d (hbmRead d 0 512) (hbmRead d 512 16) = 3 ∧
     does (.update true) d (fun e => rg e (Adr.KNL_K2H 0) = 3) = true) := by decide +kernel

/-- R647: STORE, KEY_WRITE; the conditions of REBOOT, LOG_EXPORT and RUN_SRAM. -/
theorem test_commands : serving (mbox [2] id) 2 = some [2] ∧ serving (mbox [4] id) 4 = some [4] ∧ cdcRuns (mbox [4] id) = true ∧
    serving (mbox [0x101] fun k => { k with phase := 3 }) 0x101 = some [0x101] ∧
    does .runSram (mbox [0x101] fun k => { k with phase := 3 }) (fun d => d.knl.cmd = none ∧ rg d (Adr.KNL_K2H 0) = 3) = true ∧
    does .storeCommand (mbox [3, 2] id) (fun d => rg d (Adr.KNL_K2H 0) = 2) = true ∧
    does .storeCommand (mbox [3, 1] id) (fun d => rg d (Adr.KNL_K2H 0) = 0 ∧ (d.nvm.job.any fun j => j.kind = 1)) = true ∧
    does .storeCommand (setNvm (mbox [3, 1] id) fun n => { n with job := some ⟨1, 0, 0, [], [], []⟩ }) (fun d => rg d (Adr.KNL_K2H 0) = 1) = true ∧
    does .keyWrite (mbox [5, 16, 64, 0] id) (fun d => rg d (Adr.KNL_K2H 0) = 2) = true ∧
    (let d := hbmWrite (mbox [5, 15, 64, 0] id) 64 [9]
     does .keyWrite d (fun e => rg e (Adr.KNL_K2H 0) = 0 ∧ alGet e.nvm.keys 15 = some (9 :: List.replicate 31 0) ∧
       hbmRead e 64 1 = [0]) = true) := by decide +kernel

/-! ### The management network -/

/-- The MAC enabled with its link up, a transmit ring at 0 and a receive ring at 0x100 of two descriptors each, their words. -/
def mac (tx0 rx0 : W32) (f : Dev → Dev) : Dev :=
  let d := wr (wr path Adr.KNL_MAC_CFG 0xA0000000) Adr.KNL_MAC_TXRING 0x10000000
  let d := wr (wr d Adr.KNL_MAC_RXRING 0x10000010) Adr.KNL_MAC_RXTAIL 1
  f (setKnl d fun k => { k with sram := (k.sram.write 0 (bytesOfWords [tx0, 0x200, 0, 0])).write 0x100 (bytesOfWords [rx0, 0x300, 0, 0]) })

/-- R659, R661: a frame leaves at once; an ONESTEP frame is held. -/
theorem test_txtail : let d := mac 0x80000002 0 id
    let o := mac 0xC000003C 0 id
    acc d .knl Adr.KNL_MAC_TXTAIL = true ∧ macRuns d = true ∧ d.knl.tx = none ∧ d.knl.osHeld = false ∧
    ringSize d Adr.KNL_MAC_TXRING = 2 ∧ bit (descW d (txDesc d) 0) 31 = true ∧ bit (descW d (txDesc d) 0) 30 = false ∧
    bit (descW o (txDesc o) 0) 30 = true ∧
    does (.knlMacTxtail .knl 1) d (fun e => e.knl.tx.isSome ∧ rg e Adr.KNL_MAC_TXTAIL = 1 ∧
      Out.mac (List.replicate 60 0 ++ leBytes 4 0x04128908) ∈ e.outs) = true ∧
    does (.knlMacTxtail .knl 1) o (fun e => e.knl.osHeld ∧ e.knl.tx = none ∧ bit (rg e Adr.TIM_OS_STAT) 31) = true := by decide +kernel

/-- R661 to R664: the deadline, armed and not, and the write-back. -/
theorem test_deadline : let d := mac 0xC000003C 0 fun d => setKnl d fun k => { k with osHeld := true }
    does .onestepDeadline (wr d Adr.TIM_OS_STAT 0xC0000000) (fun e => !e.knl.osHeld ∧ rg e Adr.TIM_OS_STAT = 0 ∧ (e.knl.tx.any fun x => !x.osMiss)) = true ∧
    does .onestepDeadline (wr d Adr.TIM_OS_STAT 0x80000000) (fun e => bits (rg e Adr.TIM_OS_STAT) 31 29 = 1 ∧
      (e.knl.tx.any fun x => x.osMiss) ∧ rg e Adr.TIM_CNT_OSMISS = 1 ∧ latched e (Page.tim.base 0) Bit.err_TIM_OS_MISS) = true ∧
    does .txWriteback (setKnl d fun k => { k with osHeld := false, tx := some ⟨false, 0, 0⟩ }) (fun e => rg e Adr.KNL_MAC_TXHEAD = 1 ∧
      Out.plic 3 ∈ e.outs ∧ bit (descW e 0 0) 31 = false) = true := by decide +kernel

/-- R659: a received frame. -/
theorem test_rxFrame : let d := mac 0 0x80000003 id
    ringAt d Adr.KNL_MAC_RXRING 0 = 0x100 ∧ bits (descW d 0x100 0) 10 0 = 3 ∧
    does (.rxFrame [7, 8, 9] true) d (fun e => rg e Adr.KNL_MAC_RXHEAD = 1 ∧ Out.plic 2 ∈ e.outs ∧ e.knl.sram.readN 0x300 3 = [7, 8, 9]) = true ∧
    does (.rxFrame [7, 8, 9] false) d (fun e => e.knl = d.knl) = true := by decide +kernel

/-- A frame to 10.0.0.1 and UDP port 9 with a payload. -/
def udpFrame (p : List Byte) : List Byte :=
  List.replicate 12 0 ++ [8, 0, 0x45, 0, 0, 0, 0, 0, 0, 0, 64, 17, 0, 0, 1, 2, 3, 4, 10, 0, 0, 1, 0, 5, 0, 9] ++ beBytes 2 (8 + p.length) ++
    [0, 0] ++ p

/-- R666: a frame that carries a stop datagram, and one whose payload is not 16 bytes long. -/
theorem test_nstopFrame :
    let d := mac 0 0 fun d => wr (wr (wr d Adr.KNL_NSTOP_CFG 9) Adr.KNL_NSTOP_SEQ 0xFFFFFFFF) Adr.KNL_MAC_IP 0x0A000001
    let p := bytesOfWords [0x57E10001, 0, 0, 0]
    nstopPayload d (udpFrame p) = some p ∧ nstopPayload d (udpFrame [1]) = some [1] ∧ nstopPayload path (udpFrame p) = none ∧
    does (.rxFrame (udpFrame p) true) d (fun e => e.muz.netstop ∧ e.muz.muzzled ∧ rg e Adr.KNL_NSTOP_SEQ = 0) = true ∧
    does (.rxFrame (udpFrame [1]) true) d (fun e => !e.muz.netstop ∧ fd e Adr.KNL_NSTOP_CFG 31 16 = 1) = true ∧
    does (.rxFrame (udpFrame p) false) d (fun e => e.regs = d.regs ∧ !e.muz.netstop) = true := by decide +kernel

/-- R666 to R668: a stop datagram, one whose key is wrong, NSTOP_CLR, the link. -/
theorem test_netstop : let d := mac 0 0 fun d => wr (wr d Adr.KNL_NSTOP_CFG 9) Adr.KNL_NSTOP_SEQ 0xFFFFFFFF
    macRuns d = true ∧ 0 < fd d Adr.KNL_NSTOP_CFG 15 0 ∧ rg d Adr.KNL_NSTOP_KEY0 = 0 ∧ d.muz.pulses = [] ∧
    does (.netstopDatagram 0x57E10001 0 0 0) d (fun e => e.muz.netstop ∧ e.muz.muzzled ∧ e.exp.halted ∧ rg e Adr.KNL_NSTOP_SEQ = 0) = true ∧
    does (.netstopDatagram 0x57E10001 0 1 0) d (fun e => !e.muz.netstop ∧ fd e Adr.KNL_NSTOP_CFG 31 16 = 1) = true ∧
    does (.netstopDatagram 0x57E10001 0x7FFFFFFF 0 0) d (fun e => !e.muz.netstop ∧ fd e Adr.KNL_NSTOP_CFG 31 16 = 1) = true ∧
    acc d .knl Adr.KNL_NSTOP_CMD = true ∧ muzCause d = false ∧
    does (.nstopClr .knl 0) (setMuz d fun m => { m with netstop := true, muzzled := true }) (fun e => !e.muz.netstop ∧ !e.muz.muzzled) = true ∧
    does (.managementNetworkLink false) d (fun e => bit (rg e Adr.KNL_MAC_CFG) 31 = false) = true := by decide +kernel


/-- R663, R665: the report of a sealed stripe. -/
theorem test_report : let r : Report := ⟨77, 1, false, true, false, 5, 6, 7⟩
    let d := mac 0 0 fun d => { wr d Adr.KNL_RPT_PORT 4000 with glb := { d.glb with reports := [r] } }
    macRuns d = true ∧ fd d Adr.KNL_RPT_PORT 15 0 = 4000 ∧ d.tim.tsq = [] ∧ d.knl.rptLast = none ∧
    (reportSend d).glb.reports = [] ∧ (reportSend d).knl.rptLast = some 0 ∧ (reportSend d).tim.tsq = [(0, 0, 0)] ∧
    reportPayload d r 0 = bytesOfWords [0x5EA10100, 0, 77, 0x00014000, 5, 6, 7, 0xFFFFFFFF, 0xFFFFFFFF, 0xFFFFFFFF] := by decide +kernel
/-! ### Power, clocks, resets -/

/-- Domain `n` in state `x`. -/
def pwr (n : Nat) (x : PdState) (f : Pd → Pd) : Dev := setPd on n fun p => f { p with st := x }

/-- R673 to R678: requests. -/
theorem test_pdReq : acc on .knl (Adr.PMU_PD 13) = true ∧ bits (0x10 : W32) 5 4 ≠ 2 ∧
    does (.pdReqOn .knl 13 0x10) (pwr 13 .off id) (fun d => pdState d 13 = .switchingOn ∧ d.pmu.run.testBit 9) = true ∧
    does (.pdReqOff .knl 2 0x10) on (fun d => pdState d 2 = .switchingOff ∧ bits (rg d (Adr.PMU_PD 2)) 5 4 = 1) = true ∧
    does (.pdReqOff .knl 1 0x10) on (fun d => d.pmu.pd = on.pmu.pd) = true ∧
    does (.pdReqOn .knl 13 0x10) (pwr 13 .switchingOff id) (fun d => (nth d.pmu.pd 13 {}).wait = [1]) = true ∧
    does (.pdReqSelfRefresh .knl 10 0x10) on (fun d => pdState d 10 = .selfRefresh) = true ∧
    does (.pdReqSelfRefresh .knl 11 0x10) on (fun d => pdState d 11 = .on) = true ∧
    does (.pdReqOn .knl 10 0x10) (pwr 10 .selfRefresh id) (fun d => pdState d 10 = .switchingOn ∧ (nth d.pmu.pd 10 {}).fromSr) = true := by
  decide +kernel

/-- R672, R677, R679: switches end, or fail. -/
theorem test_pdSwitchDone : (nth (pwr 13 .switchingOff id).pmu.pd 13 {}).wait = [] ∧
    does (.pdSwitchDone 13 []) (pwr 13 .switchingOff id) (fun d => pdState d 13 = .off) = true ∧
    does (.pdSwitchDone 13 []) (pwr 13 .switchingOn id) (fun d => pdState d 13 = .on ∧ d.pmu.lock.testBit 9) = true ∧
    does (.pdSwitchDone 13 []) on (fun d => d.pmu = on.pmu) = true ∧
    does (.pdFail 13) (pwr 13 .switchingOn id) (fun d => pdState d 13 = .off ∧ latched d (Page.pmu.base 0) Bit.err_PMU_PD_FAIL) = true ∧
    does .selfRefreshExit (pwr 10 .switchingOn fun p => { p with fromSr := true }) (fun d => pdState d 10 = .on) = true := by decide +kernel

/-- R678: both memory domains idle. -/
theorem test_memIdle : let d := wr (wr on (Adr.PMU_PD 9) 0x10) (Adr.PMU_PD 10) 0x10
    pdState d 9 = .on ∧ fd d (Adr.PMU_PD 9) 5 4 = 1 ∧ fd d (Adr.PMU_PD 10) 5 4 = 1 ∧ bobIdle d = true ∧ dmaBusy d = false ∧
    d.bob.migBusy = false ∧ (∀ e ∈ d.engs, e.job = none) ∧ d.pmu.seq = .done ∧
    does .pmuMemidle d (fun e => pdState e 9 = .selfRefresh ∧ pdState e 10 = .selfRefresh) = true := by decide +kernel

/-- R684, R687 to R689: clocks. -/
theorem test_clocks : on.pmu.refclk = true ∧ on.pmu.lock.testBit 10 = true ∧
    does .refclkLost on (fun d => !d.pmu.refclk ∧ d.pmu.aclkRc ∧ d.pmu.lock = 0 ∧ latched d (Page.pmu.base 0) Bit.err_PMU_REFCLK_LOST ∧
      bit (rg d Adr.TIM_STAT) 31) = true ∧
    does .refclkReturn { on with pmu := { on.pmu with refclk := false, seq := .refclk } } (fun d => d.pmu.refclk ∧ d.pmu.seq = .hlk) = true ∧
    does (.pllUnlock 10) on (fun d => !d.pmu.lock.testBit 10 ∧ d.pmu.run = 2047 ∧ latched d (Page.pmu.base 0) Bit.err_PMU_PLL_UNLOCK) = true ∧
    does (.pllLock 10) { on with pmu := { on.pmu with lock := 0 } } (fun d => d.pmu.lock.testBit 10) = true := by decide +kernel

/-- R691, R694, R701: resets. -/
theorem test_powerOn : on.nvm.job = none ∧ on.pmu.resetRails = 0 ∧
    does .powerOn on (fun d => d.pmu.seq = .off ∧ d.pins = {} ∧ d.regs = [] ∧ pdState d 0 = .off) = true ∧
    does (.porst true [] []) {} (fun d => d.pmu.seq = .hlk ∧ pdState d 1 = .switchingOn ∧ rg d Adr.PMU_RSTCAUSE = 1) = true ∧
    does (.porst true [] []) { pmu := { warnRails := 1 } } (fun d => d.pmu.seq = .refclk ∧ pdState d 1 = .off ∧ d.pmu.warn) = true ∧
    does .warningEnd { pmu := { seq := .refclk, refclk := true, warn := true } } (fun d => d.pmu.seq = .hlk) = true ∧
    does (.porst false [] []) on (fun d => d.pmu.seq = .refclk ∧ rg d Adr.PMU_RSTCAUSE = 3 ∧ bit (rg d Adr.TIM_STAT) 31) = true ∧
    does (.brownout 5) on (fun d => d.pmu.seq = .off ∧ d.pmu.resetRails.testBit 5 ∧ rg d Adr.PMU_RSTCAUSE = 1) = true ∧
    does (.brownoutRelease true [] []) { on with pmu := { ({} : Pmu) with resetRails := 32, firstRail := 5 } } (fun d =>
      d.pmu.seq = .hlk ∧ d.pmu.resetRails = 0 ∧ rg d Adr.PMU_RSTCAUSE = 0x502) = true := by decide +kernel

/-- R696, R697, R706: a warm reset. -/
theorem test_warm : on.pmu.seq = .done ∧ on.muz.pulses = [] ∧ acc on .knl Adr.PMU_CMD = true ∧
    does .wrst on (fun d => d.pmu.seq = .warm ∧ d.pmu.warmCause = 4 ∧ d.muz.reset ∧ d.muz.muzzled ∧ Out.outputsOff true ∈ d.outs) = true ∧
    does (.warm .knl 1) on (fun d => d.pmu.warmCause = 5) = true ∧
    does .wrst { on with pmu := { on.pmu with seq := .mem } } (fun d => d.pmu.seq = .mem) = true ∧
    does .warmEnd { on with pmu := { on.pmu with seq := .warm, warmCause := 5 } } (fun d => d.pmu.seq = .done ∧ d.pmu.ready ∧
      rg d Adr.PMU_RSTCAUSE = 5 ∧ pends d (Page.pmu.base 0) Bit.evt_PMU_WARM_DONE) = true := by decide +kernel

/-- R700: a supply warning. -/
theorem test_supply : on.pmu.warn = false ∧
    does (.supplyWarn 5) on (fun d => d.pmu.warn ∧ d.muz.supply ∧ d.muz.muzzled ∧ rg d Adr.PMU_CNT_WARN = 1 ∧
      bit (rg d Adr.PMU_SUPPLY) 21 ∧ latched d (Page.pmu.base 0) Bit.err_PMU_SUPPLY_WARN) = true ∧
    does (.railRelease 5) { on with pmu := { on.pmu with warn := true, warnRails := 33 } } (fun d => d.pmu.warnRails = 1) = true ∧
    does .warningEnd { setMuz on (fun m => { m with supply := true }) with pmu := { on.pmu with warn := true } } (fun d =>
      !d.pmu.warn ∧ !d.muz.supply) = true := by decide +kernel

/-! ### The machine -/

/-- The state whose pins follow, with a queue. -/
def live : State := ⟨drive on, [.nop, .ppsOutEnd]⟩

/-- The front command runs with the queue's rest; on an empty queue 160 ns pass; in reset none do. -/
theorem test_machine_step : (match step live with | .next t => decide (t.pending = [.ppsOutEnd]) | _ => false) = true ∧
    (match step (st on) with | .next t => decide (t.dev.tim.ns = 160 ∧ t.pending = []) | _ => false) = true ∧
    (match step State.reset with | .next t => decide (t = State.reset) | _ => false) = true := by decide +kernel

/-- Premises of the invariants: the pins follow, the sizes stand, words are canonical. -/
theorem test_invariants : PinsFollow live ∧ PinsFollow ⟨drive {}, []⟩ ∧ SizesStand on ∧ WordsCanonical path ∧
    (drive on).pins.blankAll = some true ∧ (drive on).pins.strobe = some false ∧ path.hbm.wf = true := by
  unfold PinsFollow SizesStand WordsCanonical; decide +kernel

/-- R427, R432, R433: a pulse, and a muzzle that forces it low. -/
theorem test_gate : let d := { on with muz := { on.muz with pulses := [⟨3, tk, true, false⟩] } }
    (drive d).pins.strobe = some true ∧ (drive { d with muz := { d.muz with muzzled := true } }).pins.strobe = some false ∧
    (drive { d with muz := { d.muz with muzzled := true } }).pins.blankAll = some false ∧
    (drive { d with fcl := { d.fcl with lvl := List.replicate 31 0 ++ [3] } }).pins.fault = some false := by decide +kernel

/-- R606: a masked error latches and does no more; a floor cannot be masked. -/
theorem test_errors : pageOf (Page.ver.base 0) = some (.ver, 0) ∧ pageOf (Page.ras.base 33) = some (.ras, 33) ∧
    (let d := wr on (Page.bob.base 0 + oERRMASK) 0xFFFFFFFF
     bit (errMask d (Page.bob.base 0)) 31 = true ∧ latched (err d (Page.bob.base 0) 31 1 2) (Page.bob.base 0) 31 = true ∧
     errLine (err d (Page.bob.base 0) 31 1 2) (Page.bob.base 0) = false ∧ errLine (err on (Page.bob.base 0) 31 1 2) (Page.bob.base 0) = true ∧
     (∃ e ∈ Page.bob.errs, e.2.2 = true ∧ 2 ≤ e.2.1 ∧ bit (errMask d (Page.bob.base 0)) e.1 = false)) := by decide +kernel

/-- R494: an event sends when the level rises, an enabling write too, and a pending write that leaves the level at 1. -/
theorem test_vectors : let d := { wr on (Page.pmu.base 0 + oEVTEN) 3 with hlk := { on.hlk with up := true, cfg := { msixEn := true } } }
    let v := Page.pmu.vector 0
    let p := drive (evt (evt d (Page.pmu.base 0) 0) (Page.pmu.base 0) 1)
    vectorLevel d v = false ∧ vectorLevel (evt d (Page.pmu.base 0) 0) v = true ∧ msixMasked d v = true ∧
    (evt d (Page.pmu.base 0) 0).hlk.msixPend = [v] ∧
    (let u := { d with bar2 := [(0x800 + 16 * v + 12, 0)] }
     msixMasked u v = false ∧ (evt u (Page.pmu.base 0) 0).outs = [.msix v]) ∧
    vectorLevel (evtEnWrite (evt { on with hlk := d.hlk } (Page.pmu.base 0) 1) (Page.pmu.base 0) 2) v = true ∧
    acc p .knl (Page.pmu.base 0 + oEVTPEND) = true ∧
    does (.evtPendWrite .knl (Page.pmu.base 0) 1) p (fun e => rg e (Page.pmu.base 0 + oEVTPEND) = 2 ∧ vectorLevel e v) = true ∧
    does (.evtPendWrite .knl (Page.pmu.base 0) 3) p (fun e => rg e (Page.pmu.base 0 + oEVTPEND) = 0 ∧ !vectorLevel e v) = true := by decide +kernel

/-- A command row has no bits in the table, so no word spells one; the queue's front then stays as it was. -/
theorem test_decode : decodeTableWord 32 0 = none ∧ live.withFetchWord 32 0 = live := by decide +kernel

/-! ### Well-formed commands -/

/-- Commands at the ends of their ranges are well formed. -/
theorem test_wellFormed1 : ([
    .transmitterFault 47 0, .hello 48 65535 ⟨(2 ^ 64 - 1), 3⟩, .laneStatus 51 0 0 (2 ^ 48 - 1) (List.replicate 48 0) (List.replicate 48 0),
    .tuneReq 51 0 47 3 3 9, .rowFail 48 0 (2 ^ 32 - 1) false (2 ^ 512 - 1) 0, .beamDied 48 0 0 511 1023, .dbmPart 48 0 63 (2 ^ 8192 - 1),
    .dbmEnd 48 0 (2 ^ 32 - 1) 0, .tagResp 48 0 0 0 (2 ^ 256 - 1), .tagAck 48 0 0 (2 ^ 256 - 1), .status 48 0 0 65535 0, .badmsg 51,
    .trained 51, .chkStart .host 7 0, .returnLaneBlockLock 48 true, .microcodeWrite .host 255 0, .registerWrite .host .bar0 8 16 [0, 0] false
    ] : List Instr).all Instr.wf = true := by decide +kernel
theorem test_wellFormed2 : ([
    .enableSet .host 4 0, .evtPendWrite .host 4096 0, .rowDelay .host 511 0, .block 15 [], .dispatch (2 ^ 34 - 1), .patchReport 33 {},
    .stitchRow 2, .gather [] 2, .dbmBitmapWrite .host 8 16383 0, .mendViewRead .host 0xFFFFFC, .bobRequest 14 32 false 0,
    .openPageIdle 127 47 0, .caParity 127 47 0 0, .dmaHead .host 15 true 0, .hostTimeout 15 2 [0, 0], .disable .knl 12, .jobGo .host 7 0
    ] : List Instr).all Instr.wf = true := by decide +kernel
theorem test_wellFormed3 : ([
    .fclSev .host 31 0, .poisonedLoad .load 524287, .storeKey .knl 15, .storeCrash .knl 7, .pdReqOn .knl 13 0, .pllLock 10, .supplyWarn 5,
    .commandSlot 127 0, .readOfLo .host ⟨.bar0, 8, 4, false⟩, .porst true [] []
    ] : List Instr).all Instr.wf = true := by decide +kernel

/-- Commands each of which fails one check are not. -/
theorem test_illFormed1 : ([
    .transmitterFault 48 0, .hello 47 0 ⟨0, 3⟩, .hello 52 0 ⟨0, 3⟩, .hello 48 65536 ⟨0, 3⟩, .hello 48 0 ⟨(2 ^ 64), 3⟩, .hello 48 0 ⟨0, 2⟩,
    .laneStatus 48 0 (2 ^ 48) 0 (List.replicate 48 0) (List.replicate 48 0), .laneStatus 48 0 0 (2 ^ 48) (List.replicate 48 0) (List.replicate 48 0),
    .laneStatus 48 0 0 0 (List.replicate 47 0) (List.replicate 48 0), .laneStatus 48 0 0 0 (List.replicate 48 0) (List.replicate 49 0),
    .tuneReq 48 0 48 0 0 0, .tuneReq 48 0 0 4 0 0, .tuneReq 48 0 0 0 4 0, .rowFail 48 0 (2 ^ 32) false 0 0, .rowFail 48 0 0 false (2 ^ 512) 0,
    .rowFail 48 0 0 false 0 (2 ^ 512), .beamDied 48 0 (2 ^ 32) 0 0, .beamDied 48 0 0 512 0, .beamDied 48 0 0 0 1024
    ] : List Instr).any Instr.wf = false := by decide +kernel
theorem test_illFormed2 : ([
    .dbmPart 48 0 64 0, .dbmPart 48 0 0 (2 ^ 8192), .dbmEnd 48 0 (2 ^ 32) 0, .dbmEnd 48 0 0 (2 ^ 32), .tagResp 48 0 (2 ^ 64) 0 0,
    .tagResp 48 0 0 (2 ^ 32) 0, .tagResp 48 0 0 0 (2 ^ 256), .tagAck 48 0 (2 ^ 32) 0, .tagAck 48 0 0 (2 ^ 256), .status 48 (2 ^ 32) 0 0 0,
    .status 48 0 (2 ^ 32) 0 0, .status 48 0 0 65536 0, .status 48 0 0 0 (2 ^ 32), .badmsg 52, .trained 52, .returnLaneBlockLock 52 true
    ] : List Instr).any Instr.wf = false := by decide +kernel
theorem test_illFormed3 : ([
    .chkStart .host 8 0, .chkD8 .host 8 0, .chkD16 .host 8 0, .chkD32 .host 8 0, .microcodeWrite .host 256 0, .registerWrite .host .bar0 2 0 [0] false,
    .registerWrite .host .bar0 4 2 [0] false, .registerWrite .host .bar0 8 4 [0] false, .enableSet .host 2 0, .enableClear .host 2 0,
    .enableSelfTestDone 1 true, .quiesceSet .host 2 0, .quiesceClear .host 2 0, .isolateSet .host 2 0, .isolateClear .host 2 0,
    .softReset .host 2 0, .evtPendWrite .host 4 0, .inject .host 4 0, .rowDelay .host 512 0, .block 16 [], .spoolGrant 16
    ] : List Instr).any Instr.wf = false := by decide +kernel
theorem test_illFormed4 : ([
    .dispatch (2 ^ 34), .secondRaster (2 ^ 34), .patchReport 34 {}, .verTimeout 34, .tileClockStop 34 0, .tileWake 34, .rasTestStart .host 34 0,
    .testDone 34 true, .stitchRow 3, .gather [] 3, .dbmBitmapWrite .host 9 0 0, .dbmBitmapWrite .host 0 16384 0, .mendViewRead .host 2,
    .mendViewRead .host 0x1000000, .bobRequest 15 0 false 0, .bobRequest 0 31 false 0, .bobCompletion 15 0, .refresh 128 0,
    .refreshManagement 128 0 [], .openPageIdle 128 0 0, .openPageIdle 0 48 0, .bobPcstate .host 128 0, .pcLost 128, .caParity 128 0 0 0
    ] : List Instr).any Instr.wf = false := by decide +kernel
theorem test_illFormed5 : ([
    .caParity 0 48 0 0, .dmaHead .host 16 true 0, .dmaDb .host 16, .descriptorFetched 16 .bad, .descriptorDone 16 (.ok []), .fetchTimeout 16,
    .hostTimeout 16 0 [], .hostTimeout 0 0 [0], .devTimeout 16 0 [], .devTimeout 0 0 [0], .disable .host 11, .disable .knl 16, .frameDecoded 8,
    .engUe 8, .jobGo .host 8 0, .snapReady 8, .jobAbort .host 8 0, .jobDone 8, .fclSev .host 32 0, .poisonedLoad .load 524288,
    .storeKey .knl 16, .storeCrash .knl 8, .pdReqOn .knl 14 0, .pdReqOff .knl 14 0, .pdReqSelfRefresh .knl 14 0, .pdSwitchDone 14 [], .pdFail 14,
    .pllUnlock 11, .pllLock 11, .supplyWarn 6, .railRelease 6, .brownout 6, .commandSlot 128 0, .readOfLo .host ⟨.bar0, 2, 4, false⟩
    ] : List Instr).any Instr.wf = false := by decide +kernel


end Sys2Proof.Tests
end

section
/-! SUPPORT. The shape of an answer, the places of header words, and what the access rules depend on. -/

namespace Sys2Proof.Machine

/-! ### The shape of an answer -/

theorem does_of_run {c : Instr} {s : State} {f : Dev → Dev} {P : Dev → Prop} (hc : exec c s = run s f)
    (h : P (drive (f s.dev))) : Does c s P := ⟨_, hc, rfl, h⟩

theorem does_of_runS {c : Instr} {s : State} {f : Dev → Dev} {P : Dev → Prop} (hc : exec c s = runS s f)
    (h : P (drive (settle (f s.dev)))) : Does c s P := ⟨_, hc, rfl, h⟩

/-! ### Pages -/

/-- A page base lies on a 4 KiB boundary (R733). -/
theorem base_mod (p : Page) (n : Nat) : p.base n % 0x1000 = 0 := by
  cases p <;> simp only [Page.base] <;> omega

/-- The header word at offset `o` of any page differs from a word at another place in its page. -/
theorem ne_base_add {a o : Nat} (p : Page) (n : Nat) (ho : o < 0x1000) (h : a % 0x1000 ≠ o) : a ≠ p.base n + o := by
  have := base_mod p n
  omega

theorem pageOf_congr {a b : Nat} (h : a / 0x1000 = b / 0x1000) : pageOf a = pageOf b := by
  unfold pageOf
  rw [h]

theorem ne_of_pageOf {a b : Nat} {p q : Page} {n m : Nat} (ha : pageOf a = some (p, n)) (hb : pageOf b = some (q, m))
    (h : p ≠ q) : a ≠ b := by
  rintro rfl
  exact h (congrArg Prod.fst (Option.some.inj (ha.symm.trans hb)))

theorem pageAt_of_not_window {a : Nat} (h : inWindow a = false) : pageAt a = pageOf a := by
  unfold pageAt
  rw [h]
  rfl

/-! ### Settling and the access rules -/

@[simp] theorem sendMsix_cfg (d : Dev) (v : Nat) : (sendMsix d v).hlk.cfg = d.hlk.cfg := by
  unfold sendMsix
  split
  · rfl
  · split <;> rfl

@[simp] theorem evt_cfg (d : Dev) (base b : Nat) : (evt d base b).hlk.cfg = d.hlk.cfg := by
  unfold evt
  dsimp only
  split
  · rw [sendMsix_cfg, wr_hlk]
  · rw [wr_hlk]

@[simp] theorem settle_cfg (d : Dev) : (settle d).hlk.cfg = d.hlk.cfg := by
  unfold settle lookCheck
  dsimp only
  split <;> split <;> simp only [evt_cfg, inc_hlk] <;> rfl

/-- What a requester reaches follows from the domains, from D3hot and from _OWNER of the pages alone (R16, R483, R489). -/
theorem acc_congr {d e : Dev} (hp : e.pmu = d.pmu) (hc : e.hlk.cfg = d.hlk.cfg)
    (ho : ∀ (p : Page) n, rg e (p.base n + oOWNER) = rg d (p.base n + oOWNER)) (req : Req) (a : Nat) :
    acc e req a = acc d req a := by
  unfold acc owns pageOn pdOn pdState
  simp only [hp, hc, ho]

/-- A requester that D3hot does not keep out (R483). -/
theorem host_d3_eq_false {d : Dev} {req : Req} (h : req = .host → d.hlk.cfg.d3 = false) :
    (decide (req = .host) && d.hlk.cfg.d3) = false := by
  by_cases e : req = .host
  · rw [h e, Bool.and_false]
  · rw [decide_eq_false e, Bool.false_and]

/-- A word that a requester reaches is aligned, is not kept from the host by D3hot, and lies on a powered page. -/
theorem of_acc {d : Dev} {req : Req} {a : Nat} (h : acc d req a = true) :
    a % 4 = 0 ∧ (req = .host → d.hlk.cfg.d3 = false) ∧ ∀ p n, pageAt a = some (p, n) → pageOn d p n = true := by
  unfold acc at h
  simp only [Bool.and_eq_true, decide_eq_true_eq, Bool.not_eq_true', Bool.and_eq_false_iff] at h
  obtain ⟨⟨h4, hd⟩, hm⟩ := h
  refine ⟨h4, ?_, ?_⟩
  · rintro rfl
    simpa using hd
  · intro p n hpn
    rw [hpn] at hm
    simp only [Bool.and_eq_true] at hm
    exact hm.1.1

end Sys2Proof.Machine
end

section
/-! PROOF. Writes of the control word (R736, R737, R740). -/

namespace Sys2Proof.Machine

/-! ### The control word (R736, R737, R740) -/

/-- Settling leaves every _CTRL word. -/
theorem rg_settle_ctrl (d : Dev) (p : Page) (n : Nat) : rg (settle d) (p.base n + oCTRL) = rg d (p.base n + oCTRL) :=
  rg_settle d (Ne.symm (ne_base_add p n (by decide) (by decide))) (Ne.symm (ne_base_add p n (by decide) (by decide)))

/-- Pages whose control word changes nothing but itself and the self-tests under way. -/
def Page.ctrlAlone (p : Page) : Prop := p ∉ [Page.ras, Page.cdcE, Page.dmaCh, Page.lane, Page.glr, Page.hel]

/-- On such a page a change of the control word writes no register. -/
theorem ctlActs_regs (o d : Dev) {p : Page} (hp : p.ctrlAlone) (n : Nat) : (ctlActs o d p n).regs = d.regs := by
  have tests (c : Bool) (e : Dev) (l : List Nat) (h : e.regs = d.regs) :
      (if c then { e with testing := l } else e : Dev).regs = d.regs := by
    cases c <;> exact h
  unfold Page.ctrlAlone at hp
  unfold ctlActs
  cases p with
  | ras | cdcE | dmaCh | lane | glr | hel => exact absurd hp (by decide)
  | _ => exact tests _ _ _ (tests _ _ _ rfl)

theorem rg_ctrlWrite_ctrl {d : Dev} {req : Req} {p : Page} {n : Nat} (hp : p.ctrlAlone) (hn : pageOf (p.base n) = some (p, n))
    (hon : pageOn d p n = true) (how : owns d req p n = true) (v : W32) :
    rg (ctrlWrite d req (p.base n) v) (p.base n + oCTRL) = v &&& 7 := by
  have go : ctrlWrite d req (p.base n) v = ctrlGo d p n v := by
    unfold ctrlWrite
    rw [hn]
    simp [how]
  rw [go]
  unfold ctrlGo
  rw [hon]
  exact (rg_congr (ctlActs_regs _ _ hp n) _).trans (rg_wr_self _ _ _)

/-- SOFT_RESET is not one of the three bits that _CTRL holds. -/
theorem putBit_softReset_and (v : W32) : putBit v 3 true &&& 7 = v &&& 7 := by
  refine BitVec.eq_of_getLsbD_eq fun i hi => ?_
  have h := bit_putBit v 3 true i (by decide)
  unfold bit at h
  rw [BitVec.getLsbD_and, BitVec.getLsbD_and, h]
  split
  · next e => subst e; simp
  · rfl

/-- Settles O27: what the soft reset does comes before the store of the three bits, and on these pages what follows it writes no
register. -/
theorem controlBitsAreStored : Obligations.ControlBitsAreStored := by
  unfold Obligations.ControlBitsAreStored
  intro s req p n v hn hon how hp holds
  have stores (c : Instr) (w : W32) (hc : exec c s = runS s fun d => ctrlWrite d req (p.base n) w) : Does c s (holds w) := by
    refine does_of_runS hc ?_
    change rg _ _ = _
    rw [rg_drive, rg_settle_ctrl, rg_ctrlWrite_ctrl hp hn hon how]
  have reset := stores (.softReset req (p.base n) v) (putBit v 3 true) rfl
  simp only [holds, putBit_softReset_and] at reset
  exact ⟨stores _ _ rfl, stores _ _ rfl, stores _ _ rfl, stores _ _ rfl, stores _ _ rfl, stores _ _ rfl, reset⟩

end Sys2Proof.Machine
end

section
/-! PROOF. Writes of registers and of the MSI-X table (R9 to R12, R488, R741). -/

namespace Sys2Proof.Machine

/-! ### Register writes (R9 to R12) -/

/-- Pages whose registers have no effect beyond the store. -/
def Page.plain (p : Page) : Prop := p ∈ [Page.alt, Page.bst, Page.pxc, Page.ver, Page.stc, Page.mc, Page.hlk, Page.dmaG]

theorem blockWrite_plain (d : Dev) (req : Req) {p : Page} (hp : p.plain) (n a : Nat) (v : W32) :
    blockWrite d req p n a v = storeReg d a v := by
  unfold Page.plain at hp
  simp only [List.mem_cons, List.not_mem_nil, or_false] at hp
  rcases hp with rfl | rfl | rfl | rfl | rfl | rfl | rfl | rfl <;> rfl

/-- The word that the access codes of a register make of the word written and the old one (R11, R12). -/
def RegRow.stored (r : RegRow) (v old : W32) : W32 :=
  (((old &&& ~~~w32 (r.rw ||| r.nv ||| r.rws)) ||| (v &&& w32 (r.rw ||| r.nv ||| r.rws))) &&& ~~~(v &&& w32 r.w1c)) |||
    (v &&& w32 r.w1s)

theorem RegRow.bit_stored (r : RegRow) (v old : W32) {i : Nat} (hi : i < 32) :
    bit (r.stored v old) i = ((r.w1s.testBit i && v.getLsbD i) || (!(r.w1c.testBit i && v.getLsbD i) &&
      (if r.rw.testBit i || r.nv.testBit i || r.rws.testBit i then v.getLsbD i else bit old i))) := by
  unfold RegRow.stored bit w32
  simp only [BitVec.getLsbD_or, BitVec.getLsbD_and, BitVec.getLsbD_not, BitVec.getLsbD_ofNat, Nat.testBit_or, hi, decide_true,
    Bool.true_and]
  cases r.rw.testBit i || r.nv.testBit i || r.rws.testBit i
  · simp [Bool.or_comm, Bool.and_comm]
  · simp [Bool.or_comm, Bool.and_comm]

theorem storeReg_eq (d : Dev) {a n : Nat} (v : W32) {p : Page} {r : RegRow} (ha : pageOf a = some (p, n))
    (hr : p.row (a % 0x1000) = some r) : storeReg d a v = wr d a (r.stored v (rg d a)) := by
  unfold storeReg
  rw [ha]
  dsimp only
  rw [hr]
  rfl

/-- The write of a block register that the requester reaches. -/
theorem busWrite_block {d : Dev} {req : Req} {a n : Nat} {p : Page} (ha : pageOf a = some (p, n)) (hw : inWindow a = false)
    (ho : 0x100 ≤ a % 0x1000) (hacc : acc d req a = true) (v : W32) : busWrite d req a v = blockWrite d req p n a v := by
  have h4 := (of_acc hacc).1
  have hown : a % 0x1000 ≠ 0x34 := by omega
  have hctl : a % 0x1000 ≠ 8 := by omega
  unfold busWrite
  rw [ha]
  simp [h4, hw, hacc, hown, hctl, Nat.not_lt.2 ho]

theorem busWrite_plain {d : Dev} {req : Req} {a n : Nat} {p : Page} {r : RegRow} (ha : pageOf a = some (p, n))
    (hw : inWindow a = false) (hp : p.plain) (ho : 0x100 ≤ a % 0x1000) (hr : p.row (a % 0x1000) = some r)
    (hacc : acc d req a = true) (v : W32) : busWrite d req a v = wr d a (r.stored v (rg d a)) := by
  rw [busWrite_block ha hw ho hacc, blockWrite_plain d req hp, storeReg_eq d v ha hr]

/-- No word of such a page is one that settling changes. -/
theorem rg_settle_plain (d : Dev) {a n : Nat} {p : Page} (ha : pageOf a = some (p, n)) (hp : p.plain) :
    rg (settle d) a = rg d a := by
  have hb : p ≠ .bob := by
    rintro rfl
    exact absurd hp (by unfold Page.plain; decide)
  exact rg_settle d (ne_of_pageOf ha (q := .bob) (m := 0) (by decide) hb) (ne_of_pageOf ha (q := .bob) (m := 0) (by decide) hb)

/-- Storing a block register leaves what every requester reaches. -/
theorem acc_settle_wr (d : Dev) {a : Nat} (h : 0x100 ≤ a % 0x1000) (v : W32) (req : Req) (b : Nat) :
    acc (settle (wr d a v)) req b = acc d req b := by
  refine acc_congr (d := d) ((settle_pmu _).trans (wr_pmu ..)) ?_ (fun p n => ?_) req b
  · rw [settle_cfg, wr_hlk]
  · rw [rg_settle _ (Ne.symm (ne_base_add p n (by decide) (by decide))) (Ne.symm (ne_base_add p n (by decide) (by decide))),
      rg_wr_ne _ _ (Ne.symm (ne_base_add p n (by decide) (show a % 0x1000 ≠ 0x34 by omega)))]

theorem sizedWrite_one (put : Dev → Nat → W32 → Dev) (d : Dev) {a : Nat} (h : a % 4 = 0) (v : W32) :
    sizedWrite put d 4 a [v] = put d a v := by
  unfold sizedWrite
  rw [if_neg (by simp [h])]
  rfl

theorem sizedWrite_two (put : Dev → Nat → W32 → Dev) (d : Dev) {a : Nat} (h : a % 4 = 0) (lo hi : W32) :
    sizedWrite put d 8 a [lo, hi] = put (put d a lo) (a + 4) hi := by
  unfold sizedWrite
  rw [if_neg (by simp [h])]
  rfl

/-- A write of BAR0 on VC0, not from the host in D3hot, is taken dword by dword (R9, R10). -/
theorem registerWrite_bar0 {d : Dev} {req : Req} (h : req = .host → d.hlk.cfg.d3 = false) (size a : Nat) (ws : List W32) :
    registerWrite d req .bar0 size a ws false = sizedWrite (fun d a v => settle (busWrite d req a v)) d size a ws := by
  unfold registerWrite vcOpen vc1Seen
  simp [host_d3_eq_false h]

/-! ### The MSI-X table (R741) -/

@[simp] theorem msixRelease_bar2 (d : Dev) (v : Nat) : (msixRelease d v).bar2 = d.bar2 := by
  unfold msixRelease
  split
  · dsimp only
    split
    · exact sendMsix_bar2 _ _
    · rfl
  · rfl

/-- An entry of the MSI-X table reads as it was last written, as far as its bits are stored. -/
theorem bar2Value_bar2Write (d : Dev) {o : Nat} (h0 : 0x800 ≤ o) (h1 : o < 0xC00) (h4 : o % 4 = 0) (v : W32) :
    bar2Value (bar2Write d o v) o = v &&& msixMask o := by
  have value (e : Dev) : bar2Value e o = msixWord e o := by
    unfold bar2Value
    rw [if_neg (by omega), if_neg (by omega), if_neg (by omega), if_neg (by omega), if_pos ⟨h0, h1, h4⟩]
  rw [value]
  unfold bar2Write msixWord
  rw [if_neg (by omega), if_pos ⟨h0, h1, h4⟩]
  dsimp only
  rw [msixRelease_bar2]
  dsimp only
  by_cases e : v &&& msixMask o = if o % 16 = 12 then 1 else 0
  · rw [if_pos e, alGet_alDel, if_pos rfl, e]; rfl
  · rw [if_neg e, alGet_alSet, if_pos rfl]; rfl

/-- What a read of an MSI-X entry returns depends on the table alone. -/
theorem bar2Value_congr {d e : Dev} (h : e.bar2 = d.bar2) {o : Nat} (h0 : 0x800 ≤ o) (h1 : o < 0xC00) (h4 : o % 4 = 0) :
    bar2Value e o = bar2Value d o := by
  unfold bar2Value msixWord
  simp only [if_neg (show ¬o = 0 by omega), if_neg (show ¬o = 8 by omega), if_neg (show ¬o = 0x0C by omega),
    if_neg (show ¬o = 0x10 by omega), if_pos (show 0x800 ≤ o ∧ o < 0xC00 ∧ o % 4 = 0 from ⟨h0, h1, h4⟩), h]

/-- The host's write of BAR2 on a virtual channel that is open, not in D3hot, is taken dword by dword (R10, R499). -/
theorem registerWrite_bar2 {d : Dev} {vc1 : Bool} (hvc : vc1 = true → d.hlk.cfg.vc1 = true) (hd : d.hlk.cfg.d3 = false)
    (size o : Nat) (ws : List W32) :
    registerWrite d .host .bar2 size o ws vc1 = sizedWrite bar2Write (vc1Seen d vc1) size o ws := by
  have h3 : (vc1Seen d vc1).hlk.cfg.d3 = false := by
    unfold vc1Seen
    split
    · exact hd
    · exact hd
  unfold registerWrite vcOpen
  cases vc1 with
  | false => simp [h3]
  | true => simp [hvc rfl, h3]

/-! ### The obligation -/

/-- Settles O29: each dword of a plain page is one store under the access codes, after which the look-ahead check changes words of
BOB alone, and what the requester reaches is as before. -/
theorem registerWritesFollowAccessCodes : Obligations.RegisterWritesFollowAccessCodes := by
  unfold Obligations.RegisterWritesFollowAccessCodes
  refine ⟨⟨?_, ?_⟩, ?_, ?_⟩
  · intro s req p n a v r ha hw hp ho hr hacc
    obtain ⟨h4, hd3, -⟩ := of_acc hacc
    refine does_of_runS (f := fun d => registerWrite d req .bar0 4 a [v] false) rfl ?_
    rw [registerWrite_bar0 hd3, sizedWrite_one _ _ h4, busWrite_plain ha hw hp ho hr hacc]
    refine ⟨fun i hi => ?_, fun b hb h1 h2 => ?_⟩
    · rw [rg_drive, rg_settle_plain _ ha hp, rg_settle_plain _ ha hp, rg_wr_self]
      exact r.bit_stored v _ hi
    · rw [rg_drive, rg_settle _ h1 h2, rg_settle _ h1 h2, rg_wr_ne _ _ hb]
  · intro s req p n a lo hi r q ha hw hw' hp ho hlt hr hq hacc hacc'
    obtain ⟨h4, hd3, -⟩ := of_acc hacc
    have ha' : pageOf (a + 4) = some (p, n) := (pageOf_congr (by omega)).trans ha
    have hmod : (a + 4) % 0x1000 = a % 0x1000 + 4 := by omega
    refine does_of_runS (f := fun d => registerWrite d req .bar0 8 a [lo, hi] false) rfl ?_
    rw [registerWrite_bar0 hd3, sizedWrite_two _ _ h4, busWrite_plain ha hw hp ho hr hacc,
      busWrite_plain ha' hw' hp (by omega) (hmod ▸ hq) ((acc_settle_wr _ ho _ _ _).trans hacc')]
    refine fun i hi => ⟨?_, ?_⟩
    · rw [rg_drive, rg_settle_plain _ ha hp, rg_settle_plain _ ha hp, rg_wr_ne _ _ (by omega), rg_settle_plain _ ha hp, rg_wr_self]
      exact r.bit_stored lo _ hi
    · rw [rg_drive, rg_settle_plain _ ha' hp, rg_settle_plain _ ha' hp, rg_wr_self, rg_settle_plain _ ha' hp,
        rg_wr_ne _ _ (by omega)]
      exact q.bit_stored _ _ hi
  · intro s req size a ws hd3 hbad
    refine does_of_runS (f := fun d => registerWrite d req .bar0 size a ws false) rfl fun b h1 h2 => ?_
    rw [registerWrite_bar0 hd3, rg_drive, rg_settle _ h1 h2]
    unfold sizedWrite
    rw [if_pos hbad]
  · intro s o v vc1 hvc hd3 h0 h1 h4
    refine does_of_runS (f := fun d => registerWrite d .host .bar2 4 o [v] vc1) rfl ?_
    rw [registerWrite_bar2 hvc hd3, sizedWrite_one _ _ h4,
      bar2Value_congr ((drive_bar2 _).trans (settle_bar2 _)) h0 h1 h4, bar2Value_bar2Write _ h0 h1 h4]

end Sys2Proof.Machine
end

section
/-! PROOF. Reads of the register space: their answers and what a read of a LO word latches (R9, R10, R452, R525, R526, R554, R618). -/

namespace Sys2Proof.Machine

/-! ### Answers to reads (R488) -/

theorem emitAll_outs (d : Dev) (os : List Out) : (emitAll d os).outs = os.reverse ++ d.outs := by
  induction os generalizing d with
  | nil => rfl
  | cons o os ih => rw [List.reverse_cons, List.append_assoc]; exact ih (emit d o)

/-- What has been put out stands while the pins follow. -/
theorem mem_drive_outs {d : Dev} {o : Out} (h : o ∈ d.outs) : o ∈ (drive d).outs := by
  change o ∈ (emitAll d _).outs
  rw [emitAll_outs]
  exact List.mem_append_right _ h

/-- The completions of a read, in order. -/
def completionOuts (d : Dev) (req : Req) (a : Nat) (ws : List W32) : List Out :=
  if req = .host then (pieces (maxPayload d) a (4 * ws.length)).map fun p =>
    .readData req (a + p.1) ((ws.drop (p.1 / 4)).take (p.2 / 4))
  else [.readData req a ws]

theorem completions_eq (d : Dev) (req : Req) (a : Nat) (ws : List W32) :
    completions d req a ws = emitAll d (completionOuts d req a ws) := by
  unfold completions completionOuts
  split
  · exact List.foldl_map.symm
  · rfl

@[simp] theorem completions_exp (d : Dev) (req : Req) (a : Nat) (ws : List W32) : (completions d req a ws).exp = d.exp := by
  rw [completions_eq, emitAll_exp]
@[simp] theorem completions_mei (d : Dev) (req : Req) (a : Nat) (ws : List W32) : (completions d req a ws).mei = d.mei := by
  rw [completions_eq, emitAll_mei]
@[simp] theorem completions_hlk (d : Dev) (req : Req) (a : Nat) (ws : List W32) : (completions d req a ws).hlk = d.hlk := by
  rw [completions_eq, emitAll_hlk]
@[simp] theorem completions_cdcHi (d : Dev) (req : Req) (a : Nat) (ws : List W32) :
    (completions d req a ws).cdcHi = d.cdcHi := by
  rw [completions_eq, emitAll_cdcHi]
@[simp] theorem completions_chans (d : Dev) (req : Req) (a : Nat) (ws : List W32) :
    (completions d req a ws).chans = d.chans := by
  rw [completions_eq, emitAll_chans]
@[simp] theorem rg_completions (d : Dev) (req : Req) (a : Nat) (ws : List W32) (b : Nat) :
    rg (completions d req a ws) b = rg d b := by
  rw [completions_eq, rg_emitAll]

/-- Bytes that lie between two multiples of `u` are one piece. -/
theorem pieces_single {u a len : Nat} (h0 : 0 < len) (h : a % u + len ≤ u) : pieces u a len = [(0, len)] := by
  have hu : 0 < u := by omega
  have ha := Nat.div_add_mod a u
  have hd : (a + len + u - 1) / u = a / u + 1 := by
    rw [Nat.div_eq_iff hu, Nat.add_mul, Nat.mul_comm (a / u) u]
    omega
  unfold pieces
  rw [hd, Nat.add_sub_cancel_left]
  simp only [List.range_one, List.map_cons, List.map_nil, Nat.add_zero, List.cons.injEq, Prod.mk.injEq, and_true]
  omega

theorem maxPayload_cases (d : Dev) : maxPayload d = 128 ∨ maxPayload d = 256 ∨ maxPayload d = 512 := by
  unfold maxPayload
  rcases (by omega : min 2 d.hlk.cfg.mps = 0 ∨ min 2 d.hlk.cfg.mps = 1 ∨ min 2 d.hlk.cfg.mps = 2) with h | h | h <;> simp [h]

/-- A read whose words lie between two multiples of 128 is answered in one completion. -/
theorem readData_mem_completions (d : Dev) (req : Req) {a : Nat} {ws : List W32} (h0 : 0 < ws.length)
    (h : a % 128 + 4 * ws.length ≤ 128) : .readData req a ws ∈ (completions d req a ws).outs := by
  have one : pieces (maxPayload d) a (4 * ws.length) = [(0, 4 * ws.length)] := by
    refine pieces_single (by omega) ?_
    rcases maxPayload_cases d with e | e | e <;> rw [e] <;> omega
  have outs : completionOuts d req a ws = [.readData req a ws] := by
    unfold completionOuts
    split
    · simp [one]
    · rfl
  rw [completions_eq, emitAll_outs, outs]
  exact List.mem_append_left _ (by simp)

/-! ### Reads dword by dword (R9, R10) -/

theorem registerRead_bar0 {d : Dev} {req : Req} (h : req = .host → d.hlk.cfg.d3 = false) (a len : Nat) :
    registerRead d req .bar0 a len false =
      completions (sizedRead (fun d a => busRead d req a) d a len).2 req a (sizedRead (fun d a => busRead d req a) d a len).1 := by
  unfold registerRead vcOpen vc1Seen
  simp [host_d3_eq_false h]

theorem sizedRead_one (get : Dev → Nat → W32 × Dev) (d : Dev) {a : Nat} (h : a % 4 = 0) :
    sizedRead get d a 4 = ([(get d a).1], (get d a).2) := by
  unfold sizedRead
  rw [if_neg (by simp [h])]
  rfl

theorem sizedRead_two (get : Dev → Nat → W32 × Dev) (d : Dev) {a : Nat} (h : a % 4 = 0) :
    sizedRead get d a 8 = ([(get d a).1, (get (get d a).2 (a + 4)).1], (get (get d a).2 (a + 4)).2) := by
  unfold sizedRead
  rw [if_neg (by simp [h])]
  rfl

/-! ### Reads of block registers (R9, R526) -/

/-- The word at `a` is a block register of the `n`-th page of kind `p`, outside the windows, and not one whose read pops a queue,
takes the time or looks into the MRAM. -/
structure PairWord (p : Page) (n a : Nat) : Prop where
  page : pageOf a = some (p, n)
  flat : inWindow a = false
  block : 0x100 ≤ a % 0x1000
  quiet : a ∉ [Adr.SPL_REQ_W2, Adr.FCL_LOG_W2, Adr.TIM_TSQ_NS, Adr.TIM_NS, Adr.NVM_RD_DATA]

/-- A requester that reaches such a word reads what the block shows there, and the read latches. -/
theorem busRead_pairWord {d : Dev} {req : Req} {p : Page} {n a : Nat} (h : PairWord p n a) (hacc : acc d req a = true) :
    busRead d req a = (blockRead d p n a, readLatch d p n a) := by
  obtain ⟨hpg, hw, ho, hquiet⟩ := h
  obtain ⟨h4, -, hon⟩ := of_acc hacc
  have on := hon p n ((pageAt_of_not_window hw).trans hpg)
  simp only [List.mem_cons, List.not_mem_nil, or_false, not_or] at hquiet
  obtain ⟨h1, h2, h3, h5, h6⟩ := hquiet
  have hid : a % 0x1000 ≠ 0 := by omega
  have hst : a % 0x1000 ≠ 0x0C := by omega
  have hopen : openRead (a % 0x1000) = false := by
    have hrev : a % 0x1000 ≠ 4 := by omega
    have hown : a % 0x1000 ≠ 0x34 := by omega
    simp [openRead, hid, hst, hrev, hown]
  have value : busValue d req a = blockRead d p n a := by
    unfold busValue
    rw [hpg]
    simp [h4, hw, hid, hst, on, hopen, hacc, Nat.not_lt.2 ho]
  have acts : readActs d a = readLatch d p n a := by
    unfold readActs
    rw [hpg]
    simp only [if_neg h1, if_neg h2, if_neg h3, if_neg h5]
  unfold busRead
  rw [hw, hacc, value, acts, if_neg h6]
  rfl

/-- The block after a 32-bit read of such a word: the pair has latched, and the answer has gone out. -/
def afterRead (d : Dev) (req : Req) (p : Page) (n a : Nat) : Dev :=
  drive (completions (readLatch d p n a) req a [blockRead d p n a])

@[simp] theorem afterRead_exp (d : Dev) (req : Req) (p : Page) (n a : Nat) :
    (afterRead d req p n a).exp = (readLatch d p n a).exp := (drive_exp _).trans (completions_exp ..)
@[simp] theorem afterRead_mei (d : Dev) (req : Req) (p : Page) (n a : Nat) :
    (afterRead d req p n a).mei = (readLatch d p n a).mei := (drive_mei _).trans (completions_mei ..)
@[simp] theorem afterRead_hlk (d : Dev) (req : Req) (p : Page) (n a : Nat) :
    (afterRead d req p n a).hlk = (readLatch d p n a).hlk := (drive_hlk _).trans (completions_hlk ..)
@[simp] theorem afterRead_cdcHi (d : Dev) (req : Req) (p : Page) (n a : Nat) :
    (afterRead d req p n a).cdcHi = (readLatch d p n a).cdcHi := (drive_cdcHi _).trans (completions_cdcHi ..)
@[simp] theorem afterRead_chans (d : Dev) (req : Req) (p : Page) (n a : Nat) :
    (afterRead d req p n a).chans = (readLatch d p n a).chans := (drive_chans _).trans (completions_chans ..)

theorem readData_mem_afterRead {d : Dev} {req : Req} {a : Nat} (hacc : acc d req a = true) (p : Page) (n : Nat) :
    .readData req a [blockRead d p n a] ∈ (afterRead d req p n a).outs := by
  have h4 := (of_acc hacc).1
  refine mem_drive_outs (readData_mem_completions _ _ (by simp) ?_)
  simp only [List.length_cons, List.length_nil]
  omega

theorem does_readOfLo {s : State} {req : Req} {p : Page} {n a : Nat} {P : Dev → Prop} (h : PairWord p n a)
    (hacc : acc s.dev req a = true) (hP : P (afterRead s.dev req p n a)) :
    Does (.readOfLo req ⟨.bar0, a, 4, false⟩) s P := by
  obtain ⟨h4, hd3, -⟩ := of_acc hacc
  refine does_of_run (f := fun d => registerRead d req .bar0 a 4 false) rfl ?_
  rw [registerRead_bar0 hd3, sizedRead_one _ _ h4, busRead_pairWord h hacc]
  exact hP

/-! ### Channels -/

theorem nth_modNth_self {α : Type} (l : List α) {n : Nat} (h : n < l.length) (f : α → α) (x : α) :
    nth (modNth l n f) n x = f (nth l n x) := by
  induction l generalizing n with
  | nil => simp at h
  | cons a r ih =>
    cases n with
    | zero => rfl
    | succ n => exact ih (Nat.lt_of_succ_lt_succ h)

theorem chanOf_setChan_self (d : Dev) {n : Nat} (h : n < d.chans.length) (f : Chan → Chan) :
    chanOf (setChan d n f) n = f (chanOf d n) := nth_modNth_self d.chans h f {}

theorem chanOf_congr {d e : Dev} (h : e.chans = d.chans) (n : Nat) : chanOf e n = chanOf d n := by
  unfold chanOf
  rw [h]

/-- A block register of a channel's page. -/
theorem pairWord_dmaCh {n o : Nat} (hn : n < 16) (h0 : 0x20100 ≤ o) (h1 : o < 0x21000) : PairWord .dmaCh n (o + 0x1000 * n) where
  page := (pageOf_congr (b := Page.dmaCh.base n) (by simp only [Page.base]; omega)).trans
    ((by decide : ∀ n < 16, pageOf (Page.dmaCh.base n) = some (.dmaCh, n)) n hn)
  flat := by
    unfold inWindow
    rw [decide_eq_false_iff_not]
    omega
  block := by omega
  quiet := by
    simp only [List.mem_cons, List.not_mem_nil, or_false]
    unfold Adr.SPL_REQ_W2 Adr.FCL_LOG_W2 Adr.TIM_TSQ_NS Adr.TIM_NS Adr.NVM_RD_DATA
    omega

theorem liveDmaCh_curLo (d : Dev) (n : Nat) : liveDmaCh d n (Adr.DMA_CUR_LO n) = w32 (chanOf d n).cur := by
  unfold liveDmaCh Adr.DMA_HOPS Adr.DMA_STAT Adr.DMA_CUR_LO Adr.DMA_CUR_HI Adr.DMA_CNT_BYTES_HI
  dsimp only
  rw [if_neg (by omega), if_neg (by omega), if_pos rfl]

theorem liveDmaCh_curHi (d : Dev) (n : Nat) : liveDmaCh d n (Adr.DMA_CUR_HI n) = (chanOf d n).curHi := by
  unfold liveDmaCh Adr.DMA_HOPS Adr.DMA_STAT Adr.DMA_CUR_LO Adr.DMA_CUR_HI Adr.DMA_CNT_BYTES_HI
  dsimp only
  rw [if_neg (by omega), if_neg (by omega), if_neg (by omega), if_pos rfl]

theorem liveDmaCh_bytesHi (d : Dev) (n : Nat) : liveDmaCh d n (Adr.DMA_CNT_BYTES_HI n) = (chanOf d n).bytesHi := by
  unfold liveDmaCh Adr.DMA_HOPS Adr.DMA_STAT Adr.DMA_CUR_LO Adr.DMA_CUR_HI Adr.DMA_CNT_BYTES_HI
  dsimp only
  rw [if_neg (by omega), if_neg (by omega), if_neg (by omega), if_neg (by omega), if_pos rfl]

/-- A read of DMA_CUR_LO latches the high word of the descriptor's address (R526). -/
theorem readLatch_curLo (d : Dev) (n : Nat) : readLatch d .dmaCh n (Adr.DMA_CUR_LO n) =
    setChan d n fun c => { c with curHi := w32 (c.cur / 4294967296) } := by
  have h : Adr.DMA_CUR_LO n ≠ Adr.DMA_CNT_BYTES_LO n := by
    unfold Adr.DMA_CUR_LO Adr.DMA_CNT_BYTES_LO
    omega
  unfold readLatch
  dsimp only
  rw [if_neg h, if_pos rfl]

/-- A read of DMA_CNT_BYTES_LO latches the high word of the count (R526). -/
theorem readLatch_bytesLo (d : Dev) (n : Nat) : readLatch d .dmaCh n (Adr.DMA_CNT_BYTES_LO n) =
    setChan d n fun c => { c with bytesHi := rg d (Adr.DMA_CNT_BYTES_HI n) } := by
  unfold readLatch
  dsimp only
  rw [if_pos rfl]

/-! ### The obligation -/

/-- EXP_POS read as 8 bytes: the second dword is what the first one latched (R10, R452). -/
theorem does_read_pos8 {s : State} {req : Req} (hlo : acc s.dev req Adr.EXP_POS_LO = true)
    (hhi : acc s.dev req Adr.EXP_POS_HI = true) : Does (.readOfLo req ⟨.bar0, Adr.EXP_POS_LO, 8, false⟩) s fun d =>
      .readData req Adr.EXP_POS_LO [w32 s.dev.exp.pos, w32 (s.dev.exp.pos / 2 ^ 32 % 65536)] ∈ d.outs := by
  have lo : PairWord .exp 0 Adr.EXP_POS_LO := ⟨by decide, by decide, by decide, by decide⟩
  have hi : PairWord .exp 0 Adr.EXP_POS_HI := ⟨by decide, by decide, by decide, by decide⟩
  have acc' : acc (readLatch s.dev .exp 0 Adr.EXP_POS_LO) req Adr.EXP_POS_HI = true :=
    (acc_congr rfl rfl (fun _ _ => rfl) _ _).trans hhi
  refine does_of_run (f := fun d => registerRead d req .bar0 Adr.EXP_POS_LO 8 false) rfl ?_
  rw [registerRead_bar0 (of_acc hlo).2.1, sizedRead_two _ _ (by decide), busRead_pairWord lo hlo, busRead_pairWord hi acc']
  exact mem_drive_outs (readData_mem_completions _ _ (by simp) (show 0x130160 % 128 + 4 * 2 ≤ 128 by decide))

/-- A read by KNL or DBG that is not of whole aligned dwords returns zeros and changes no word. -/
theorem does_read_misfit (s : State) {req : Req} (hreq : req ≠ .host) {a len : Nat} (h : a % 4 ≠ 0 ∨ len % 4 ≠ 0) :
    Does (.readOfLo req ⟨.bar0, a, len, false⟩) s fun d =>
      .readData req a (List.replicate ((a % 4 + len + 3) / 4) 0) ∈ d.outs ∧ ∀ b, rg d b = rg s.dev b := by
  refine does_of_run (f := fun d => registerRead d req .bar0 a len false) rfl ?_
  rw [registerRead_bar0 (fun e => absurd e hreq)]
  unfold sizedRead
  rw [if_pos h]
  refine ⟨mem_drive_outs ?_, fun b => by rw [rg_drive, rg_completions]⟩
  rw [completions_eq, emitAll_outs]
  unfold completionOuts
  rw [if_neg hreq]
  exact List.mem_append_left _ (by simp)

/-- Settles O31: a read of a LO word is one dword read, whose latch each page gives; two dwords are read in ascending order. -/
theorem readsOfLowWordsLatch : Obligations.ReadsOfLowWordsLatch := by
  unfold Obligations.ReadsOfLowWordsLatch
  intro s req
  refine ⟨fun h => ?pos, does_read_pos8, fun a len hreq h => does_read_misfit s hreq h, fun h => ?goPos, fun h => ?lastUe,
    fun h => ?cntOut, fun h => ?h2d, fun h => ?d2h, fun n hn hlen h => ?cur, fun n hn hlen h => ?cntBytes⟩
  case pos =>
    exact does_readOfLo (p := .exp) (n := 0) ⟨by decide, by decide, by decide, by decide⟩ h
      ⟨readData_mem_afterRead h .exp 0, afterRead_exp ..⟩
  case goPos =>
    exact does_readOfLo (p := .exp) (n := 0) ⟨by decide, by decide, by decide, by decide⟩ h
      ⟨readData_mem_afterRead h .exp 0, afterRead_exp ..⟩
  case lastUe =>
    exact does_readOfLo (p := .mei) (n := 0) ⟨by decide, by decide, by decide, by decide⟩ h
      ⟨readData_mem_afterRead h .mei 0, congrArg Mei.lastUeHi (afterRead_mei ..)⟩
  case cntOut =>
    exact does_readOfLo (p := .cdcG) (n := 0) ⟨by decide, by decide, by decide, by decide⟩ h
      ⟨readData_mem_afterRead h .cdcG 0, afterRead_cdcHi ..⟩
  case h2d =>
    exact does_readOfLo (p := .dmaG) (n := 0) ⟨by decide, by decide, by decide, by decide⟩ h
      (congrArg Hlk.h2dHi (afterRead_hlk ..))
  case d2h =>
    exact does_readOfLo (p := .dmaG) (n := 0) ⟨by decide, by decide, by decide, by decide⟩ h
      (congrArg Hlk.d2hHi (afterRead_hlk ..))
  case cur =>
    refine does_readOfLo (pairWord_dmaCh hn (by decide) (by decide)) h ⟨?_, ?_⟩
    · exact liveDmaCh_curLo s.dev n ▸ readData_mem_afterRead h .dmaCh n
    · rw [liveDmaCh_curHi, chanOf_congr (afterRead_chans ..), readLatch_curLo, chanOf_setChan_self _ (by omega)]
      rfl
  case cntBytes =>
    refine does_readOfLo (pairWord_dmaCh hn (by decide) (by decide)) h ?_
    rw [liveDmaCh_bytesHi, chanOf_congr (afterRead_chans ..), readLatch_bytesLo, chanOf_setChan_self _ (by omega)]

end Sys2Proof.Machine
end

section
/-! PROOF. Frames of the quiet commands: the state that breaks them. -/

namespace Sys2Proof.Machine

/-- A controller listed under number 128, of which the block has none (R306): a write of port 0 waits for its admission to a bank
queue in which a write of the same sector stands. -/
def strayPc : Nat × Pc :=
  (128, { held := [{ id := 1, port := 0, da := 0, wr := true, at0 := 0 }]
          banks := [{ k := 0, q := [{ id := 0, port := 1, da := 0, wr := true, at0 := 0 }] }] })

/-- The block at reset but for that controller. -/
def strayState : State := { dev := { bob := { pcs := [strayPc] } }, pending := [] }

/-- The completion makes the admissions of every listed controller first, and this one counts in the page of channel 64, where
GLR's page lies. -/
theorem inorder_counts_past_the_last_page :
    rg (mcComplete strayState.dev 0 0) (Adr.MC_CNT_INORDER 64) ≠ rg strayState.dev (Adr.MC_CNT_INORDER 64) := by decide

/-- Refutes O10: the statement is of every state, and nothing in it keeps the numbers of the controllers listed in `bob.pcs` below
128. BOB_COMPLETION admits what each of them holds; under number 128 the count of requests kept in order falls at 0x100124, outside
the controllers' pages. -/
theorem not_quietCommandsKeepTheRest : ¬ Obligations.QuietCommandsKeepTheRest := by
  unfold Obligations.QuietCommandsKeepTheRest
  intro h
  obtain ⟨-, -, -, controllers, -⟩ := h strayState .host 0 0 0 0 0 0 false [] .load
  have frame := (controllers (.bobCompletion 0 0) (by simp) _ (run_eq strayState _)).2 (Adr.MC_CNT_INORDER 64)
  refine inorder_counts_past_the_last_page ((rg_drive _ _).symm.trans (frame ?_))
  rintro (⟨-, hi⟩ | ⟨i, hi, e⟩)
  · exact absurd hi (by decide)
  · change 0x100124 = 0xB01C0 + 4 * i at e
    omega

end Sys2Proof.Machine
end

section
/-! SUPPORT. Fields of a word: what `bits` and `bit` read of numbers, and of a word one field of which was set. -/

namespace Sys2Proof.Machine

theorem bits_zero (w : W32) (hi : Nat) : bits w hi 0 = w.toNat % 2 ^ (hi + 1) := rfl

theorem bits_w32 {n : Nat} (hi : Nat) (h : n < 2 ^ 32) : bits (w32 n) hi 0 = n % 2 ^ (hi + 1) := by
  rw [bits_zero, w32, BitVec.toNat_ofNat, Nat.mod_eq_of_lt h]

theorem bit_w32 {n i : Nat} (hi : i < 32) : bit (w32 n) i = n.testBit i := by
  unfold bit w32
  rw [BitVec.getLsbD_ofNat, decide_eq_true hi, Bool.true_and]

/-- A field reads bit by bit as the word does. -/
theorem testBit_bits (w : W32) (hi lo i : Nat) : (bits w hi lo).testBit i = (decide (i < hi - lo + 1) && bit w (lo + i)) := by
  unfold bits fld bit
  rw [Nat.testBit_mod_two_pow, Nat.testBit_shiftRight, BitVec.testBit_toNat]

/-- Bit `i` of a word whose field [hi:lo] was set. -/
theorem bit_setBits (w : W32) {hi lo : Nat} (v i : Nat) (hlo : lo ≤ hi) (hi' : hi < 32) :
    bit (setBits w hi lo v) i = if lo ≤ i ∧ i ≤ hi then v.testBit (i - lo) else bit w i := by
  by_cases hw : i < 32
  · unfold setBits maskOf bit w32
    simp only [BitVec.getLsbD_or, BitVec.getLsbD_and, BitVec.getLsbD_not, BitVec.getLsbD_ofNat, Nat.testBit_shiftLeft,
      Nat.testBit_two_pow_sub_one, Nat.testBit_mod_two_pow, hw, decide_true, Bool.true_and]
    by_cases h1 : lo ≤ i
    · by_cases h2 : i ≤ hi
      · simp [h1, h2, show i - lo < hi - lo + 1 by omega]
      · simp [h1, h2, show ¬i - lo < hi - lo + 1 by omega]
    · simp [h1]
  · have low : ∀ x : W32, bit x i = false := fun x => BitVec.getLsbD_of_ge x i (by omega)
    rw [low, low, if_neg (by omega)]

/-- A field reads as it was set. -/
theorem bits_setBits (w : W32) {hi lo : Nat} (v : Nat) (hlo : lo ≤ hi) (hi' : hi < 32) :
    bits (setBits w hi lo v) hi lo = v % 2 ^ (hi - lo + 1) := by
  refine Nat.eq_of_testBit_eq fun i => ?_
  rw [testBit_bits, bit_setBits w v _ hlo hi', Nat.testBit_mod_two_pow, Nat.add_sub_cancel_left]
  by_cases h : i < hi - lo + 1
  · rw [if_pos (by omega)]
  · simp [h]

end Sys2Proof.Machine
end

section
/-! PROOF. Header writes and the row table (R35, R36, R494, R603, R738). -/

namespace Sys2Proof.Machine

/-! ### Injections taken (R603) -/

/-- Taking an injection changes no word but _INJECT of its page and the count of corrected words. -/
theorem rg_injTake (d : Dev) (base : Nat) (w : Bool) {a : Nat} (h : a ≠ base + oINJECT) (hc : a ≠ Adr.MEI_CNT_CE) :
    rg (injTake d base w).2 a = rg d a := by
  unfold injTake
  dsimp only
  split
  · rfl
  · dsimp only
    split
    · rw [rg_inc, if_neg hc, rg_wr_ne _ _ h]
    · rw [rg_wr_ne _ _ h]

/-! ### Header words (R494, R603, R738) -/

theorem vectorLevel_congr {d e : Dev} (h : e.regs = d.regs) (v : Nat) : vectorLevel e v = vectorLevel d v := by
  unfold vectorLevel
  simp only [rg_congr h]

/-- A vector that PCIe does not hold back sends while the link is up (R494). -/
theorem sendMsix_unmasked {d : Dev} {v : Nat} (hm : msixMasked d v = false) (hup : d.hlk.up = true) :
    sendMsix d v = emit d (.msix v) := by
  unfold sendMsix
  rw [hm, hup]
  rfl

theorem evtPendWrite_regs (d : Dev) (base : Nat) (v : W32) :
    (evtPendWrite d base v).regs = (wr d (base + oEVTPEND) (rg d (base + oEVTPEND) &&& ~~~v)).regs := by
  unfold evtPendWrite
  dsimp only
  split
  · exact sendMsix_regs _ _
  · rfl

/-- A write of _EVT_PEND that leaves the vector's level at 1 sends its message. -/
theorem msix_mem_evtPendWrite {d : Dev} {base : Nat} {v : W32} (hl : vectorLevel (evtPendWrite d base v) (vecOf base) = true)
    (hm : msixMasked d (vecOf base) = false) (hup : d.hlk.up = true) : .msix (vecOf base) ∈ (evtPendWrite d base v).outs := by
  rw [vectorLevel_congr (evtPendWrite_regs d base v)] at hl
  unfold evtPendWrite
  dsimp only
  rw [if_pos hl, sendMsix_unmasked]
  · exact List.mem_cons_self
  · exact hm
  · exact hup

theorem does_evtPendWrite {s : State} {req : Req} {p : Page} {n : Nat} (v : W32) {P : Dev → Prop}
    (hn : pageOf (p.base n) = some (p, n)) (hacc : acc s.dev req (p.base n + oEVTPEND) = true)
    (h : P (drive (evtPendWrite s.dev (p.base n) v))) : Does (.evtPendWrite req (p.base n) v) s P := by
  refine ⟨_, rfl, rfl, ?_⟩
  simp only [hn, if_true, write, hacc]
  exact h

/-- On a page with a protected memory _INJECT stores MODE and WHICH (R603). -/
theorem injectWrite_eq {d : Dev} {p : Page} {n : Nat} (hp : p.hasInject = true) (v : W32) :
    injectWrite d p n v = wr d (p.base n + oINJECT) (v &&& 0x17) := by
  unfold injectWrite
  cases p with
  | ver | muz => exact absurd hp (by decide)
  | _ => exact if_pos hp

theorem does_inject {s : State} {req : Req} {p : Page} {n : Nat} {v : W32} {P : Dev → Prop}
    (hn : pageOf (p.base n) = some (p, n)) (hp : p.hasInject = true) (hacc : acc s.dev req (p.base n + oINJECT) = true)
    (h : P (drive (wr s.dev (p.base n + oINJECT) (v &&& 0x17)))) : Does (.inject req (p.base n) v) s P := by
  refine ⟨_, rfl, rfl, ?_⟩
  simp only [hn, if_true, write, hacc, injectWrite_eq hp]
  exact h

/-! ### The row table (R35, R36) -/

/-- The write of a ROW_DELAY word that the requester reaches: the table's memory takes an injection, then the word is stored. -/
theorem busWrite_rowDelay {d : Dev} {req : Req} {r : Nat} (hr : r < 512) (hacc : acc d req (Adr.ROW_DELAY r) = true) (v : W32) :
    busWrite d req (Adr.ROW_DELAY r) v = rowDelay (injTake d (Page.exp.base 0) true).2 (Adr.ROW_DELAY r) v := by
  unfold Adr.ROW_DELAY at hacc ⊢
  have hw : inWindow (0x1300000 + 4 * r) = true := by
    unfold inWindow
    rw [decide_eq_true_eq]
    omega
  have hu : windowUsed (0x1300000 + 4 * r) = true := by
    unfold windowUsed
    rw [if_neg (by omega), if_neg (by omega), if_neg (by omega), if_pos (by omega), decide_eq_true_eq]
    omega
  unfold busWrite
  rw [if_neg (by omega), if_pos hw, if_pos hacc]
  unfold windowWrite Adr.ROW_GEOM
  rw [hu, Bool.not_true, if_neg Bool.false_ne_true, if_neg (by omega), if_neg (by omega), if_neg (by omega), if_pos (by omega)]
  dsimp only
  rw [if_pos (by omega)]

/-- What a row's delay changes: its word, and DMAX, which is shown as busy (R36). -/
theorem rg_rowDelay (d : Dev) (a : Nat) (v : W32) (b : Nat) :
    rg (rowDelay d a v) b = if b = Adr.GEOM_DMAX then w32 (2 ^ 31 + (takeFree d).1.toNat % 16384)
      else if b = a then v &&& 0x3FFF else rg d b := by
  unfold rowDelay
  dsimp only
  rw [rg_wr, rg_wr, rg_takeFree]
  rfl

theorem le_foldl_max {α : Type} (f : α → Nat) (l : List α) (m : Nat) :
    m ≤ l.foldl (fun m r => max m (f r)) m ∧ ∀ r ∈ l, f r ≤ l.foldl (fun m r => max m (f r)) m := by
  induction l generalizing m with
  | nil => exact ⟨Nat.le_refl m, by simp⟩
  | cons x l ih =>
    obtain ⟨h, hl⟩ := ih (max m (f x))
    refine ⟨Nat.le_trans (Nat.le_max_left _ _) h, fun r hr => ?_⟩
    rcases List.mem_cons.1 hr with rfl | hr
    · exact Nat.le_trans (Nat.le_max_right _ _) h
    · exact hl r hr

theorem foldl_max_attained {α : Type} (f : α → Nat) (l : List α) (m : Nat) :
    l.foldl (fun m r => max m (f r)) m = m ∨ ∃ r ∈ l, l.foldl (fun m r => max m (f r)) m = f r := by
  induction l generalizing m with
  | nil => exact .inl rfl
  | cons x l ih =>
    rcases ih (max m (f x)) with h | ⟨r, hr, h⟩
    · rcases Nat.le_total m (f x) with hx | hx
      · exact .inr ⟨x, List.mem_cons_self, h.trans (Nat.max_eq_right hx)⟩
      · exact .inl (h.trans (Nat.max_eq_left hx))
    · exact .inr ⟨r, List.mem_cons_of_mem _ hr, h⟩

/-- DMAX bounds every row's delay (R35). -/
theorem le_delayMax (d : Dev) {r : Nat} (h : r < 512) : fd d (Adr.ROW_DELAY r) 13 0 ≤ delayMax d :=
  (le_foldl_max (fun r => fd d (Adr.ROW_DELAY r) 13 0) (List.range 512) 0).2 r (List.mem_range.2 h)

/-- DMAX is the delay of a row (R35). -/
theorem delayMax_attained (d : Dev) : ∃ r < 512, delayMax d = fd d (Adr.ROW_DELAY r) 13 0 := by
  rcases foldl_max_attained (fun r => fd d (Adr.ROW_DELAY r) 13 0) (List.range 512) 0 with h | ⟨r, hr, h⟩
  · have h0 := le_delayMax d (r := 0) (by decide)
    refine ⟨0, by decide, ?_⟩
    unfold delayMax at h0 ⊢
    omega
  · exact ⟨r, List.mem_range.1 hr, h⟩

theorem delayMax_lt (d : Dev) : delayMax d < 2 ^ 14 := by
  obtain ⟨r, -, h⟩ := delayMax_attained d
  rw [h]
  exact Nat.mod_lt _ (by decide)

/-- Settles O32: each command comes down to a store of one word, but for the message of a vector and the open value that DMAX shows
while it is busy. -/
theorem headerWritesAndTheRowTable : Obligations.HeaderWritesAndTheRowTable := by
  unfold Obligations.HeaderWritesAndTheRowTable
  refine ⟨fun s req p n v hn hacc => ?pend, fun s req p n v hn hp hacc => ?inject, fun s req r v hr hacc => ?delay,
    fun s hbusy => ?dmax⟩
  case pend =>
    refine does_evtPendWrite v hn hacc ⟨?_, fun hl hm hup => ?_⟩
    · rw [rg_drive, rg_congr (evtPendWrite_regs _ _ _), rg_wr_self]
    · rw [vectorLevel_congr (drive_regs _)] at hl
      exact mem_drive_outs (msix_mem_evtPendWrite hl hm hup)
  case inject =>
    refine does_inject hn hp hacc ⟨?_, fun a ha => ?_⟩
    · rw [rg_drive, rg_wr_self]
    · rw [rg_drive, rg_wr_ne _ _ ha]
  case delay =>
    refine does_of_run (f := fun d => if r < 512 then busWrite d req (Adr.ROW_DELAY r) v else d) rfl ?_
    simp only [if_pos hr, busWrite_rowDelay hr hacc, rg_drive, rg_rowDelay]
    unfold Adr.ROW_DELAY Adr.GEOM_DMAX
    refine ⟨?_, ?_, fun k hk hne => ?_⟩
    · rw [if_neg (by omega), if_pos trivial]
    · rw [if_pos trivial, bit_w32 (by decide), Nat.testBit_two_pow_add_eq, Nat.testBit_lt_two_pow (by omega)]
      rfl
    · rw [if_neg (by omega), if_neg (by omega), rg_injTake _ _ _ (by simp only [Page.base, oINJECT]; omega) (by unfold Adr.MEI_CNT_CE; omega)]
  case dmax =>
    refine does_of_run (f := dmaxDone) rfl ?_
    have lt := delayMax_lt s.dev
    have word : rg (drive (dmaxDone s.dev)) Adr.GEOM_DMAX = w32 (delayMax s.dev) := by
      unfold dmaxDone
      rw [if_pos hbusy, rg_drive, rg_wr_self]
    have field : fd (drive (dmaxDone s.dev)) Adr.GEOM_DMAX 13 0 = delayMax s.dev := by
      unfold fd
      rw [word, bits_w32 _ (by omega), Nat.mod_eq_of_lt lt]
    refine ⟨?_, fun r hr => ?_, ?_⟩
    · rw [word, bit_w32 (by decide), Nat.testBit_lt_two_pow (by omega)]
    · rw [field]
      exact le_delayMax s.dev hr
    · rw [field]
      exact delayMax_attained s.dev

end Sys2Proof.Machine
end

section
/-! SUPPORT. Messages of the plate that arrive in turn, and where the words lie that taking an acknowledgement or the response to an
error can change (R63, R377, R378, R606). -/

namespace Sys2Proof.Machine

/-- Where the words lie that the response to an error can change: in pages below the controllers', in those of EXP and MUZ, or in an
_INJECT. -/
theorem errWord_place {a : Nat} (h : ErrWord a) : a < 0xB0400 ∨ (0x130000 ≤ a ∧ a < 0x132000) ∨ a % 0x1000 = 0x30 := by
  by_cases inj : ∃ p, a = Page.mc.base p + oINJECT
  · obtain ⟨p, rfl⟩ := inj
    simp only [Page.base, oINJECT]
    omega
  · unfold ErrWord at h
    simp only [inj, or_false] at h
    simp only [Page.base, Adr.FCL_CNT, Adr.FCL_FIRST, Adr.FCL_FIRST_S, Adr.FCL_FIRST_NS, Adr.MEI_CNT_CE, Adr.MUZ_CNT,
      Adr.BOB_MEND_WR, Adr.EXP_HWM, Adr.GLB_SEAL_INDEX, Adr.GLB_SEAL_WR, Adr.GLB_SEAL_STAT, oEVTPEND, oERRLATCH, oINFO0, oINFO1,
      oINJECT] at h
    omega

/-- A message to translate that arrives in turn, with none buffered and GLR not waiting, is translated at once (R63, R377). -/
theorem glrTake_next {d : Dev} {n q : Nat} {i : Instr} (h : NextMsg d n q) (hbuf : d.glr.buf = []) (hw : glrWaits d i = false) :
    glrTake d n q i = ackTake (translate (setGlr d fun g => { g with rxNext := (q + 1) % 65536 }) i) := by
  have hw' : glrWaits (setGlr d fun g => { g with rxNext := (q + 1) % 65536 }) i = false := hw
  unfold glrTake
  rw [rxMsg_next h]
  simp [hbuf, hw']

end Sys2Proof.Machine
end

section
/-! PROOF. The end of a map with NEXT_SLOT beyond the nine slots (R288, R383). -/

namespace Sys2Proof.Machine

/-- The wire positions, or by a remap the beams, that the parts of a map report dead (R383). -/
def partsDead (f : Nat → Nat) (parts : List (Nat × Nat)) : List Nat :=
  parts.flatMap fun p => ((List.range 8192).filter fun b => p.2.testBit b).map fun b => f (8192 * p.1 + b)

/-- Sixty-four parts of a map without a dead beam. -/
def blankParts : List (Nat × Nat) := List.replicate 64 (0, 0)

theorem blankParts_dead (f : Nat → Nat) : partsDead f blankParts = [] := by
  refine List.flatMap_eq_nil_iff.2 fun p hp => ?_
  rw [List.eq_of_mem_replicate hp]
  simp

/-- A complete and correct map without a dead beam, of a link not TAGGED, goes to NEXT_SLOT and does nothing else (R383, R388). -/
theorem glrDbmEnd_blank {d : Dev} {crc : Nat} (hparts : d.glr.parts = blankParts) (hst : d.glr.st ≠ 7)
    (hcrc : crc32c (blankParts.flatMap fun p => leBytes 1024 p.2) = crc) :
    glrDbmEnd d 0 crc = dbmAddMap (setGlr d fun g => { g with parts := [], dbmAsked := false }) [] := by
  have dead : (d.glr.parts.flatMap fun p => ((List.range 8192).filter fun b => p.2.testBit b).map fun b => 8192 * p.1 + b) = [] :=
    hparts ▸ blankParts_dead id
  have st : (dbmAddMap (setGlr d fun g => { g with parts := [], dbmAsked := false }) []).glr.st = d.glr.st := by
    unfold dbmAddMap
    split <;> rfl
  unfold glrDbmEnd
  dsimp only
  rw [dead, hparts, if_pos ⟨rfl, rfl, hcrc⟩]
  simp only [List.map_nil, List.foldl_nil]
  rw [if_neg (st ▸ hst)]

/-- A map that goes to NEXT_SLOT with no other word listed leaves every word of the slot as reset gives it. -/
theorem rg_dbmAddMap_nil {d : Dev} (hcopy : d.stc.dbm.copying = false) (hregs : d.regs = []) (a : Nat) :
    rg (dbmAddMap d []) a = w32 (wordReset a) := by
  have regs : (dbmAddMap d []).regs = [] := by
    unfold dbmAddMap
    rw [hcopy]
    change d.regs.filter _ = []
    rw [hregs]
    rfl
  unfold rg
  rw [regs]
  rfl

/-- The block at reset but for a link in bring-up whose lanes are live, those parts, and NEXT_SLOT at 31, of which the block has
none (R288). -/
def strayMap : State :=
  { dev := { glr := { st := 4, lanes := List.replicate 52 { live := true }, parts := blankParts }
             stc := { dbm := { nextSlot := 31 } } }
    pending := [] }

theorem strayMap_next : NextMsg strayMap.dev 48 0 := by
  unfold NextMsg
  decide

/-- After the end of that map, slot 31 lies where ALT's grid memory begins, whose first word is 40000000h by reset (R159). -/
theorem rg_strayMap_end {crc : Nat} (hcrc : crc32c (blankParts.flatMap fun p => leBytes 1024 p.2) = crc) :
    rg (drive (glrTake strayMap.dev 48 0 (.dbmEnd 48 0 0 crc))) (Adr.DBM_BITS 31 0) = 0x40000000 := by
  have outside : ¬ErrWord (Adr.DBM_BITS 31 0) := fun h => absurd (errWord_place h) (by decide)
  rw [rg_drive, glrTake_next strayMap_next rfl rfl, rg_ackTake _ _ outside]
  unfold translate
  dsimp only
  rw [glrDbmEnd_blank (hcrc := hcrc), rg_dbmAddMap_nil]
  · decide
  · rfl
  · rfl
  · rfl
  · decide

/-- Refutes O11: the statement is of every state, and nothing in it keeps NEXT_SLOT below 9. With NEXT_SLOT at 31 the end of a map
without a dead beam leaves bit 30 of the slot's first word set. -/
theorem not_plateMessagesHaveTheirEffect : ¬ Obligations.PlateMessagesHaveTheirEffect := by
  unfold Obligations.PlateMessagesHaveTheirEffect
  intro h
  obtain ⟨-, -, -, -, -, mapEnd, -⟩ := h
  obtain ⟨t, ht, -, -, -, -, slot, -⟩ := mapEnd strayMap 48 0 strayMap_next rfl (by decide) (by decide)
  obtain ⟨-, -, beams⟩ := slot rfl
  have none : (strayMap.dev.glr.parts.flatMap fun p => ((List.range 8192).filter fun b => p.2.testBit b).map fun b =>
      remapBeam strayMap.dev (8192 * p.1 + b)) = [] := blankParts_dead _
  rw [none] at ht beams
  obtain rfl := Host.Outcome.next.inj ht
  have word := rg_strayMap_end rfl
  have beam := (beams 30 (by decide)).1
  refine List.not_mem_nil (beam ?_)
  exact (congrArg (bit · 30) word).trans (by decide)

end Sys2Proof.Machine
end

section
/-! SUPPORT. The response to an error once more, for any relation of two states that its elementary changes keep (R434, R606 to R617):
it writes no word of a table window beyond 1000000h, and while no stripe runs it changes nothing of EXP but HALTED and the swap's
work. -/

namespace Sys2Proof.Machine

/-- `e` has the words of `d` in the table windows from 1000000h on (R734). -/
def WindowsStand (d e : Dev) : Prop := ∀ a, 0x1000000 ≤ a → rg e a = rg d a

/-- What a relation must keep to hold of the response to an error: words below the windows, typed state beside EXP with HALTED and the
swap's work, and, while a stripe runs, all typed state. -/
structure ErrWalk (R : Dev → Dev → Prop) : Prop where
  trans : ∀ {d e f}, R d e → R e f → R d f
  word : ∀ {d a} v, a < 0x1000000 → R d (wr d a v)
  plain : ∀ {d e : Dev} {h w}, e.regs = d.regs → e.exp = { d.exp with halted := h, swapWork := w } → R d e
  running : ∀ {d e : Dev}, d.exp.run ≠ none → WindowsStand d e → R d e

theorem windowsStand_walk : ErrWalk WindowsStand where
  trans h k a ha := (k a ha).trans (h a ha)
  word v h a ha := rg_wr_ne _ v (by omega)
  plain hr _ a _ := rg_congr hr a
  running _ h := h

namespace ErrWalk

variable {R : Dev → Dev → Prop} (w : ErrWalk R)
include w

theorem same {d e : Dev} (hr : e.regs = d.regs) (he : e.exp = d.exp) : R d e :=
  w.plain (h := d.exp.halted) (w := d.exp.swapWork) hr he

theorem refl (d : Dev) : R d d := w.same rfl rfl

/-- The later part first. -/
theorem after {d e f : Dev} (k : R e f) (h : R d e) : R d f := w.trans h k

omit w in
theorem ite {d e f : Dev} {c : Prop} [Decidable c] (h : R d e) (k : R d f) : R d (if c then e else f) := by
  split
  · exact h
  · exact k

theorem foldl {α : Type} {f : Dev → α → Dev} (h : ∀ d x, R d (f d x)) (l : List α) (d : Dev) : R d (l.foldl f d) := by
  induction l generalizing d with
  | nil => exact w.refl d
  | cons x l ih => exact w.trans (h d x) (ih _)

theorem inc (d : Dev) {a : Nat} (h : a < 0x1000000) : R d (inc d a) := w.word _ h

theorem evt (d : Dev) {base : Nat} (b : Nat) (h : base < 0x200000) : R d (evt d base b) := by
  refine w.trans (w.word (a := base + oEVTPEND) (putBit (rg d (base + oEVTPEND)) b true) (by unfold oEVTPEND; omega)) (w.same ?_ (evt_exp ..))
  unfold Machine.evt
  dsimp only
  split
  · exact sendMsix_regs _ _
  · rfl

theorem injTake (d : Dev) {base : Nat} (onWrite : Bool) (h : base < 0x200000) : R d (injTake d base onWrite).2 := by
  unfold Machine.injTake
  dsimp only
  split
  · exact w.refl d
  · exact w.after (ErrWalk.ite (w.inc _ (by decide)) (w.refl _)) (w.word _ (by unfold oINJECT; omega))

/-! ### The bobbin and the mending list -/

theorem hbmInjWrite (d : Dev) (da : Nat) : R d (hbmInjWrite d da) := by
  have pc : pcOf d da < 2 ^ 7 := Nat.mod_lt _ (by decide)
  have taken := w.injTake d (base := Page.mc.base (pcOf d da / 2)) true (by simp only [Page.base]; omega)
  unfold Machine.hbmInjWrite
  dsimp only
  refine ErrWalk.ite taken (w.trans taken ?_)
  split <;> split <;> exact w.same rfl rfl

theorem hbmWrite (d : Dev) (da : Nat) (l : List Byte) : R d (hbmWrite d da l) := by
  unfold Machine.hbmWrite
  dsimp only
  exact ErrWalk.ite (w.after (w.hbmInjWrite _ _) (w.same rfl rfl)) (w.same rfl rfl)

theorem mendStore (d : Dev) (e : MEnt) : R d (mendStore d e) := w.after (w.word _ (by decide)) (w.hbmWrite ..)

theorem putEnt (d : Dev) (e : MEnt) : R d (putEnt d e) := by
  have waits : R d { d with bob := { d.bob with waitq := d.bob.waitq ++ [e] } } := w.same rfl rfl
  exact ErrWalk.ite (w.mendStore d e) (ErrWalk.ite (w.after (w.evt _ _ (by decide)) waits) waits)

/-! ### The muzzle -/

theorem muzBegin (d : Dev) : R d (muzBegin d) :=
  w.after (w.evt _ _ (by decide)) (w.after (w.inc _ (by decide)) (w.same rfl rfl))

theorem muzEnd (d : Dev) : R d (muzEnd d) := w.after (w.evt _ _ (by decide)) (w.same rfl rfl)

theorem muzUpdate (d : Dev) : R d (muzUpdate d) :=
  ErrWalk.ite (ErrWalk.ite (w.refl d) (w.muzEnd d)) (ErrWalk.ite (w.muzBegin d) (w.refl d))

theorem muzMoment (d : Dev) : R d (muzMoment d) := by
  have blink := w.trans (w.muzBegin d) (w.muzUpdate _)
  exact ErrWalk.ite (w.refl d) (ErrWalk.ite (w.same rfl rfl)
    (ErrWalk.ite blink (w.trans blink (w.same (emitAll_regs _ _) (emitAll_exp _ _)))))

/-! ### The end of a stripe -/

theorem stripeBoundary (d : Dev) : R d (stripeBoundary d) := by
  unfold Machine.stripeBoundary
  split
  · exact w.refl d
  · exact ErrWalk.ite (w.after (w.evt _ _ (by decide)) (w.plain (h := d.exp.halted) (w := true) rfl rfl)) (w.refl d)

theorem sealOne (d : Dev) (e : Ended) (u : Bool) : R d (sealOne d e u) := by
  have words (x y : W32) : R d (wr (wr (wr d Adr.GLB_SEAL_INDEX e.index) Adr.GLB_SEAL_WR x) Adr.GLB_SEAL_STAT y) :=
    w.after (w.word _ (by decide)) (w.after (w.word _ (by decide)) (w.word _ (by decide)))
  have put (d : Dev) (g : Glb) : R d { d with glb := g } := w.same rfl rfl
  unfold Machine.sealOne
  dsimp only
  exact w.after (w.evt _ _ (by decide)) (ErrWalk.ite (words _ _) (w.after (put _ _) (words _ _)))

theorem sealCheck (d : Dev) : R d (sealCheck d) := by
  have one (d : Dev) (e : Ended) :
      R d (Machine.sealOne { d with glr := { d.glr with ended := d.glr.ended.filter fun x => x != e } } e e.down) :=
    w.after (w.sealOne _ _ _) (w.same rfl rfl)
  unfold Machine.sealCheck
  exact w.foldl (fun d e => ErrWalk.ite (one d e) (w.refl d)) _ d

end ErrWalk

/-! ### Stripes cut short -/

theorem closeCover_windowsStand (d : Dev) (r : Run) (f : Nat) : WindowsStand d (closeCover d r f) := by
  have w := windowsStand_walk
  have one (d : Dev) (s : Option Nat) (c : Nat) : WindowsStand d (match s with
      | some a => if a < f && !r.refused then putEnt d (mkEnt d .exp r.tkt c 2 (w32 a) (w32 (f - 1))) else d
      | none => d) := by
    split
    · exact ErrWalk.ite (w.putEnt _ _) (w.refl d)
    · exact w.refl d
  exact w.after (w.same rfl rfl) (w.trans (w.trans (one _ _ _) (one _ _ _)) (one _ _ _))

theorem endStripe_windowsStand (d : Dev) (r : Run) : WindowsStand d (endStripe d r) := by
  have w := windowsStand_walk
  refine w.after (w.sealCheck _) (w.after (w.stripeBoundary _) (w.after (w.evt _ _ (by decide)) ?_))
  exact w.trans (w.trans (closeCover_windowsStand d r r.shots) (w.word (a := Adr.EXP_HWM) _ (by decide))) fun a _ => rg_congr rfl a

theorem ErrWalk.abortFrom {R : Dev → Dev → Prop} (w : ErrWalk R) (d : Dev) (c f : Option Nat) : R d (abortFrom d c f) := by
  unfold Machine.abortFrom
  split
  · exact w.refl d
  · next r hr =>
    have v := windowsStand_walk
    have sent : ∀ (l : List (Nat × Hist)) (d : Dev),
        WindowsStand d (l.foldl (fun d h => if d.glr.st < 6 then d else sendCommit d false h.2.lseq) d) :=
      v.foldl fun d x => ErrWalk.ite (v.refl d) (v.same rfl rfl)
    refine w.running (by rw [hr]; exact Option.some_ne_none r) (v.after (endStripe_windowsStand _ r) ?_)
    split
    · exact v.trans (sent _ d) (ErrWalk.ite (v.putEnt _ _) (v.refl _))
    · exact sent _ d

namespace ErrWalk

variable {R : Dev → Dev → Prop} (w : ErrWalk R)
include w

/-! ### Fault collection -/

theorem fclLog (d : Dev) (s i l b : Nat) : R d (fclLog d s i l b) :=
  ErrWalk.ite (w.same rfl rfl) (ErrWalk.ite (w.after (w.evt _ _ (by decide)) (w.same rfl rfl)) (w.same rfl rfl))

theorem fclFirst (d : Dev) (s i l b : Nat) : R d (fclFirst d s i l b) :=
  ErrWalk.ite (w.refl d) (w.after (w.word _ (by decide)) (w.after (w.word _ (by decide)) (w.word _ (by decide))))

theorem halt (d : Dev) : R d (halt d) := w.plain (h := true) (w := d.exp.swapWork) rfl rfl

theorem sevStop (d : Dev) : R d (sevStop d) := w.after (w.halt _) (w.after (w.abortFrom _ _ _) (w.muzMoment d))

theorem sevHalt (d : Dev) : R d (sevHalt d) :=
  w.after (w.halt _) (w.after (w.abortFrom _ _ _) (w.after (w.muzUpdate _) (w.same rfl rfl)))

theorem fclAct (d : Dev) (s i b : Nat) : R d (fclAct d s i b) := by
  have ev (d : Dev) (n l k : Nat) : R d (if n ≤ l then Machine.evt d (Page.fcl.base 0) k else d) :=
    ErrWalk.ite (w.evt _ _ (by decide)) (w.refl d)
  have track (d : Dev) (c : Prop) [Decidable c] : R d (if c then { d with muz := { d.muz with track := true } } else d) :=
    ErrWalk.ite (w.same rfl rfl) (w.refl d)
  have stop (d : Dev) (l : Nat) : R d (if l = 2 then Machine.sevStop d else if 3 ≤ l then Machine.sevHalt d else d) :=
    ErrWalk.ite (w.sevStop d) (ErrWalk.ite (w.sevHalt d) (w.refl d))
  exact w.after (stop _ _) (w.after (track _ _) (w.after (ev _ 3 _ _) (w.after (ev _ 2 _ _) (w.after (ev _ 1 _ _)
    (w.after (w.fclLog _ _ _ _ _) (w.after (w.fclFirst _ _ _ _ _) (w.after (w.inc _ (by decide)) (w.same rfl rfl))))))))

theorem errSet (d : Dev) {base : Nat} (b : Nat) (i0 i1 : W32) (h : base < 0x200000) : R d (errSet d base b i0 i1).2 := by
  unfold Machine.errSet
  dsimp only
  have latch (v : W32) : R d (wr d (base + oERRLATCH) v) := w.word v (by unfold oERRLATCH; omega)
  split
  · exact latch _
  · refine w.trans (latch _) (ErrWalk.ite ?_ (w.refl _))
    have info (e : Dev) : R e (wr (wr e (base + oINFO0) i0) (base + oINFO1) i1) :=
      w.after (w.word _ (by unfold oINFO1; omega)) (w.word _ (by unfold oINFO0; omega))
    exact w.trans (info _) (w.same rfl rfl)

theorem sevUe (d : Dev) (s : Nat) : R d (sevUe d s) :=
  w.after (w.fclAct _ _ _ _) (w.after (w.errSet _ _ _ _ (by decide)) (w.same rfl rfl))

theorem fclTake (d : Dev) (s i b : Nat) : R d (fclTake d s i b) :=
  w.after (w.fclAct _ _ _ _) (w.after (ErrWalk.ite (w.sevUe _ _) (w.refl _)) (w.injTake d _ (by decide)))

theorem err (d : Dev) {base : Nat} (b : Nat) (i0 i1 : W32) (h : base < 0x200000) : R d (err d base b i0 i1) := by
  refine w.trans (w.errSet d b i0 i1 h) ?_
  unfold Machine.err
  dsimp only
  split
  · split
    · exact w.refl _
    · exact w.fclTake _ _ _ _
  · exact w.refl _

end ErrWalk

end Sys2Proof.Machine
end

section
/-! PROOF. Tickets: words, records, the queue, WAKE and PACE (R39, R443 to R445, R448, R450, R451). -/

namespace Sys2Proof.Machine

/-! ### EXP while no stripe runs -/

/-- If no stripe runs in `d`, EXP of `e` is that of `d` but for HALTED and the swap's work. -/
def ExpRests (d e : Dev) : Prop := d.exp.run = none → ∃ h w, e.exp = { d.exp with halted := h, swapWork := w }

theorem expRests_walk : ErrWalk ExpRests where
  trans h k hd := by
    obtain ⟨x, y, hx⟩ := h hd
    obtain ⟨u, v, hu⟩ := k (by rw [hx]; exact hd)
    exact ⟨u, v, by rw [hu, hx]⟩
  word _ _ _ := ⟨_, _, rfl⟩
  plain _ he _ := ⟨_, _, he⟩
  running hd _ h := absurd h hd

/-! ### Words and records (R443) -/

theorem tktWord_short {d : Dev} (h : d.exp.words.length < 7) (v : W32) :
    (tktWord d v).exp = { d.exp with words := d.exp.words ++ [v] } := by
  unfold tktWord
  dsimp only
  rw [if_pos (by rw [List.length_append, List.length_singleton]; omega)]
  rfl

/-- The eighth word completes the record. -/
theorem tktWord_eighth {d : Dev} (h : ¬d.exp.words.length < 7) (v : W32) :
    (tktWord d v).exp = { d.exp with words := [], arriving := d.exp.arriving ++ [d.exp.words ++ [v]] } := by
  unfold tktWord
  dsimp only
  rw [if_neg (by rw [List.length_append, List.length_singleton]; omega)]
  rfl

/-! ### A record becomes a ticket (R444) -/

/-- What a ticket's acceptance moves: the records arriving, the count of tickets, the queue, and STC's tickets to begin. -/
def Dev.tickets (d : Dev) : List (List W32) × Nat × List Tkt × List Tkt :=
  (d.exp.arriving, d.exp.count, d.exp.queue, d.stc.todo)

/-- The response to an error moves no ticket while no stripe runs. -/
theorem err_tickets {d : Dev} (h : d.exp.run = none) {base : Nat} (b : Nat) (i0 i1 : W32) (hb : base < 0x200000) :
    (err d base b i0 i1).tickets = d.tickets := by
  obtain ⟨x, y, hexp⟩ := expRests_walk.err d b i0 i1 hb h
  have htodo : (err d base b i0 i1).errRest.stc.todo = d.errRest.stc.todo := congrArg (fun e : Dev => e.stc.todo) (err_errRest d base b i0 i1)
  change (err d base b i0 i1).stc.todo = d.stc.todo at htodo
  unfold Dev.tickets
  rw [hexp, htodo]

/-- Taking an injection changes words only. -/
theorem injTake_rest (d : Dev) (base : Nat) (w : Bool) : (injTake d base w).2 = { d with regs := (injTake d base w).2.regs } := by
  unfold injTake
  dsimp only
  split
  · rfl
  · dsimp only
    split <;> rfl

theorem stripeBoundary_tickets (d : Dev) : (stripeBoundary d).tickets = d.tickets := by
  unfold stripeBoundary Dev.tickets
  split
  · rfl
  · split
    · simp only [evt_exp, evt_stc]
    · rfl

/-- A stripe boundary announces at most a swap, on the page of GLB. -/
theorem rg_stripeBoundary (d : Dev) {a : Nat} (h : a ≠ Page.glb.base 0 + oEVTPEND) : rg (stripeBoundary d) a = rg d a := by
  unfold stripeBoundary
  split
  · rfl
  · split
    · exact rg_evt_ne _ _ _ h
    · rfl

/-- What EXP does with a record it has taken is announced, and its swap may then begin; neither moves a ticket. -/
theorem announce_tickets (d : Dev) (idle : Prop) [Decidable idle] :
    (if idle then stripeBoundary (expEvt d Bit.evt_EXP_ACCEPTED) else expEvt d Bit.evt_EXP_ACCEPTED).tickets = d.tickets := by
  have event : (expEvt d Bit.evt_EXP_ACCEPTED).tickets = d.tickets := by
    unfold expEvt Dev.tickets
    simp only [evt_exp, evt_stc]
  split
  · exact (stripeBoundary_tickets _).trans event
  · exact event

theorem announce_pends (d : Dev) (idle : Prop) [Decidable idle] :
    pends (if idle then stripeBoundary (expEvt d Bit.evt_EXP_ACCEPTED) else expEvt d Bit.evt_EXP_ACCEPTED)
      (Page.exp.base 0) Bit.evt_EXP_ACCEPTED = true := by
  have event : pends (expEvt d Bit.evt_EXP_ACCEPTED) (Page.exp.base 0) Bit.evt_EXP_ACCEPTED = true := by
    unfold pends expEvt
    rw [rg_evt, if_pos rfl, bit_putBit _ _ _ _ (by decide), if_pos rfl]
  split
  · unfold pends
    rw [rg_stripeBoundary _ (by decide)]
    exact event
  · exact event

/-- The checks of the ticket's mending set latch an error at most (R560, R748). -/
theorem checked_tickets {d : Dev} (h : d.exp.run = none) (bad lost : Bool) (t : Tkt) :
    (if bad then expTktErr d Bit.err_EXP_MEND_SET_BAD t else if lost then expTktErr d Bit.err_EXP_MEND_GEN_LOST t
      else d).tickets = d.tickets := by
  unfold expTktErr
  split
  · exact err_tickets h _ _ _ (by decide)
  · split
    · exact err_tickets h _ _ _ (by decide)
    · rfl

/-- The oldest record becomes the last ticket, which EXP_ACCEPTED announces (R39, R444). -/
theorem tktAccept_of_arriving {d : Dev} {w : List W32} {rest : List (List W32)} (ha : d.exp.arriving = w :: rest)
    (hq : d.exp.queue.length < 4) (hr : d.exp.run = none) :
    (∃ t, (tktAccept d).tickets = (rest, d.exp.count + 1, d.exp.queue ++ [t], d.stc.todo ++ [t]) ∧
      t.index = nth w 0 0 ∧ t.slotB = bit (nth w 1 0) 2 ∧ t.len = bits (nth w 5 0) 23 0 ∧ t.dmax = fd d Adr.GEOM_DMAX 13 0) ∧
    pends (tktAccept d) (Page.exp.base 0) Bit.evt_EXP_ACCEPTED = true := by
  unfold tktAccept
  rw [ha]
  dsimp only
  rw [if_neg (by omega)]
  generalize hrej : (_ || _ : Bool) = rej
  have rests : (injTake d (Page.exp.base 0) false).2 = { d with regs := (injTake d (Page.exp.base 0) false).2.regs } :=
    injTake_rest ..
  have hexp : (injTake d (Page.exp.base 0) false).2.exp = d.exp := by rw [rests]
  have hstc : (injTake d (Page.exp.base 0) false).2.stc = d.stc := by rw [rests]
  have hdmax : rg (injTake d (Page.exp.base 0) false).2 Adr.GEOM_DMAX = rg d Adr.GEOM_DMAX :=
    rg_injTake _ _ _ (by decide) (by decide)
  refine ⟨⟨{ mkTkt (injTake d (Page.exp.base 0) false).2 w with rejected := rej }, ?_, rfl, rfl, rfl, ?_⟩, announce_pends _ _⟩
  · refine ((announce_tickets _ _).trans (checked_tickets ?_ _ _ _)).trans ?_
    · exact (congrArg Exp.run hexp).trans hr
    · unfold Dev.tickets
      simp only [setExp_self, setExp_stc, hexp, hstc]
  · exact congrArg (bits · 13 0) hdmax

/-! ### WAKE (R448) -/

@[simp] theorem standbyLeave_exp (d : Dev) : (standbyLeave d).exp = d.exp := by
  unfold standbyLeave
  split <;> rfl

/-- A request to the PMU leaves EXP alone. -/
@[simp] theorem pdAsk_exp (d : Dev) (n q : Nat) : (pdAsk d n q).exp = d.exp := by
  have act : (pdAct d n q).exp = d.exp := by
    unfold pdAct
    split
    · dsimp only
      split
      · exact standbyLeave_exp d
      · rfl
    · exact standbyLeave_exp d
    · rfl
    · exact standbyLeave_exp d
    · split <;> rfl
    · rfl
  unfold pdAsk
  split
  · rfl
  · split
    · rfl
    · rfl
    · exact act

/-- A head ticket that waits has its domains asked for (R448). -/
theorem expWake_wakeHead {d : Dev} (hq : d.exp.queue ≠ []) (hr : d.exp.run = none) (hw : d.exp.wakeHead = false) :
    (expWake d).exp.wakeHead = true := by
  unfold expWake
  rw [if_neg (by simp [hq, hr, hw])]
  simp only [List.foldl_cons, List.foldl_nil, pdAsk_exp, setExp_self]

/-! ### The obligation -/

/-- Settles O25: the acceptance is one step of the record to the ends of both queues, since what else it may do, an error of the
mending set or a swap, moves no ticket while no stripe runs. -/
theorem ticketsArriveAndAreAccepted : Obligations.TicketsArriveAndAreAccepted := by
  unfold Obligations.TicketsArriveAndAreAccepted
  refine ⟨fun s req v hacc => ?word, fun s w rest hon ha hq hr => ?accepted, fun s hq hr hw => ?wake, fun s hon => ?pace⟩
  case word =>
    refine does_of_run (f := fun d => write d req Adr.EXP_TKT fun d => tktWord d v) rfl ?_
    unfold write
    rw [if_pos hacc, drive_exp]
    split
    · next h => rw [tktWord_short h]; exact ⟨rfl, rfl⟩
    · next h => rw [tktWord_eighth h]; exact ⟨rfl, rfl⟩
  case accepted =>
    refine does_of_runS (f := fun d => if pdState d 13 = .on then tktAccept d else d) rfl ?_
    obtain ⟨⟨t, moved, fields⟩, announced⟩ := tktAccept_of_arriving ha hq hr
    simp only [Dev.tickets, Prod.mk.injEq] at moved
    obtain ⟨arriving, count, queue, todo⟩ := moved
    rw [if_pos hon, drive_exp, settle_exp, drive_stc, settle_stc]
    refine ⟨arriving, count, ⟨t, queue, todo, fields⟩, ?_⟩
    unfold pends
    rw [rg_drive, rg_settle _ (by decide) (by decide)]
    exact announced
  case wake =>
    refine does_of_run (f := expWake) rfl ?_
    rw [drive_exp]
    exact expWake_wakeHead hq hr hw
  case pace =>
    refine does_of_run (f := fun d => if pdState d 13 = .on then
      emit (setFd d Adr.EXP_PACE 31 24 (paceRate d)) (.pace (paceFrame d)) else d) rfl ?_
    rw [if_pos hon]
    refine ⟨?_, mem_drive_outs List.mem_cons_self⟩
    unfold fd
    rw [rg_drive, rg_emit, rg_setFd, if_pos rfl, bits_setBits _ _ (by decide) (by decide)]
    rfl

end Sys2Proof.Machine
end

section
/-! SUPPORT. What sealing stripes and taking an acknowledgement can change, said narrowly (R378, R386, R564, R565, R665). -/

namespace Sys2Proof.Machine

/-- The words that sealing stripes, asking for messages again and taking an acknowledgement can change. -/
def SealWord (a : Nat) : Prop :=
  a = Adr.GLB_SEAL_INDEX ∨ a = Adr.GLB_SEAL_WR ∨ a = Adr.GLB_SEAL_STAT ∨ a = Page.glb.base 0 + oEVTPEND ∨ a = Adr.GLR_CNT_RESEND

/-- The block without what they can change beside words: it has the bobbin, the stripe that STC holds and the frames under way. -/
def Dev.sealRest (d : Dev) : Dev := { d with
  regs := [], outs := [], glb := {}
  hlk := { d.hlk with msixPend := [] }
  glr := { d.glr with ended := [], ack := 0, ackWant := none, unFirst := 0, resends := [] } }

abbrev SealFrame : Dev → Dev → Prop := Frame SealWord Dev.sealRest

/-- The bobbin stands. -/
theorem bobbin_of_sealFrame {d e : Dev} (h : SealFrame d e) : e.bob = d.bob ∧ e.hbm = d.hbm :=
  ⟨(congrArg Dev.bob h.view : e.sealRest.bob = d.sealRest.bob), (congrArg Dev.hbm h.view : e.sealRest.hbm = d.sealRest.hbm)⟩

/-- The stripe that STC holds and the frames under way stand. -/
theorem stripe_of_sealFrame {d e : Dev} (h : SealFrame d e) : e.stc = d.stc ∧ e.glr.frames = d.glr.frames :=
  ⟨(congrArg Dev.stc h.view : e.sealRest.stc = d.sealRest.stc),
    (congrArg (fun d : Dev => d.glr.frames) h.view : e.sealRest.glr.frames = d.sealRest.glr.frames)⟩

theorem sealWord_lt {a : Nat} (h : SealWord a) : a < 0x200000 := by
  unfold SealWord at h
  simp only [Adr.GLB_SEAL_INDEX, Adr.GLB_SEAL_WR, Adr.GLB_SEAL_STAT, Page.base, oEVTPEND, Adr.GLR_CNT_RESEND] at h
  omega

theorem wr_sealFrame (d : Dev) {a : Nat} (v : W32) (h : SealWord a) : SealFrame d (wr d a v) := Frame.wr (fun _ _ _ => rfl) d a v h

theorem evt_sealRest (d : Dev) (base b : Nat) : (evt d base b).sealRest = d.sealRest := by
  unfold evt sendMsix
  dsimp only
  split
  · split
    · rfl
    · split <;> rfl
  · rfl

theorem evt_sealFrame (d : Dev) (b : Nat) : SealFrame d (evt d (Page.glb.base 0) b) :=
  ⟨evt_sealRest _ _ _, fun a ha => rg_evt_ne _ _ _ fun h => ha (by unfold SealWord; simp [h])⟩

theorem sealOne_sealFrame (d : Dev) (e : Ended) (u : Bool) : SealFrame d (sealOne d e u) := by
  have words (x y : W32) : SealFrame d (wr (wr (wr d Adr.GLB_SEAL_INDEX e.index) Adr.GLB_SEAL_WR x) Adr.GLB_SEAL_STAT y) := by
    refine Frame.after (wr_sealFrame _ _ (by unfold SealWord; simp)) ?_
    exact Frame.after (wr_sealFrame _ _ (by unfold SealWord; simp)) (wr_sealFrame _ _ (by unfold SealWord; simp))
  have put (d : Dev) (g : Glb) : SealFrame d { d with glb := g } := Frame.of rfl rfl
  unfold sealOne
  dsimp only
  refine Frame.after (evt_sealFrame _ _) ?_
  exact Frame.ite (words _ _) ((words _ _).trans (put _ _))

theorem sealCheck_sealFrame (d : Dev) : SealFrame d (sealCheck d) := by
  have one (d : Dev) (e : Ended) :
      SealFrame d (sealOne { d with glr := { d.glr with ended := d.glr.ended.filter fun x => x != e } } e e.down) :=
    Frame.after (sealOne_sealFrame _ _ _) (Frame.of rfl rfl)
  exact Frame.foldl (fun d e => Frame.ite (one d e) (.refl d)) _ d

theorem ackTake_sealFrame (d : Dev) : SealFrame d (ackTake d) := by
  have put (d : Dev) (n : Nat) : SealFrame d (setGlr d fun g => { g with unFirst := n }) := Frame.of rfl rfl
  have taken (d : Dev) (n : Nat) : SealFrame d (setGlr d fun g => { g with ack := n, ackWant := none }) := Frame.of rfl rfl
  unfold ackTake
  split
  · exact .refl d
  · exact Frame.ite (Frame.after (sealCheck_sealFrame _) (Frame.after (Frame.ite (put _ _) (.refl _)) (taken d _))) (.refl d)

theorem sendResend_sealFrame (d : Dev) (first last : Nat) : SealFrame d (sendResend d first last) := by
  have counted (e : Dev) : SealFrame e (inc e Adr.GLR_CNT_RESEND) := wr_sealFrame _ _ (by unfold SealWord; simp)
  have noted : SealFrame d (setGlr d fun g => { g with resends := g.resends ++ [⟨first, last, false⟩] }) := Frame.of rfl rfl
  have sent (e : Dev) : SealFrame e (emit e (.ctrl 0x11 [first, last])) := Frame.of rfl rfl
  exact (noted.trans (counted _)).trans (sent _)

theorem resendMissing_sealFrame (d : Dev) : SealFrame d (resendMissing d) := by
  unfold resendMissing
  dsimp only
  exact Frame.foldl (fun d (r : Nat × Nat) => sendResend_sealFrame d r.1 r.2) _ d

/-- With nothing buffered GLR only asks for what is missing and takes the acknowledgement (R63). -/
theorem glrDrain_sealFrame {d : Dev} (h : d.glr.buf = []) : SealFrame d (glrDrain d) := by
  have none : glrDrainN d.glr.buf.length d = d := by
    rw [h]
    rfl
  unfold glrDrain
  rw [none]
  dsimp only
  rw [if_pos h]
  exact (resendMissing_sealFrame d).trans (ackTake_sealFrame _)

end Sys2Proof.Machine
end

section
/-! PROOF. The mending ring and its view, and migration and loss of a pseudo-channel (R63, R310, R321, R322, R341 to R348, R588). -/

namespace Sys2Proof.Machine

/-! ### Bytes stored in the bobbin -/

/-- A byte string reads back where it was written. -/
theorem Mem.readN_write (m : Mem) (a : Nat) (l : List Byte) : (m.write a l).readN a l.length = l := by
  have byteAt (i : Nat) (h : i < l.length) :
      Mem.read ((m.write a l).filter fun c => decide (a ≤ c.1 ∧ c.1 < a + l.length)) (a + i) = l[i] := by
    rw [Mem.read_filter _ _ (fun k => decide (a ≤ k ∧ k < a + l.length)) (fun _ => rfl), if_pos (by simp; omega), Mem.read_write,
      if_pos (by omega), Nat.add_sub_cancel_left, List.getD_eq_getElem _ _ h]
  unfold Mem.readN
  dsimp only
  refine List.ext_getElem (by simp) fun i hi hl => ?_
  rw [List.getElem_map, List.getElem_range, byteAt i hl]

/-- An injection on a store, where one is armed, leaves the bytes and BOB (R603). -/
theorem ite_hbmInjWrite (d : Dev) (da : Nat) (armed : Prop) [Decidable armed] :
    (if armed then hbmInjWrite d da else d).hbm = d.hbm ∧ (if armed then hbmInjWrite d da else d).bob = d.bob := by
  have taken := injTake_rest d (Page.mc.base (pcOf d da / 2)) true
  have stands := And.intro (congrArg Dev.hbm taken) (congrArg Dev.bob taken)
  split
  · unfold hbmInjWrite
    dsimp only
    split
    · exact stands
    · split <;> split <;> exact stands
  · exact ⟨rfl, rfl⟩

theorem hbmWrite_waitq (d : Dev) (da : Nat) (l : List Byte) : (hbmWrite d da l).bob.waitq = d.bob.waitq := by
  unfold hbmWrite
  dsimp only
  rw [(ite_hbmInjWrite _ _ _).2]

/-- With no pseudo-channel lost, all bytes of a store within the space are laid down (R490). -/
theorem hbmWrite_hbm {d : Dev} {da : Nat} {l : List Byte} (hlost : d.bob.lost = []) (hspan : da + l.length ≤ daSpan) :
    (hbmWrite d da l).hbm = d.hbm.write da l := by
  unfold hbmWrite
  dsimp only
  rw [(ite_hbmInjWrite _ _ _).1, if_pos hlost, List.take_of_length_le (by omega)]

/-! ### The mending ring (R63, R321) -/

/-- An entry goes to BOB_MEND_WR mod CAP and BOB_MEND_WR moves on (R321). -/
theorem mendStore_ring {d : Dev} (hlost : d.bob.lost = []) (e : MEnt) :
    let a := rgnBase d 5 + 16 * ((rg d Adr.BOB_MEND_WR).toNat % max 1 (mendCap d))
    a + 16 ≤ daSpan → (mendStore d e).bob.waitq = d.bob.waitq ∧
      rg (mendStore d e) Adr.BOB_MEND_WR = rg d Adr.BOB_MEND_WR + 1 ∧
      hbmRead (mendStore d e) a 16 = bytesOfWords [e.w0, e.w1, e.w2, e.w3] := by
  intro a hspan
  refine ⟨hbmWrite_waitq _ _ _, rg_wr_self _ _ _, ?_⟩
  have laid : (mendStore d e).hbm = d.hbm.write a (bytesOfWords [e.w0, e.w1, e.w2, e.w3]) := hbmWrite_hbm hlost hspan
  unfold hbmRead
  rw [laid]
  exact Mem.readN_write _ _ (bytesOfWords [e.w0, e.w1, e.w2, e.w3])

/-- What follows the store of the entry, GLR going on and stripes sealing, leaves the bobbin, its wait and BOB_MEND_WR. -/
theorem mendWaitEnd_sealFrame {d : Dev} {e : MEnt} {rest : List MEnt} (hq : d.bob.waitq = e :: rest) (hfree : mendFree d ≠ 0)
    (hbuf : d.glr.buf = []) : SealFrame (mendStore (setBob d fun b => { b with waitq := rest }) e) (mendWaitEnd d) := by
  have buf : (mendStore (setBob d fun b => { b with waitq := rest }) e).glr.buf = [] :=
    (congrArg (fun e : Dev => e.glr.buf) (mendStore_errFrame (setBob d fun b => { b with waitq := rest }) e).1).trans hbuf
  unfold mendWaitEnd
  rw [hq]
  dsimp only
  rw [if_neg hfree]
  exact (glrDrain_sealFrame buf).trans (sealCheck_sealFrame _)

/-! ### The view window (R322, R588) -/

theorem hbmCe_regs {d : Dev} (h : d.mei.badSectors = []) (da n : Nat) : (hbmCe d da n).regs = d.regs := by
  unfold hbmCe
  rw [h]
  rfl

theorem rg_hbmCe (d : Dev) (da n : Nat) {a : Nat} (h : a ≠ Adr.MEI_CNT_CE) : rg (hbmCe d da n) a = rg d a := by
  unfold hbmCe
  split
  · rfl
  · rw [rg_addReg, if_neg h]

/-- The device address of the entry that a word of the view window belongs to (R322). -/
def mendViewAt (d : Dev) (o : Nat) : Nat :=
  rgnBase d 5 + 16 * (((rg d Adr.BOB_MEND_VIEW).toNat + o / 16) % max 1 (mendCap d))

theorem mendViewRead_good {d : Dev} {o : Nat} (h : hbmBad d (mendViewAt d o) 16 = false) :
    mendViewRead d o = (w32 (hbmWord d (mendViewAt d o + o % 16)), hbmCe d (mendViewAt d o) 16) := by
  have word : mendView d o = (w32 (hbmWord d (mendViewAt d o + o % 16)), false) := if_neg (by rw [mendViewAt] at h; simp [h])
  unfold mendViewRead
  rw [word]
  rfl

theorem mendViewRead_bad {d : Dev} {o : Nat} (h : hbmBad d (mendViewAt d o) 16 = true) : ∃ i0 i1,
    mendViewRead d o = (w32 0xFFFFFFFF, err (hbmCe d (mendViewAt d o) 16) (Page.mei.base 0) Bit.err_MEI_MEND_POISON i0 i1) := by
  have word : mendView d o = (w32 0xFFFFFFFF, true) := if_pos h
  unfold mendViewRead
  rw [word]
  exact ⟨_, _, rfl⟩

/-- No error changes the _ERR_LATCH of another page than FCL's (R606). -/
theorem not_errWord_errLatch {a : Nat} (h : a % 0x1000 = oERRLATCH) (hf : a ≠ Page.fcl.base 0 + oERRLATCH) : ¬ErrWord a := by
  intro w
  by_cases inj : ∃ p, a = Page.mc.base p + oINJECT
  · obtain ⟨p, rfl⟩ := inj
    simp only [Page.base, oINJECT, oERRLATCH] at h
    omega
  · unfold ErrWord at w
    simp only [inj, or_false] at w
    simp only [Page.base, Adr.FCL_CNT, Adr.FCL_FIRST, Adr.FCL_FIRST_S, Adr.FCL_FIRST_NS, Adr.MEI_CNT_CE, Adr.MUZ_CNT,
      Adr.BOB_MEND_WR, Adr.EXP_HWM, Adr.GLB_SEAL_INDEX, Adr.GLB_SEAL_WR, Adr.GLB_SEAL_STAT, oEVTPEND, oERRLATCH, oINFO0, oINFO1,
      oINJECT] at w h hf
    omega

/-- An error of another page than FCL is latched (R606). -/
theorem latched_err (d : Dev) (base b : Nat) (i0 i1 : W32) (hb : base % 0x1000 = 0) (hf : base ≠ Page.fcl.base 0) (h : b < 32) :
    latched (err d base b i0 i1) base b = true := by
  unfold latched
  rw [err_latch _ _ _ _ _ (not_errWord_errLatch (by simp only [oERRLATCH]; omega) (by omega)), bit_putBit _ _ _ _ h, if_pos rfl]

/-! ### States of a pseudo-channel (R310) -/

/-- The state that stands after one was put. -/
theorem pcState_setPcState (d : Dev) (p v q : Nat) :
    pcState (setPcState d p v) q = if q = p then bits (w32 v) 2 0 else pcState d q := by
  unfold pcState setPcState fd
  rw [rg_wr]
  by_cases h : q = p
  · rw [if_pos (by rw [h]), if_pos h]
  · rw [if_neg (by simp only [Adr.BOB_PCSTATE]; omega), if_neg h]

theorem pcState_congr {d e : Dev} (h : e.regs = d.regs) (p : Nat) : pcState e p = pcState d p := by
  unfold pcState fd
  rw [rg_congr h]

/-! ### Migration (R341 to R344) -/

/-- START is no part of a field below it. -/
theorem bits_or_start (v : W32) {hi lo : Nat} (hlo : lo ≤ hi) (h : hi < 31) : bits (v ||| w32 0x80000000) hi lo = bits v hi lo := by
  have start (i : Nat) (hi : i < 31) : bit (v ||| w32 0x80000000) i = bit v i := by
    have clear : bit (w32 0x80000000) i = false :=
      (bit_w32 (by omega)).trans ((Nat.testBit_two_pow (n := 31)).trans (decide_eq_false (by omega)))
    unfold bit at clear ⊢
    rw [BitVec.getLsbD_or, clear, Bool.or_false]
  refine Nat.eq_of_testBit_eq fun i => ?_
  rw [testBit_bits, testBit_bits]
  by_cases low : lo + i < 31
  · rw [start _ low]
  · rw [decide_eq_false (by omega), Bool.false_and, Bool.false_and]

theorem bit_or_start (v : W32) : bit (v ||| w32 0x80000000) 31 = true := by
  unfold bit
  rw [BitVec.getLsbD_or]
  exact Bool.or_true _

/-- START onto a SPARE pseudo-channel, with no migration under way, begins one from the holder of SRC (R341). -/
theorem migCtrl_start {d : Dev} {v : W32} (hstart : bit v 31 = true) (hidle : d.bob.migBusy = false) (hsrc : bits v 6 0 < 126)
    (hspare : pcState d (bits v 14 8) = 1) :
    let p := fd d (Adr.BOB_PCMAP (bits v 6 0)) 6 0
    ∃ w, migCtrl d v = setBob (setPcState (setPcState (wr d Adr.BOB_MIG_CTRL (v &&& 0x7F7F)) p 2) (bits v 14 8) 3) fun b =>
      { b with migBusy := true, migPtr := 0, migSrc := bits v 6 0, migDst := bits v 14 8, wiped := w } := by
  have stands (a : Nat) (h : 0xB0400 ≤ a) : rg (wr d Adr.BOB_MIG_CTRL (v &&& 0x7F7F)) a = rg d a :=
    rg_wr_ne _ _ (by simp only [Adr.BOB_MIG_CTRL]; omega)
  have state : pcState (wr d Adr.BOB_MIG_CTRL (v &&& 0x7F7F)) (bits v 14 8) = 1 := by
    rw [← hspare]
    exact congrArg (bits · 2 0) (stands _ (by simp only [Adr.BOB_PCSTATE]; omega))
  have holder : fd (wr d Adr.BOB_MIG_CTRL (v &&& 0x7F7F)) (Adr.BOB_PCMAP (bits v 6 0)) 6 0 = fd d (Adr.BOB_PCMAP (bits v 6 0)) 6 0 :=
    congrArg (bits · 6 0) (stands _ (by simp only [Adr.BOB_PCMAP]; omega))
  unfold migCtrl
  dsimp only
  rw [if_pos (by rw [decide_eq_true state]; simp [hstart, hidle, hsrc]), holder]
  split
  · exact ⟨_, rfl⟩
  · exact ⟨_, rfl⟩

theorem mcPc_congr {d e : Dev} (h : e.bob.pcs = d.bob.pcs) (p : Nat) : mcPc e p = mcPc d p := by
  unfold mcPc
  rw [h]

/-- A controller reads as it was put. -/
theorem mcPc_setPc (d : Dev) (p : Nat) (f : Pc → Pc) : mcPc (setPc d p f) p = f (mcPc d p) := by
  unfold mcPc setPc
  rw [alGet_alSet, if_pos rfl]
  rfl

/-- A chunk of which no sector reads uncorrectable moves PTR on and hands the requests that waited for it to the target; the last
one ends the migration (R342). -/
theorem migChunk_clean {d : Dev} (hbusy : d.bob.migBusy = true) (hsrc : d.bob.migSrc < 126)
    (hgood : ∀ i < 32, hbmBad d (1024 * (d.bob.migPtr * 126 + d.bob.migSrc) + 32 * i) 32 = false) :
    let e := setBob (setPc d d.bob.migDst fun x => { x with held := x.held ++ d.bob.migHeld }) fun b =>
      { b with migPtr := d.bob.migPtr + 1, migHeld := [] }
    migChunk d [] = if d.bob.migPtr + 1 = 786432 then migDone e else e := by
  have healthy : ((List.range 32).filter fun i => ([] : List Nat).contains i ||
      hbmBad d (1024 * (d.bob.migPtr * 126 + d.bob.migSrc) + 32 * i) 32) = [] := by
    refine List.filter_eq_nil_iff.2 fun i hi => ?_
    simp [hgood i (List.mem_range.1 hi)]
  have route : mcRoute (setBob d fun b => { b with migPtr := d.bob.migPtr + 1 })
      (1024 * (d.bob.migPtr * 126 + d.bob.migSrc)) = some d.bob.migDst := by
    unfold mcRoute lpcOf
    rw [if_pos ⟨hbusy, by simp only [setBob]; omega⟩, if_pos (by simp only [setBob]; omega)]
    rfl
  unfold migChunk
  rw [hbusy]
  dsimp only
  rw [healthy, List.foldl_nil, route]
  simp

/-- A source's remap entries go to the target within MEI (R597). -/
theorem rmpMove_frame (d : Dev) (src dst : Nat) : Frame (fun _ => False) (fun d => { d with mei := {} }) d (rmpMove d src dst) := by
  refine Frame.foldl (fun d r => ?_) _ d
  dsimp only
  split <;> exact Frame.of rfl rfl

/-- The last chunk exchanges the map, and the states of source and target (R344). -/
theorem migDone_ends {d : Dev} {src dst : Nat} (hs : d.bob.migSrc = src) (hd : d.bob.migDst = dst) (hsrc : src < 126)
    (hdst : dst < 128) (hne : fd d (Adr.BOB_PCMAP src) 6 0 ≠ dst) :
    (migDone d).bob.migBusy = false ∧ rg (migDone d) (Adr.BOB_PCMAP src) = w32 dst ∧ pcState (migDone d) dst = 0 ∧
    pcState (migDone d) (fd d (Adr.BOB_PCMAP src) 6 0) = 4 ∧
    pends (migDone d) (Page.bob.base 0) Bit.evt_BOB_MIG_DONE = true := by
  unfold migDone
  dsimp only
  rw [hs, hd]
  generalize hp : fd d (Adr.BOB_PCMAP src) 6 0 = p at hne ⊢
  have hp' : p < 128 := hp ▸ Nat.mod_lt _ (by decide)
  generalize he : setPcState (setPcState (wr d (Adr.BOB_PCMAP src) (w32 dst)) dst 0) p 4 = e
  have words (a : Nat) (ha : 0xB0400 ≤ a) : rg (evt (rmpMove (setBob e fun b => { b with migBusy := false, lost := setDel b.lost p })
      p dst) (Page.bob.base 0) Bit.evt_BOB_MIG_DONE) a = rg e a := by
    rw [rg_evt_ne _ _ _ (by simp only [Page.base, oEVTPEND]; omega), (rmpMove_frame _ p dst).words a id]
    rfl
  have state (q : Nat) := congrArg (bits · 2 0) (words (Adr.BOB_PCSTATE q) (by simp only [Adr.BOB_PCSTATE]; omega))
  refine ⟨?_, ?_, (state dst).trans ?_, (state p).trans ?_, ?_⟩
  · rw [evt_bob]
    exact congrArg (fun e : Dev => e.bob.migBusy) (rmpMove_frame _ p dst).view
  · rw [words _ (by simp only [Adr.BOB_PCMAP]; omega), ← he]
    unfold setPcState
    rw [rg_wr_ne _ _ (by simp only [Adr.BOB_PCMAP, Adr.BOB_PCSTATE]; omega),
      rg_wr_ne _ _ (by simp only [Adr.BOB_PCMAP, Adr.BOB_PCSTATE]; omega), rg_wr_self]
  · subst he
    refine (pcState_setPcState _ p 4 dst).trans ?_
    rw [if_neg (Ne.symm hne), pcState_setPcState, if_pos rfl]
    rfl
  · subst he
    refine (pcState_setPcState _ p 4 p).trans ?_
    rw [if_pos rfl]
    rfl
  · unfold pends
    rw [rg_evt, if_pos rfl, bit_putBit _ _ _ _ (by decide), if_pos rfl]

/-! ### Loss (R348) -/

theorem mem_setIns (l : List Nat) (a : Nat) : a ∈ setIns l a := by
  induction l with
  | nil => exact List.mem_singleton.2 rfl
  | cons k r ih =>
    unfold setIns
    split
    · exact List.mem_cons_self
    · split
      · next h => rw [h]; exact List.mem_cons_self
      · exact List.mem_cons_of_mem _ ih

/-- A pseudo-channel not yet lost becomes LOST, and then both its errors latch (R348). -/
theorem pcLost_eq {d : Dev} {p : Nat} (h : p ∉ d.bob.lost) : ∃ (e : Dev) (i0 i1 j0 j1 : W32),
    pcLost d p = err (err e (Page.mc.base (p / 2)) Bit.err_MC_PC_LOST i0 i1) (Page.bob.base 0) Bit.err_BOB_PC_LOST j0 j1 ∧
    e.bob.lost = setIns d.bob.lost p ∧ pcState e p = 5 ∧ ∀ a, a ≠ Adr.BOB_PCSTATE p → rg e a = rg d a := by
  have others (a : Nat) (ha : a ≠ Adr.BOB_PCSTATE p) : rg (setPcState d p 5) a = rg d a := rg_wr_ne _ _ ha
  have put : pcState (setPcState d p 5) p = 5 := (pcState_setPcState ..).trans (if_pos rfl)
  unfold pcLost
  rw [if_neg (by simpa using h)]
  refine ⟨_, _, _, _, _, rfl, ?_, ?_, ?_⟩
  · split <;> rfl
  · split <;> exact put
  · split <;> exact others

/-- An error changes neither the list of those lost nor a state (R606). -/
theorem err_pcState (d : Dev) {base p : Nat} (b : Nat) (i0 i1 : W32) (hb : base % 0x1000 = 0) (hp : p < 128) :
    pcState (err d base b i0 i1) p = pcState d p := by
  have word : ¬ErrWord (Adr.BOB_PCSTATE p) := fun h => by
    have := errWord_place h
    simp only [Adr.BOB_PCSTATE] at this
    omega
  exact congrArg (bits · 2 0) (rg_err d base b i0 i1 word (by simp only [Adr.BOB_PCSTATE, oERRLATCH]; omega)
    (by simp only [Adr.BOB_PCSTATE, oINFO0]; omega) (by simp only [Adr.BOB_PCSTATE, oINFO1]; omega))

theorem err_lost (d : Dev) (base b : Nat) (i0 i1 : W32) : (err d base b i0 i1).bob.lost = d.bob.lost := by
  have rest : (err d base b i0 i1).errRest.bob.lost = d.errRest.bob.lost := by rw [err_errRest]
  exact rest

/-- The response to an error leaves the controllers (R606). -/
theorem err_mcPc (d : Dev) (base b : Nat) (i0 i1 : W32) (p : Nat) : mcPc (err d base b i0 i1) p = mcPc d p := by
  have rest : mcPc (err d base b i0 i1).errRest p = mcPc d.errRest p := by rw [err_errRest]
  exact rest

theorem latched_err_ne (d : Dev) {base base' : Nat} (b k : Nat) (i0 i1 : W32) (hb : base % 0x1000 = 0) (hb' : base' % 0x1000 = 0)
    (hne : base' ≠ base) (hf : base' ≠ Page.fcl.base 0) : latched (err d base b i0 i1) base' k = latched d base' k := by
  refine congrArg (bit · k) (rg_err d base b i0 i1 (not_errWord_errLatch ?_ ?_) ?_ ?_ ?_) <;>
    (simp only [oERRLATCH, oINFO0, oINFO1]; omega)

/-- What the loss of a pseudo-channel leaves (R348): it is LOST, with the error of its controller and that of BOB latched. -/
def LostWithErrors (p : Nat) (d : Dev) : Prop :=
  p ∈ d.bob.lost ∧ pcState d p = 5 ∧ latched d (Page.mc.base (p / 2)) Bit.err_MC_PC_LOST = true ∧
    latched d (Page.bob.base 0) Bit.err_BOB_PC_LOST = true

theorem pends_drive (d : Dev) (base b : Nat) : pends (drive d) base b = pends d base b := by
  unfold pends
  rw [rg_drive]

theorem latched_drive (d : Dev) (base b : Nat) : latched (drive d) base b = latched d base b := by
  unfold latched
  rw [rg_drive]

theorem lostWithErrors_drive (d : Dev) (p : Nat) : LostWithErrors p (drive d) ↔ LostWithErrors p d := by
  unfold LostWithErrors
  rw [drive_bob, pcState_congr (drive_regs d), latched_drive, latched_drive]

/-- A pseudo-channel not yet lost is LOST from then on, its errors latched (R348). -/
theorem pcLost_loses {d : Dev} {p : Nat} (hp : p < 128) (h : p ∉ d.bob.lost) : LostWithErrors p (pcLost d p) := by
  have mc := base_mod .mc (p / 2)
  have bob := base_mod .bob 0
  have apart : Page.mc.base (p / 2) ≠ Page.bob.base 0 ∧ Page.mc.base (p / 2) ≠ Page.fcl.base 0 := by
    simp only [Page.base]
    omega
  obtain ⟨e, i0, i1, j0, j1, eq, lost, state, -⟩ := pcLost_eq h
  unfold LostWithErrors
  rw [eq, err_lost, err_lost, lost, err_pcState _ _ _ _ bob hp, err_pcState _ _ _ _ mc hp,
    latched_err_ne _ _ _ _ _ bob mc apart.1 apart.2]
  exact ⟨mem_setIns _ _, state, latched_err _ _ _ _ _ mc apart.2 (by decide), latched_err _ _ _ _ _ bob (by decide) (by decide)⟩

/-- What is latched stays latched when an error is raised (R606). -/
theorem latched_err_of (d : Dev) {base base' k : Nat} (b : Nat) (i0 i1 : W32) (hb : base % 0x1000 = 0) (hb' : base' % 0x1000 = 0)
    (hf : base' ≠ Page.fcl.base 0) (h32 : b < 32) (h : latched d base' k = true) :
    latched (err d base b i0 i1) base' k = true := by
  by_cases same : base' = base
  · subst same
    unfold latched at h ⊢
    rw [err_latch _ _ _ _ _ (not_errWord_errLatch (by simp only [oERRLATCH]; omega) (by omega)), bit_putBit _ _ _ _ h32, h, ite_self]
  · rw [latched_err_ne _ _ _ _ _ hb hb' same hf, h]

/-- The loss of a pseudo-channel clears no latch of a controller (R606). -/
theorem pcLost_latched {d : Dev} {p q k : Nat} (hp : p < 128) (h : p ∉ d.bob.lost) (hk : latched d (Page.mc.base q) k = true) :
    latched (pcLost d p) (Page.mc.base q) k = true := by
  have mc := base_mod .mc q
  have other : Page.mc.base q ≠ Page.fcl.base 0 := by
    simp only [Page.base]
    omega
  obtain ⟨e, i0, i1, j0, j1, eq, -, -, words⟩ := pcLost_eq h
  have before : latched e (Page.mc.base q) k = true := by
    rw [← hk]
    exact congrArg (bit · k) (words (Page.mc.base q + oERRLATCH) (by simp only [Page.base, oERRLATCH, Adr.BOB_PCSTATE]; omega))
  rw [eq]
  exact latched_err_of _ _ _ _ (base_mod .bob 0) mc other (by decide)
    (latched_err_of _ _ _ _ (base_mod .mc _) mc other (by decide) before)

/-- A parity error is latched, and loses the pseudo-channel when three stood within the millisecond before it (R348). -/
theorem caParity_eq (d : Dev) {p : Nat} (k row us : Nat) :
    ∃ e : Dev, caParity d p k row us = (if 3 ≤ ((mcPc d p).parity.filter fun t => us < t + 1000).length then pcLost e p else e) ∧
      e.bob.lost = d.bob.lost ∧ latched e (Page.mc.base (p / 2)) Bit.err_MC_CA_PARITY = true := by
  have mc := base_mod .mc (p / 2)
  have four (n : Nat) : min 4 (n + 1) = 4 ↔ 3 ≤ n := by omega
  unfold caParity
  dsimp only
  rw [err_mcPc]
  simp only [List.length_take, List.length_cons, four]
  exact ⟨_, rfl, err_lost .., latched_err _ _ _ _ _ mc (by simp only [Page.base]; omega) (by decide)⟩

/-! ### The obligation -/

/-- The command reads the word of the window and leaves what the read of the ring leaves (R588). -/
theorem does_mendViewRead {s : State} {req : Req} {o : Nat} {P : Dev → Prop} (ho : o < 0x1000000) (h4 : o % 4 = 0)
    (hacc : acc s.dev req (Adr.MEND_VIEW o) = true)
    (h : P (drive (emit (mendViewRead s.dev o).2 (.readData req (Adr.MEND_VIEW o) [(mendViewRead s.dev o).1])))) :
    Does (.mendViewRead req o) s P := by
  refine ⟨_, rfl, rfl, ?_⟩
  simp only [show o / 4 * 4 = o by omega, ho, if_true, hacc]
  exact h

/-- Settles O44, from what each command does to the ring, the map, the states and the latches. -/
theorem mendingRingAndMigration : Obligations.MendingRingAndMigration := by
  unfold Obligations.MendingRingAndMigration
  refine ⟨fun s req v hacc => ?rd, fun s e rest hq hfree hbuf hlost hspan => ?wait, fun s req o ho h4 hacc => ⟨fun good => ?view,
    fun bad => ?poisoned⟩, fun s req v hacc hidle hsrc hspare hne => ?start, fun s src dst hbusy hs hd hsrc hdst good =>
    ⟨fun hptr => ?chunk, fun hptr hne => ?last⟩, fun s req p v hp hacc => ⟨fun h4 h1 => ?spare, fun h => ?kept⟩,
    fun s p hp hlost => ⟨?lost, fun k hk row us => ⟨?parity, fun four => ?fourth⟩⟩⟩
  case rd =>
    refine does_of_run (f := fun d => write d req Adr.BOB_MEND_RD fun d => wr d Adr.BOB_MEND_RD v) rfl ?_
    unfold write
    rw [if_pos hacc]
    exact ⟨by rw [rg_drive, rg_wr_self], fun a ha => by rw [rg_drive, rg_wr_ne _ _ ha], by rw [drive_bob, wr_bob]⟩
  case wait =>
    refine does_of_run (f := mendWaitEnd) rfl ?_
    have rests := mendWaitEnd_sealFrame hq hfree hbuf
    obtain ⟨waits, ptr, bytes⟩ := mendStore_ring (d := setBob s.dev fun b => { b with waitq := rest }) hlost e hspan
    obtain ⟨bob, hbm⟩ := bobbin_of_sealFrame rests
    refine ⟨?_, ?_, ?_⟩
    · rw [drive_bob, bob]
      exact waits
    · rw [rg_drive, rests.words _ (by unfold SealWord; decide)]
      exact ptr
    · unfold hbmRead
      rw [drive_hbm, hbm]
      exact bytes
  case view =>
    refine does_mendViewRead ho h4 hacc ?_
    rw [mendViewRead_good good]
    exact ⟨mem_drive_outs List.mem_cons_self, fun none => (drive_regs _).trans (hbmCe_regs none _ _),
      fun r hr => (rg_drive _ r).trans (rg_hbmCe _ _ _ hr)⟩
  case poisoned =>
    refine does_mendViewRead ho h4 hacc ?_
    obtain ⟨i0, i1, eq⟩ := mendViewRead_bad bad
    rw [eq, latched_drive]
    exact ⟨mem_drive_outs List.mem_cons_self, latched_err _ _ _ _ _ (base_mod .mei 0) (by decide) (by decide)⟩
  case start =>
    refine does_of_run (f := fun d => write d req Adr.BOB_MIG_CTRL fun d => migCtrl d (v ||| w32 0x80000000)) rfl ?_
    unfold write
    rw [if_pos hacc]
    have src : bits (v ||| w32 0x80000000) 6 0 = bits v 6 0 := bits_or_start v (by omega) (by omega)
    have dst : bits (v ||| w32 0x80000000) 14 8 = bits v 14 8 := bits_or_start v (by omega) (by omega)
    rw [← src] at hsrc hne ⊢
    rw [← dst] at hspare hne ⊢
    obtain ⟨w, begun⟩ := migCtrl_start (bit_or_start v) hidle hsrc hspare
    dsimp only
    rw [begun]
    refine ⟨by rw [drive_bob]; rfl, by rw [drive_bob]; rfl, by rw [drive_bob]; rfl, by rw [drive_bob]; rfl, ?_, ?_⟩
    · refine (pcState_congr (drive_regs _) _).trans ((pcState_setPcState ..).trans (if_pos rfl))
    · refine (pcState_congr (drive_regs _) _).trans ((pcState_setPcState ..).trans ?_)
      rw [if_neg hne, pcState_setPcState, if_pos rfl]
      rfl
  case chunk =>
    refine does_of_run (f := fun d => migChunk d []) rfl ?_
    subst hs hd
    rw [migChunk_clean hbusy hsrc good, if_neg hptr]
    refine ⟨by rw [drive_bob]; rfl, ?_, by rw [drive_hbm]; rfl, by rw [drive_poison]; rfl⟩
    rw [mcPc_congr (congrArg Bob.pcs (drive_bob _))]
    exact congrArg Pc.held (mcPc_setPc s.dev s.dev.bob.migDst fun x => { x with held := x.held ++ s.dev.bob.migHeld })
  case last =>
    refine does_of_run (f := fun d => migChunk d []) rfl ?_
    subst hs hd
    rw [migChunk_clean hbusy hsrc good, if_pos hptr, drive_bob, rg_drive, pcState_congr (drive_regs _),
      pcState_congr (drive_regs _), pends_drive]
    exact migDone_ends rfl rfl hsrc hdst hne
  case spare =>
    refine does_of_run (f := fun d => if p < 128 then write d req (Adr.BOB_PCSTATE p) fun d => pcStateWrite d p v else d) rfl ?_
    unfold write pcStateWrite
    dsimp only
    rw [if_pos hp, if_pos hacc, if_pos (show pcState s.dev p = 4 ∧ bits v 2 0 = 1 from ⟨h4, h1⟩)]
    exact (pcState_congr (drive_regs _) p).trans ((pcState_setPcState ..).trans (if_pos rfl))
  case kept =>
    refine does_of_run (f := fun d => if p < 128 then write d req (Adr.BOB_PCSTATE p) fun d => pcStateWrite d p v else d) rfl ?_
    unfold write pcStateWrite
    rw [if_pos hp, if_pos hacc, drive_regs]
    exact congrArg Dev.regs (if_neg fun spare => h.elim (· spare.1) (· spare.2))
  case lost =>
    refine does_of_run (f := fun d => if p < 128 then pcLost d p else d) rfl ?_
    rw [if_pos hp]
    exact (lostWithErrors_drive _ p).2 (pcLost_loses hp hlost)
  case parity =>
    refine does_of_run (f := fun d => if p < 128 ∧ k < 48 then caParity d p k row us else d) rfl ?_
    rw [if_pos ⟨hp, hk⟩, latched_drive]
    obtain ⟨e, eq, lost, latch⟩ := caParity_eq s.dev (p := p) k row us
    rw [eq]
    split
    · exact pcLost_latched hp (lost ▸ hlost) latch
    · exact latch
  case fourth =>
    refine does_of_run (f := fun d => if p < 128 ∧ k < 48 then caParity d p k row us else d) rfl ?_
    obtain ⟨e, eq, lost, -⟩ := caParity_eq s.dev (p := p) k row us
    rw [if_pos ⟨hp, hk⟩, eq, if_pos four]
    exact (lostWithErrors_drive _ p).2 (pcLost_loses hp (lost ▸ hlost))

end Sys2Proof.Machine
end

section
/-! PROOF. A beam that the plate reports dead is withheld (R60, R292, R382, R753). -/

namespace Sys2Proof.Machine

/-! ### The entries made for it -/

namespace ErrWalk

variable {R : Dev → Dev → Prop} (w : ErrWalk R)
include w

theorem listCheck (d : Dev) : R d (listCheck d) :=
  ErrWalk.ite (w.after (w.halt _) (w.after (w.err _ _ _ _ (by decide)) (w.abortFrom _ _ _))) (w.refl d)

theorem addEnt (d : Dev) (e : MEnt) : R d (addEnt d e) := w.after (w.listCheck _) (w.putEnt d e)

theorem addEnts (d : Dev) (l : List MEnt) : R d (addEnts d l) :=
  ErrWalk.ite (w.refl d) (w.after (w.listCheck _) (w.foldl w.putEnt l d))

theorem histEnts (d : Dev) (h : Hist) (l : List EntWords) : R d (histEnts d h l) := ErrWalk.ite (w.refl d) (w.addEnts _ _)

theorem beamEnt (d : Dev) (t : Tkt) (s beam : Nat) : R d (beamEnt d t s beam) := ErrWalk.ite (w.refl d) (w.addEnt _ _)

theorem histRead (d : Dev) (lseq : Nat) : R d (histRead d lseq).2.2 := by
  rw [histRead_dev]
  exact w.injTake d false (by decide)

end ErrWalk

/-- The entries for a dead beam are made first, and then its code is withheld; they leave the remap table. -/
theorem glrBeamDied_eq (d : Dev) (lseq k j : Nat) : ∃ e, WindowsStand d e ∧
    glrBeamDied d lseq k j = beamOff (dbmAddBit e (remapBeam d (1024 * k + j))) (remapBeam d (1024 * k + j)) := by
  have w := windowsStand_walk
  have uncorrected (d : Dev) (ue : Bool) : WindowsStand d (if ue then glrErr d Bit.err_GLR_HIST_UE lseq 0 else d) :=
    ErrWalk.ite (w.err _ _ _ _ (by decide)) (w.refl d)
  have read := w.histRead d lseq
  unfold glrBeamDied
  generalize histRead d lseq = x at read ⊢
  obtain ⟨h, ue, e⟩ := x
  generalize remapBeam d (1024 * k + j) = beam
  refine ⟨_, w.trans read (w.trans (uncorrected e ue) ?_), rfl⟩
  dsimp only
  generalize (if ue then glrErr e Bit.err_GLR_HIST_UE lseq 0 else e) = e
  cases h with
  | some h =>
    dsimp only
    have first := w.histEnts e h [(0xE, 5, w32 h.shot, beamWord beam)]
    have later (l : List Hist) (d : Dev) := w.foldl (fun d h => w.histEnts d h [(0xE, 5, 0, beamWord beam)]) l d
    refine w.trans first (w.trans (later (laterHist e h.tseq) _) ?_)
    split
    · exact ErrWalk.ite (w.beamEnt _ _ _ _) (w.refl _)
    · exact w.refl _
  | none =>
    dsimp only
    split
    · exact ErrWalk.ite (w.beamEnt _ _ _ _) (w.refl _)
    · exact w.refl _

/-! ### The dead-beam map and the frames -/

/-- The map lies beyond the remap table (R734). -/
theorem remapBeam_dbmAddBit (d : Dev) (beam : Nat) {n : Nat} (h : n < 2 ^ 19) : remapBeam (dbmAddBit d beam) n = remapBeam d n := by
  have word : rg (dbmAddBit d beam) (Adr.REMAP n) = rg d (Adr.REMAP n) := by
    unfold dbmAddBit
    split
    · rfl
    · exact rg_wr_ne _ _ (by simp only [Adr.REMAP, Adr.DBM_BITS]; omega)
  exact congrArg (bits · 18 0) word

/-- No frame that has not begun keeps a code of the dead beam (R60). -/
theorem beamOff_frames (d : Dev) (beam : Nat) {f : Frm} (h : f ∈ (beamOff d beam).glr.frames) {c : Nat × Nat}
    (hc : c ∈ f.codes) : remapBeam d c.1 ≠ beam := by
  obtain ⟨g, -, rfl⟩ := List.mem_map.1 h
  simpa using (List.mem_filter.1 hc).2

/-- A stripe of STC that has not ended lists the dead beam (R292). -/
theorem beamOff_died (d : Dev) (beam : Nat) {st : Stitch} (h : (beamOff d beam).stc.cur = some st) (hst : st.ended = false) :
    beam ∈ st.died := by
  obtain ⟨st', -, rfl⟩ := Option.map_eq_some_iff.1 h
  by_cases ended : st'.ended
  · rw [if_pos ended, ended] at hst
    cases hst
  · rw [if_neg ended]
    exact mem_setIns _ _

/-! ### The obligation -/

/-- Settles O12: the entries and the acknowledgement leave the remap table and the frames, so what `beamOff` withholds stays
withheld. -/
theorem deadBeamIsWithheld : Obligations.DeadBeamIsWithheld := by
  unfold Obligations.DeadBeamIsWithheld
  intro s n rseq lseq k j next hbuf hidle hroom hk hj
  refine does_of_run (f := fun d => glrTake d n rseq (.beamDied n rseq lseq (k % 512) (j % 1024))) rfl ?_
  have translated : glrWaits s.dev (.beamDied n rseq lseq k j) = false := by
    unfold glrWaits
    dsimp only
    rw [hidle, hroom]
    rfl
  rw [Nat.mod_eq_of_lt hk, Nat.mod_eq_of_lt hj, glrTake_next next hbuf translated]
  obtain ⟨e, windows, died⟩ := glrBeamDied_eq (setGlr s.dev fun g => { g with rxNext := (rseq + 1) % 65536 }) lseq k j
  rw [show translate _ (.beamDied n rseq lseq k j) = _ from died]
  generalize hbeam : remapBeam (setGlr s.dev fun g => { g with rxNext := (rseq + 1) % 65536 }) (1024 * k + j) = beam
  have acked := ackTake_sealFrame (beamOff (dbmAddBit e beam) beam)
  obtain ⟨stc, frames⟩ := stripe_of_sealFrame acked
  have remaps (n : Nat) : remapBeam (drive (ackTake (beamOff (dbmAddBit e beam) beam))) n = remapBeam (dbmAddBit e beam) n :=
    congrArg (bits · 18 0) ((rg_drive ..).trans (acked.words _ fun low => by
      have := sealWord_lt low
      simp only [Adr.REMAP] at this
      omega))
  have dead : remapBeam (dbmAddBit e beam) (1024 * k + j) = beam := by
    rw [remapBeam_dbmAddBit _ _ (by omega), ← hbeam]
    exact congrArg (bits · 18 0) (windows _ (by simp only [Adr.REMAP]; omega))
  rw [drive_glr, drive_stc, frames, stc, remaps, dead]
  refine ⟨fun f hf c hc => ?_, fun st hst hend => beamOff_died _ _ hst hend⟩
  rw [remaps]
  exact beamOff_frames _ _ hf hc

end Sys2Proof.Machine
end
section
/-! PROOF. NAKs after GAP_WAIT: the state in which the request queue's overflow ends the stripe that runs (R117, R119, R126, R434). -/

namespace Sys2Proof.Machine

/-- The first stripe runs and is the only one; block 0 is missing and the wait of R117 for it runs; the request queue is full; and
REQ_OVERFLOW of SPL, which is source 10, has severity 2 (R608). -/
def overflowing : State :=
  let t : Tkt := ⟨0, 0, 0, false, false, false, 0, 0, 0, 0, 0, 0, 0, [], false, none, 0, none, false⟩
  { dev := {
      regs := [(Adr.FCL_SEV 10, 0xA)]
      spl := { gaps := 1, top := 1, reqs := List.replicate 64 (0, 0, 0) }
      exp := { queue := [t], count := 1
               run := some ⟨t, false, 0, 0, 2, 0, 0, 0, 0, 0, none, [], 0, 0, none, none, 0, [], 0, 0⟩ } }
    pending := [] }

/-- No frame of the stripe is gathered and no stripe has ended, so no row is due (R338). -/
theorem overflowing_noRowDue (k u : Nat) : rowDue overflowing.dev k u = false := by
  by_cases h : k = 0
  · subst h
    have gathered : running overflowing.dev 0 = overflowing.dev.exp.run := rfl
    unfold rowDue
    rw [gathered]
    exact decide_eq_false (p := _ < 0) (Nat.not_lt_zero _)
  · have none : running overflowing.dev k = none := Option.filter_eq_none_iff.2 fun r hr => by
      obtain rfl := Option.some.inj hr
      simpa using Ne.symm h
    unfold rowDue
    rw [none]
    exact decide_eq_false (Nat.not_lt_zero k)

/-- Refutes O33: its clause on GAP_WAIT asks that no row is due before the command, and the command itself can make rows due. The
NAK of block 0 finds the request queue full, REQ_OVERFLOW at severity 2 aborts the stripe that runs (R434), the rows of an ended
stripe are due, and block 0, at which XPD stands, is given up, so that its NAK is no longer open (R119). -/
theorem not_blocksEnterTheStream : ¬ Obligations.BlocksEnterTheStream := by
  unfold Obligations.BlocksEnterTheStream
  intro h
  obtain ⟨-, -, gapWaits, -⟩ := h
  obtain ⟨t, ht, -, -, naks⟩ := gapWaits overflowing 0 rfl rfl (.inl overflowing_noRowDue)
  obtain rfl := Host.Outcome.next.inj ht
  obtain ⟨x, hx, -⟩ := naks 0 (by decide)
  have none : (gapWait overflowing.dev).spl.naks = [] := by decide
  rw [drive_spl, none] at hx
  exact List.not_mem_nil hx

end Sys2Proof.Machine
end

section
/-! SUPPORT. A record at the front of the stream: XPD takes it, and what its command then does is that record's own work (R81 to R83,
R199). -/

namespace Sys2Proof.Machine

/-! ### The stream's position -/

theorem splNext_of_cur {d : Dev} {b : SBlk} (hc : d.spl.cur = some b) (hr : b.recs ≠ some []) (n : Nat) : splNext n d = d := by
  cases n with
  | zero => rfl
  | succ n => simp only [splNext, hc, if_neg hr]

/-- While records of the block at hand remain, the stream goes no further. -/
theorem splGo_of_cur {d : Dev} {b : SBlk} (hc : d.spl.cur = some b) (hr : b.recs ≠ some []) : splGo d = d := by
  have next := splNext_of_cur hc hr
  have loop (n : Nat) : splLoop n d = d := by
    cases n with
    | zero => exact next _
    | succ n => simp [splLoop, next, nakDue, hc]
  unfold splGo
  split
  · rfl
  · exact loop _

/-- Consuming a record, others of its block behind it, moves nothing but the words at hand. -/
theorem recDone_of_cur {d : Dev} {b : SBlk} {w rest : List W32} (hc : d.spl.cur = some b) (hr : b.recs = some (w ++ rest))
    (hrest : rest ≠ []) : recDone d w = setSpl d fun s => { s with cur := some { b with recs := some rest } } := by
  have step : (setSpl d fun s => { s with cur := s.cur.map fun b => { b with recs := b.recs.map fun r => r.drop w.length } })
      = setSpl d fun s => { s with cur := some { b with recs := some rest } } := by
    simp [setSpl, hc, hr]
  unfold recDone
  rw [step]
  exact splGo_of_cur (b := { b with recs := some rest }) rfl (by simpa using hrest)

/-! ### The record at the front -/

namespace FrontRec

variable {d : Dev} {b : SBlk} {w rest : List W32} (h : FrontRec d b w rest)
include h

theorem cur : d.spl.cur = some b := h.1

theorem recs : b.recs = some (w ++ rest) := h.2.1

theorem wait : d.xpd.wait = none := h.2.2.2.2.2.2.2

theorem curType : curType d = b.btype := by
  unfold Machine.curType
  rw [h.cur]
  rfl

theorem splGo : splGo d = d := by
  refine splGo_of_cur h.cur ?_
  obtain ⟨-, hr, hw, -⟩ := h
  simp [hr, hw]

theorem headRec : headRec d = some w := by
  obtain ⟨hc, hr, hw, hlen, hz, -⟩ := h
  cases w with
  | nil => exact absurd rfl hw
  | cons x t =>
    have hx : bits x 31 10 = t.length + 1 := hlen
    have hz : bits x 9 8 = 0 := hz
    simp [Machine.headRec, hc, hr, hx, hz]

/-- XPD takes the record when it is of the command's type and length, in a block that may carry it (R82). -/
theorem withRec {typ len : Nat} {blocks : List Nat} (ht : recType w = typ) (hb : b.btype ∈ blocks)
    (hl : len = 0 ∨ w.length = len) (f : Dev → List W32 → Dev) : withRec d typ blocks len .none f = f d w := by
  have skip : ¬(recType w ≠ typ ∨ (!blocks.contains (Machine.curType d)) = true ∨ (len ≠ 0 ∧ w.length ≠ len) ∨
      (!blkRuns d .xpd .xpd) = true ∨ d.xpd.wait.isSome = true) := by
    obtain ⟨-, -, -, -, -, -, hruns, hwait⟩ := id h
    simp [ht, h.curType, hb, hruns, hwait]
    omega
  have clean : ¬((d.spl.cur.any fun b => b.bad) || decide (Upset.none = Upset.spool)) = true := by
    obtain ⟨hc, -, -, -, -, hbad, -⟩ := id h
    simp [hc, hbad]
  unfold Machine.withRec
  simp only [h.splGo, h.headRec]
  rw [if_neg skip, if_neg clean]

end FrontRec

/-- A record of a section that is open and taken up is carried out (R199). -/
theorem OpenSec.withSec {d : Dev} {sec : Sec} (h : OpenSec d sec) (w : List W32) (f : Dev → Sec → Dev) :
    withSec d w f = f d sec := by
  obtain ⟨hopen, -, hdrop, hpar, htodo, halt, hbst⟩ := h
  unfold Machine.withSec
  simp [hopen, hdrop, htodo, halt, hbst, Option.isNone_iff_eq_none, hpar]

/-- A record at the front of the stream: its command is the record's own work. -/
theorem does_withRec {s : State} {b : SBlk} {w rest : List W32} {c : Instr} {typ len : Nat} {blocks : List Nat}
    {f : Dev → List W32 → Dev} {P : Dev → Prop} (h : FrontRec s.dev b w rest)
    (hc : exec c s = runS s fun d => withRec d typ blocks len .none f) (ht : recType w = typ) (hb : b.btype ∈ blocks)
    (hl : len = 0 ∨ w.length = len) (hP : P (drive (settle (f s.dev w)))) : Does c s P :=
  does_of_runS hc ((h.withRec ht hb hl f).symm ▸ hP)

/-- The record is consumed after work that leaves the stream's position. -/
theorem recDone_front {d e : Dev} {b : SBlk} {w rest : List W32} (h : FrontRec d b w rest) (hrest : rest ≠ [])
    (hcur : e.spl.cur = d.spl.cur) (hpos : e.spl.pos = d.spl.pos) :
    (recDone e w).spl.cur = some { b with recs := some rest } ∧ (recDone e w).spl.pos = d.spl.pos ∧
    (recDone e w).xpd = e.xpd := by
  rw [recDone_of_cur (hcur.trans h.cur) h.recs hrest]
  exact ⟨rfl, hpos, rfl⟩

/-! ### Errors and injections met on the way (R603, R606) -/

/-- The response to an error moves nothing of the stream, the cells or the sections (R606 to R617). -/
theorem err_stream (d : Dev) (base b : Nat) (i0 i1 : W32) :
    (err d base b i0 i1).xpd = d.xpd ∧ (err d base b i0 i1).spl = d.spl ∧ (err d base b i0 i1).secs = d.secs := by
  have rest := err_errRest d base b i0 i1
  exact ⟨(congrArg Dev.xpd rest :), (congrArg Dev.spl rest :), (congrArg Dev.secs rest :)⟩

/-- What an injection does to a memory's work depends on the _INJECT word of its page alone (R603). -/
theorem injTake_fst_congr {d e : Dev} {base : Nat} (h : rg e (base + oINJECT) = rg d (base + oINJECT)) (w : Bool) :
    (injTake e base w).1 = (injTake d base w).1 := by
  unfold injTake
  dsimp only
  rw [h]
  split
  · rfl
  · rfl

@[simp] theorem injTake_xpd (d : Dev) (base : Nat) (w : Bool) : (injTake d base w).2.xpd = d.xpd := by rw [injTake_rest]
@[simp] theorem injTake_spl (d : Dev) (base : Nat) (w : Bool) : (injTake d base w).2.spl = d.spl := by rw [injTake_rest]

end Sys2Proof.Machine
end

section
/-! PROOF. PAD and the records of cells (R82, R88, R124, R125, R131 to R135). -/

namespace Sys2Proof.Machine

/-! ### The request queue and the cell cache -/

/-- A request entry changes neither the stream's position nor the cache, whether the queue has room for it or not (R125, R126). -/
theorem postReq_stream (d : Dev) (kind reason : Nat) (w1 w2 : W32) :
    (postReq d kind reason w1 w2).xpd = d.xpd ∧ (postReq d kind reason w1 w2).spl.cur = d.spl.cur ∧
    (postReq d kind reason w1 w2).spl.pos = d.spl.pos := by
  have overflow (seq : Nat) (cid : W32) :
      (splErr (setSpl d fun s => { s with ovf := true }) Bit.err_SPL_REQ_OVERFLOW seq cid).xpd = d.xpd ∧
      (splErr (setSpl d fun s => { s with ovf := true }) Bit.err_SPL_REQ_OVERFLOW seq cid).spl = { d.spl with ovf := true } := by
    obtain ⟨hx, hs, -⟩ := err_stream (setSpl d fun s => { s with ovf := true }) (Page.spl.base 0) Bit.err_SPL_REQ_OVERFLOW (w32 seq) cid
    exact ⟨hx, hs⟩
  unfold postReq
  split
  · dsimp only
    split
    · rw [(overflow _ _).1, (overflow _ _).2]
      exact ⟨rfl, rfl, rfl⟩
    · rw [(overflow _ _).1, (overflow _ _).2]
      exact ⟨rfl, rfl, rfl⟩
  · dsimp only
    split
    · rw [evt_xpd, evt_spl]
      exact ⟨rfl, rfl, rfl⟩
    · exact ⟨rfl, rfl, rfl⟩

/-- What a command on the cells leaves alone: the stream's position and the definition at hand. -/
def SameFront (d e : Dev) : Prop := e.xpd.defn = d.xpd.defn ∧ e.spl.cur = d.spl.cur ∧ e.spl.pos = d.spl.pos

/-- A cell that replaces any other of its number. -/
theorem find?_replace (l : List Cell) (c : Cell) (k : Nat) : (l.filter (fun o => o.id != c.id) ++ [c]).find? (fun o => o.id = k)
    = if k = c.id then some c else l.find? fun o => o.id = k := by
  rw [List.find?_append, List.find?_filter]
  by_cases h : k = c.id
  · subst h
    rw [List.find?_eq_none.2 (by simp)]
    simp
  · have same : (fun o : Cell => decide ((o.id != c.id) = true ∧ decide (o.id = k) = true)) = fun o => decide (o.id = k) := by
      funext o
      by_cases e : o.id = k
      · simp [e, h]
      · simp [e]
    rw [same]
    simp [h, Ne.symm h]

theorem cellOf_congr {d e : Dev} (h : e.xpd = d.xpd) (k : Nat) : cellOf e k = cellOf d k := by
  unfold cellOf
  rw [h]

/-- The record of a cell after a change that keeps the cells' numbers. -/
theorem cellOf_setCell (d : Dev) (id k : Nat) (f : Cell → Cell) (hf : ∀ c, (f c).id = c.id) :
    cellOf (setCell d id f) k = (cellOf d k).map fun c => if c.id = id then f c else c := by
  unfold cellOf setCell setXpd
  dsimp only
  rw [List.find?_map]
  congr 2
  funext c
  simp only [Function.comp_apply]
  split
  · rw [hf]
  · rfl

theorem cellRefetch_eq {d : Dev} {c : Cell} (hc : cellOf d c.id = some c) (reason : Nat) :
    SameFront d (cellRefetch d c.id reason) ∧
    ∀ k, cellOf (cellRefetch d c.id reason) k = if k = c.id then some { c with refetch := true } else cellOf d k := by
  unfold cellRefetch
  simp only [hc]
  by_cases hr : c.refetch = true
  · rw [if_pos hr]
    refine ⟨⟨rfl, rfl, rfl⟩, fun k => ?_⟩
    split
    · next e => rw [e, hc, ← hr]
    · rfl
  · rw [if_neg hr]
    obtain ⟨hx, hcur, hpos⟩ := postReq_stream (setCell d c.id fun c => { c with refetch := true }) 2 reason (w32 c.id) c.cid
    refine ⟨⟨by rw [hx]; rfl, hcur, hpos⟩, fun k => ?_⟩
    have cells := cellOf_setCell d c.id k (fun c => { c with refetch := true }) fun _ => rfl
    rw [cellOf_congr hx, cells]
    split
    · next e => rw [e, hc]; simp
    · next e =>
      cases h : cellOf d k with
      | none => rfl
      | some o =>
        have : o.id = k := by simpa using List.find?_some h
        simp [this, e]

/-- A definition as the directory takes it, its refetch open if one was (R132, R135). -/
def cellNew (d : Dev) (c : Cell) : Cell :=
  { c with defd := true, boxBad := false, refetch := c.bad && (cellOf d c.id).any fun o => o.refetch }

/-- The block with that definition in place of any other of its number, once the store has met an armed injection (R132, R603). -/
def cellStored (d : Dev) (c : Cell) : Dev :=
  setXpd (injTake d (Page.xpd.base 0) true).2 fun x => { x with cells := x.cells.filter (fun o => o.id != c.id) ++ [cellNew d c] }

theorem cellStored_sameFront (d : Dev) (c : Cell) : SameFront d (cellStored d c) := by
  unfold SameFront cellStored setXpd
  simp

theorem cellOf_cellStored (d : Dev) (c : Cell) (k : Nat) :
    cellOf (cellStored d c) k = if k = c.id then some (cellNew d c) else cellOf d k := by
  unfold cellOf cellStored setXpd
  simp only [injTake_xpd]
  exact find?_replace d.xpd.cells (cellNew d c) k

/-- A definition is stored when the cache has room for it in place of what it frees, and the directory an entry (R132). -/
theorem cellDefine_eq {d : Dev} {c : Cell} (hinj : (injTake d (Page.xpd.base 0) true).1 < 2) (hwait : d.xpd.wait = none)
    (hspace : cacheUsed d - (cellOf d c.id).elim 0 cellBytes + cellBytes { c with defd := true } ≤ rgnSize d 1)
    (hroom : d.xpd.cells.countP (fun x => x.defd && x.id != c.id) < 1048576) :
    cellDefine d c false = if c.bad then cellRefetch (cellStored d c) c.id 8 else cellStored d c := by
  have size : rgnSize (injTake d (Page.xpd.base 0) true).2 1 = rgnSize d 1 := by
    unfold rgnSize fd
    rw [rg_injTake d _ true (by decide) (by decide)]
  have used : cacheUsed (injTake d (Page.xpd.base 0) true).2 = cacheUsed d := by
    unfold cacheUsed
    rw [injTake_xpd]
  have new : ({ c with defd := true, boxBad := decide (2 ≤ (injTake d (Page.xpd.base 0) true).1)
                       refetch := c.bad && (cellOf d c.id).any fun o => o.refetch } : Cell) = cellNew d c := by
    unfold cellNew
    rw [decide_eq_false (by omega)]
  have bytes : cellBytes (cellNew d c) = cellBytes { c with defd := true } := rfl
  have waits : (cellStored d c).xpd.wait = none := by
    unfold cellStored setXpd
    simp [hwait]
  unfold cellDefine
  simp only [new, size, used, bytes, injTake_xpd]
  rw [if_pos]
  · change (if c.bad = true then cellRefetch (cellStored d c) c.id 8 else match (cellStored d c).xpd.wait with
      | some (id, _) => _
      | none => cellStored d c) = _
    rw [waits]
  · rw [Bool.and_eq_true]
    refine ⟨decide_eq_true ?_, decide_eq_true hroom⟩
    cases h : cellOf d c.id with
    | none => simpa only [h, Option.elim_none] using hspace
    | some o => simpa only [h, Option.elim_some] using hspace

/-- A definition that finds room in cache and directory takes the place of any other of its number, with its refetch open when poison
fell on it (R131, R132, R135). -/
theorem cellDefine_room {d : Dev} {c : Cell} (hinj : (injTake d (Page.xpd.base 0) true).1 < 2) (hwait : d.xpd.wait = none)
    (hspace : cacheUsed d - (cellOf d c.id).elim 0 cellBytes + cellBytes { c with defd := true } ≤ rgnSize d 1)
    (hroom : d.xpd.cells.countP (fun x => x.defd && x.id != c.id) < 1048576) :
    SameFront d (cellDefine d c false) ∧ ∀ k, cellOf (cellDefine d c false) k =
      if k = c.id then some { c with defd := true, boxBad := false, refetch := c.bad } else cellOf d k := by
  have hcells := cellOf_cellStored d c
  rw [cellDefine_eq hinj hwait hspace hroom]
  by_cases hbad : c.bad = true
  · obtain ⟨hdefn, hcur, hpos⟩ := cellStored_sameFront d c
    have hself : cellOf (cellStored d c) (cellNew d c).id = some (cellNew d c) := (hcells _).trans (if_pos rfl)
    obtain ⟨⟨hdefn', hcur', hpos'⟩, hcells'⟩ := cellRefetch_eq hself 8
    rw [if_pos hbad]
    refine ⟨⟨hdefn'.trans hdefn, hcur'.trans hcur, hpos'.trans hpos⟩, fun k => (hcells' k).trans ?_⟩
    by_cases e : k = c.id
    · simp [e, cellNew, hbad]
    · simp [e, cellNew, hcells]
  · rw [if_neg hbad]
    refine ⟨cellStored_sameFront d c, fun k => (hcells k).trans ?_⟩
    simp [cellNew, hbad]

/-- CELL_CLOSE: the open definition is closed and defines its cell. -/
theorem cellClose_defines {d : Dev} {c : Cell} (hinj : (injTake d (Page.xpd.base 0) true).1 < 2) (hwait : d.xpd.wait = none)
    (hspace : cacheUsed d - (cellOf d c.id).elim 0 cellBytes + cellBytes { c with defd := true } ≤ rgnSize d 1)
    (hroom : d.xpd.cells.countP (fun x => x.defd && x.id != c.id) < 1048576) :
    (cellDefine (setXpd d fun x => { x with defn := none }) c false).xpd.defn = none ∧
    (cellDefine (setXpd d fun x => { x with defn := none }) c false).spl.cur = d.spl.cur ∧
    (cellDefine (setXpd d fun x => { x with defn := none }) c false).spl.pos = d.spl.pos ∧
    ∀ k, cellOf (cellDefine (setXpd d fun x => { x with defn := none }) c false) k =
      if k = c.id then some { c with defd := true, boxBad := false, refetch := c.bad } else cellOf d k := by
  have inj : (injTake (setXpd d fun x => { x with defn := none }) (Page.xpd.base 0) true).1 < 2 :=
    (injTake_fst_congr (rg_setXpd d _ _) true).symm ▸ hinj
  obtain ⟨⟨hd, hc, hp⟩, hcells⟩ := cellDefine_room (c := c) inj hwait hspace hroom
  exact ⟨hd, hc, hp, hcells⟩

/-! ### The obligation -/

/-- Settles O34: the record's work leaves the position of the stream, and consuming it leaves the cells. -/
theorem recordsOfCells : Obligations.RecordsOfCells := by
  unfold Obligations.RecordsOfCells
  intro s b w rest h hrest next
  have consumed {e : Dev} (hcur : e.spl.cur = s.dev.spl.cur) (hpos : e.spl.pos = s.dev.spl.pos) :
      next (drive (settle (recDone e w))) ∧ (drive (settle (recDone e w))).xpd = e.xpd := by
    obtain ⟨hc, hp, hx⟩ := recDone_front h hrest hcur hpos
    simp only [next, drive_spl, settle_spl, drive_xpd, settle_xpd]
    exact ⟨⟨hc, hp⟩, hx⟩
  have cid : (s.dev.spl.cur.map (·.cid)).getD 0 = b.cid := by rw [h.cur]; rfl
  refine ⟨?_, ?_, ?_, ?_, ?_⟩
  · intro ht hb
    exact does_withRec h rfl ht (by simpa using hb) (.inl rfl) (consumed rfl rfl)
  · intro ht hl hb
    refine does_withRec h rfl ht (by simp [hb]) (.inr hl) ?_
    dsimp only
    rw [cid]
    exact consumed rfl rfl
  · intro c ht hl hb hdefn hid hinj c' freed hspace hroom
    refine does_withRec h rfl ht (by simp [hb]) (.inr hl) ?_
    have id : (rw w 1).toNat = c.id := hid.symm
    have cid : (s.dev.spl.cur.map (·.cid)).getD c.cid = b.cid := by rw [h.cur]; rfl
    simp only [hdefn, cid, id, if_true]
    have space : cacheUsed s.dev - (cellOf s.dev c.id).elim 0 cellBytes + cellBytes c' ≤ rgnSize s.dev 1 := by
      have freed_eq : freed = (cellOf s.dev c.id).elim 0 cellBytes := by
        cases e : cellOf s.dev c.id <;> simp [freed, e]
      exact freed_eq ▸ hspace
    obtain ⟨hd, hc, hp, hcells⟩ := cellClose_defines (c := { c with cid := b.cid }) hinj h.wait space hroom
    obtain ⟨hnext, hx⟩ := consumed hc hp
    refine ⟨hnext, (congrArg Xpd.defn hx).trans hd, ?_, fun k hk => ?_⟩
    · rw [cellOf_congr hx, hcells, if_pos rfl]
    · rw [cellOf_congr hx, hcells, if_neg hk]
  · intro ht hl hb
    refine does_withRec h rfl ht (by simp [hb]) (.inr hl) ?_
    dsimp only
    by_cases deaf : s.dev.xpd.deaf = true
    · rw [if_pos deaf, if_pos deaf]
      exact consumed rfl rfl
    · rw [if_neg deaf, if_neg deaf]
      exact consumed rfl rfl
  · intro c hb hdefn stored
    have lib : stored (drive (settle (recLib s.dev w))) := by
      obtain ⟨hnext, hx⟩ := consumed (e := setXpd s.dev fun x =>
        { x with defn := x.defn.map fun c => { c with recs := c.recs ++ [w] } }) rfl rfl
      refine ⟨hnext, (congrArg Xpd.defn hx).trans ?_⟩
      simp [setXpd, hdefn]
    have placed : stored (drive (settle (placeRec s.dev w .none))) := by
      unfold placeRec
      rw [h.curType, if_pos hb]
      exact lib
    refine ⟨fun ht hf => ?_, fun ht hl => ?_, fun ht hl => ?_⟩
    · obtain ⟨f, hf⟩ := hf
      refine does_withRec h rfl ht (by simp [hb]) (.inl rfl) ?_
      simp only [hf, h.curType, hb, if_true]
      exact lib
    · exact does_withRec h rfl ht (by simp [hb]) (.inr hl) placed
    · exact does_withRec h rfl ht (by simp [hb]) (.inr hl) placed

end Sys2Proof.Machine
end

section
/-! SUPPORT. What bringing the stream forward and completing bands can change, said once (R115 to R124, R188, R200, R317): of the
sections their pieces, bands, patch records and lost rows alone, and words of SPL, BST and BOB beside those of the response to an
error. -/

namespace Sys2Proof.Machine

/-- A section without what the stream's later work adds to it or takes from it. -/
def Sec.head (s : Sec) : Sec := { s with
  pieces := [], cutBand := 0, bands := 0, todo := none, rho := [], bad := [], patches := [], blank := [] }

/-- The words that may change: those of an error's response, and those of SPL's, BST's and BOB's pages. -/
def StreamWord (a : Nat) : Prop := ErrWord a ∨ a / 0x1000 = 0x30 ∨ a / 0x1000 = 0x50 ∨ a / 0x1000 = 0xB0

/-- The pages of SPL, BST and BOB. -/
def StreamPage (base : Nat) : Prop := base = Page.spl.base 0 ∨ base = Page.bst.base 0 ∨ base = Page.bob.base 0

theorem StreamPage.word {base : Nat} (h : StreamPage base) {o : Nat} (ho : o < 0x1000) : StreamWord (base + o) := by
  simp only [StreamPage, Page.base] at h
  unfold StreamWord
  omega

/-- No stream page's error or injection word is SPL's _EVT_PEND. -/
theorem StreamPage.ne_flags {base : Nat} (h : StreamPage base) {o : Nat} (ho : o < 0x1000) (hne : o ≠ oEVTPEND) :
    Page.spl.base 0 + oEVTPEND ≠ base + o := by
  simp only [StreamPage, Page.base] at h
  simp only [oEVTPEND, Page.base] at hne ⊢
  omega

/-- `e` comes from `d` by bringing the stream forward: the sections are the same but for what `Sec.head` leaves out, SPL's events
stay pending, and no word beside the stream's changes. -/
structure StreamStep (d e : Dev) : Prop where
  opens : e.spl.opens = d.spl.opens
  secs : e.secs.map Sec.head = d.secs.map Sec.head
  words : ∀ a, ¬StreamWord a → rg e a = rg d a
  flags : ∀ b, pends d (Page.spl.base 0) b = true → pends e (Page.spl.base 0) b = true

theorem pends_congr {d e : Dev} {base : Nat} (h : rg e (base + oEVTPEND) = rg d (base + oEVTPEND)) (b : Nat) :
    pends e base b = pends d base b := by
  unfold pends
  rw [h]

/-- The words of an error's response, but for the _INJECT words. -/
def errWords : List Nat :=
  [Adr.FCL_CNT, Adr.FCL_FIRST, Adr.FCL_FIRST_S, Adr.FCL_FIRST_NS, Page.fcl.base 0 + oEVTPEND, Page.fcl.base 0 + oERRLATCH,
   Page.fcl.base 0 + oINFO0, Page.fcl.base 0 + oINFO1, Adr.MEI_CNT_CE, Adr.MUZ_CNT, Page.muz.base 0 + oEVTPEND, Adr.BOB_MEND_WR,
   Page.bob.base 0 + oEVTPEND, Adr.EXP_HWM, Page.exp.base 0 + oEVTPEND, Adr.GLB_SEAL_INDEX, Adr.GLB_SEAL_WR, Adr.GLB_SEAL_STAT,
   Page.glb.base 0 + oEVTPEND]

theorem errWord_listed {a : Nat} (h : ErrWord a) : a % 0x1000 = oINJECT ∨ a ∈ errWords := by
  by_cases inj : a % 0x1000 = oINJECT
  · exact .inl inj
  · have fcl : a ≠ Page.fcl.base 0 + oINJECT := by rintro rfl; exact inj (by decide)
    have mc : ¬∃ p, a = Page.mc.base p + oINJECT := by
      rintro ⟨p, rfl⟩
      exact inj (by rw [Nat.add_mod, base_mod]; decide)
    unfold ErrWord at h
    simp only [fcl, mc, false_or, or_false] at h
    exact .inr (by simpa only [errWords, List.mem_cons, List.not_mem_nil, or_false] using h)

theorem not_errWord_flags : ¬ErrWord (Page.spl.base 0 + oEVTPEND) := fun h => absurd (errWord_listed h) (by decide)

namespace StreamStep

variable {d e f : Dev}

/-! ### Elementary changes -/

theorem trans (h : StreamStep d e) (k : StreamStep e f) : StreamStep d f :=
  ⟨k.opens.trans h.opens, k.secs.trans h.secs, fun a ha => (k.words a ha).trans (h.words a ha), fun b hb => k.flags b (h.flags b hb)⟩

/-- The later part first. -/
theorem after (k : StreamStep e f) (h : StreamStep d e) : StreamStep d f := h.trans k

theorem same (hs : e.secs = d.secs) (ho : e.spl.opens = d.spl.opens) (hr : e.regs = d.regs) : StreamStep d e :=
  ⟨ho, by rw [hs], fun a _ => rg_congr hr a, fun b hb => (pends_congr (rg_congr hr _) b).trans hb⟩

theorem refl (d : Dev) : StreamStep d d := same rfl rfl rfl

theorem ite {c : Prop} [Decidable c] (h : StreamStep d e) (k : StreamStep d f) : StreamStep d (if c then e else f) := by
  split
  · exact h
  · exact k

theorem foldl {α : Type} {f : Dev → α → Dev} (h : ∀ d x, StreamStep d (f d x)) (l : List α) (d : Dev) :
    StreamStep d (l.foldl f d) := by
  induction l generalizing d with
  | nil => exact refl d
  | cons x l ih => exact (h d x).trans (ih _)

theorem word (d : Dev) {a : Nat} (v : W32) (h : StreamWord a) (hf : Page.spl.base 0 + oEVTPEND ≠ a) : StreamStep d (wr d a v) :=
  ⟨rfl, rfl, fun _ hb => rg_wr_ne d v fun e => hb (e ▸ h), fun b hb => (pends_congr (rg_wr_ne d v hf) b).trans hb⟩

theorem sec (d : Dev) (k : Nat) {f : Sec → Sec} (hf : ∀ s, (f s).head = s.head) : StreamStep d (setSec d k f) := by
  refine ⟨rfl, ?_, fun a _ => rg_setSec d k f a, fun b hb => hb⟩
  unfold setSec
  rw [List.map_map]
  refine List.map_congr_left fun s _ => ?_
  rw [Function.comp_apply]
  split
  · exact hf s
  · rfl

theorem spl (d : Dev) {f : Spl → Spl} (h : (f d.spl).opens = d.spl.opens) : StreamStep d (setSpl d f) := same rfl h rfl

theorem of_errFrame (h : ErrFrame d e) : StreamStep d e where
  opens := (congrArg (fun d : Dev => d.spl.opens) h.view :)
  secs := congrArg (List.map Sec.head) (congrArg Dev.secs h.view :)
  words a ha := h.words a fun w => ha (.inl w)
  flags b hb := (pends_congr (h.words _ not_errWord_flags) b).trans hb

theorem evt (d : Dev) {base b : Nat} (hp : StreamPage base) (hb : b < 32) : StreamStep d (evt d base b) := by
  refine ⟨by rw [evt_spl], by rw [evt_secs], fun a ha => ?_, fun i hi => ?_⟩
  · exact rg_evt_ne d base b fun e => ha (e ▸ hp.word (by decide))
  · unfold pends at hi ⊢
    rw [rg_evt]
    split
    · next h =>
      rw [bit_putBit _ _ _ _ hb, ← h, hi, ite_self]
    · exact hi

theorem err (d : Dev) {base : Nat} (b : Nat) (i0 i1 : W32) (hp : StreamPage base) : StreamStep d (err d base b i0 i1) := by
  obtain ⟨-, hspl, hsecs⟩ := err_stream d base b i0 i1
  refine ⟨by rw [hspl], by rw [hsecs], fun a ha => ?_, fun i hi => ?_⟩
  · exact rg_err d base b i0 i1 (fun w => ha (.inl w)) (fun e => ha (e ▸ hp.word (by decide)))
      (fun e => ha (e ▸ hp.word (by decide))) (fun e => ha (e ▸ hp.word (by decide)))
  · refine (pends_congr (rg_err d base b i0 i1 not_errWord_flags ?_ ?_ ?_) i).trans hi
    all_goals exact hp.ne_flags (by decide) (by decide)

theorem injTake (d : Dev) (w : Bool) : StreamStep d (injTake d (Page.bst.base 0) w).2 := by
  have words {a : Nat} (h : a ≠ Page.bst.base 0 + oINJECT) (hc : a ≠ Adr.MEI_CNT_CE) := rg_injTake d (Page.bst.base 0) w h hc
  refine ⟨by rw [injTake_spl], by rw [injTake_rest], fun a ha => words ?_ ?_, fun b hb => ?_⟩
  · rintro rfl
    exact ha (StreamPage.word (.inr (.inl rfl)) (by decide))
  · rintro rfl
    exact ha (.inl (by unfold ErrWord; simp))
  · exact (pends_congr (words (by decide) (by decide)) b).trans hb

/-! ### Lost rows (R56, R121) -/

theorem listCheck (d : Dev) : StreamStep d (listCheck d) :=
  ite ((of_errFrame (halt_errFrame _)).after ((err _ _ _ _ (.inr (.inr rfl))).after (of_errFrame (abortStripe_errFrame _ _)))) (refl d)

theorem addEnts (d : Dev) (l : List MEnt) : StreamStep d (addEnts d l) :=
  ite (refl d) ((listCheck _).after (of_errFrame (putEnts_errFrame l d)))

theorem spanEnts (d : Dev) (blk : Blk) (t : Tkt) (b cause : Nat) (rows : List Nat) : StreamStep d (spanEnts d blk t b cause rows) :=
  ite (refl d) (addEnts _ _)

theorem blankRows (d : Dev) (k : Nat) (rows : List Nat) : StreamStep d (blankRows d k rows) := sec d k fun _ => rfl

theorem spanRows (d : Dev) (blk : Blk) (s : Sec) (cause : Nat) (rows : List Nat) : StreamStep d (spanRows d blk s cause rows) :=
  (spanEnts _ _ _ _ _ _).after (blankRows _ _ _)

/-! ### The stream's position (R115 to R124) -/

theorem postReq (d : Dev) (kind reason : Nat) (w1 w2 : W32) : StreamStep d (postReq d kind reason w1 w2) := by
  have overflow (seq : Nat) (cid : W32) :
      StreamStep d (splErr (setSpl d fun s => { s with ovf := true }) Bit.err_SPL_REQ_OVERFLOW seq cid) :=
    (err _ _ _ _ (.inl rfl)).after (spl d rfl)
  unfold Machine.postReq
  dsimp only
  refine ite (ite (overflow _ _) (overflow _ _)) (ite ((evt _ (.inl rfl) (by decide)).after (spl d rfl)) (spl d rfl))

theorem postNak (d : Dev) (seq : Nat) (hdr : Option SBlk) (reason : Nat) : StreamStep d (postNak d seq hdr reason) :=
  (postReq _ _ _ _ _).after (ite (refl d) (spl d rfl))

theorem spoolDrop (d : Dev) (b : SBlk) : StreamStep d (spoolDrop d b) := same rfl rfl rfl

theorem passGone (d : Dev) (hdr : Option SBlk) : StreamStep d (passGone d hdr) := by
  unfold Machine.passGone
  dsimp only
  exact ite (same rfl rfl rfl) (same rfl rfl rfl)

theorem splNext (n : Nat) (d : Dev) : StreamStep d (splNext n d) := by
  induction n generalizing d with
  | zero => exact refl d
  | succ n ih =>
    unfold Machine.splNext
    split
    · exact ite ((ih _).after (same rfl rfl rfl)) (refl d)
    · split
      · exact refl d
      · exact refl d
      · exact (ih _).after (passGone d _)
      · split
        · exact refl d
        · exact ite (refl d) (ite ((postNak _ _ _ _).after (same rfl rfl rfl)) ((ih _).after (spl d rfl)))

theorem roleSettle (d : Dev) : StreamStep d (roleSettle d) := by
  unfold Machine.roleSettle
  refine foldl (fun d n => ?_) _ d
  dsimp only
  exact ite (refl d) (ite (same rfl rfl rfl) (same rfl rfl rfl))

theorem streamLost (d : Dev) (seq : Nat) (cid : W32) : StreamStep d (streamLost d seq cid) := by
  have drops := foldl spoolDrop ((heldBlks d).map (·.2) ++ d.spl.refs) d
  exact after (err _ _ _ _ (.inl rfl)) (after (roleSettle _) (drops.trans (same rfl rfl rfl)))

theorem lostRows (d : Dev) (k : Nat × Option (List W32)) (lo hi : Int) : StreamStep d (lostRows d k lo hi) := by
  unfold Machine.lostRows
  split
  · dsimp only
    exact (spanEnts _ _ _ _ _ _).after (ite (blankRows _ _ _) (spl d rfl))
  · exact spl d rfl

theorem giveUp (d : Dev) (n : Nat) : StreamStep d (giveUp d n) := by
  have counted (f : Spl → Spl) (hf : (f d.spl).opens = d.spl.opens) (cid : W32) :
      StreamStep d (splErr (inc (setSpl d f) Adr.SPL_CNT_GIVEUP) Bit.err_SPL_GIVEUP n cid) :=
    (err _ _ _ _ (.inl rfl)).after ((word _ _ (.inr (.inl rfl)) (by decide)).after (spl d hf))
  unfold Machine.giveUp
  dsimp only
  split
  · exact ite ((lostRows _ _ _ _).after (counted _ rfl _)) (ite (counted _ rfl _) ((streamLost _ _ _).after (counted _ rfl _)))
  · split
    · exact ite ((lostRows _ _ _ _).after (counted _ rfl _)) ((streamLost _ _ _).after (counted _ rfl _))
    · exact (streamLost _ _ _).after (counted _ rfl _)

theorem splLoop (n : Nat) (d : Dev) : StreamStep d (splLoop n d) := by
  induction n generalizing d with
  | zero => exact splNext _ d
  | succ n ih => exact ite ((ih _).after ((giveUp _ _).after (splNext _ d))) (splNext _ d)

theorem splGo (d : Dev) : StreamStep d (splGo d) := ite (refl d) (splLoop _ d)

theorem recDone (d : Dev) (w : List W32) : StreamStep d (recDone d w) := (splGo _).after (spl d rfl)

/-! ### Bands (R188, R200, R317) -/

theorem writePatches (n : Nat) (d : Dev) (num : Nat) : StreamStep d (writePatches n d num) := by
  induction n generalizing d with
  | zero => exact refl d
  | succ n ih =>
    have bst {a : Nat} (h : a / 0x1000 = 0x50) : StreamWord a ∧ Page.spl.base 0 + oEVTPEND ≠ a :=
      ⟨.inr (.inr (.inl h)), by simp only [Page.base, oEVTPEND]; omega⟩
    unfold Machine.writePatches
    split
    · exact refl d
    · next s _ =>
      split
      · next q p rest _ =>
        have put := sec d num (f := fun x => { x with patches := x.patches ++ [(mkPatch d s p q).1], todo := some rest }) fun _ => rfl
        have store (e : Dev) {a : Nat} (v : W32) (h : a / 0x1000 = 0x50) : StreamStep e (wr e a v) := word e v (bst h).1 (bst h).2
        dsimp only
        refine ite (refl d) (after (ih _) (after (store _ _ (by decide)) (after (store _ _ (by decide))
          (after (store _ _ (by decide)) (after (store _ _ (by decide)) (after (store _ _ (by decide)) ?_))))))
        exact put.trans (same rfl rfl rfl)
      · exact refl d

theorem poisonCell (d : Dev) (num : Nat) (b : Nat) (w : BadWord) : StreamStep d (poisonCell d num .bst .bst b w) := by
  unfold Machine.poisonCell
  split
  split
  · exact refl d
  · split
    · exact refl d
    · exact (spanRows _ _ _ _ _).after ((err _ _ _ _ (.inr (.inl rfl))).after (sec d num fun _ => rfl))

theorem bandBegin (d : Dev) (num : Nat) (acc : Option BadWord) : StreamStep d (bandBegin d num acc) := by
  unfold Machine.bandBegin
  split
  · exact refl d
  · have taken : StreamStep d (injAny d (Page.bst.base 0)).2 := (injTake _ true).after (injTake d false)
    dsimp only
    refine after (sec _ num fun _ => rfl) ?_
    unfold pageUpset
    dsimp only
    split
    · exact (poisonCell _ _ _ _).after taken
    · exact taken

theorem bandEnd (d : Dev) (num : Nat) : StreamStep d (bandEnd d num) := by
  have event (e : Dev) {b : Nat} (hb : b < 32) : StreamStep e (Machine.evt e (Page.bst.base 0) b) := evt e (.inr (.inl rfl)) hb
  unfold Machine.bandEnd
  split
  · exact refl d
  · dsimp only
    refine ite ?_ (refl d)
    refine ite ((event _ (by decide)).after ?_) ?_
    all_goals
      refine after (event _ (by decide)) (after (word _ _ (.inr (.inr (.inl rfl))) (by decide)) (sec d num fun _ => rfl))

theorem bandsUpTo (n : Nat) (d : Dev) (num upto : Nat) (acc : Option BadWord) : StreamStep d (bandsUpTo n d num upto acc) := by
  induction n generalizing d with
  | zero => exact refl d
  | succ n ih =>
    unfold Machine.bandsUpTo
    split
    · exact refl d
    · next s _ =>
      have written (e : Dev) : StreamStep e (Machine.bandEnd (Machine.writePatches (16 * s.b + 1) e num) num) :=
        (bandEnd _ _).after (writePatches _ _ _)
      have go (e : Dev) : StreamStep e (match secOf (Machine.bandEnd (Machine.writePatches (16 * s.b + 1) e num) num) num with
          | some x => if x.todo.isSome then Machine.bandEnd (Machine.writePatches (16 * s.b + 1) e num) num
              else Machine.bandsUpTo n (Machine.bandEnd (Machine.writePatches (16 * s.b + 1) e num) num) num upto acc
          | none => Machine.bandEnd (Machine.writePatches (16 * s.b + 1) e num) num) := by
        split
        · exact ite (written e) ((ih _).after (written e))
        · exact written e
      exact ite (refl d) (ite (go d) (ite ((go _).after (bandBegin d num acc)) (refl d)))

theorem bandsGo (d : Dev) (num : Nat) (acc : Option BadWord) : StreamStep d (bandsGo d num acc) := by
  unfold Machine.bandsGo
  split
  · exact refl d
  · exact bandsUpTo _ _ _ _ _

end StreamStep

/-! ### Settling -/

/-- What settling does to a section: it frees patch records, and of a section of which nothing is left its pieces (R317). -/
theorem settle_secs (d : Dev) : ∃ g : Sec → Sec, (settle d).secs = d.secs.map g ∧
    ∀ s, (g s).head = s.head ∧ (s.closed = false → (g s).pieces = s.pieces) := by
  have look (e : Dev) : (lookCheck e).secs = e.secs := by
    unfold lookCheck
    dsimp only
    split <;> split <;> simp only [evt_secs, inc_secs]
  unfold settle
  rw [look]
  refine ⟨_, rfl, fun s => ?_⟩
  dsimp only
  split
  · next h =>
    refine ⟨rfl, fun hc => ?_⟩
    simp [hc] at h
  · exact ⟨rfl, fun _ => rfl⟩

theorem StreamStep.settle (d : Dev) : StreamStep d (settle d) := by
  obtain ⟨g, hg, hs⟩ := settle_secs d
  have words {a : Nat} (h : a / 0x1000 ≠ 0xB0) : rg (Machine.settle d) a = rg d a :=
    rg_settle d (by rintro rfl; exact h rfl) (by rintro rfl; exact h rfl)
  refine ⟨by rw [settle_spl], ?_, fun a ha => words fun e => ha (.inr (.inr (.inr e))), fun b hb => ?_⟩
  · rw [hg, List.map_map]
    exact List.map_congr_left fun s _ => (hs s).1
  · exact (pends_congr (words (by decide)) b).trans hb

/-- A section that stands before the stream is brought forward stands after it, as far as `Sec.head` tells. -/
theorem StreamStep.mem {d e : Dev} (h : StreamStep d e) {s : Sec} (hs : s ∈ d.secs) : ∃ x ∈ e.secs, x.head = s.head := by
  have := List.mem_map_of_mem (f := Sec.head) hs
  rw [← h.secs] at this
  exact List.mem_map.1 this

end Sys2Proof.Machine
end

section
/-! PROOF. Records of sections, and the slot registers that the stream writes (R84 to R86, R105 to R114, R161). -/

namespace Sys2Proof.Machine

/-! ### After a record -/

namespace StreamStep

theorem drive (d : Dev) : StreamStep d (drive d) := same (drive_secs d) (by rw [drive_spl]) (drive_regs d)

/-- What is left to do once a record's own work is done: the stream is brought forward and BOB frees space. -/
theorem finish (d : Dev) (w : List W32) : StreamStep d (Machine.drive (Machine.settle (Machine.recDone d w))) :=
  ((recDone d w).trans (settle _)).trans (drive _)

theorem oweRows (d : Dev) (s : Sec) : StreamStep d (oweRows d s) := by
  refine trans (spl d (f := fun p => { p with owed := p.owed.filter fun o => o.1 != s.num }) rfl) ?_
  exact foldl (fun _ _ => ite (blankRows _ _ _) (spanRows _ _ _ _ _)) _ _

theorem snapMatch (d : Dev) (num : Nat) (index : W32) : StreamStep d (snapMatch d num index) := same rfl rfl rfl

end StreamStep

/-! ### Fields (R161) -/

/-- A field boundary shows field and grid, and moves nothing of the sections (R161). -/
theorem fieldBoundary_eq (d : Dev) (s : Sec) : (fieldBoundary d s).secs = d.secs ∧ (fieldBoundary d s).spl = d.spl ∧
    rg (fieldBoundary d s) Adr.ALT_CUR = w32 (s.fieldId * 65536 + s.gridId) := by
  unfold fieldBoundary
  simp only [evt_secs, evt_spl]
  refine ⟨rfl, rfl, ?_⟩
  rw [rg_evt_ne _ _ _ (by decide), rg_wr_ne _ _ (by decide), rg_setFd, if_neg (by decide), rg_wr_self]

theorem altCur_not_streamWord : ¬StreamWord Adr.ALT_CUR := by
  rintro (h | h)
  · exact absurd (errWord_listed h) (by decide)
  · exact absurd h (by decide)

/-! ### STRIPE_OPEN (R105, R106) -/

/-- The section that a STRIPE_OPEN record opens (R105). -/
def sectionOpened (d : Dev) (w : List W32) : Sec :=
  let t := openTkt d.spl.opens w
  { num := d.spl.opens, slotB := t.slotB, b := slotBands d t.slotB, minus := t.minus, len := t.len, tkt := t
    selvBins := bits (rw w 9) 31 24, reachBins := bits (rw w 9) 23 16, selvX := bits (rw w 9) 13 0
    orx := rwS w 10, ory := rwS w 11, fieldId := t.fieldId, gridId := t.gridId }

/-- The block with that section behind the others, which are closed. -/
def withOpened (d : Dev) (w : List W32) : Dev :=
  { setSpl d fun p => { p with opens := d.spl.opens + 1 } with
    secs := d.secs.map (fun s => { s with closed := true }) ++ [sectionOpened d w] }

/-- The block once the section's owed rows are made and its field is in force. -/
def sectionStarted (d : Dev) (w : List W32) : Dev :=
  fieldBoundary (oweRows (snapMatch (withOpened d w) d.spl.opens (openTkt d.spl.opens w).index) (sectionOpened d w)) (sectionOpened d w)

theorem sectionStarted_eq (d : Dev) (w : List W32) : (sectionStarted d w).spl.opens = d.spl.opens + 1 ∧
    (∃ x ∈ (sectionStarted d w).secs, x.head = (sectionOpened d w).head) ∧
    rg (sectionStarted d w) Adr.ALT_CUR = w32 (bits (rw w 2) 31 16 * 65536 + bits (rw w 3) 15 0) := by
  have owed := (StreamStep.snapMatch (withOpened d w) d.spl.opens (openTkt d.spl.opens w).index).trans
    (StreamStep.oweRows _ (sectionOpened d w))
  have last : sectionOpened d w ∈ (withOpened d w).secs := List.mem_append_right _ (List.mem_singleton_self _)
  obtain ⟨hsecs, hspl, hcur⟩ := fieldBoundary_eq (oweRows (snapMatch (withOpened d w) d.spl.opens (openTkt d.spl.opens w).index)
    (sectionOpened d w)) (sectionOpened d w)
  unfold sectionStarted
  rw [hsecs, hspl]
  exact ⟨owed.opens, owed.mem last, hcur⟩

/-! ### Slot registers (R84 to R86, R556) -/

theorem rg_storeReg_ne (d : Dev) {a b : Nat} (v : W32) (h : b ≠ a) : rg (storeReg d a v) b = rg d b := by
  unfold storeReg
  split
  · rfl
  · split
    · rfl
    · exact rg_wr_ne _ _ h

/-- Where the registers of a job slot lie, none of which has an effect beyond its store (R556). -/
theorem slotOwns_place {slot : Bool} {a : Nat} (h : slotOwns slot a = true) : 0x100 ≤ a % 0x1000 ∧
    (a / 0x1000 = 0 ∧ a ≠ Adr.GLB_JOB_SWAP ∨ a / 0x1000 = 0x40 ∧ a ≠ Adr.XPD_QUERY ∨ a / 0x1000 = 0x41 ∨ a / 0x1000 = 0x51 ∨
      a / 0x1000 = 0xA0 ∨ a / 0x1000 = 0x130 ∧ a ≠ Adr.EXP_TKT ∧ a ≠ Adr.EXP_CMD) ∧ a ∉ errWords := by
  cases slot
  all_goals
    simp only [slotOwns, slotReg, Bool.or_eq_true, decide_eq_true_eq, if_true, if_false, Bool.false_eq_true] at h
    simp only [Adr.GLB_SLOT_A, Adr.GLB_SLOT_B, Adr.GLB_JOBID_A, Adr.GLB_JOBID_B, Adr.XPD_CFG_A, Adr.XPD_CFG_B, Adr.ALT_MAX_SEG_A,
      Adr.ALT_MAX_SEG_B, Adr.PXC_CFG_A, Adr.PXC_CFG_B, Adr.PXC_FOG_A, Adr.PXC_FOG_B, Adr.PXC_MLIM_A, Adr.PXC_MLIM_B,
      Adr.STC_SCALE_A, Adr.STC_SCALE_B, Adr.EXP_RATIO_A, Adr.EXP_RATIO_B, Adr.EXP_STROBE_A, Adr.EXP_STROBE_B, Adr.PXC_TERM_A,
      Adr.PXC_TERM_B] at h
    simp only [errWords, List.mem_cons, List.not_mem_nil, Page.base, oEVTPEND, oERRLATCH, oINFO0, oINFO1, Adr.FCL_CNT,
      Adr.FCL_FIRST, Adr.FCL_FIRST_S, Adr.FCL_FIRST_NS, Adr.MEI_CNT_CE, Adr.MUZ_CNT, Adr.BOB_MEND_WR, Adr.EXP_HWM,
      Adr.GLB_SEAL_INDEX, Adr.GLB_SEAL_WR, Adr.GLB_SEAL_STAT, Adr.GLB_JOB_SWAP, Adr.XPD_QUERY, Adr.EXP_TKT, Adr.EXP_CMD,
      or_false]
    exact ⟨by omega, by omega, by omega⟩

theorem slotOwns_not_streamWord {slot : Bool} {a : Nat} (h : slotOwns slot a = true) : ¬StreamWord a := by
  obtain ⟨ho, hp, hw⟩ := slotOwns_place h
  rintro (e | e)
  · rcases errWord_listed e with e | e
    · simp only [oINJECT] at e
      omega
    · exact hw e
  · omega

/-- A write of a slot register by a requester that reaches it is a store (R12, R556). -/
theorem busWrite_slot {d : Dev} {req : Req} {slot : Bool} {a : Nat} (h : slotOwns slot a = true) (hacc : acc d req a = true)
    (v : W32) : busWrite d req a v = storeReg d a v := by
  obtain ⟨ho, hp, -⟩ := slotOwns_place h
  have hw : inWindow a = false := decide_eq_false (by omega)
  have page (p : Page) (hp : a / 0x1000 = p.base 0 / 0x1000) (hq : pageOf (p.base 0) = some (p, 0)) :
      busWrite d req a v = blockWrite d req p 0 a v :=
    busWrite_block ((pageOf_congr hp).trans hq) hw ho hacc v
  rcases hp with ⟨hp, hne⟩ | ⟨hp, hne⟩ | hp | hp | hp | ⟨hp, hne, hne'⟩
  · exact (page .glb hp (by decide)).trans (if_neg hne)
  · exact (page .xpd hp (by decide)).trans (if_neg hne)
  · exact page .alt hp (by decide)
  · exact page .pxc hp (by decide)
  · exact page .stc hp (by decide)
  · exact (page .exp hp (by decide)).trans ((if_neg hne).trans (if_neg hne'))

/-- The one pair of a SLOT_WRITE record of five words (R84, R85). -/
theorem slotPairs_one {w : List W32} (hl : w.length = 5) (hn : rw w 2 = 1) (slot : Bool) (d : Dev) :
    slotPairs slot (min (rw w 2).toNat (w.length / 2)) d (w.drop 3) =
      if slotOwns slot (rw w 3).toNat then busWrite d .host (rw w 3).toNat (rw w 4) else d := by
  match w, hl with
  | [_, _, _, _, _], _ =>
    rw [hn]
    simp [slotPairs, rw, nth]

/-! ### The obligation -/

/-- A record of the open section that changes it by `f` and then does no more than bringing the stream forward does. -/
theorem openSec_after {d e t : Dev} {sec : Sec} {f : Sec → Sec} (h : OpenSec d sec) (he : e.secs = (setSec d sec.num f).secs)
    (ht : StreamStep e t) : ∃ x ∈ t.secs, x.head = (f sec).head := by
  obtain ⟨hopen, -⟩ := h
  have mem : f sec ∈ e.secs := by
    rw [he]
    exact List.mem_map.2 ⟨sec, List.mem_of_find?_eq_some hopen, if_pos rfl⟩
  exact ht.mem mem

theorem OpenSec.closed {d : Dev} {sec : Sec} (h : OpenSec d sec) : sec.closed = false := by
  have := List.find?_some h.1
  simpa using this

/-- Settles O35: each record changes the sections or a slot register by itself, and what follows it keeps what the statement names. -/
theorem recordsOfSections : Obligations.RecordsOfSections := by
  unfold Obligations.RecordsOfSections
  refine ⟨?_, ?_, ?_⟩
  · intro s b w rest h hb ht hl halt
    refine does_withRec h rfl ht (by simp [hb]) (.inr hl) ?_
    simp only [halt, Bool.not_true, Bool.false_eq_true, if_false]
    obtain ⟨hopens, ⟨x, hx, hhead⟩, hcur⟩ := sectionStarted_eq s.dev w
    have finish := StreamStep.finish (sectionStarted s.dev w) w
    obtain ⟨y, hy, hyx⟩ := finish.mem hx
    have head := hyx.trans hhead
    refine ⟨finish.opens.trans hopens, ⟨y, hy, ?_⟩, (finish.words _ altCur_not_streamWord).trans hcur⟩
    exact ⟨(congrArg Sec.num head :), (congrArg Sec.closed head :), (congrArg (·.tkt.index) head :), (congrArg Sec.slotB head :),
      (congrArg Sec.minus head :), (congrArg Sec.len head :), (congrArg Sec.orx head :), (congrArg Sec.ory head :),
      (congrArg Sec.fieldId head :), (congrArg Sec.gridId head :)⟩
  · intro s b w rest sec h hb hopen
    have hclosed := hopen.closed
    refine ⟨fun ht hl => ?_, fun ht hl => ?_, fun ht hl => ?_, fun ht hl => ?_⟩
    · refine does_withRec h rfl ht (by simp [hb]) (.inr hl) ?_
      rw [hopen.withSec]
      obtain ⟨x, hx, head⟩ := openSec_after (f := fun s => { s with bin := bits (rw w 1) 15 0 }) hopen rfl (StreamStep.finish _ w)
      exact ⟨x, hx, (congrArg Sec.num head :), (congrArg Sec.bin head :), (congrArg Sec.closed head :).trans hclosed⟩
    · refine does_withRec h rfl ht (by simp [hb]) (.inr hl) ?_
      rw [hopen.withSec]
      obtain ⟨x, hx, head⟩ := openSec_after (f := fun s => { s with orx := rwS w 1, ory := rwS w 2 }) hopen rfl
        (StreamStep.finish _ w)
      exact ⟨x, hx, (congrArg Sec.num head :), (congrArg Sec.orx head :), (congrArg Sec.ory head :),
        (congrArg Sec.closed head :).trans hclosed⟩
    · refine does_withRec h rfl ht (by simp [hb]) (.inr hl) ?_
      rw [hopen.withSec]
      dsimp only
      obtain ⟨hsecs, -, hcur⟩ := fieldBoundary_eq
        (setSec s.dev sec.num fun x => { x with fieldId := bits (rw w 1) 31 16, gridId := bits (rw w 1) 15 0 })
        { sec with fieldId := bits (rw w 1) 31 16, gridId := bits (rw w 1) 15 0 }
      obtain ⟨x, hx, head⟩ := openSec_after hopen hsecs (StreamStep.finish _ w)
      exact ⟨⟨x, hx, (congrArg Sec.num head :), (congrArg Sec.fieldId head :), (congrArg Sec.gridId head :),
        (congrArg Sec.closed head :).trans hclosed⟩, ((StreamStep.finish _ w).words _ altCur_not_streamWord).trans hcur⟩
    · refine does_withRec h rfl ht (by simp [hb]) (.inr hl) ?_
      obtain ⟨hsec, -, hdrop, -⟩ := id hopen
      simp only [hsec, hdrop, hopen.withSec, Bool.false_eq_true, if_false]
      have finish := (StreamStep.bandsGo (evt (setSec s.dev sec.num fun s => { s with closed := true }) (Page.spl.base 0)
        Bit.evt_SPL_SECTION_DONE) sec.num (upBst .none)).trans (StreamStep.finish _ w)
      obtain ⟨x, hx, head⟩ := openSec_after hopen (evt_secs _ _ _) finish
      refine ⟨⟨x, hx, (congrArg Sec.num head :), (congrArg Sec.closed head :)⟩, finish.flags _ ?_⟩
      unfold pends
      rw [rg_evt, if_pos rfl, bit_putBit _ _ _ _ (by decide), if_pos rfl]
  · intro s b w rest h hb ht hl hn slot a
    refine ⟨fun hfree hown hacc => ?_, fun hfree => ?_⟩
    · refine does_withRec h rfl ht (by simp [hb]) (.inl rfl) ?_
      have stored : slotPairs slot (min (rw w 2).toNat (w.length / 2)) s.dev (w.drop 3) = storeReg s.dev a (rw w 4) := by
        rw [slotPairs_one hl hn, if_pos hown, busWrite_slot hown hacc]
      change _ ∧ _
      dsimp only
      rw [if_pos hfree, stored]
      have words {x : Nat} (hx : slotOwns slot x = true) := (StreamStep.finish (storeReg s.dev a (rw w 4)) w).words x
        (slotOwns_not_streamWord hx)
      exact ⟨words hown, fun x hx hne => (words hx).trans (rg_storeReg_ne _ _ hne)⟩
    · refine does_withRec h rfl ht (by simp [hb]) (.inl rfl) ?_
      dsimp only
      rw [if_neg (by rw [hfree]; decide)]
      have step := (StreamStep.settle s.dev).trans (StreamStep.drive _)
      refine ⟨?_, fun x hx => step.words x (slotOwns_not_streamWord hx)⟩
      rw [drive_spl, settle_spl]
      exact h.cur

end Sys2Proof.Machine
end

section
/-! PROOF. Figures and instances in a STRIPE block: what ALT and BST make of an item, and of the elements of an instance in order
(R94, R101, R102, R138, R142, R165 to R169, R177 to R179). -/

namespace Sys2Proof.Machine

/-! ### Injections used up (R603) -/

theorem rg_injTake_word (d : Dev) {base : Nat} (w : Bool) (hne : base + oINJECT ≠ Adr.MEI_CNT_CE) :
    rg (injTake d base w).2 (base + oINJECT) =
      if (injTake d base w).1 = 0 then rg d (base + oINJECT) else setBits (rg d (base + oINJECT)) 2 0 0 := by
  unfold injTake
  dsimp only
  split
  · rfl
  · next h =>
    dsimp only
    rw [if_neg fun e => h (.inl e)]
    split
    · rw [rg_inc, if_neg hne, rg_wr_self]
    · rw [rg_wr_self]

/-- What is used up does not act again: an injection that makes no error makes none later. -/
theorem injTake_again {d : Dev} {base : Nat} {w : Bool} (hne : base + oINJECT ≠ Adr.MEI_CNT_CE) (h : (injTake d base w).1 < 2) :
    (injTake (injTake d base w).2 base w).1 < 2 := by
  have word := rg_injTake_word d w hne
  by_cases none : (injTake d base w).1 = 0
  · rw [if_pos none] at word
    rw [injTake_fst_congr word]
    exact h
  · rw [if_neg none] at word
    have mode : bits (rg (injTake d base w).2 (base + oINJECT)) 2 0 = 0 := by
      rw [word, bits_setBits _ _ (by decide) (by decide)]
      rfl
    have spent : (injTake (injTake d base w).2 base w).1 = 0 := by
      unfold injTake at mode ⊢
      dsimp only at mode ⊢
      rw [if_pos (.inl mode)]
    omega

/-! ### What items change -/

/-- The words that items change: counters of XPD, ALT and BST, the bin shown, and injections used up. -/
def itemWords : List Nat :=
  [Page.xpd.base 0 + oINJECT, Page.alt.base 0 + oINJECT, Adr.MEI_CNT_CE, Adr.ALT_CNT_SUBDIV, Adr.ALT_CNT_CLIP, Adr.BST_BAND,
   Adr.BST_CNT_PIECES, Adr.XPD_CNT_CULLED]

/-- The block without the sections, the words, and the progress of the record at hand. -/
def Dev.itemRest (d : Dev) : Dev := { d with regs := [], secs := [], xpd := { d.xpd with elem := 0, waitCulls := 0 } }

abbrev ItemFrame : Dev → Dev → Prop := Frame (· ∈ itemWords) Dev.itemRest

namespace ItemFrame

variable {d e : Dev}

theorem wr (d : Dev) {a : Nat} (v : W32) (h : a ∈ itemWords) : ItemFrame d (wr d a v) := Frame.wr (fun _ _ _ => rfl) d a v h

theorem injTake (d : Dev) {base : Nat} (w : Bool) (h : base + oINJECT ∈ itemWords) : ItemFrame d (injTake d base w).2 := by
  refine ⟨by rw [injTake_rest]; rfl, fun a ha => rg_injTake d base w ?_ ?_⟩
  · rintro rfl
    exact ha h
  · rintro rfl
    exact ha (by decide)

variable (h : ItemFrame d e)
include h

theorem spl : e.spl = d.spl := (congrArg Dev.spl h.view :)

theorem cells : e.xpd.cells = d.xpd.cells := (congrArg (fun d : Dev => d.xpd.cells) h.view :)

theorem defn : e.xpd.defn = d.xpd.defn := (congrArg (fun d : Dev => d.xpd.defn) h.view :)

theorem gridBad : e.xpd.gridBad = d.xpd.gridBad := (congrArg (fun d : Dev => d.xpd.gridBad) h.view :)

theorem kept (s : Sec) : kept e s = kept d s := by
  have hexp : e.exp = d.exp := (congrArg Dev.exp h.view :)
  have hstc : e.stc = d.stc := (congrArg Dev.stc h.view :)
  unfold Machine.kept secTkt tktOf
  rw [hexp, hstc]

theorem gridWord (o : Nat) : rg e (Adr.GRID_MEM o) = rg d (Adr.GRID_MEM o) := by
  refine h.words _ fun m => ?_
  have : ∀ a ∈ itemWords, a < 0x1400000 := by decide
  have := this _ m
  simp only [Adr.GRID_MEM] at this
  omega

theorem slotField (slot : Bool) {a b hi lo : Nat} (ha : a ∉ itemWords) (hb : b ∉ itemWords) :
    fd e (slotReg slot a b) hi lo = fd d (slotReg slot a b) hi lo := by
  unfold fd
  rw [h.words]
  cases slot
  · exact ha
  · exact hb

/-- ALT makes the same of an item (R165 to R169). -/
theorem alter (s : Sec) (l : List Chain) : alter e s l none = alter d s l none := by
  have seg : maxSeg e s = maxSeg d s := h.slotField _ (by decide) (by decide)
  have field : warp e s = warp d s := by
    funext p
    unfold warp gridAt gridS
    simp only [h.gridWord]
  unfold Machine.alter
  simp only [seg, field, h.kept]

theorem mkPiece (s : Sec) : mkPiece e s = mkPiece d s := by
  funext selv x
  unfold Machine.mkPiece pieceCell
  simp only [h.kept]

theorem itemPieces (s : Sec) (l : List Chain) : itemPieces e s l = itemPieces d s l := by
  unfold Machine.itemPieces
  simp only [h.kept, h.alter, h.mkPiece]

/-- XPD finds the same in the cells (R138 to R142). -/
theorem walk (k : Int × Int × Int × Int) (m : Int) (n id : Nat) (t : Place) (selv : Bool) (a : Walk) :
    walk e k m n id t selv a = walk d k m n id t selv a := by
  induction n generalizing id t selv a with
  | zero => rfl
  | succ n ih =>
    unfold Machine.walk boxReads cellOf
    simp only [h.cells, h.defn, ih]

end ItemFrame

/-! ### An item (R165 to R169, R177 to R179) -/

theorem secOf_map {d e : Dev} {g : Sec → Sec} (h : e.secs = d.secs.map g) (hg : ∀ s, (g s).num = s.num) (k : Nat) :
    secOf e k = (secOf d k).map g := by
  unfold secOf
  rw [h, List.find?_map]
  congr 2
  funext s
  simp [hg]

theorem secOf_setSec (d : Dev) (k : Nat) {f : Sec → Sec} (hf : ∀ s, (f s).num = s.num) :
    secOf (setSec d k f) k = (secOf d k).map f := by
  rw [secOf_map (g := fun s => if s.num = k then f s else s) rfl fun s => ?_]
  · cases h : secOf d k with
    | none => rfl
    | some s =>
      have : s.num = k := by simpa using List.find?_some h
      simp [this]
  · split
    · exact hf s
    · rfl

theorem bandsUpTo_of_done {d : Dev} {s : Sec} {num upto : Nat} (hs : secOf d num = some s) (htodo : s.todo = none)
    (hbin : upto ≤ s.bands) (n : Nat) (acc : Option BadWord) : bandsUpTo n d num upto acc = d := by
  cases n with
  | zero => rfl
  | succ n => simp [bandsUpTo, hs, htodo, Nat.not_lt.2 hbin]

theorem secOf_congr {d e : Dev} (h : e.secs = d.secs) (k : Nat) : secOf e k = secOf d k := by
  unfold secOf
  rw [h]

/-- A section with more pieces behind its own, and the bin that was cut last. -/
def Sec.having (s : Sec) (l : List Piece) (bin : Nat) : Sec := { s with pieces := s.pieces ++ l, cutBand := bin }

theorem Sec.having_having (s : Sec) (l m : List Piece) (b c : Nat) : (s.having l b).having m c = s.having (l ++ m) c := by
  unfold Sec.having
  simp

/-- The pieces cut of what ALT delivered, before those without height drop (R177). -/
def cuts (d : Dev) (s : Sec) (out : List Chain) : List (Bool × Pt × Pt) :=
  out.flatMap fun c => c.2.flatMap fun x => (cutChord (kept d s).1 (kept d s).2.2.1 x).map fun y => (c.1, y)

theorem itemPieces_eq (d : Dev) (s : Sec) (l : List Chain) :
    itemPieces d s l = (cuts d s (alter d s l none).out).filterMap fun x => mkPiece d s x.1 x.2 := rfl

/-- The block once BST has shown the bin of what it cuts, and counted the pieces. -/
def cutCounted (d : Dev) (s : Sec) (out : List Chain) : Dev :=
  addReg (if out = [] then d else setFd d Adr.BST_BAND 15 0 s.bin) Adr.BST_CNT_PIECES (cuts d s out).length

/-- A section with the pieces of `s` behind its own. -/
def withCuts (d : Dev) (s : Sec) (out : List Chain) (x : Sec) : Sec := { x with
  pieces := x.pieces ++ (cuts d s out).filterMap fun y => mkPiece (cutCounted d s out) x y.1 y.2
  cutBand := if out = [] then x.cutBand else x.bin }

theorem cutItem_eq (d : Dev) (s : Sec) (out : List Chain) :
    cutItem d s out = setSec (cutCounted d s out) s.num (withCuts d s out) := rfl

theorem cutCounted_frame (d : Dev) (s : Sec) (out : List Chain) : ItemFrame d (cutCounted d s out) :=
  (Frame.ite (.refl d) (ItemFrame.wr d _ (by decide))).trans (ItemFrame.wr _ _ (by decide))

theorem cutCounted_secs (d : Dev) (s : Sec) (out : List Chain) : (cutCounted d s out).secs = d.secs := by
  change (if out = [] then d else setFd d Adr.BST_BAND 15 0 s.bin : Dev).secs = d.secs
  split <;> rfl

theorem rg_cutItem (d : Dev) (s : Sec) (out : List Chain) {a : Nat} (h : a ≠ Adr.BST_BAND) (h' : a ≠ Adr.BST_CNT_PIECES) :
    rg (cutItem d s out) a = rg d a := by
  rw [cutItem_eq, rg_setSec]
  unfold cutCounted
  rw [rg_addReg, if_neg h']
  split
  · rfl
  · rw [rg_setFd, if_neg h]

/-- BST cuts what ALT delivers, behind the section's earlier pieces. -/
theorem cutItem_pieces {d : Dev} {s : Sec} (hs : secOf d s.num = some s) (out : List Chain) : ∃ c, secOf (cutItem d s out) s.num =
    some (s.having ((cuts d s out).filterMap fun x => mkPiece d s x.1 x.2) c) := by
  rw [cutItem_eq, secOf_setSec (f := withCuts d s out) _ _ fun _ => rfl, secOf_congr (cutCounted_secs d s out), hs, Option.map_some]
  unfold withCuts
  rw [(cutCounted_frame d s out).mkPiece]
  exact ⟨_, rfl⟩

/-- Neither an upset nor an injection nor a spoilt word of the grid memory meets the item (R164). -/
theorem gridCut_none {d : Dev} {s : Sec} (hgrid : d.xpd.gridBad = []) (hinj : (injTake d (Page.alt.base 0) false).1 < 2)
    (l : List Chain) : gridCut d s l .none = none := by
  unfold gridCut gridSpoilt
  simp [hgrid, Nat.not_le.2 hinj]

/-- The block once ALT has read its fields and counted its work on an item. -/
def altered (d : Dev) (s : Sec) (l : List Chain) : Dev :=
  addReg (addReg (if l = [] then d else (injTake d (Page.alt.base 0) false).2) Adr.ALT_CNT_SUBDIV (alter d s l none).subs)
    Adr.ALT_CNT_CLIP (alter d s l none).clips

/-- An item that nothing spoils goes through ALT into BST when no band waits (R165, R177, R200). -/
theorem itemEmit_eq {d : Dev} {s : Sec} (hs : secOf d s.num = some s) (hdrop : s.dropped = false) (htodo : s.todo = none)
    (hbin : s.bin ≤ s.bands) (hgrid : d.xpd.gridBad = []) (hinj : (injTake d (Page.alt.base 0) false).1 < 2) (l : List Chain)
    (rows : Option (List Nat)) :
    itemEmit d s.num l rows .none = (cutItem (altered d s l) s (alter d s l none).out, true, .none) := by
  have bands : (if (alter d s l none).out = [] then d else bandsUpTo (secBins s + 1) d s.num s.bin (upBst .none)) = d := by
    rw [bandsUpTo_of_done hs htodo hbin, ite_self]
  unfold itemEmit
  simp only [hs, hdrop, gridCut_none hgrid hinj, Option.map_none, bands, htodo, Option.isSome_none, Bool.false_eq_true, if_false,
    Bool.or_self]
  rfl

theorem altered_frame (d : Dev) (s : Sec) (l : List Chain) : ItemFrame d (altered d s l) :=
  ((Frame.ite (.refl d) (ItemFrame.injTake d false (by decide))).trans (ItemFrame.wr _ _ (by decide))).trans
    (ItemFrame.wr _ _ (by decide))

theorem altered_secs (d : Dev) (s : Sec) (l : List Chain) : (altered d s l).secs = d.secs := by
  change (if l = [] then d else (injTake d (Page.alt.base 0) false).2 : Dev).secs = d.secs
  split
  · rfl
  · rw [injTake_rest]

theorem rg_altered (d : Dev) (s : Sec) (l : List Chain) {a : Nat} (h : a ≠ Adr.ALT_CNT_SUBDIV) (h' : a ≠ Adr.ALT_CNT_CLIP) :
    rg (altered d s l) a = rg (if l = [] then d else (injTake d (Page.alt.base 0) false).2) a := by
  unfold altered
  rw [rg_addReg, if_neg h', rg_addReg, if_neg h]

/-- What an item leaves for the next (R165, R177): the section with the item's pieces, and no injection that makes an error. -/
theorem itemEmit_pieces {d : Dev} {s : Sec} (hs : secOf d s.num = some s) (hdrop : s.dropped = false) (htodo : s.todo = none)
    (hbin : s.bin ≤ s.bands) (hgrid : d.xpd.gridBad = []) (hinj : (injTake d (Page.alt.base 0) false).1 < 2) (l : List Chain) :
    ∃ e, (∀ rows, itemEmit d s.num l rows .none = (e, true, .none)) ∧ ItemFrame d e ∧
    (∃ c, secOf e s.num = some (s.having (itemPieces d s l) c)) ∧
    (injTake e (Page.alt.base 0) false).1 < 2 ∧
    rg e (Page.xpd.base 0 + oINJECT) = rg d (Page.xpd.base 0 + oINJECT) ∧ rg e Adr.XPD_CNT_CULLED = rg d Adr.XPD_CNT_CULLED := by
  have frame := altered_frame d s l
  have words {a : Nat} (ha : a ∉ [Adr.BST_BAND, Adr.BST_CNT_PIECES, Adr.ALT_CNT_SUBDIV, Adr.ALT_CNT_CLIP]) :
      rg (cutItem (altered d s l) s (alter d s l none).out) a = rg (if l = [] then d else (injTake d (Page.alt.base 0) false).2) a := by
    simp only [List.mem_cons, List.not_mem_nil, or_false, not_or] at ha
    obtain ⟨h1, h2, h3, h4⟩ := ha
    rw [rg_cutItem _ _ _ h1 h2, rg_altered _ _ _ h3 h4]
  have kept {a : Nat} (ha : a ∉ [Adr.BST_BAND, Adr.BST_CNT_PIECES, Adr.ALT_CNT_SUBDIV, Adr.ALT_CNT_CLIP])
      (hi : a ≠ Page.alt.base 0 + oINJECT) (hc : a ≠ Adr.MEI_CNT_CE) :
      rg (cutItem (altered d s l) s (alter d s l none).out) a = rg d a := by
    rw [words ha]
    split
    · rfl
    · exact rg_injTake _ _ _ hi hc
  refine ⟨_, itemEmit_eq hs hdrop htodo hbin hgrid hinj l, ?_, ?_, ?_, kept (by decide) (by decide) (by decide),
    kept (by decide) (by decide) (by decide)⟩
  · rw [cutItem_eq]
    exact (frame.trans (cutCounted_frame _ _ _)).trans ⟨rfl, fun a _ => rg_setSec _ _ _ a⟩
  · have pieces : (cuts (altered d s l) s (alter d s l none).out).filterMap (fun x => mkPiece (altered d s l) s x.1 x.2)
        = itemPieces d s l := by
      rw [← frame.itemPieces, itemPieces_eq, frame.alter]
    rw [← pieces]
    exact cutItem_pieces ((secOf_congr (altered_secs d s l) _).trans hs) _
  · rw [injTake_fst_congr (words (by decide))]
    split
    · exact hinj
    · exact injTake_again (by decide) hinj

/-! ### The elements of an instance (R138, R142) -/

/-- The walk through the cells of the element at an offset (R138 to R142). -/
def instWalk (d : Dev) (s : Sec) (w : List W32) (off : Pt) : Walk :=
  walk d (kept d s) (256 * (cullMargin d s : Int)) 15 (rw w 1).toNat ((originPlace s).under (bits (rw w 2) 2 0) off)
    (bit (rw w 2) 3) ⟨[], [], none, []⟩

theorem ItemFrame.instWalk {d e : Dev} (h : ItemFrame d e) (s : Sec) (w : List W32) (off : Pt) :
    instWalk e s w off = instWalk d s w off := by
  have margin : cullMargin e s = cullMargin d s := h.slotField _ (by decide) (by decide)
  unfold Machine.instWalk
  rw [margin, h.kept, h.walk]

/-- After some elements of a record: the section holds the pieces `l` behind those it had, `n` cells were culled, and no injection
that makes an error is armed. -/
structure Placing (d : Dev) (sec : Sec) (l : List Piece) (n : Nat) (e : Dev) : Prop where
  frame : ItemFrame d e
  sec : ∃ c, secOf e sec.num = some (sec.having l c)
  culled : rg e Adr.XPD_CNT_CULLED = rg d Adr.XPD_CNT_CULLED + w32 n
  alt : (injTake e (Page.alt.base 0) false).1 < 2
  xpd : (injTake e (Page.xpd.base 0) false).1 < 2

/-- The progress of the record at hand is no part of it. -/
theorem Placing.elem {d e : Dev} {sec : Sec} {l : List Piece} {n : Nat} (h : Placing d sec l n e) (k : Nat) :
    Placing d sec l n (setXpd e fun x => { x with elem := k }) where
  frame := h.frame.trans ⟨rfl, fun _ _ => rfl⟩
  sec := h.sec
  culled := h.culled
  alt := (injTake_fst_congr (rg_setXpd e _ _) false).symm ▸ h.alt
  xpd := (injTake_fst_congr (rg_setXpd e _ _) false).symm ▸ h.xpd

theorem w32_add (a b : Nat) : w32 (a + b) = w32 a + w32 b := BitVec.ofNat_add a b

/-- The block as XPD begins an element, which has used up an injection of its page (R603). -/
def looked (d : Dev) : Dev := setXpd (injTake d (Page.xpd.base 0) false).2 fun x => { x with waitCulls := 0 }

theorem looked_secs (d : Dev) : (looked d).secs = d.secs := by
  unfold looked
  rw [setXpd_secs, injTake_rest]

theorem Placing.looked {d e : Dev} {sec : Sec} {l : List Piece} {n : Nat} (h : Placing d sec l n e) :
    Placing d sec l n (looked e) where
  frame := (h.frame.trans (ItemFrame.injTake e false (by decide))).trans ⟨rfl, fun _ _ => rfl⟩
  sec := by
    rw [secOf_congr (looked_secs e)]
    exact h.sec
  culled := (rg_injTake e _ false (by decide) (by decide)).trans h.culled
  alt := by
    rw [injTake_fst_congr (e := Machine.looked e) (d := e) (rg_injTake e _ false (by decide) (by decide))]
    exact h.alt
  xpd := by
    rw [injTake_fst_congr (e := Machine.looked e) (d := (injTake e (Page.xpd.base 0) false).2) rfl]
    exact injTake_again (by decide) h.xpd

/-- An element whose cells can be read, none of them spoilt, is one item (R142). -/
theorem placeInst_eq {d f : Dev} {s : Sec} {w : List W32} {off : Pt} (hinj : (injTake d (Page.xpd.base 0) false).1 < 2)
    (hmiss : (instWalk (looked d) s w off).miss = none)
    (hemit : ∀ rows, itemEmit (looked d) s.num (instWalk (looked d) s w off).out rows .none = (f, true, .none)) :
    placeInst d s w off .none = (addReg f Adr.XPD_CNT_CULLED (instWalk (looked d) s w off).culled, true, .none) := by
  unfold instWalk looked at hmiss hemit ⊢
  unfold placeInst
  simp only [if_neg (Nat.not_le.2 hinj), hmiss, cellCut, hemit, if_true]
  rfl

/-- An element whose cells can be read is expanded: the pieces of its figures follow, and its culled cells are counted. -/
theorem placeInst_placing {d e : Dev} {sec s : Sec} {l : List Piece} {n : Nat} (h : Placing d sec l n e)
    (hdrop : sec.dropped = false) (htodo : sec.todo = none) (hbin : sec.bin ≤ sec.bands) (hgrid : d.xpd.gridBad = [])
    (hs : secOf e sec.num = some s) (w : List W32) (off : Pt) (hmiss : (instWalk d sec w off).miss = none) :
    ∃ f, placeInst e s w off .none = (f, true, .none) ∧
      Placing d sec (l ++ itemPieces d sec (instWalk d sec w off).out) (n + (instWalk d sec w off).culled) f := by
  obtain ⟨c, hc⟩ := h.sec
  obtain rfl := Option.some.inj (hs.symm.trans hc)
  have begun := h.looked
  have walk : instWalk (looked e) (sec.having l c) w off = instWalk d sec w off := begun.frame.instWalk sec w off
  have pieces : itemPieces (looked e) (sec.having l c) (instWalk d sec w off).out = itemPieces d sec (instWalk d sec w off).out :=
    begun.frame.itemPieces sec _
  obtain ⟨f, hemit, frame, ⟨c', hf⟩, halt, hxpd, hculled⟩ := itemEmit_pieces
    (s := sec.having l c) ((secOf_congr (looked_secs e) _).trans hs) hdrop htodo hbin (begun.frame.gridBad.trans hgrid) begun.alt
    (instWalk d sec w off).out
  have inst := placeInst_eq (f := f) h.xpd ((congrArg Walk.miss walk).trans hmiss) (walk ▸ hemit)
  rw [walk] at inst
  refine ⟨_, inst, (begun.frame.trans frame).trans (ItemFrame.wr _ _ (by decide)), ⟨c', ?_⟩, ?_, ?_, ?_⟩
  · rw [secOf_congr (addReg_secs _ _ _), ← pieces, ← Sec.having_having]
    exact hf
  · rw [rg_addReg, if_pos rfl, hculled, begun.culled, w32_add, BitVec.add_assoc]
  · rw [injTake_fst_congr (d := f)]
    · exact halt
    · rw [rg_addReg, if_neg (by decide)]
  · rw [injTake_fst_congr (d := looked e)]
    · exact begun.xpd
    · rw [rg_addReg, if_neg (by decide), hxpd]

theorem sumN_cons (n : Nat) (l : List Nat) : sumN (n :: l) = n + sumN l := by
  unfold sumN
  rw [← List.sum_eq_foldl, ← List.sum_eq_foldl, List.sum_cons]

/-- The elements of a record are expanded one after another (R138). -/
theorem placeGo_placing {d : Dev} {sec : Sec} (hdrop : sec.dropped = false) (htodo : sec.todo = none) (hbin : sec.bin ≤ sec.bands)
    (hgrid : d.xpd.gridBad = []) (w : List W32) (offs : List Pt) (hmiss : ∀ off ∈ offs, (instWalk d sec w off).miss = none) :
    ∀ {e : Dev} {l : List Piece} {n : Nat}, Placing d sec l n e →
    ∃ f, placeGo offs e sec.num w .none = recDone (setXpd f fun x => { x with elem := 0 }) w ∧
      Placing d sec (l ++ offs.flatMap fun off => itemPieces d sec (instWalk d sec w off).out)
        (n + sumN (offs.map fun off => (instWalk d sec w off).culled)) f := by
  induction offs with
  | nil =>
    intro e l n h
    refine ⟨e, rfl, ?_⟩
    rw [List.flatMap_nil, List.append_nil]
    exact h
  | cons off offs ih =>
    intro e l n h
    obtain ⟨c, hc⟩ := h.sec
    obtain ⟨f, inst, placed⟩ := placeInst_placing h hdrop htodo hbin hgrid hc w off (hmiss off (List.mem_cons_self ..))
    obtain ⟨g, go, all⟩ := ih (fun o ho => hmiss o (List.mem_cons_of_mem _ ho)) (placed.elem (f.xpd.elem + 1))
    refine ⟨g, ?_, ?_⟩
    · rw [← go]
      simp only [placeGo, hc, inst, if_true]
      rfl
    · rw [List.flatMap_cons, List.map_cons, sumN_cons, ← List.append_assoc, ← Nat.add_assoc]
      exact all

/-! ### The obligation -/

/-- Settling leaves the pieces of a section that is open (R317). -/
theorem secOf_settle_open {d : Dev} {k : Nat} {s : Sec} (hs : secOf d k = some s) (hopen : s.closed = false) :
    ∃ x, secOf (drive (settle d)) k = some x ∧ x.pieces = s.pieces := by
  obtain ⟨g, hg, hsec⟩ := settle_secs d
  refine ⟨g s, ?_, (hsec s).2 hopen⟩
  rw [secOf_congr (drive_secs _), secOf_map hg fun s => (congrArg Sec.num (hsec s).1 :), hs]
  rfl

/-- Settles O36: a figure is one item, and an instance one item after another, each the same as from the block at the start since
what items change is nothing that they read. -/
theorem figuresReachBasting : Obligations.FiguresReachBasting := by
  unfold Obligations.FiguresReachBasting
  intro s b w rest sec h hrest hb hopen hbin hgrid halt next got
  have hclosed := hopen.closed
  obtain ⟨-, hsec, hdrop, -, htodo, -⟩ := id hopen
  have finished {e : Dev} {l : List Piece} {c : Nat} (hspl : e.spl = s.dev.spl) (hs : secOf e sec.num = some (sec.having l c)) :
      next (drive (settle (recDone e w))) ∧ got (drive (settle (recDone e w))) l ∧
      (drive (settle (recDone e w))).xpd = e.xpd ∧
      rg (drive (settle (recDone e w))) Adr.XPD_CNT_CULLED = rg e Adr.XPD_CNT_CULLED := by
    rw [recDone_of_cur (by rw [hspl]; exact h.cur) h.recs hrest]
    simp only [next, got, drive_spl, settle_spl, drive_xpd, settle_xpd, rg_drive]
    refine ⟨⟨rfl, (congrArg Spl.pos hspl :)⟩, secOf_settle_open (s := sec.having l c) hs hclosed, rfl,
      rg_settle _ (by decide) (by decide)⟩
  refine ⟨?_, ?_⟩
  · intro f ht hf
    refine does_withRec h rfl ht (by simp [hb]) (.inl rfl) ?_
    obtain ⟨e, emit, frame, ⟨c, hc⟩, -⟩ := itemEmit_pieces hsec hdrop htodo hbin hgrid halt (figChains (originPlace sec) f.1 f.2)
    simp only [hf, h.curType, hb, hopen.withSec, emit]
    obtain ⟨hnext, hgot, -⟩ := finished frame.spl hc
    exact ⟨hnext, hgot⟩
  · intro at_ done helem hxpd hmiss
    have start : Placing s.dev sec [] 0 s.dev :=
      ⟨.refl _, ⟨sec.cutBand, by rw [hsec]; unfold Sec.having; rw [List.append_nil]⟩, (BitVec.add_zero _).symm, halt, hxpd⟩
    have placed : done (drive (settle (placeRec s.dev w .none))) := by
      obtain ⟨f, go, all⟩ := placeGo_placing hdrop htodo hbin hgrid w (placements w) hmiss start
      have expanded : placeRec s.dev w .none = recDone (setXpd f fun x => { x with elem := 0 }) w := by
        unfold placeRec
        rw [h.curType, hb, if_neg (by decide), hopen.withSec, helem, List.drop_zero, go]
      obtain ⟨c, hc⟩ := all.sec
      obtain ⟨hnext, hgot, hx, hculled⟩ := finished (e := setXpd f fun x => { x with elem := 0 }) all.frame.spl hc
      rw [expanded]
      refine ⟨hnext, congrArg Xpd.elem hx, hgot, hculled.trans (all.culled.trans ?_)⟩
      rw [Nat.zero_add]
      rfl
    exact ⟨fun ht hl => does_withRec h rfl ht (by simp [hb]) (.inr hl) placed,
      fun ht hl => does_withRec h rfl ht (by simp [hb]) (.inr hl) placed⟩

end Sys2Proof.Machine
end

section
/-! SUPPORT. What bringing the stream forward leaves alone beside what `StreamStep` names (R115 to R124, R302, R317): the bands that
sections have completed, BST's words, errors of SPL once latched, and SPL_CNT_GIVEUP but for the numbers given up on the way. -/

namespace Sys2Proof.Machine

/-- A section without what is cut, computed or stored for its bands, and without its lost rows. -/
def Sec.progress (s : Sec) : Sec := { s with pieces := [], rho := [], bad := [], patches := [], blank := [] }

/-- The words of an error's response, and those of SPL's and BOB's pages. -/
def OnwardWord (a : Nat) : Prop := ErrWord a ∨ a / 0x1000 = 0x30 ∨ a / 0x1000 = 0xB0

/-- The pages whose errors the stream raises on its way. -/
def OnwardPage (base : Nat) : Prop := base = Page.spl.base 0 ∨ base = Page.bob.base 0

theorem OnwardPage.word {base : Nat} (h : OnwardPage base) {o : Nat} (ho : o < 0x1000) : OnwardWord (base + o) := by
  simp only [OnwardPage, Page.base] at h
  unfold OnwardWord
  omega

theorem not_errWord_of {a : Nat} (hi : a % 0x1000 ≠ oINJECT) (hl : a ∉ errWords) : ¬ErrWord a :=
  fun h => (errWord_listed h).elim hi hl

theorem not_onwardWord {a : Nat} (h : a % 0x1000 ≠ oINJECT ∧ a ∉ errWords ∧ a / 0x1000 ≠ 0x30 ∧ a / 0x1000 ≠ 0xB0) :
    ¬OnwardWord a := by
  obtain ⟨hi, hl, h3, hb⟩ := h
  rintro (e | e | e)
  · exact not_errWord_of hi hl e
  · exact h3 e
  · exact hb e

/-- `e` comes from `d` by bringing the stream forward and freeing space, `n` sequence numbers being given up on the way. -/
structure Onward (n : Nat) (d e : Dev) : Prop where
  secs : e.secs.map Sec.progress = d.secs.map Sec.progress
  words : ∀ a, ¬OnwardWord a → rg e a = rg d a
  latch : ∀ b, latched d (Page.spl.base 0) b = true → latched e (Page.spl.base 0) b = true
  given : rg e Adr.SPL_CNT_GIVEUP = rg d Adr.SPL_CNT_GIVEUP + w32 n

theorem latched_congr {d e : Dev} {base : Nat} (h : rg e (base + oERRLATCH) = rg d (base + oERRLATCH)) (b : Nat) :
    latched e base b = latched d base b := by
  unfold latched
  rw [h]

namespace Onward

variable {n m : Nat} {d e f : Dev}

theorem trans (h : Onward n d e) (k : Onward m e f) : Onward (n + m) d f where
  secs := k.secs.trans h.secs
  words a ha := (k.words a ha).trans (h.words a ha)
  latch b hb := k.latch b (h.latch b hb)
  given := by rw [k.given, h.given, w32_add, BitVec.add_assoc]

/-- The later part first, in which no number is given up. -/
theorem after (k : Onward 0 e f) (h : Onward n d e) : Onward n d f := h.trans k

/-- The sections' progress stands, and no word beside the stream's changes, SPL's errors and its count of numbers not either. -/
theorem of_words (hs : e.secs.map Sec.progress = d.secs.map Sec.progress) (hw : ∀ a, ¬OnwardWord a → rg e a = rg d a)
    (hl : rg e (Page.spl.base 0 + oERRLATCH) = rg d (Page.spl.base 0 + oERRLATCH))
    (hc : rg e Adr.SPL_CNT_GIVEUP = rg d Adr.SPL_CNT_GIVEUP) : Onward 0 d e :=
  ⟨hs, hw, fun b hb => (latched_congr hl b).trans hb, hc.trans (BitVec.add_zero _).symm⟩

theorem same (hs : e.secs = d.secs) (hr : e.regs = d.regs) : Onward 0 d e :=
  of_words (by rw [hs]) (fun a _ => rg_congr hr a) (rg_congr hr _) (rg_congr hr _)

theorem refl (d : Dev) : Onward 0 d d := same rfl rfl

theorem ite {c : Prop} [Decidable c] (h : Onward n d e) (k : Onward n d f) : Onward n d (if c then e else f) := by
  split
  · exact h
  · exact k

theorem foldl {α : Type} {f : Dev → α → Dev} (h : ∀ d x, Onward 0 d (f d x)) (l : List α) (d : Dev) :
    Onward 0 d (l.foldl f d) := by
  induction l generalizing d with
  | nil => exact refl d
  | cons x l ih => exact (h d x).trans (ih _)

/-! ### Elementary changes -/

theorem spl (d : Dev) (f : Spl → Spl) : Onward 0 d (setSpl d f) := same rfl rfl

theorem of_errFrame (h : ErrFrame d e) : Onward 0 d e :=
  of_words (congrArg (List.map Sec.progress) (congrArg Dev.secs h.view :)) (fun a ha => h.words a fun w => ha (.inl w))
    (h.words _ (not_errWord_of (by decide) (by decide))) (h.words _ (not_errWord_of (by decide) (by decide)))

theorem evt (d : Dev) (b : Nat) : Onward 0 d (evt d (Page.spl.base 0) b) :=
  of_words (by rw [evt_secs]) (fun a ha => rg_evt_ne d _ b fun e => ha (e ▸ OnwardPage.word (.inl rfl) (by decide)))
    (rg_evt_ne d _ b (by decide)) (rg_evt_ne d _ b (by decide))

theorem err (d : Dev) {base b : Nat} (i0 i1 : W32) (hp : OnwardPage base) (hb : b < 32) : Onward 0 d (err d base b i0 i1) := by
  obtain ⟨-, -, hsecs⟩ := err_stream d base b i0 i1
  have words {a : Nat} (ha : ¬ErrWord a) (hl : a ≠ base + oERRLATCH) (h0 : a ≠ base + oINFO0) (h1 : a ≠ base + oINFO1) :=
    rg_err d base b i0 i1 ha hl h0 h1
  refine ⟨by rw [hsecs], fun a ha => ?_, fun i hi => ?_, ?_⟩
  · refine words (fun w => ha (.inl w)) ?_ ?_ ?_
    all_goals
      rintro rfl
      exact ha (hp.word (by decide))
  · exact latched_err_of d b i0 i1 (by rcases hp with rfl | rfl <;> decide) (by decide) (by decide) hb hi
  · refine (words (not_errWord_of (by decide) (by decide)) ?_ ?_ ?_).trans (BitVec.add_zero _).symm
    all_goals rcases hp with rfl | rfl <;> decide

/-! ### Lost rows (R56, R121) -/

theorem blankRows (d : Dev) (k : Nat) (rows : List Nat) : Onward 0 d (blankRows d k rows) := by
  refine of_words ?_ (fun _ _ => rfl) rfl rfl
  unfold Machine.blankRows setSec
  rw [List.map_map]
  refine List.map_congr_left fun s _ => ?_
  rw [Function.comp_apply]
  split
  · rfl
  · rfl

theorem spanEnts (d : Dev) (blk : Blk) (t : Tkt) (b cause : Nat) (rows : List Nat) :
    Onward 0 d (spanEnts d blk t b cause rows) := by
  have check (d : Dev) : Onward 0 d (listCheck d) :=
    ite ((of_errFrame (halt_errFrame _)).after ((err _ _ _ (.inr rfl) (by decide)).after (of_errFrame (abortStripe_errFrame _ _))))
      (refl d)
  exact ite (refl d) (ite (refl d) ((check _).after (of_errFrame (putEnts_errFrame _ d))))

theorem lostRows (d : Dev) (k : Nat × Option (List W32)) (lo hi : Int) : Onward 0 d (lostRows d k lo hi) := by
  unfold Machine.lostRows
  split
  · dsimp only
    exact (spanEnts _ _ _ _ _ _).after (ite (blankRows _ _ _) (spl d _))
  · exact spl d _

/-! ### The stream's position (R115 to R124) -/

theorem splErr (d : Dev) {b : Nat} (seq : Nat) (cid : W32) (hb : b < 32) : Onward 0 d (splErr d b seq cid) :=
  err _ _ _ (.inl rfl) hb

theorem postNak (d : Dev) (seq : Nat) (hdr : Option SBlk) (reason : Nat) : Onward 0 d (postNak d seq hdr reason) := by
  have request (d : Dev) (w1 w2 : W32) : Onward 0 d (postReq d 1 reason w1 w2) := by
    unfold postReq
    dsimp only
    exact ite ((splErr _ _ _ (by decide)).after (spl d _)) (ite ((evt _ _).after (spl d _)) (spl d _))
  exact (request _ _ _).after (ite (refl d) (spl d _))

theorem passGone (d : Dev) (hdr : Option SBlk) : Onward 0 d (passGone d hdr) := by
  unfold Machine.passGone
  dsimp only
  exact ite (same rfl rfl) (same rfl rfl)

theorem splNext (n : Nat) (d : Dev) : Onward 0 d (splNext n d) := by
  induction n generalizing d with
  | zero => exact refl d
  | succ n ih =>
    unfold Machine.splNext
    split
    · exact ite ((ih _).after (same rfl rfl)) (refl d)
    · split
      · exact refl d
      · exact refl d
      · exact (ih _).after (passGone d _)
      · split
        · exact refl d
        · exact ite (refl d) (ite ((postNak _ _ _ _).after (same rfl rfl)) ((ih _).after (spl d _)))

theorem streamLost (d : Dev) (seq : Nat) (cid : W32) : Onward 0 d (streamLost d seq cid) := by
  have drops := foldl (fun (d : Dev) b => same (e := spoolDrop d b) rfl rfl) ((heldBlks d).map (·.2) ++ d.spl.refs) d
  have roles (d : Dev) : Onward 0 d (roleSettle d) := by
    unfold roleSettle
    refine foldl (fun d n => ?_) _ d
    dsimp only
    exact ite (refl d) (ite (same rfl rfl) (same rfl rfl))
  refine (splErr _ _ _ (by decide)).after ((roles _).after (after ?_ drops))
  exact same rfl rfl

end Onward

/-! ### A number given up (R119, R121 to R123) -/

/-- The header that the open NAK of a number carries (R118). -/
def nakHdr (d : Dev) (n : Nat) : Option SBlk := ((d.spl.naks.find? fun x => x.seq = n).map (·.hdr)).getD none

/-- The block once a number is given up and counted and GIVEUP has latched, before what was lost with the number is dealt with. -/
def givenUp (d : Dev) (n : Nat) : Dev :=
  let passed := setSpl d fun s => { s with
    naks := s.naks.filter (fun x => x.seq != n), line := alSet s.line n (.gone (nakHdr d n)) }
  splErr (inc passed Adr.SPL_CNT_GIVEUP) Bit.err_SPL_GIVEUP n (match nakHdr d n with | some b => b.cid | none => 0)

/-- With a number given up, nothing more, rows of its section, or the stream is lost. -/
theorem giveUp_cases (d : Dev) (n : Nat) : giveUp d n = givenUp d n ∨
    (∃ k lo hi, giveUp d n = lostRows (givenUp d n) k lo hi) ∨ ∃ cid, giveUp d n = streamLost (givenUp d n) n cid := by
  unfold giveUp givenUp nakHdr
  dsimp only
  generalize ((d.spl.naks.find? fun x => x.seq = n).map (·.hdr)).getD none = hdr
  cases hdr with
  | some b =>
    dsimp only
    split
    · exact .inr (.inl ⟨_, _, _, rfl⟩)
    · split
      · exact .inl rfl
      · exact .inr (.inr ⟨_, rfl⟩)
  | none =>
    dsimp only
    split
    · split
      · exact .inr (.inl ⟨_, _, _, rfl⟩)
      · exact .inr (.inr ⟨_, rfl⟩)
    · exact .inr (.inr ⟨_, rfl⟩)

namespace Onward

theorem count (d : Dev) : Onward 1 d (inc d Adr.SPL_CNT_GIVEUP) where
  secs := rfl
  words a ha := by
    rw [rg_inc, if_neg]
    rintro rfl
    exact ha (.inr (.inl rfl))
  latch b hb := (latched_congr (by rw [rg_inc, if_neg (by decide)]) b).trans hb
  given := by rw [rg_inc, if_pos rfl]; rfl

theorem giveUp_of_givenUp (d : Dev) (n : Nat) : Onward 0 (givenUp d n) (giveUp d n) := by
  obtain h | ⟨k, lo, hi, h⟩ | ⟨cid, h⟩ := giveUp_cases d n
  · exact h ▸ refl _
  · exact h ▸ lostRows _ k lo hi
  · exact h ▸ streamLost _ n cid

theorem giveUp (d : Dev) (n : Nat) : Onward 1 d (giveUp d n) :=
  (giveUp_of_givenUp d n).after ((splErr _ _ _ (by decide)).after ((spl d _).trans (count _)))

theorem splLoop (n : Nat) (d : Dev) : ∃ m, Onward m d (splLoop n d) := by
  induction n generalizing d with
  | zero => exact ⟨0, splNext _ d⟩
  | succ n ih =>
    unfold Machine.splLoop
    dsimp only
    split
    · obtain ⟨m, h⟩ := ih (Machine.giveUp (Machine.splNext (2 * d.spl.line.length + 2) d) _)
      exact ⟨_, ((splNext _ d).trans (giveUp _ _)).trans h⟩
    · exact ⟨0, splNext _ d⟩

theorem splGo (d : Dev) : ∃ m, Onward m d (splGo d) := by
  unfold Machine.splGo
  split
  · exact ⟨0, refl d⟩
  · exact splLoop _ d

/-- Settling frees patch records and what is left of spent sections, and drives BOB's conditions (R302, R317, R336). -/
theorem settle (d : Dev) : Onward 0 d (settle d) := by
  have look (e : Dev) : (lookCheck e).secs = e.secs := by
    unfold lookCheck
    dsimp only
    split <;> split <;> simp only [evt_secs, inc_secs]
  have words {a : Nat} (h : a / 0x1000 ≠ 0xB0) : rg (Machine.settle d) a = rg d a :=
    rg_settle d (by rintro rfl; exact h rfl) (by rintro rfl; exact h rfl)
  refine of_words ?_ (fun a ha => words fun e => ha (.inr (.inr e))) (words (by decide)) (words (by decide))
  unfold Machine.settle
  rw [look]
  unfold bobFree
  dsimp only
  rw [List.map_map]
  refine List.map_congr_left fun s _ => ?_
  rw [Function.comp_apply]
  split
  · rfl
  · rfl

theorem drive (d : Dev) : Onward 0 d (drive d) := same (drive_secs d) (drive_regs d)

/-- What every command that moves the writing point, a verdict or the tickets does last. -/
theorem settled (d : Dev) : Onward 0 d (Machine.drive (Machine.settle d)) := (settle d).trans (drive _)

/-- A section stands after as before, as far as `Sec.progress` tells. -/
theorem mem {n : Nat} {d e : Dev} (h : Onward n d e) {s : Sec} (hs : s ∈ d.secs) : ∃ x ∈ e.secs, x.progress = s.progress := by
  have := List.mem_map_of_mem (f := Sec.progress) hs
  rw [← h.secs] at this
  exact List.mem_map.1 this

end Onward

/-- The errors that giving up a number latches are latched (R129). -/
theorem giveUp_latched (d : Dev) (n : Nat) : latched (giveUp d n) (Page.spl.base 0) Bit.err_SPL_GIVEUP = true :=
  (Onward.giveUp_of_givenUp d n).latch _ (latched_err _ _ _ _ _ (by decide) (by decide) (by decide))

end Sys2Proof.Machine
end

section
/-! SUPPORT. A stream that has nothing for XPD to go on with: no block at hand and none held. It passes numbers given up, and no
record comes to its front (R115, R119, R124). -/

namespace Sys2Proof.Machine

theorem heldBlks_eq_nil {d : Dev} : heldBlks d = [] ↔ ∀ x ∈ d.spl.line, x.2.blk = none := by
  unfold heldBlks
  simp [List.filterMap_eq_nil_iff]

/-- XPD is at no block, and SPL holds none for it. -/
def StreamEmpty (d : Dev) : Prop := d.spl.cur = none ∧ heldBlks d = []

/-- XPD is at the same block, no NAK opens, and SPL comes to hold no block where it held none. -/
structure Narrows (d e : Dev) : Prop where
  cur : e.spl.cur = d.spl.cur
  naks : e.spl.naks ⊆ d.spl.naks
  held : heldBlks d = [] → heldBlks e = []

theorem spanEnts_spl (d : Dev) (blk : Blk) (t : Tkt) (b cause : Nat) (rows : List Nat) :
    (spanEnts d blk t b cause rows).spl = d.spl :=
  (congrArg Dev.spl (stripeEnts_errRest d blk t _) :)

namespace Narrows

variable {d e f : Dev}

theorem trans (h : Narrows d e) (k : Narrows e f) : Narrows d f :=
  ⟨k.cur.trans h.cur, fun _ hx => h.naks (k.naks hx), fun hd => k.held (h.held hd)⟩

/-- The later part first. -/
theorem after (k : Narrows e f) (h : Narrows d e) : Narrows d f := h.trans k

theorem same (hc : e.spl.cur = d.spl.cur) (hn : e.spl.naks = d.spl.naks) (hl : e.spl.line = d.spl.line) : Narrows d e :=
  ⟨hc, hn ▸ List.Subset.refl _, fun hd => by unfold heldBlks at hd ⊢; rw [hl, hd]⟩

theorem of_spl (h : e.spl = d.spl) : Narrows d e := same (h ▸ rfl) (h ▸ rfl) (h ▸ rfl)

theorem foldl {α : Type} {f : Dev → α → Dev} (h : ∀ d x, Narrows d (f d x)) (l : List α) (d : Dev) :
    Narrows d (l.foldl f d) := by
  induction l generalizing d with
  | nil => exact of_spl rfl
  | cons x l ih => exact (h d x).trans (ih _)

theorem ite {c : Prop} [Decidable c] (h : Narrows d e) (k : Narrows d f) : Narrows d (if c then e else f) := by
  split
  · exact h
  · exact k

theorem err (d : Dev) (base b : Nat) (i0 i1 : W32) : Narrows d (err d base b i0 i1) := of_spl (err_stream d base b i0 i1).2.1

theorem engBack (d : Dev) (n : Nat) : Narrows d (engBack d n) where
  cur := rfl
  naks := List.Subset.refl _
  held hd := by
    rw [heldBlks_eq_nil] at hd ⊢
    intro y hy
    obtain ⟨x, hx, rfl⟩ := List.mem_map.1 hy
    have none := hd x hx
    obtain ⟨k, b | h | -⟩ := x
    · exact absurd none (Option.some_ne_none b)
    · rfl
    · rfl

theorem roleSettle (d : Dev) : Narrows d (roleSettle d) := by
  unfold Machine.roleSettle
  refine foldl (fun d n => ?_) _ d
  dsimp only
  exact ite (of_spl rfl) (ite (of_spl rfl) ((engBack _ n).after (of_spl rfl)))

theorem lostRows (d : Dev) (k : Nat × Option (List W32)) (lo hi : Int) : Narrows d (lostRows d k lo hi) := by
  unfold Machine.lostRows
  split
  · dsimp only
    exact (of_spl (spanEnts_spl _ _ _ _ _ _)).after (ite (of_spl rfl) (same rfl rfl rfl))
  · exact same rfl rfl rfl

theorem streamLost (d : Dev) (seq : Nat) (cid : W32) : Narrows d (streamLost d seq cid) := by
  have drops := foldl (fun d b => of_spl (e := spoolDrop d b) rfl) ((heldBlks d).map (·.2) ++ d.spl.refs) d
  refine (err _ _ _ _ _).after ((roleSettle _).after (after ?_ drops))
  refine ⟨rfl, List.nil_subset _, fun _ => ?_⟩
  rw [heldBlks_eq_nil]
  intro y hy
  obtain ⟨⟨k, b | h | -⟩, -, rfl⟩ := List.mem_map.1 hy
  · rfl
  · rfl
  · rfl

/-- The number is given up: its NAK is no longer open, and its place in the line holds no block (R119). -/
theorem givenUp (d : Dev) (n : Nat) :
    Narrows (setSpl d fun s => { s with naks := s.naks.filter fun x => x.seq != n }) (givenUp d n) := by
  refine (err _ _ _ _ _).after ⟨rfl, List.Subset.refl _, fun hd => ?_⟩
  rw [heldBlks_eq_nil] at hd ⊢
  intro x hx
  obtain rfl | hx := alSet_mem _ _ _ x hx
  · rfl
  · exact hd x hx

theorem giveUp (d : Dev) (n : Nat) :
    Narrows (setSpl d fun s => { s with naks := s.naks.filter fun x => x.seq != n }) (giveUp d n) := by
  obtain h | ⟨k, lo, hi, h⟩ | ⟨cid, h⟩ := giveUp_cases d n
  · exact h ▸ givenUp d n
  · exact h ▸ (lostRows _ k lo hi).after (givenUp d n)
  · exact h ▸ (streamLost _ n cid).after (givenUp d n)

end Narrows

theorem alGet_mem {α : Type} {l : List (Nat × α)} {a : Nat} {x : α} (h : alGet l a = some x) : (a, x) ∈ l := by
  induction l with
  | nil => exact absurd h (by simp [alGet])
  | cons c r ih =>
    obtain ⟨k, v⟩ := c
    unfold alGet at h
    split at h
    · next e =>
      obtain rfl := Option.some.inj h
      exact e ▸ List.mem_cons_self ..
    · exact List.mem_cons_of_mem _ (ih h)

namespace StreamEmpty

theorem giveUp {d : Dev} (h : StreamEmpty d) (n : Nat) : StreamEmpty (giveUp d n) :=
  ⟨(Narrows.giveUp d n).cur.trans h.1, (Narrows.giveUp d n).held h.2⟩

/-- Only numbers given up are passed, and no NAK opens. -/
theorem splNext {d : Dev} (h : StreamEmpty d) (n : Nat) : StreamEmpty (splNext n d) ∧ (splNext n d).spl.naks = d.spl.naks := by
  induction n generalizing d with
  | zero => exact ⟨h, rfl⟩
  | succ n ih =>
    obtain ⟨hcur, hheld⟩ := id h
    unfold Machine.splNext
    rw [hcur]
    dsimp only
    split
    · exact ⟨h, rfl⟩
    · exact ⟨h, rfl⟩
    · next hdr _ =>
      have spl : (passGone d hdr).spl = { d.spl with line := alDel d.spl.line d.spl.pos, pos := seqNext d.spl.pos, skip := 0 } := by
        unfold passGone
        dsimp only
        rw [apply_ite Dev.spl]
        exact ite_self _
      have passed : StreamEmpty (passGone d hdr) := by
        unfold StreamEmpty
        rw [heldBlks_eq_nil] at hheld ⊢
        rw [spl]
        exact ⟨hcur, fun x hx => hheld x (alDel_mem _ _ x hx)⟩
      obtain ⟨hs, hn⟩ := ih passed
      exact ⟨hs, hn.trans (congrArg Spl.naks spl :)⟩
    · next b hb =>
      exact absurd (heldBlks_eq_nil.1 hheld _ (alGet_mem hb)) (Option.some_ne_none b)

theorem splLoop {d : Dev} (h : StreamEmpty d) (n : Nat) : StreamEmpty (splLoop n d) := by
  induction n generalizing d with
  | zero => exact (h.splNext _).1
  | succ n ih =>
    unfold Machine.splLoop
    dsimp only
    split
    · exact ih ((h.splNext _).1.giveUp _)
    · exact (h.splNext _).1

theorem splGo {d : Dev} (h : StreamEmpty d) : StreamEmpty (splGo d) := by
  unfold Machine.splGo
  split
  · exact h
  · exact h.splLoop _

theorem headRec {d : Dev} (h : StreamEmpty d) : headRec d = none := by
  unfold Machine.headRec
  rw [h.1]

/-- XPD finds no record to take. -/
theorem withRec {d : Dev} (h : StreamEmpty d) (typ : Nat) (blocks : List Nat) (len : Nat) (u : Upset)
    (f : Dev → List W32 → Dev) : withRec d typ blocks len u f = Machine.splGo d := by
  unfold Machine.withRec
  simp only [h.splGo.headRec]

theorem xpdResume {d : Dev} (h : StreamEmpty d) : xpdResume d = Machine.splGo d := by
  unfold Machine.xpdResume
  simp only [h.splGo.headRec]

/-- With no NAK open nothing is given up. -/
theorem splLoop_of_naks_nil {d : Dev} (h : StreamEmpty d) (hn : d.spl.naks = []) (n : Nat) :
    Machine.splLoop n d = Machine.splNext (2 * d.spl.line.length + 2) d := by
  cases n with
  | zero => rfl
  | succ n =>
    have none : nakDue (Machine.splNext (2 * d.spl.line.length + 2) d) = false := by
      unfold nakDue
      rw [(h.splNext _).2, hn]
      simp
    unfold Machine.splLoop
    dsimp only
    rw [none]
    rfl

end StreamEmpty

end Sys2Proof.Machine
end

section
/-! PROOF. Lookups, bands completed, taken up and released, and due rows (R134, R170, R185, R188, R194, R199 to R201, R317, R614,
R761). -/

namespace Sys2Proof.Machine

theorem pends_evt (d : Dev) (base : Nat) {b : Nat} (hb : b < 32) : pends (evt d base b) base b = true := by
  unfold pends
  rw [rg_evt, if_pos rfl, bit_putBit _ _ _ _ hb, if_pos rfl]

theorem pends_evt_of_pends {d : Dev} {base i : Nat} (b : Nat) (hb : b < 32) (h : pends d base i = true) :
    pends (evt d base b) base i = true := by
  unfold pends at h ⊢
  rw [rg_evt, if_pos rfl, bit_putBit _ _ _ _ hb, h, ite_self]

/-! ### Patch records and bands (R185, R188, R200, R317) -/

/-- A section with one more patch record, `rest` of the band's patches being left. -/
def Sec.recorded (s : Sec) (x : Patch) (rest : List (Nat × Nat)) : Sec := { s with patches := s.patches ++ [x], todo := some rest }

/-- BST counts a patch record and shows it, with the number of its carry pieces (R185). -/
def patchShown (e : Dev) (q p : Nat) (x : Patch × Nat) : Dev :=
  let e := wr (addReg (inc e Adr.BST_CNT_PATCHES) Adr.BST_CNT_CARRY x.2) Adr.BST_LAST_PATCH (w32 (q % 65536 * 65536 + p))
  wr (wr e Adr.BST_LAST_AREA_LO (w32 (ofS 64 x.1.ap))) Adr.BST_LAST_AREA_HI (w32 (ofS 64 x.1.ap / 4294967296))

/-- The block with one more patch record, which takes its space (R317). -/
def patchStored (d : Dev) (s : Sec) (x : Patch) (rest : List (Nat × Nat)) : Dev :=
  let e := setSec d s.num fun y => y.recorded x rest
  { e with bob := { e.bob with patchUsed := e.bob.patchUsed + x.units } }

/-- The block once the record of patch (p, q) is written (R185, R317). -/
def patchWritten (d : Dev) (s : Sec) (q p : Nat) (rest : List (Nat × Nat)) : Dev :=
  patchShown (patchStored d s (mkPatch d s p q).1 rest) q p (mkPatch d s p q)

theorem writePatches_cons {d : Dev} {s : Sec} {q p : Nat} {rest : List (Nat × Nat)} (hs : secOf d s.num = some s)
    (htodo : s.todo = some ((q, p) :: rest)) (hfree : (mkPatch d s p q).1.units ≤ patchFree d) (n : Nat) :
    writePatches (n + 1) d s.num = writePatches n (patchWritten d s q p rest) s.num := by
  rw [writePatches, hs]
  dsimp only
  rw [htodo]
  dsimp only
  rw [if_neg (Nat.not_lt.2 hfree)]
  rfl

theorem writePatches_nil {d : Dev} {s : Sec} {num : Nat} (hs : secOf d num = some s) (htodo : s.todo = some []) (n : Nat) :
    writePatches n d num = d := by
  cases n with
  | zero => rfl
  | succ n =>
    rw [writePatches, hs]
    dsimp only
    rw [htodo]

theorem patchShown_rest (e : Dev) (q p : Nat) (x : Patch × Nat) :
    (patchShown e q p x).spl = e.spl ∧ (patchShown e q p x).secs = e.secs := by
  unfold patchShown
  constructor
  · rw [wr_spl, wr_spl, wr_spl, addReg_spl, inc_spl]
  · rw [wr_secs, wr_secs, wr_secs, addReg_secs, inc_secs]

theorem rg_patchShown (e : Dev) (q p : Nat) (x : Patch × Nat) :
    rg (patchShown e q p x) Adr.BST_CNT_PATCHES = rg e Adr.BST_CNT_PATCHES + 1 ∧
    rg (patchShown e q p x) Adr.BST_LAST_PATCH = w32 (q % 65536 * 65536 + p) := by
  unfold patchShown
  dsimp only
  constructor
  · rw [rg_wr_ne _ _ (by decide), rg_wr_ne _ _ (by decide), rg_wr_ne _ _ (by decide), rg_addReg, if_neg (by decide), rg_inc,
      if_pos rfl]
  · rw [rg_wr_ne _ _ (by decide), rg_wr_ne _ _ (by decide), rg_wr_self]

theorem secOf_patchWritten {d : Dev} {s : Sec} (hs : secOf d s.num = some s) (q p : Nat) (rest : List (Nat × Nat)) :
    secOf (patchWritten d s q p rest) s.num = some (s.recorded (mkPatch d s p q).1 rest) := by
  have put := secOf_setSec d s.num (f := fun y => y.recorded (mkPatch d s p q).1 rest) fun _ => rfl
  rw [hs] at put
  exact (secOf_congr (patchShown_rest (patchStored d s (mkPatch d s p q).1 rest) q p (mkPatch d s p q)).2 _).trans put

/-- A section with its band at hand complete, whose densities are `rho` (R188, R200). -/
def Sec.banded (s : Sec) (n : Nat) (rho : List ((Nat × Nat) × Nat)) : Sec := { s with
  todo := none, bands := n + 1, rho := s.rho ++ rho, pieces := s.pieces.filter fun p => decide (16 * (n + 1) ≤ p.j) }

/-- The block once every record of the band at hand of a section is written (R188, R200). -/
def bandCounted (d : Dev) (s : Sec) : Dev :=
  let e := setSec d s.num fun y => y.banded s.bands (bandRho d s s.bands)
  let e := evt (setFd e Adr.BST_BAND 31 16 (s.bands + 1)) (Page.bst.base 0) Bit.evt_BST_BAND_DONE
  if s.bands + 1 = secBins s then evt e (Page.bst.base 0) Bit.evt_BST_SECTION_DONE else e

theorem bandEnd_eq {d : Dev} {s : Sec} (hs : secOf d s.num = some s) (htodo : s.todo = some []) :
    bandEnd d s.num = bandCounted d s := by
  unfold bandEnd
  rw [hs]
  dsimp only
  rw [if_pos htodo]
  rfl

theorem bandCounted_spl (d : Dev) (s : Sec) : (bandCounted d s).spl = d.spl := by
  unfold bandCounted
  dsimp only
  split
  · simp only [evt_spl]
    rfl
  · simp only [evt_spl]
    rfl

theorem secOf_bandCounted {d : Dev} {s : Sec} (hs : secOf d s.num = some s) :
    secOf (bandCounted d s) s.num = some (s.banded s.bands (bandRho d s s.bands)) := by
  have put := secOf_setSec d s.num (f := fun y => y.banded s.bands (bandRho d s s.bands)) fun _ => rfl
  rw [hs] at put
  refine (secOf_congr ?_ _).trans put
  unfold bandCounted
  dsimp only
  split
  · simp only [evt_secs]
    rfl
  · simp only [evt_secs]
    rfl

theorem rg_bandCounted (d : Dev) (s : Sec) {a : Nat} (h : a ≠ Page.bst.base 0 + oEVTPEND) :
    rg (bandCounted d s) a = if a = Adr.BST_BAND then setBits (rg d a) 31 16 (s.bands + 1) else rg d a := by
  unfold bandCounted
  dsimp only
  have word (e : Dev) (b : Nat) := rg_evt_ne e (Page.bst.base 0) b h
  split
  · rw [word, word, rg_setFd]
    split
    · next e => rw [e]; rfl
    · rfl
  · rw [word, rg_setFd]
    split
    · next e => rw [e]; rfl
    · rfl

theorem bandCounted_pends (d : Dev) (s : Sec) : pends (bandCounted d s) (Page.bst.base 0) Bit.evt_BST_BAND_DONE = true := by
  unfold bandCounted
  dsimp only
  split
  · exact pends_evt_of_pends _ (by decide) (pends_evt _ _ (by decide))
  · exact pends_evt _ _ (by decide)

/-- Patch (p, q) of section `s` has its record, the last of its band, which is complete and announced (R188, R317). -/
structure BandCompleted (d : Dev) (s : Sec) (q p : Nat) (e : Dev) : Prop where
  count : rg e Adr.BST_CNT_PATCHES = rg d Adr.BST_CNT_PATCHES + 1
  band : fd e Adr.BST_BAND 31 16 = (s.bands + 1) % 65536
  last : rg e Adr.BST_LAST_PATCH = w32 (q % 65536 * 65536 + p)
  sec : ∃ x ∈ e.secs, x.num = s.num ∧ x.todo = none ∧ x.bands = s.bands + 1
  event : pends e (Page.bst.base 0) Bit.evt_BST_BAND_DONE = true

/-- Bringing the stream forward changes nothing of it. -/
theorem BandCompleted.onward {d e f : Dev} {s : Sec} {q p n : Nat} (h : BandCompleted d s q p e) (k : Onward n e f) :
    BandCompleted d s q p f where
  count := (k.words _ (not_onwardWord (by decide))).trans h.count
  band := by
    have := h.band
    unfold fd at this ⊢
    rwa [k.words _ (not_onwardWord (by decide))]
  last := (k.words _ (not_onwardWord (by decide))).trans h.last
  sec := by
    obtain ⟨x, hx, hnum, htodo, hbands⟩ := h.sec
    obtain ⟨y, hy, same⟩ := k.mem hx
    exact ⟨y, hy, (congrArg Sec.num same :).trans hnum, (congrArg Sec.todo same :).trans htodo,
      (congrArg Sec.bands same :).trans hbands⟩
  event := (pends_congr (k.words _ (not_onwardWord (by decide))) _).trans h.event

/-- With the last record of the band at hand written, the band is complete. -/
theorem bandEnd_completes {d e : Dev} {s r : Sec} {q p : Nat} (hr : secOf e s.num = some r) (hnum : r.num = s.num)
    (htodo : r.todo = some []) (hbands : r.bands = s.bands) (hcount : rg e Adr.BST_CNT_PATCHES = rg d Adr.BST_CNT_PATCHES + 1)
    (hlast : rg e Adr.BST_LAST_PATCH = w32 (q % 65536 * 65536 + p)) :
    BandCompleted d s q p (bandEnd e s.num) ∧ (bandEnd e s.num).spl = e.spl ∧
      ∃ x, secOf (bandEnd e s.num) s.num = some x ∧ x.todo = none ∧ x.bands = s.bands + 1 := by
  rw [← hnum] at hr ⊢
  have counted := secOf_bandCounted hr
  rw [bandEnd_eq hr htodo]
  refine ⟨⟨?_, ?_, ?_, ?_, bandCounted_pends _ _⟩, bandCounted_spl _ _, _, counted, rfl, congrArg (· + 1) hbands⟩
  · rw [rg_bandCounted _ _ (by decide), if_neg (by decide), hcount]
  · unfold fd
    rw [rg_bandCounted _ _ (by decide), if_pos rfl, bits_setBits _ _ (by decide) (by decide), hbands]
    rfl
  · rw [rg_bandCounted _ _ (by decide), if_neg (by decide), hlast]
  · exact ⟨_, List.mem_of_find?_eq_some counted, hnum, rfl, congrArg (· + 1) hbands⟩

/-- The last record of a band finds room: it is written, and the band is complete (R188, R200, R317). -/
theorem bandEnd_writePatches {d : Dev} {s : Sec} {q p : Nat} (hs : secOf d s.num = some s) (htodo : s.todo = some [(q, p)])
    (hfree : (mkPatch d s p q).1.units ≤ patchFree d) (n : Nat) :
    ∃ e, bandEnd (writePatches (n + 1) d s.num) s.num = e ∧ BandCompleted d s q p e ∧ e.spl = d.spl ∧
      ∃ x, secOf e s.num = some x ∧ x.todo = none ∧ x.bands = s.bands + 1 := by
  have written := secOf_patchWritten hs q p []
  obtain ⟨hcount, hlast⟩ := rg_patchShown (patchStored d s (mkPatch d s p q).1 []) q p (mkPatch d s p q)
  rw [writePatches_cons hs htodo hfree, writePatches_nil written rfl]
  obtain ⟨completed, hspl, hx⟩ := bandEnd_completes (d := d) written rfl rfl rfl hcount hlast
  exact ⟨_, rfl, completed, hspl.trans (patchShown_rest _ q p (mkPatch d s p q)).1, hx⟩

/-- A closed section whose last band is at hand: BST completes it and goes no further (R200). -/
theorem bandsGo_of_last {d e : Dev} {s x : Sec} (hs : secOf d s.num = some s) (htodo : s.todo.isSome = true)
    (hdrop : s.dropped = false) (hclosed : s.closed = true) (done : bandEnd (writePatches (16 * s.b + 1) d s.num) s.num = e)
    (hx : secOf e s.num = some x) (hxtodo : x.todo = none) (hbands : secBins s ≤ x.bands) : bandsGo d s.num none = e := by
  unfold bandsGo
  rw [hs]
  dsimp only
  rw [bandsUpTo, hs]
  dsimp only
  rw [hdrop, if_neg Bool.false_ne_true, htodo, if_pos rfl, done, hx]
  dsimp only
  rw [hxtodo, if_neg (by decide), hclosed, if_pos rfl]
  exact bandsUpTo_of_done hx hxtodo hbands _ _

/-- Space is found for the last record of a band: of a closed section, the band is its last; of an open one, the stream has
nothing for XPD to go on with. -/
theorem patchAllocated_completes {d : Dev} {s : Sec} {q p : Nat} (hfind : (d.secs.find? fun x => x.todo.isSome) = some s)
    (hs : secOf d s.num = some s) (htodo : s.todo = some [(q, p)]) (hdrop : s.dropped = false)
    (hfree : (mkPatch d s p q).1.units ≤ patchFree d)
    (hrest : (s.closed = true ∧ s.bands + 1 = secBins s) ∨ (s.closed = false ∧ StreamEmpty d)) :
    ∃ n, ∃ e, Onward n e (patchAllocated d) ∧ BandCompleted d s q p e := by
  obtain ⟨e, done, completed, hspl, x, hx, hxtodo, hxbands⟩ := bandEnd_writePatches hs htodo hfree (16 * s.b)
  unfold patchAllocated
  rw [hfind]
  dsimp only
  obtain ⟨hclosed, hlast⟩ | ⟨hclosed, hempty⟩ := hrest
  · have go := bandsGo_of_last hs (by rw [htodo]; rfl) hdrop hclosed done hx hxtodo (by omega)
    rw [hclosed, if_pos rfl, if_pos rfl, go]
    exact ⟨0, e, .refl e, completed⟩
  · have hempty : StreamEmpty e := by
      unfold StreamEmpty heldBlks
      rw [hspl]
      exact hempty
    rw [hclosed, if_neg Bool.false_ne_true, if_neg Bool.false_ne_true, done, hx]
    dsimp only
    rw [hxtodo, if_neg (by decide)]
    unfold recFigure
    rw [hempty.withRec, hempty.splGo.xpdResume]
    obtain ⟨n, first⟩ := Onward.splGo e
    obtain ⟨m, second⟩ := Onward.splGo (splGo e)
    exact ⟨_, e, first.trans second, completed⟩

/-! ### Sections taken up and bands released (R194, R199 to R202) -/

/-- PXC takes up a section with the parameters of its slot (R199). -/
theorem pxcTake_takes {d : Dev} {s : Sec} (hnone : pxcSec d = none) (hpxc : blkRuns d .pxc .pxc = true)
    (hbst : blkRuns d .bst .bst = true) (hfind : (d.secs.find? fun x => x.par.isNone && !x.dropped) = some s) :
    (pxcTake d).secs = (setSec d s.num fun y => { y with par := some (pxcLatch d s.slotB), b := slotBands d y.slotB }).secs ∧
    rg (pxcTake d) Adr.PXC_POS = (secTkt d s).index ∧
    pends (pxcTake d) (Page.pxc.base 0) Bit.evt_PXC_LATCHED = true := by
  unfold pxcTake
  rw [hnone, hpxc, hbst, hfind, if_neg (by decide)]
  dsimp only
  refine ⟨?_, ?_, pends_evt _ _ (by decide)⟩
  · rw [evt_secs]
    rfl
  · rw [rg_evt_ne _ _ _ (by decide), rg_wr_ne _ _ (by decide), rg_wr_self]
    rfl

theorem mem_setSec {d : Dev} {s : Sec} (hs : s ∈ d.secs) (f : Sec → Sec) : f s ∈ (setSec d s.num f).secs :=
  List.mem_map.2 ⟨s, hs, if_pos rfl⟩

theorem injAny_rest (d : Dev) (base : Nat) : (injAny d base).2 = { d with regs := (injAny d base).2.regs } := by
  change (injTake (injTake d base false).2 base true).2 = { d with regs := (injTake (injTake d base false).2 base true).2.regs }
  rw [injTake_rest (injTake d base false).2, injTake_rest d]

/-- The patches of the next band that the release of a section hands to dispatch (R194). -/
def Sec.handed (s : Sec) : List Work :=
  (s.patches.filter fun x => !x.queued && s.released = s.selvBins + x.q / 4).map fun x => { sec := s.num, q := x.q, p := x.p }

theorem Sec.mem_handed {s : Sec} {x : Patch} (hx : x ∈ s.patches) (hq : x.queued = false)
    (hrow : s.released = s.selvBins + x.q / 4) :
    ∃ k ∈ s.handed, k.sec = s.num ∧ k.q = x.q ∧ k.p = x.p :=
  ⟨_, List.mem_map_of_mem (List.mem_filter.2 ⟨hx, by simp [hq, hrow]⟩), rfl, rfl, rfl⟩

/-- PXC hands the patches of a section's next band to dispatch (R194). -/
def bandHanded (d : Dev) (s : Sec) (p : PxcPar) : Dev :=
  let e := setSec d s.num fun y => { releasePatches y p s.released with released := s.released + 1 }
  { e with ver := { e.ver with wait := e.ver.wait ++ s.handed } }

/-- The block once the next band of a section is released (R201). -/
def bandReleased (d : Dev) (s : Sec) (p : PxcPar) : Dev :=
  let e := bandHanded (addReg d Adr.PXC_CNT_CLAMP (clampCount s p s.released)) s p
  let e := wr e Adr.PXC_BAND (w32 ((s.released + 1) % 65536 * 65536 + s.released % 65536))
  setSec (evt e (Page.pxc.base 0) Bit.evt_PXC_RELEASED) s.num fun y => { y with
    rho := if s.released + 1 = secBins y then [] else y.rho.filter fun r => decide (16 * s.released ≤ r.1.2 + 16 + 2 * rmaxOf p) }

/-- PXC releases the next band of its section when R201 allows and nothing it reads is poisoned. -/
theorem pxcRelease_eq {d : Dev} {s : Sec} {p : PxcPar} (hpxc : pxcSec d = some s) (hpar : s.par = some p)
    (hruns : blkRuns d .pxc .pxc = true) (hsec : secOf d s.num = some s)
    (hlag : s.released + lagOf p < s.bands ∨ s.bands = secBins s) (hinj : (injAny d (Page.pxc.base 0)).1 = false) :
    pxcRelease d none = bandReleased (injAny d (Page.pxc.base 0)).2 s p := by
  have hsec' : secOf (injAny d (Page.pxc.base 0)).2 s.num = some s := (secOf_congr (by rw [injAny_rest]) _).trans hsec
  have lag : (decide (s.released + lagOf p < s.bands) || decide (s.bands = secBins s)) = true := by simpa using hlag
  unfold pxcRelease pageUpset
  rw [hpxc]
  dsimp only
  rw [hpar]
  dsimp only
  rw [hruns, lag, if_neg (by decide), hinj, if_neg Bool.false_ne_true]
  dsimp only
  rw [hsec']
  rfl

theorem bandReleased_secs {d : Dev} {s : Sec} (hs : s ∈ d.secs) (p : PxcPar) :
    ∃ x ∈ (bandReleased d s p).secs, x.num = s.num ∧ x.released = s.released + 1 := by
  have released := mem_setSec (d := addReg d Adr.PXC_CNT_CLAMP (clampCount s p s.released)) hs
    fun y => { releasePatches y p s.released with released := s.released + 1 }
  refine ⟨_, mem_setSec (s := { releasePatches s p s.released with released := s.released + 1 }) ?_ _, rfl, rfl⟩
  rw [evt_secs, wr_secs]
  exact released

theorem bandReleased_wait (d : Dev) (s : Sec) (p : PxcPar) : (bandReleased d s p).ver.wait = d.ver.wait ++ s.handed := by
  unfold bandReleased
  rw [setSec_ver, evt_ver, wr_ver]
  rfl

theorem bandReleased_shows (d : Dev) (s : Sec) (p : PxcPar) :
    rg (bandReleased d s p) Adr.PXC_BAND = w32 ((s.released + 1) % 65536 * 65536 + s.released % 65536) ∧
    pends (bandReleased d s p) (Page.pxc.base 0) Bit.evt_PXC_RELEASED = true := by
  unfold bandReleased
  constructor
  · rw [rg_setSec, rg_evt_ne _ _ _ (by decide), rg_wr_self]
  · exact (pends_congr (rg_setSec _ _ _ _) _).trans (pends_evt _ _ (by decide))

/-! ### Due rows (R119, R614, R761) -/

/-- A number that is missing stops the stream (R115). -/
theorem splNext_of_missing {d : Dev} (hcur : d.spl.cur = none) (hline : alGet d.spl.line d.spl.pos = none) (n : Nat) :
    splNext n d = d := by
  cases n with
  | zero => rfl
  | succ n => simp only [splNext, hcur, hline]

theorem nakDue_stops {d : Dev} (h : nakDue d = true) : d.spl.cur = none ∧ ∃ x ∈ d.spl.naks, x.seq = d.spl.pos := by
  unfold nakDue at h
  simp only [Bool.and_eq_true, Option.isNone_iff_eq_none, List.any_eq_true, decide_eq_true_eq] at h
  exact h.1

/-- The missing number at which the stream stands is given up when a row that it holds up is due, and the stream goes on (R119). -/
theorem rowDueGo_eq {d : Dev} (hrun : d.fcl.halted = false) (hwait : d.xpd.wait = none) (hdue : nakDue d = true)
    (hline : alGet d.spl.line d.spl.pos = none) :
    rowDueGo d = splLoop (d.spl.naks.length + d.spl.line.length) (giveUp d d.spl.pos) := by
  have missing := splNext_of_missing (nakDue_stops hdue).1 hline
  unfold rowDueGo waitDue splGo
  rw [hrun, hwait, if_neg Bool.false_ne_true]
  dsimp only
  rw [if_neg Bool.false_ne_true, hrun, if_neg Bool.false_ne_true]
  simp only [splLoop, missing, hdue, if_true]

/-- Where its NAK is the only one open and no block is held, no other number is given up. -/
theorem splLoop_giveUp_single {d : Dev} (hdue : nakDue d = true) (hheld : heldBlks d = []) (hone : d.spl.naks.length = 1)
    (n : Nat) : Onward 0 (giveUp d d.spl.pos) (splLoop n (giveUp d d.spl.pos)) := by
  obtain ⟨hcur, x, hx, hseq⟩ := nakDue_stops hdue
  obtain ⟨y, hnaks⟩ := List.length_eq_one_iff.1 hone
  have closed : (giveUp d d.spl.pos).spl.naks = [] := by
    refine List.subset_nil.1 fun z hz => ?_
    have left := (Narrows.giveUp d d.spl.pos).naks hz
    rw [hnaks, List.mem_singleton] at hx
    simp [setSpl, hnaks, ← hx, hseq] at left
  have empty : StreamEmpty d := ⟨hcur, hheld⟩
  rw [(empty.giveUp _).splLoop_of_naks_nil closed]
  exact .splNext _ _

/-! ### The obligation -/

/-- Settles O37: each command does its own work, and what follows it, the stream going on and space being freed, changes neither how
far a section's bands have come nor a word of BST or PXC, and clears no error of SPL. -/
theorem expansionAndBandsGoOn : Obligations.ExpansionAndBandsGoOn := by
  unfold Obligations.ExpansionAndBandsGoOn
  refine ⟨?_, ?_, ?_, ?_, ?_, ?_⟩
  · intro s req v hacc
    refine does_of_run (f := fun d => write d req Adr.XPD_QUERY fun d => xpdQuery d v) rfl ?_
    have go : write s.dev req Adr.XPD_QUERY (fun d => xpdQuery d v) = xpdQuery s.dev v := if_pos hacc
    rw [go, rg_drive, drive_xpd]
    exact ⟨rg_wr_self _ _ _, rfl⟩
  · intro s hbusy
    refine does_of_run rfl ?_
    rw [hbusy, if_pos rfl, drive_xpd]
    rfl
  · intro s sec q p hbst hfind hsec htodo hdrop hfree hrest
    refine does_of_runS rfl ?_
    have rest : (sec.closed = true ∧ sec.bands + 1 = secBins sec) ∨ (sec.closed = false ∧ StreamEmpty s.dev) :=
      hrest.imp_right fun ⟨hopen, hcur, hline⟩ => ⟨hopen, hcur, by unfold heldBlks; rw [hline]; rfl⟩
    obtain ⟨n, e, onward, completed⟩ := patchAllocated_completes hfind hsec htodo hdrop hfree rest
    rw [hbst, if_pos rfl]
    obtain ⟨hcount, hband, hlast, hx, hevent⟩ := completed.onward ((Onward.settled _).after onward)
    exact ⟨hcount, hband, hlast, hx, hevent⟩
  · intro s sec hnone hpxc hbst hfind
    refine does_of_runS rfl ?_
    obtain ⟨hsecs, hpos, hevent⟩ := pxcTake_takes hnone hpxc hbst hfind
    have settled := Onward.settled (pxcTake s.dev)
    have taken := mem_setSec (List.mem_of_find?_eq_some hfind)
      fun y => { y with par := some (pxcLatch s.dev sec.slotB), b := slotBands s.dev y.slotB }
    obtain ⟨x, hx, same⟩ := settled.mem (hsecs ▸ taken)
    refine ⟨⟨x, hx, (congrArg Sec.num same :), (congrArg Sec.par same :), (congrArg Sec.b same :)⟩, ?_, ?_⟩
    · exact (settled.words _ (not_onwardWord (by decide))).trans hpos
    · exact (pends_congr (settled.words _ (not_onwardWord (by decide))) _).trans hevent
  · intro s sec p hpxc hpar hruns hsec hlag hinj
    refine does_of_runS (f := fun d => pxcRelease d none) rfl ?_
    rw [pxcRelease_eq hpxc hpar hruns hsec hlag hinj]
    have rest := injAny_rest s.dev (Page.pxc.base 0)
    have settled := Onward.settled (bandReleased (injAny s.dev (Page.pxc.base 0)).2 sec p)
    obtain ⟨hband, hevent⟩ := bandReleased_shows (injAny s.dev (Page.pxc.base 0)).2 sec p
    obtain ⟨y, hy, hnum, hreleased⟩ := bandReleased_secs (d := (injAny s.dev (Page.pxc.base 0)).2)
      (by rw [rest]; exact List.mem_of_find?_eq_some hsec) p
    obtain ⟨x, hx, same⟩ := settled.mem hy
    refine ⟨⟨x, hx, (congrArg Sec.num same :).trans hnum, (congrArg Sec.released same :).trans hreleased⟩, ?_,
      ⟨sec.handed, ?_, fun z hz hq hrow => Sec.mem_handed hz hq hrow⟩, ?_⟩
    · exact (settled.words _ (not_onwardWord (by decide))).trans hband
    · rw [drive_ver, settle_ver, bandReleased_wait, rest]
    · exact (pends_congr (settled.words _ (not_onwardWord (by decide))) _).trans hevent
  · intro s hrun hwait hdue hline
    refine does_of_runS rfl ?_
    rw [rowDueGo_eq hrun hwait hdue hline]
    refine ⟨?_, fun hheld hone => ?_⟩
    · obtain ⟨n, onward⟩ := Onward.splLoop (s.dev.spl.naks.length + s.dev.spl.line.length) (giveUp s.dev s.dev.spl.pos)
      exact ((Onward.settled _).after onward).latch _ (giveUp_latched s.dev s.dev.spl.pos)
    · have single := splLoop_giveUp_single hdue hheld hone (s.dev.spl.naks.length + s.dev.spl.line.length)
      exact ((Onward.settled _).after (single.after (Onward.giveUp s.dev s.dev.spl.pos))).given

end Sys2Proof.Machine
end

section
/-! SUPPORT. The lengths of the lists of fixed size: what the operations of the state, the headers and the check units leave of them. -/

namespace Sys2Proof.Machine

@[simp] theorem length_modNth {α : Type} (l : List α) (n : Nat) (f : α → α) : (modNth l n f).length = l.length := by
  induction l generalizing n with
  | nil => rfl
  | cons x l ih => cases n with
    | zero => rfl
    | succ n => exact congrArg (· + 1) (ih n)

/-- The lengths of the lists of fixed size, in the order of `SizesStand`. -/
def sizes (d : Dev) : List Nat :=
  [d.chans.length, d.engs.length, d.glr.lanes.length, d.ver.tiles.length, d.pmu.pd.length, d.hel.h.length, d.chks.length,
    d.fcl.lvl.length, d.stc.dbm.slots.length]

theorem sizesStand_iff (d : Dev) : SizesStand d ↔ sizes d = [16, 8, 52, 34, 14, 16, 8, 32, 9] := by
  simp [SizesStand, sizes]

/-- A block given by its fields shows its sizes. -/
@[simp] theorem sizes_mk (regs bar2 infoHeld pins outs free hbm poison exp muz glb fcl mei hlk chans pmu stc bob glr tag cdcHi chks
    testing secs spl xpd engs ver nvm knl tim hel) :
    sizes ⟨regs, bar2, infoHeld, pins, outs, free, hbm, poison, exp, muz, glb, fcl, mei, hlk, chans, pmu, stc, bob, glr, tag, cdcHi, chks,
      testing, secs, spl, xpd, engs, ver, nvm, knl, tim, hel⟩ =
      [chans.length, engs.length, glr.lanes.length, ver.tiles.length, pmu.pd.length, hel.h.length, chks.length, fcl.lvl.length,
        stc.dbm.slots.length] := by simp only [sizes]

@[simp] theorem sizes_fold (d : Dev) :
    [d.chans.length, d.engs.length, d.glr.lanes.length, d.ver.tiles.length, d.pmu.pd.length, d.hel.h.length, d.chks.length,
      d.fcl.lvl.length, d.stc.dbm.slots.length] = sizes d := by simp only [sizes]

/-- GLB holds no list of fixed size. -/
theorem sizes_glb (d : Dev) (g : Glb) : sizes { d with glb := g } = sizes d := by simp

@[simp] theorem sizes_ite (c : Prop) {_ : Decidable c} (d e : Dev) : sizes (if c then d else e) = if c then sizes d else sizes e := by
  split <;> rfl

/-- What every step of a fold keeps, the fold keeps. -/
theorem foldl_keeps {σ α β : Type} {f : σ → α → σ} (m : σ → β) (h : ∀ x a, m (f x a) = m x) (l : List α) (x : σ) :
    m (l.foldl f x) = m x := by
  induction l generalizing x with
  | nil => rfl
  | cons a l ih => exact (ih _).trans (h x a)

@[simp] theorem sizes_foldl {α : Type} {f : Dev → α → Dev} (h : ∀ d x, sizes (f d x) = sizes d) (l : List α) (d : Dev) :
    sizes (l.foldl f d) = sizes d := foldl_keeps sizes h l d

/-- Both branches have the sizes. -/
theorem sizes_ite_eq {c : Prop} [Decidable c] {a b d : Dev} (ha : sizes a = sizes d) (hb : sizes b = sizes d) :
    sizes (if c then a else b) = sizes d := by
  split
  · exact ha
  · exact hb

/-- Both branches have the sizes, beside a value. -/
theorem sizes_snd_ite_eq {α : Type} {c : Prop} [Decidable c] {a b : α × Dev} {d : Dev} (ha : sizes a.2 = sizes d)
    (hb : sizes b.2 = sizes d) :
    sizes (if c then a else b).2 = sizes d := by
  split
  · exact ha
  · exact hb

@[simp] theorem sizes_wr (d : Dev) (a : Nat) (v : W32) : sizes (wr d a v) = sizes d := by simp [wr]

@[simp] theorem sizes_setFd (d : Dev) (a hi lo v : Nat) : sizes (setFd d a hi lo v) = sizes d := by simp [setFd]

@[simp] theorem sizes_addReg (d : Dev) (a n : Nat) : sizes (addReg d a n) = sizes d := by simp [addReg]

@[simp] theorem sizes_inc (d : Dev) (a : Nat) : sizes (inc d a) = sizes d := by simp [inc]

@[simp] theorem sizes_emit (d : Dev) (o : Out) : sizes (emit d o) = sizes d := by simp [emit]

@[simp] theorem sizes_emitAll (d : Dev) (os : List Out) : sizes (emitAll d os) = sizes d := sizes_foldl (f := emit) (fun _ _ => rfl) _ _

@[simp] theorem sizes_takeFree (d : Dev) : sizes (takeFree d).2 = sizes d := by simp [takeFree]

@[simp] theorem sizes_addFree (d : Dev) (a : Nat) : sizes (addFree d a) = sizes d := by simp [addFree]

@[simp] theorem sizes_freeBytes (d : Dev) (n : Nat) : sizes (freeBytes d n).2 = sizes d := by simp [freeBytes]

@[simp] theorem sizes_addReg64 (d : Dev) (lo hi n : Nat) : sizes (addReg64 d lo hi n) = sizes d := by simp [addReg64]

@[simp] theorem sizes_sendMsix (d : Dev) (v : Nat) : sizes (sendMsix d v) = sizes d := by simp [sendMsix]

@[simp] theorem sizes_evt (d : Dev) (base b : Nat) : sizes (evt d base b) = sizes d := by simp [evt]

@[simp] theorem sizes_chkShow (d : Dev) (n : Nat) : sizes (chkShow d n) = sizes d := by simp [chkShow]

@[simp] theorem sizes_chkPut (d : Dev) (n v : Nat) : sizes (chkPut d n v) = sizes d := by simp [chkPut]

@[simp] theorem sizes_chkStart (d : Dev) (n : Nat) : sizes (chkStart d n) = sizes d := by simp [chkStart]

@[simp] theorem sizes_chkFeed (d : Dev) (n k : Nat) (v : W32) : sizes (chkFeed d n k v) = sizes d := by simp [chkFeed]

@[simp] theorem sizes_chkPutFifo (d : Dev) (n : Nat) (l : List ChkItem) : sizes (chkPutFifo d n l) = sizes d := by simp [chkPutFifo]

@[simp] theorem sizes_chkItem (d : Dev) (n : Nat) (i : ChkItem) : sizes (chkItem d n i) = sizes d := by
  cases i
  · exact sizes_chkFeed ..
  · exact sizes_chkStart ..

@[simp] theorem sizes_chkRun (d : Dev) (n : Nat) : sizes (chkRun d n) = sizes d :=
  (sizes_foldl (fun _ _ => sizes_chkItem ..) _ _).trans (sizes_chkPutFifo ..)

@[simp] theorem sizes_chkRoom (d : Dev) (n : Nat) : sizes (chkRoom d n) = sizes d :=
  (sizes_foldl (fun _ _ => sizes_chkItem ..) _ _).trans (sizes_chkPutFifo ..)

@[simp] theorem sizes_chkBusy (d : Dev) (n : Nat) : sizes (chkBusy d n) = sizes d := by simp [chkBusy]

@[simp] theorem sizes_chkData (d : Dev) (n k : Nat) (v : W32) : sizes (chkData d n k v) = sizes d := by simp [chkData]

@[simp] theorem sizes_chkBegin (d : Dev) (n : Nat) : sizes (chkBegin d n) = sizes d := by simp [chkBegin]

@[simp] theorem sizes_chkClear (d : Dev) (n : Nat) : sizes (chkClear d n) = sizes d := by simp [chkClear]

@[simp] theorem sizes_chkTicks (d : Dev) : sizes (chkTicks d) = sizes d := by simp [chkTicks]

@[simp] theorem sizes_injTake (d : Dev) (base : Nat) (onWrite : Bool) : sizes (injTake d base onWrite).2 = sizes d := by
  unfold injTake
  dsimp only
  split <;> simp

@[simp] theorem sizes_injAny (d : Dev) (base : Nat) : sizes (injAny d base).2 = sizes d := by simp [injAny]

@[simp] theorem sizes_standbyLeave (d : Dev) : sizes (standbyLeave d) = sizes d := by simp [standbyLeave]

@[simp] theorem sizes_wakeMem (d : Dev) : sizes (wakeMem d) = sizes d := by simp [wakeMem]

@[simp] theorem sizes_hbmInjWrite (d : Dev) (da : Nat) : sizes (hbmInjWrite d da) = sizes d := by simp [hbmInjWrite]

@[simp] theorem sizes_hbmWrite (d : Dev) (da : Nat) (l : List Byte) : sizes (hbmWrite d da l) = sizes d := by simp [hbmWrite]

@[simp] theorem sizes_hbmCe (d : Dev) (da n : Nat) : sizes (hbmCe d da n) = sizes d := by
  unfold hbmCe
  split <;> simp

@[simp] theorem sizes_hbmInjRead (d : Dev) (da n : Nat) : sizes (hbmInjRead d da n).2 = sizes d := by
  unfold hbmInjRead
  dsimp only
  split <;> simp

@[simp] theorem sizes_hbmPoison (d : Dev) (da : Nat) : sizes (hbmPoison d da) = sizes d := by simp [hbmPoison]

@[simp] theorem sizes_mendStore (d : Dev) (e : MEnt) : sizes (mendStore d e) = sizes d := by simp [mendStore]

@[simp] theorem sizes_putEnt (d : Dev) (e : MEnt) : sizes (putEnt d e) = sizes d := by simp [putEnt]

@[simp] theorem sizes_muzBegin (d : Dev) : sizes (muzBegin d) = sizes d := by simp [muzBegin]

@[simp] theorem sizes_muzEnd (d : Dev) : sizes (muzEnd d) = sizes d := by simp [muzEnd]

@[simp] theorem sizes_muzUpdate (d : Dev) : sizes (muzUpdate d) = sizes d := by simp [muzUpdate]

@[simp] theorem sizes_muzBlink (d : Dev) : sizes (muzBlink d) = sizes d := by simp [muzBlink]

@[simp] theorem sizes_muzMoment (d : Dev) : sizes (muzMoment d) = sizes d := by simp [muzMoment]

@[simp] theorem sizes_updTkt (d : Dev) (k : Nat) (f : Tkt → Tkt) : sizes (updTkt d k f) = sizes d := by simp [updTkt]

@[simp] theorem sizes_stripeBoundary (d : Dev) : sizes (stripeBoundary d) = sizes d := by
  unfold stripeBoundary
  split <;> simp

@[simp] theorem sizes_sealOne (d : Dev) (e : Ended) (unack : Bool) : sizes (sealOne d e unack) = sizes d := by
  unfold sealOne
  rw [sizes_evt]
  split
  · rw [sizes_wr, sizes_wr, sizes_wr]
  · rw [sizes_glb, sizes_wr, sizes_wr, sizes_wr]

@[simp] theorem sizes_sealCheck (d : Dev) : sizes (sealCheck d) = sizes d := by simp [sealCheck]

@[simp] theorem sizes_sealDown (d : Dev) : sizes (sealDown d) = sizes d := by simp [sealDown]

@[simp] theorem sizes_closeCover (d : Dev) (r : Run) (f : Nat) : sizes (closeCover d r f) = sizes d := by
  unfold closeCover
  dsimp only
  repeat' split
  all_goals simp

@[simp] theorem sizes_histCommit (d : Dev) (l c : Nat) : sizes (histCommit d l c) = sizes d := by simp [histCommit]

@[simp] theorem sizes_sendCommit (d : Dev) (fire : Bool) (l : Nat) : sizes (sendCommit d fire l) = sizes d := by simp [sendCommit]

@[simp] theorem sizes_endStripe (d : Dev) (r : Run) : sizes (endStripe d r) = sizes d := by simp [endStripe]

@[simp] theorem sizes_abortFrom (d : Dev) (cause first : Option Nat) : sizes (abortFrom d cause first) = sizes d := by
  unfold abortFrom
  repeat' split
  all_goals simp

@[simp] theorem sizes_abortStripe (d : Dev) (cause : Option Nat) : sizes (abortStripe d cause) = sizes d := by simp [abortStripe]

@[simp] theorem sizes_halt (d : Dev) : sizes (halt d) = sizes d := by simp [halt]

@[simp] theorem sizes_drive (d : Dev) : sizes (drive d) = sizes d := by simp [drive]

@[simp] theorem sizes_fclLog (d : Dev) (s inst lvl b : Nat) : sizes (fclLog d s inst lvl b) = sizes d := by simp [fclLog]

@[simp] theorem sizes_fclFirst (d : Dev) (s inst lvl b : Nat) : sizes (fclFirst d s inst lvl b) = sizes d := by simp [fclFirst]

@[simp] theorem sizes_sevStop (d : Dev) : sizes (sevStop d) = sizes d := by simp [sevStop]

@[simp] theorem sizes_sevHalt (d : Dev) : sizes (sevHalt d) = sizes d := by simp [sevHalt]

@[simp] theorem sizes_fclAct (d : Dev) (s inst b : Nat) : sizes (fclAct d s inst b) = sizes d := by simp [fclAct]

@[simp] theorem sizes_errSet (d : Dev) (base b : Nat) (i0 i1 : W32) : sizes (errSet d base b i0 i1).2 = sizes d := by
  unfold errSet
  dsimp only
  split <;> simp

@[simp] theorem sizes_sevUe (d : Dev) (s : Nat) : sizes (sevUe d s) = sizes d := by simp [sevUe]

@[simp] theorem sizes_fclTake (d : Dev) (s inst b : Nat) : sizes (fclTake d s inst b) = sizes d := by simp [fclTake]

@[simp] theorem sizes_err (d : Dev) (base b : Nat) (i0 i1 : W32) : sizes (err d base b i0 i1) = sizes d := by
  unfold err
  dsimp only
  repeat' split
  all_goals simp

@[simp] theorem sizes_errHold (d : Dev) (base b : Nat) (i0 i1 : W32) : sizes (errHold d base b i0 i1) = sizes d := by
  unfold errHold
  split <;> simp

@[simp] theorem sizes_listCheck (d : Dev) : sizes (listCheck d) = sizes d := by simp [listCheck]

@[simp] theorem sizes_addEnts (d : Dev) (l : List MEnt) : sizes (addEnts d l) = sizes d := by simp [addEnts]

@[simp] theorem sizes_addEnt (d : Dev) (e : MEnt) : sizes (addEnt d e) = sizes d := by simp [addEnt]

@[simp] theorem sizes_stripeEnts (d : Dev) (blk : Blk) (t : Tkt) (l : List EntWords) : sizes (stripeEnts d blk t l) = sizes d := by
  simp [stripeEnts]

@[simp] theorem sizes_stripeEnt (d : Dev) (blk : Blk) (t : Tkt) (cause kind : Nat) (w2 w3 : W32) :
    sizes (stripeEnt d blk t cause kind w2 w3) = sizes d := by simp [stripeEnt]

@[simp] theorem sizes_errClear (d : Dev) (base : Nat) (v : W32) : sizes (errClear d base v) = sizes d := by simp [errClear]

@[simp] theorem sizes_expErr (d : Dev) (b : Nat) : sizes (expErr d b) = sizes d := by simp [expErr]

@[simp] theorem sizes_expTktErr (d : Dev) (b : Nat) (t : Tkt) : sizes (expTktErr d b t) = sizes d := by simp [expTktErr]

end Sys2Proof.Machine
end

section
/-! SUPPORT. The lengths of the lists of fixed size: stitching, the dead-beam map, the tag and the plate link leave them. -/

namespace Sys2Proof.Machine

@[simp] theorem sizes_doseCe (d : Dev) (k q r n : Nat) : sizes (doseCe d k q r n) = sizes d := by
  unfold doseCe
  split <;> simp

@[simp] theorem sizes_writeSlot (d : Dev) (s serial r : Nat) (codes : List (Nat × Nat)) :
    sizes (writeSlot d s serial r codes) = sizes d := by simp [writeSlot]

@[simp] theorem sizes_writeRow (d : Dev) (st : Stitch) (u : Nat) (o : RowOut) : sizes (writeRow d st u o) = sizes d := by simp [writeRow]

@[simp] theorem sizes_stcErr (d : Dev) (b : Nat) (t : Tkt) (w : Nat) : sizes (stcErr d b t w) = sizes d := by simp [stcErr]

@[simp] theorem sizes_stcErrAt (d : Dev) (b : Nat) (t : Tkt) (w s : Nat) : sizes (stcErrAt d b t w s) = sizes d := by simp [stcErrAt]

@[simp] theorem sizes_tableFault (d : Dev) (a b fault : Nat) : sizes (tableFault d a b fault).2 = sizes d := by simp [tableFault]

@[simp] theorem sizes_tableStored (d : Dev) (a : Nat) : sizes (tableStored d a) = sizes d := by simp [tableStored]

@[simp] theorem sizes_stcStitch (d : Dev) (fault : Nat) : sizes (stcStitch d fault) = sizes d := by
  unfold stcStitch
  repeat' split
  all_goals simp

@[simp] theorem sizes_findRows (d : Dev) (t : Tkt) (s : Nat) : sizes (findRows d t s).2 = sizes d := by
  unfold findRows; dsimp only; split <;> simp

@[simp] theorem sizes_stcGather (d : Dev) (t : Tkt) (s : Nat) (late : List Nat) (fault : Nat) :
    sizes (stcGather d t s late fault) = sizes d := by simp [stcGather]

@[simp] theorem sizes_dbmMark (d : Dev) (i beam : Nat) : sizes (dbmMark d i beam) = sizes d := by simp [dbmMark]

@[simp] theorem sizes_dbmReplace (d : Dev) (i : Nat) (beams : List Nat) : sizes (dbmReplace d i beams) = sizes d := by simp [dbmReplace]

@[simp] theorem sizes_setDbm (d : Dev) (f : Dbm → Dbm) (h : ∀ m, (f m).slots.length = m.slots.length) :
    sizes (setDbm d f) = sizes d := by
  simp [setDbm, h]

@[simp] theorem sizes_dbmCommit (d : Dev) : sizes (dbmCommit d) = sizes d := by
  unfold dbmCommit
  extract_lets +onlyGivenNames m gen slots heldNos age oldest
  split
  next s next h =>
  have hs : s.length = d.stc.dbm.slots.length := by
    split at h
    · rw [← (Prod.mk.inj h).1]; simp [slots, m]
    · rw [← (Prod.mk.inj h).1]; simp [slots, m]
  simp [setDbm, hs]

@[simp] theorem sizes_dbmCopied (d : Dev) : sizes (dbmCopied d) = sizes d := by
  unfold dbmCopied
  dsimp only
  repeat' split
  all_goals simp

@[simp] theorem sizes_dbmAddMap (d : Dev) (beams : List Nat) : sizes (dbmAddMap d beams) = sizes d := by simp [dbmAddMap]

@[simp] theorem sizes_dbmAddBit (d : Dev) (beam : Nat) : sizes (dbmAddBit d beam) = sizes d := by simp [dbmAddBit]

@[simp] theorem sizes_stcBegin (d : Dev) : sizes (stcBegin d) = sizes d := by
  unfold stcBegin
  dsimp only
  split <;> simp

@[simp] theorem sizes_mendSlot (d : Dev) (s serial r : Nat) (codes : List (Nat × Nat)) :
    sizes (mendSlot d s serial r codes) = sizes d := by simp [mendSlot]

@[simp] theorem sizes_stcRestitch (d : Dev) (k q : Nat) : sizes (stcRestitch d k q) = sizes d := by
  unfold stcRestitch
  split
  · split
    · rfl
    · refine foldl_keeps (fun a : Dev × List (Nat × Int) => sizes a.1) (fun a i => ?_) _ _
      simp
  · rfl

@[simp] theorem sizes_tagErr (d : Dev) (b : Nat) : sizes (tagErr d b) = sizes d := by simp [tagErr]

@[simp] theorem sizes_tagSend (d : Dev) : sizes (tagSend d) = sizes d := by
  unfold tagSend
  dsimp only
  repeat' split
  all_goals simp

@[simp] theorem sizes_tagStart (d : Dev) (adv : Bool) : sizes (tagStart d adv) = sizes d := by simp [tagStart]

@[simp] theorem sizes_tagAdvance (d : Dev) : sizes (tagAdvance d) = sizes d := by simp [tagAdvance]

@[simp] theorem sizes_tagEnd (d : Dev) : sizes (tagEnd d) = sizes d := by simp [tagEnd]

@[simp] theorem sizes_tagCount (d : Dev) : sizes (tagCount d) = sizes d := by simp [tagCount]

@[simp] theorem sizes_tagChal (d : Dev) : sizes (tagChal d) = sizes d := by
  unfold tagChal
  dsimp only
  repeat' split
  all_goals simp

@[simp] theorem sizes_tagSetCount (d : Dev) (c : Nat) : sizes (tagSetCount d c) = sizes d := by simp [tagSetCount]

@[simp] theorem sizes_tagDown (d : Dev) : sizes (tagDown d) = sizes d := by simp [tagDown]

@[simp] theorem sizes_tagResp (d : Dev) (plateId count mac : Nat) : sizes (tagResp d plateId count mac).1 = sizes d := by
  unfold tagResp
  repeat' split
  all_goals simp

@[simp] theorem sizes_tagAck (d : Dev) (mac : Nat) : sizes (tagAck d mac) = sizes d := by
  unfold tagAck
  split <;> simp

@[simp] theorem sizes_tagRetry (d : Dev) : sizes (tagRetry d).1 = sizes d := by
  unfold tagRetry
  repeat' split
  all_goals simp

@[simp] theorem sizes_tagReset (d : Dev) : sizes (tagReset d) = sizes d := by simp [tagReset]

@[simp] theorem sizes_setGlr (d : Dev) (f : Glr → Glr) (h : ∀ g, (f g).lanes.length = g.lanes.length) :
    sizes (setGlr d f) = sizes d := by
  simp [setGlr, h]

@[simp] theorem sizes_setLane (d : Dev) (n : Nat) (f : Lane → Lane) : sizes (setLane d n f) = sizes d := by simp [setLane]

@[simp] theorem sizes_glrErr (d : Dev) (b lseq : Nat) (x : W32) : sizes (glrErr d b lseq x) = sizes d := by simp [glrErr]

@[simp] theorem sizes_glrEvt (d : Dev) (b : Nat) : sizes (glrEvt d b) = sizes d := by simp [glrEvt]

@[simp] theorem sizes_mapChanged (d : Dev) : sizes (mapChanged d) = sizes d := by simp [mapChanged]

@[simp] theorem sizes_histRead (d : Dev) (lseq : Nat) : sizes (histRead d lseq).2.2 = sizes d := by
  unfold histRead
  dsimp only
  repeat' split
  all_goals simp

@[simp] theorem sizes_histEnts (d : Dev) (h : Hist) (l : List EntWords) : sizes (histEnts d h l) = sizes d := by simp [histEnts]

@[simp] theorem sizes_laneOut (d : Dev) (n : Nat) : sizes (laneOut d n) = sizes d := by simp [laneOut]

@[simp] theorem sizes_lostPackets (d : Dev) (l : Nat) (ks : List Nat) : sizes (lostPackets d l ks) = sizes d := by
  unfold lostPackets
  dsimp only
  repeat' split
  all_goals simp

@[simp] theorem sizes_laneDrop (d : Dev) (n unsent : Nat) : sizes (laneDrop d n unsent) = sizes d := by
  unfold laneDrop
  dsimp only
  repeat' split
  all_goals simp

@[simp] theorem sizes_laneDropFree (d : Dev) (n : Nat) : sizes (laneDropFree d n) = sizes d := by simp [laneDropFree]

@[simp] theorem sizes_latchUnack (d : Dev) : sizes (latchUnack d) = sizes d := by
  unfold latchUnack
  dsimp only
  repeat' split
  all_goals simp

@[simp] theorem sizes_unackClear (d : Dev) : sizes (unackClear d) = sizes d := by simp [unackClear]

@[simp] theorem sizes_ackStall (d : Dev) (l : Nat) : sizes (ackStall d l) = sizes d := by simp [ackStall]

@[simp] theorem sizes_glrOff (d : Dev) : sizes (glrOff d) = sizes d := by simp [glrOff]

@[simp] theorem sizes_linkDownIf (raise : Bool) (d : Dev) : sizes (linkDownIf raise d) = sizes d := by simp [linkDownIf]

@[simp] theorem sizes_linkDown (d : Dev) : sizes (linkDown d) = sizes d := by simp [linkDown]

@[simp] theorem sizes_linkCheck (d : Dev) : sizes (linkCheck d) = sizes d := by simp [linkCheck]

@[simp] theorem sizes_lanesDrop (d : Dev) (ns : List Nat) (f : Dev → Nat → Dev) (h : ∀ d n, sizes (f d n) = sizes d) :
    sizes (lanesDrop d ns f) = sizes d := by
  unfold lanesDrop; simp [h]

@[simp] theorem sizes_commitFrame (d : Dev) (fire : Bool) (l : Nat) : sizes (commitFrame d fire l) = sizes d := by simp [commitFrame]

@[simp] theorem sizes_commitUnit (d : Dev) (fire : Bool) (l : Nat) : sizes (commitUnit d fire l) = sizes d := by simp [commitUnit]

@[simp] theorem sizes_mapSettle (d : Dev) : sizes (mapSettle d) = sizes d := by simp [mapSettle]

@[simp] theorem sizes_beginFrame (d : Dev) (r : Run) (g : Nat) (commit : Option Bool) : sizes (beginFrame d r g commit) = sizes d := by
  have grown (ns : List Nat) (f : Nat → Lane → Lane) (l : List Lane) :
      (ns.foldl (fun a n => modNth a n (f n)) l).length = l.length :=
    foldl_keeps List.length (fun _ _ => length_modNth ..) _ _
  unfold beginFrame
  dsimp only
  split
  · simp
  · cases commit <;> simp [grown]

@[simp] theorem sizes_sendResend (d : Dev) (first last : Nat) : sizes (sendResend d first last) = sizes d := by simp [sendResend]

@[simp] theorem sizes_rxGap (d : Dev) (a b : Nat) : sizes (rxGap d a b) = sizes d := by simp [rxGap]

@[simp] theorem sizes_rxSettle (d : Dev) : sizes (rxSettle d) = sizes d := by simp [rxSettle]

@[simp] theorem sizes_ackTake (d : Dev) : sizes (ackTake d) = sizes d := by
  unfold ackTake
  split <;> simp

@[simp] theorem sizes_rxMsg (d : Dev) (n rseq : Nat) : sizes (rxMsg d n rseq).2 = sizes d := by
  unfold rxMsg
  repeat' split
  all_goals simp

@[simp] theorem sizes_laneFails (d : Dev) (h : Hist) (l : List Nat) : sizes (laneFails d h l) = sizes d := by simp [laneFails]

@[simp] theorem sizes_glrRowFail (d : Dev) (lseq : Nat) (nocommit : Bool) (crc seqf : Nat) :
    sizes (glrRowFail d lseq nocommit crc seqf) = sizes d := by
  unfold glrRowFail
  dsimp only
  split <;> simp

@[simp] theorem sizes_beamOff (d : Dev) (beam : Nat) : sizes (beamOff d beam) = sizes d := by simp [beamOff]

@[simp] theorem sizes_beamEnt (d : Dev) (t : Tkt) (s beam : Nat) : sizes (beamEnt d t s beam) = sizes d := by simp [beamEnt]

@[simp] theorem sizes_glrBeamDied (d : Dev) (lseq k j : Nat) : sizes (glrBeamDied d lseq k j) = sizes d := by
  unfold glrBeamDied
  dsimp only
  repeat' split
  all_goals simp

@[simp] theorem sizes_glrDbmEnd (d : Dev) (count crc : Nat) : sizes (glrDbmEnd d count crc) = sizes d := by simp [glrDbmEnd]

@[simp] theorem sizes_translate (d : Dev) (i : Instr) : sizes (translate d i) = sizes d := by
  unfold translate
  split <;> simp

@[simp] theorem sizes_glrDrainN (n : Nat) (d : Dev) : sizes (glrDrainN n d) = sizes d := by
  induction n generalizing d with
  | zero => rfl
  | succ n ih => unfold glrDrainN; split <;> simp [ih]

@[simp] theorem sizes_resendMissing (d : Dev) : sizes (resendMissing d) = sizes d := by simp [resendMissing]

@[simp] theorem sizes_glrDrain (d : Dev) : sizes (glrDrain d) = sizes d := by simp [glrDrain]

@[simp] theorem sizes_glrTake (d : Dev) (n rseq : Nat) (i : Instr) : sizes (glrTake d n rseq i) = sizes d := by simp [glrTake]

@[simp] theorem sizes_tuneDone (d : Dev) : sizes (tuneDone d) = sizes d := by simp [tuneDone]

@[simp] theorem sizes_glrLinkUp (d : Dev) : sizes (glrLinkUp d) = sizes d := by simp [glrLinkUp]

@[simp] theorem sizes_dbmAsk (d : Dev) : sizes (dbmAsk d) = sizes d := by simp [dbmAsk]

@[simp] theorem sizes_glrTagged (d : Dev) : sizes (glrTagged d) = sizes d := by simp [glrTagged]

@[simp] theorem sizes_glrEnable (d : Dev) : sizes (glrEnable d) = sizes d := by simp [glrEnable]

@[simp] theorem sizes_retUpdate (d : Dev) (n : Nat) : sizes (retUpdate d n) = sizes d := by simp [retUpdate]

@[simp] theorem sizes_laneJoin (d : Dev) (n : Nat) : sizes (laneJoin d n) = sizes d := by simp [laneJoin]

@[simp] theorem sizes_laneQuiesce (d : Dev) (n : Nat) : sizes (laneQuiesce d n) = sizes d := by simp [laneQuiesce]

@[simp] theorem sizes_write (d : Dev) (req : Req) (a : Nat) (f : Dev → Dev) (h : sizes (f d) = sizes d) :
    sizes (write d req a f) = sizes d := by
  simp [write, h]

@[simp] theorem sizes_storeReg (d : Dev) (a : Nat) (v : W32) : sizes (storeReg d a v) = sizes d := by
  unfold storeReg
  repeat' split
  all_goals simp

@[simp] theorem sizes_laneStatus (d : Dev) (lock fec : Nat) (errs uncorr : List Nat) :
    sizes (laneStatus d lock fec errs uncorr) = sizes d := by simp [laneStatus]

@[simp] theorem sizes_tuneReq (d : Dev) (n tap action preset : Nat) : sizes (tuneReq d n tap action preset) = sizes d := by simp [tuneReq]

@[simp] theorem sizes_glrCmd (d : Dev) (v : W32) : sizes (glrCmd d v) = sizes d := by simp [glrCmd]

@[simp] theorem sizes_tagCtrl (d : Dev) (v : W32) : sizes (tagCtrl d v) = sizes d := by simp [tagCtrl]

@[simp] theorem sizes_chkCmd (d : Dev) (n : Nat) (v : W32) : sizes (chkCmd d n v) = sizes d := by simp [chkCmd]

end Sys2Proof.Machine
end

section
/-! SUPPORT. The lengths of the lists of fixed size: the Heel, exposure, the memory channels and BOB leave them. -/

namespace Sys2Proof.Machine

@[simp] theorem sizes_setHel (d : Dev) (f : Hel → Hel) (h : ∀ x, (f x).h.length = x.h.length) :
    sizes (setHel d f) = sizes d := by
  simp [setHel, h]

@[simp] theorem sizes_helEvt (d : Dev) (b : Nat) : sizes (helEvt d b) = sizes d := by simp [helEvt]

@[simp] theorem sizes_helErr (d : Dev) (b : Nat) (i1 : W32) : sizes (helErr d b i1) = sizes d := by simp [helErr]

@[simp] theorem sizes_helCause (d : Dev) : sizes (helCause d) = sizes d := by simp [helCause]

@[simp] theorem sizes_helSlope (d : Dev) (v : Int) : sizes (helSlope d v) = sizes d := by simp [helSlope]

@[simp] theorem sizes_injAbort (d : Dev) : sizes (injAbort d) = sizes d := by
  unfold injAbort
  dsimp only
  split <;> simp

@[simp] theorem sizes_injTick (d : Dev) : sizes (injTick d) = sizes d := by
  unfold injTick
  dsimp only
  repeat' split
  all_goals simp

@[simp] theorem sizes_helSafe (d : Dev) : sizes (helSafe d) = sizes d := by simp [helSafe]

@[simp] theorem sizes_helAcquire (d : Dev) : sizes (helAcquire d) = sizes d := by simp [helAcquire]

@[simp] theorem sizes_helOff (d : Dev) : sizes (helOff d) = sizes d := by simp [helOff]

@[simp] theorem sizes_capTick (d : Dev) (defl : Int) : sizes (capTick d defl) = sizes d := by
  -- The operation stays a variable: the kernel would evaluate the literals that its branches turn on.
  obtain ⟨f, hf, took⟩ : ∃ f, wr = f ∧ ∀ d a v, sizes (f d a v) = sizes d := ⟨_, rfl, sizes_wr⟩
  unfold capTick
  rw [hf]
  simp [took]

@[simp] theorem sizes_helOverrun (d : Dev) (was : Nat) : sizes (helOverrun d was) = sizes d := by
  unfold helOverrun
  dsimp only
  repeat' split
  all_goals simp

@[simp] theorem sizes_helLeash (d : Dev) (e : Int) : sizes (helLeash d e) = sizes d := by simp [helLeash]

@[simp] theorem sizes_helHyst (d : Dev) (e : Int) : sizes (helHyst d e) = sizes d := by simp [helHyst]

@[simp] theorem sizes_helOut (d : Dev) (a : Int) : sizes (helOut d a) = sizes d := by simp [helOut]

@[simp] theorem sizes_ucFault (d : Dev) : sizes (ucFault d) = sizes d := by simp [ucFault]

@[simp] theorem sizes_ucExec (d : Dev) (op cost : Nat) (f : Dev → Nat → Dev) (go : Hel → Nat → Nat)
    (h : ∀ d w, sizes (f d w) = sizes d) : sizes (ucExec d op cost f go) = sizes d := by
  simp [ucExec, h]

@[simp] theorem length_ucSet (h : Hel) (i : Nat) (v : Int) : (ucSet h i v).h.length = h.h.length := by
  unfold ucSet
  split <;> simp

@[simp] theorem sizes_ucAlu (d : Dev) (op cost : Nat) (f : Hel → Nat → Int) : sizes (ucAlu d op cost f) = sizes d := by
  simp [ucAlu]

@[simp] theorem sizes_ucStore (d : Dev) (a : Nat) (v : W32) : sizes (ucStore d a v) = sizes d := by simp [ucStore]

@[simp] theorem sizes_ucReload (d : Dev) : sizes (ucReload d) = sizes d := by simp [ucReload]

@[simp] theorem sizes_helCmd (d : Dev) (v : W32) : sizes (helCmd d v) = sizes d := by simp [helCmd]

@[simp] theorem sizes_helInjCtrl (d : Dev) (v : W32) : sizes (helInjCtrl d v) = sizes d := by simp [helInjCtrl]

@[simp] theorem sizes_helCapCtrl (d : Dev) (v : W32) : sizes (helCapCtrl d v) = sizes d := by
  unfold helCapCtrl
  dsimp only
  split
  · exact (sizes_setHel _ _ fun _ => rfl).trans (sizes_wr ..)
  · exact sizes_wr ..

@[simp] theorem sizes_helCfg (d : Dev) (v : W32) : sizes (helCfg d v) = sizes d := by simp [helCfg]

@[simp] theorem sizes_helReset (d : Dev) : sizes (helReset d) = sizes d := by simp [helReset]

@[simp] theorem sizes_setPd (d : Dev) (n : Nat) (f : Pd → Pd) : sizes (setPd d n f) = sizes d := by simp [setPd]

@[simp] theorem sizes_pllStart (d : Dev) (p : Nat) : sizes (pllStart d p) = sizes d := by simp [pllStart]

@[simp] theorem sizes_pllLock (d : Dev) (p : Nat) : sizes (pllLock d p) = sizes d := by simp [pllLock]

@[simp] theorem sizes_pllUnlock (d : Dev) (p : Nat) : sizes (pllUnlock d p) = sizes d := by simp [pllUnlock]

@[simp] theorem sizes_pllStop (d : Dev) (p : Nat) : sizes (pllStop d p) = sizes d := by simp [pllStop]

@[simp] theorem sizes_pllSettle (d : Dev) (p : Nat) : sizes (pllSettle d p) = sizes d := by simp [pllSettle]

@[simp] theorem sizes_pdAct (d : Dev) (n q : Nat) : sizes (pdAct d n q) = sizes d := by
  unfold pdAct
  split <;> simp

@[simp] theorem sizes_pdAsk (d : Dev) (n q : Nat) : sizes (pdAsk d n q) = sizes d := by
  unfold pdAsk
  repeat' split
  all_goals simp

@[simp] theorem sizes_setExp (d : Dev) (f : Exp → Exp) : sizes (setExp d f) = sizes d := by simp [setExp]

@[simp] theorem sizes_setRun (d : Dev) (f : Run → Run) : sizes (setRun d f) = sizes d := by simp [setRun]

@[simp] theorem sizes_setMuz (d : Dev) (f : Muz → Muz) : sizes (setMuz d f) = sizes d := by simp [setMuz]

@[simp] theorem sizes_expEvt (d : Dev) (b : Nat) : sizes (expEvt d b) = sizes d := by simp [expEvt]

@[simp] theorem sizes_stageFault (d : Dev) (b : Nat) : sizes (stageFault d b) = sizes d := by
  unfold stageFault
  dsimp only
  split <;> simp

@[simp] theorem sizes_feedbackLost (d : Dev) : sizes (feedbackLost d) = sizes d := by simp [feedbackLost]

@[simp] theorem sizes_countEdge (d : Dev) (up : Bool) (t : Nat) : sizes (countEdge d up t) = sizes d := by
  unfold countEdge
  extract_lets +onlyGivenNames last e g
  have he : sizes e = sizes d := sizes_setExp ..
  have hg : sizes g = sizes e := by
    unfold g
    have back (f : Exp → Exp) (a : Nat) : sizes (inc (setExp e f) a) = sizes e := (sizes_inc ..).trans (sizes_setExp ..)
    split
    · rfl
    · exact sizes_ite_eq (sizes_setExp ..) (sizes_ite_eq ((sizes_stageFault ..).trans (back ..)) (back ..))
  rw [← he, ← hg]
  clear_value g last
  split
  · exact sizes_ite_eq (sizes_feedbackLost g) rfl
  · rfl

@[simp] theorem sizes_stageInput (d : Dev) (x y : Bool) (width t : Nat) : sizes (stageInput d x y width t) = sizes d := by
  unfold stageInput
  dsimp only
  repeat' split
  all_goals simp

@[simp] theorem sizes_gatherTo (d : Dev) (g : Nat) : sizes (gatherTo d g) = sizes d := by
  unfold gatherTo
  split <;> simp

@[simp] theorem sizes_handOver (d : Dev) (g : Nat) (commit : Option Bool) : sizes (handOver d g commit) = sizes d := by
  unfold handOver
  split <;> simp

@[simp] theorem sizes_commitShot (d : Dev) (k n f : Nat) (fire : Bool) : sizes (commitShot d k n f fire) = sizes d := by
  unfold commitShot
  dsimp only
  repeat' split
  all_goals simp

@[simp] theorem sizes_leadBoundary (d : Dev) : sizes (leadBoundary d) = sizes d := by
  unfold leadBoundary
  split <;> simp

@[simp] theorem sizes_openCover (d : Dev) (f : Nat) : sizes (openCover d f) = sizes d := by simp [openCover]

@[simp] theorem sizes_shotDone (d : Dev) (k f : Nat) : sizes (shotDone d k f) = sizes d := by
  unfold shotDone
  dsimp only
  split <;> simp

@[simp] theorem sizes_decideShot (d : Dev) (r : Run) (f t : Nat) (dec : Decision) : sizes (decideShot d r f t dec) = sizes d := by
  simp [decideShot]

@[simp] theorem sizes_shotBoundary (d : Dev) : sizes (shotBoundary d) = sizes d := by
  unfold shotBoundary
  split
  · rfl
  next t r h =>
  extract_lets +onlyGivenNames n
  refine sizes_ite_eq rfl ?_
  extract_lets +onlyGivenNames f k total stop
  clear_value f k total stop
  refine sizes_ite_eq (by simp) ?_
  extract_lets +onlyGivenNames e
  have he : sizes e = sizes d := by simp [e]
  clear_value e
  refine sizes_ite_eq (by simp [he]) (sizes_ite_eq (by simp [he]) ?_)
  extract_lets +onlyGivenNames tmin gap g
  have hg : sizes g = sizes d := by simp [g, he]
  clear_value g tmin gap
  refine sizes_ite_eq ?_ ?_
  · extract_lets +onlyGivenNames a b c c2
    have hc : sizes c2 = sizes d := by simp [a, b, c, c2, hg]
    clear_value c2
    split
    · rw [sizes_shotDone]
      split <;> simp [hc]
    · simp [hc]
  extract_lets +onlyGivenNames blocked
  clear_value blocked
  refine sizes_ite_eq ?_ (sizes_ite_eq ?_ ?_)
  · extract_lets +onlyGivenNames a b
    have hb : sizes b = sizes d := by simp [a, b, hg]
    clear_value b
    split <;> simp [hb]
  · simp [hg]
  · simp [hg]

@[simp] theorem sizes_stripeGo (d : Dev) (t : Nat) : sizes (stripeGo d t) = sizes d := by
  unfold stripeGo
  repeat' split
  all_goals simp

@[simp] theorem sizes_tktWord (d : Dev) (v : W32) : sizes (tktWord d v) = sizes d := by simp [tktWord]

@[simp] theorem sizes_tktAccept (d : Dev) : sizes (tktAccept d) = sizes d := by
  unfold tktAccept
  split <;> simp

@[simp] theorem sizes_expWake (d : Dev) : sizes (expWake d) = sizes d := by simp [expWake]

@[simp] theorem sizes_expCmd (d : Dev) (v : W32) : sizes (expCmd d v) = sizes d := by simp [expCmd]

@[simp] theorem sizes_externalStop (d : Dev) : sizes (externalStop d) = sizes d := by simp [externalStop]

@[simp] theorem sizes_closeOne (d : Dev) (from_ : Option Nat) (cause : Nat) : sizes (closeOne d from_ cause) = sizes d := by
  unfold closeOne
  split <;> simp

@[simp] theorem sizes_strobeRise (d : Dev) : sizes (strobeRise d) = sizes d := by
  unfold strobeRise
  split <;> simp

@[simp] theorem sizes_pulseOver (d : Dev) : sizes (pulseOver d) = sizes d := by simp [pulseOver]

@[simp] theorem sizes_strobeCut (d : Dev) : sizes (strobeCut d) = sizes d := by
  unfold strobeCut
  dsimp only
  repeat' split
  all_goals simp

@[simp] theorem sizes_strobeFall (d : Dev) : sizes (strobeFall d) = sizes d := by
  unfold strobeFall
  split <;> simp

@[simp] theorem sizes_muzCmd (d : Dev) (v : W32) : sizes (muzCmd d v) = sizes d := by simp [muzCmd]

@[simp] theorem sizes_setSec (d : Dev) (k : Nat) (f : Sec → Sec) : sizes (setSec d k f) = sizes d := by simp [setSec]

@[simp] theorem sizes_lookCheck (d : Dev) : sizes (lookCheck d) = sizes d := by simp [lookCheck]

@[simp] theorem sizes_bobFree (d : Dev) : sizes (bobFree d) = sizes d := by simp [bobFree]

@[simp] theorem sizes_settle (d : Dev) : sizes (settle d) = sizes d := by simp [settle]

@[simp] theorem sizes_winReserve (d : Dev) (s : Sec) (q : Nat) : sizes (winReserve d s q) = sizes d := by simp [winReserve]

@[simp] theorem sizes_setPc (d : Dev) (p : Nat) (f : Pc → Pc) : sizes (setPc d p f) = sizes d := by simp [setPc]

@[simp] theorem sizes_mcEnter (d : Dev) (p : Nat) (r : BReq) : sizes (mcEnter d p r) = sizes d := by simp [mcEnter]

@[simp] theorem sizes_mcAdmit (d : Dev) (p t : Nat) : sizes (mcAdmit d p t) = sizes d := by
  unfold mcAdmit
  split <;> simp

@[simp] theorem sizes_mcCatchN (n : Nat) (d : Dev) (p lim : Nat) : sizes (mcCatchN n d p lim) = sizes d := by
  induction n generalizing d with
  | zero => rfl
  | succ n ih => unfold mcCatchN; split <;> simp [ih]

@[simp] theorem sizes_mcCatch (d : Dev) (p lim : Nat) : sizes (mcCatch d p lim) = sizes d := by simp [mcCatch]

@[simp] theorem sizes_mcRequest (d : Dev) (port da : Nat) (wr : Bool) (now : Nat) : sizes (mcRequest d port da wr now) = sizes d := by
  unfold mcRequest
  dsimp only
  split <;> simp

@[simp] theorem sizes_mcIssue (d : Dev) (p now : Nat) : sizes (mcIssue d p now) = sizes d := by
  unfold mcIssue
  extract_lets c n s
  split
  · rfl
  · clear_value *
    split
    · rfl
    · split
      next b r h =>
      extract_lets e
      have he : sizes e = sizes d := by simp [e]
      clear_value e
      split
      · simp [he]
      · simp [he]
      · rename_i e1 e2 _ _ _ _ _
        have h2 : sizes e2 = sizes d := by simp [e1, e2, he]
        simp [h2]

@[simp] theorem sizes_mcSlot (d : Dev) (p now : Nat) : sizes (mcSlot d p now) = sizes d := by simp [mcSlot]

@[simp] theorem sizes_mcComplete (d : Dev) (port l : Nat) : sizes (mcComplete d port l) = sizes d := by
  unfold mcComplete
  dsimp only
  repeat' split
  all_goals simp

@[simp] theorem sizes_mcRefresh (d : Dev) (p now : Nat) : sizes (mcRefresh d p now) = sizes d := by simp [mcRefresh]

@[simp] theorem sizes_mcRfm (d : Dev) (p now : Nat) (banks : List Nat) : sizes (mcRfm d p now banks) = sizes d := by simp [mcRfm]

@[simp] theorem sizes_mcIdle (d : Dev) (p k now : Nat) : sizes (mcIdle d p k now) = sizes d := by simp [mcIdle]

@[simp] theorem sizes_setBob (d : Dev) (f : Bob → Bob) : sizes (setBob d f) = sizes d := by simp [setBob]

@[simp] theorem sizes_mendWaitEnd (d : Dev) : sizes (mendWaitEnd d) = sizes d := by
  unfold mendWaitEnd
  split <;> simp

@[simp] theorem sizes_mendViewRead (d : Dev) (o : Nat) : sizes (mendViewRead d o).2 = sizes d := by simp [mendViewRead]

@[simp] theorem sizes_setPcState (d : Dev) (p v : Nat) : sizes (setPcState d p v) = sizes d := by simp [setPcState]

@[simp] theorem sizes_wipeFrom (d : Dev) (l c : Nat) : sizes (wipeFrom d l c) = sizes d := by simp [wipeFrom]

@[simp] theorem sizes_migCtrl (d : Dev) (v : W32) : sizes (migCtrl d v) = sizes d := by simp [migCtrl]

@[simp] theorem sizes_setMei (d : Dev) (f : Mei → Mei) : sizes (setMei d f) = sizes d := by simp [setMei]

@[simp] theorem sizes_rmpMove (d : Dev) (src dst : Nat) : sizes (rmpMove d src dst) = sizes d := by
  refine sizes_foldl (fun d r => ?_) _ _
  extract_lets e
  split <;> simp [e]

@[simp] theorem sizes_migDone (d : Dev) : sizes (migDone d) = sizes d := by simp [migDone]

@[simp] theorem sizes_migChunk (d : Dev) (bad : List Nat) : sizes (migChunk d bad) = sizes d := by simp [migChunk]

@[simp] theorem sizes_pcStateWrite (d : Dev) (p : Nat) (v : W32) : sizes (pcStateWrite d p v) = sizes d := by simp [pcStateWrite]

@[simp] theorem sizes_pcLost (d : Dev) (p : Nat) : sizes (pcLost d p) = sizes d := by simp [pcLost]

@[simp] theorem sizes_caParity (d : Dev) (p k row us : Nat) : sizes (caParity d p k row us) = sizes d := by simp [caParity]

@[simp] theorem sizes_dbmCommitWrite (d : Dev) (v : W32) : sizes (dbmCommitWrite d v) = sizes d := by simp [dbmCommitWrite]

@[simp] theorem sizes_dbmBitsWrite (d : Dev) (slot word : Nat) (v : W32) : sizes (dbmBitsWrite d slot word v) = sizes d := by
  simp [dbmBitsWrite]

@[simp] theorem sizes_calibrate (d : Dev) (pass : Bool) (cells : W32) : sizes (calibrate d pass cells) = sizes d := by simp [calibrate]

@[simp] theorem sizes_muzInject (d : Dev) (v : W32) : sizes (muzInject d v) = sizes d := by simp [muzInject]

end Sys2Proof.Machine
end

section
/-! SUPPORT. The lengths of the lists of fixed size: the stream, expansion, bands and patches leave them. -/

namespace Sys2Proof.Machine

@[simp] theorem sizes_setSpl (d : Dev) (f : Spl → Spl) : sizes (setSpl d f) = sizes d := by simp [setSpl]

@[simp] theorem sizes_splErr (d : Dev) (b seq : Nat) (cid : W32) : sizes (splErr d b seq cid) = sizes d := by simp [splErr]

@[simp] theorem sizes_postReq (d : Dev) (kind reason : Nat) (w1 w2 : W32) : sizes (postReq d kind reason w1 w2) = sizes d := by
  simp [postReq]

@[simp] theorem sizes_reqPop (d : Dev) : sizes (reqPop d) = sizes d := by simp [reqPop]

@[simp] theorem sizes_spoolDrop (d : Dev) (b : SBlk) : sizes (spoolDrop d b) = sizes d := by simp [spoolDrop]

@[simp] theorem sizes_postNak (d : Dev) (seq : Nat) (hdr : Option SBlk) (reason : Nat) : sizes (postNak d seq hdr reason) = sizes d := by
  simp [postNak]

@[simp] theorem sizes_splReject (d : Dev) (b : SBlk) (reason : Nat) : sizes (splReject d b reason) = sizes d := by simp [splReject]

@[simp] theorem sizes_passGone (d : Dev) (hdr : Option SBlk) : sizes (passGone d hdr) = sizes d := by simp [passGone]

@[simp] theorem sizes_splNext (n : Nat) (d : Dev) : sizes (splNext n d) = sizes d := by
  induction n generalizing d with
  | zero => rfl
  | succ n ih =>
    unfold splNext
    split
    · simp [ih]
    · split
      · rfl
      · rfl
      · simp [ih]
      · split <;> simp [ih]

@[simp] theorem sizes_curPoison (d : Dev) : sizes (curPoison d) = sizes d := by
  unfold curPoison
  split <;> simp

@[simp] theorem sizes_blankRows (d : Dev) (k : Nat) (rows : List Nat) : sizes (blankRows d k rows) = sizes d := by simp [blankRows]

@[simp] theorem sizes_spanEnts (d : Dev) (blk : Blk) (t : Tkt) (b cause : Nat) (rows : List Nat) :
    sizes (spanEnts d blk t b cause rows) = sizes d := by simp [spanEnts]

@[simp] theorem sizes_spanRows (d : Dev) (blk : Blk) (s : Sec) (cause : Nat) (rows : List Nat) :
    sizes (spanRows d blk s cause rows) = sizes d := by simp [spanRows]

@[simp] theorem sizes_setEng (d : Dev) (n : Nat) (f : Eng → Eng) : sizes (setEng d n f) = sizes d := by simp [setEng]

@[simp] theorem sizes_engBack (d : Dev) (n : Nat) : sizes (engBack d n) = sizes d := by simp [engBack]

@[simp] theorem sizes_roleSettle (d : Dev) : sizes (roleSettle d) = sizes d := by simp [roleSettle]

@[simp] theorem sizes_streamLost (d : Dev) (seq : Nat) (cid : W32) : sizes (streamLost d seq cid) = sizes d := by simp [streamLost]

@[simp] theorem sizes_lostRows (d : Dev) (k : Nat × Option (List W32)) (lo hi : Int) : sizes (lostRows d k lo hi) = sizes d := by
  unfold lostRows
  split <;> simp

@[simp] theorem sizes_giveUp (d : Dev) (n : Nat) : sizes (giveUp d n) = sizes d := by
  unfold giveUp
  dsimp only
  repeat' split
  all_goals simp

@[simp] theorem sizes_splLoop (n : Nat) (d : Dev) : sizes (splLoop n d) = sizes d := by
  induction n generalizing d with
  | zero => exact sizes_splNext ..
  | succ n ih => simp [splLoop, ih]

@[simp] theorem sizes_splGo (d : Dev) : sizes (splGo d) = sizes d := by simp [splGo]

@[simp] theorem sizes_recDone (d : Dev) (w : List W32) : sizes (recDone d w) = sizes d := by simp [recDone]

@[simp] theorem sizes_splAccept (d : Dev) (b : SBlk) : sizes (splAccept d b) = sizes d := by simp [splAccept]

@[simp] theorem sizes_gapWait (d : Dev) : sizes (gapWait d) = sizes d := by simp [gapWait]

@[simp] theorem sizes_nakHold (d : Dev) (n : Nat) : sizes (nakHold d n) = sizes d := by simp [nakHold]

@[simp] theorem sizes_setXpd (d : Dev) (f : Xpd → Xpd) : sizes (setXpd d f) = sizes d := by simp [setXpd]

@[simp] theorem sizes_xpdErr (d : Dev) (b id : Nat) : sizes (xpdErr d b id) = sizes d := by simp [xpdErr]

@[simp] theorem sizes_setCell (d : Dev) (id : Nat) (f : Cell → Cell) : sizes (setCell d id f) = sizes d := by simp [setCell]

@[simp] theorem sizes_cellRefetch (d : Dev) (id reason : Nat) : sizes (cellRefetch d id reason) = sizes d := by
  unfold cellRefetch
  split <;> simp

@[simp] theorem sizes_cellPoison (d : Dev) (id : Nat) : sizes (cellPoison d id) = sizes d := by
  unfold cellPoison
  split <;> simp

@[simp] theorem sizes_cellBoxPoison (d : Dev) (id : Nat) : sizes (cellBoxPoison d id) = sizes d := by simp [cellBoxPoison]

@[simp] theorem sizes_cellDefine (d : Dev) (c : Cell) (fresh : Bool) : sizes (cellDefine d c fresh) = sizes d := by
  unfold cellDefine
  dsimp only
  repeat' split
  all_goals simp

@[simp] theorem sizes_refetchCells (d : Dev) (cid : W32) (w : List W32) : sizes (refetchCells d cid w) = sizes d := by
  refine foldl_keeps (fun x : Dev × Option Cell => sizes x.1) (fun x r => ?_) _ _
  obtain ⟨d, c⟩ := x
  dsimp only
  split
  · rfl
  · split
    · exact sizes_cellDefine ..
    · rfl
  · rfl
  · rfl
  · rfl
  · rfl

@[simp] theorem sizes_fieldBoundary (d : Dev) (s : Sec) : sizes (fieldBoundary d s) = sizes d := by simp [fieldBoundary]

@[simp] theorem sizes_cellErr (d : Dev) (p : Page) (b : Nat) (s : Sec) (k j : Nat) : sizes (cellErr d p b s k j) = sizes d := by
  simp [cellErr]

@[simp] theorem sizes_poisonCell (d : Dev) (num : Nat) (pg : Page) (blk : Blk) (b : Nat) (w : BadWord) :
    sizes (poisonCell d num pg blk b w) = sizes d := by
  unfold poisonCell
  repeat' split
  all_goals simp

@[simp] theorem sizes_pageUpset (d : Dev) (pg : Page) (first : BadWord) (acc : Option BadWord) :
    sizes (pageUpset d pg first acc).2 = sizes d := by simp [pageUpset]

@[simp] theorem sizes_writePatches (n : Nat) (d : Dev) (num : Nat) : sizes (writePatches n d num) = sizes d := by
  induction n generalizing d with
  | zero => rfl
  | succ n ih =>
    unfold writePatches
    split
    · rfl
    · split
      · simp [ih]
      · rfl

@[simp] theorem sizes_bandBegin (d : Dev) (num : Nat) (acc : Option BadWord) : sizes (bandBegin d num acc) = sizes d := by
  unfold bandBegin
  dsimp only
  repeat' split
  all_goals simp

@[simp] theorem sizes_bandEnd (d : Dev) (num : Nat) : sizes (bandEnd d num) = sizes d := by
  unfold bandEnd
  split <;> simp

@[simp] theorem sizes_bandsUpTo (n : Nat) (d : Dev) (num upto : Nat) (acc : Option BadWord) :
    sizes (bandsUpTo n d num upto acc) = sizes d := by
  induction n generalizing d with
  | zero => rfl
  | succ n ih =>
    unfold bandsUpTo
    split
    · rfl
    · dsimp only
      split
      · rfl
      · split
        · split
          · split <;> simp [ih]
          · simp
        · split
          · split
            · split <;> simp [ih]
            · simp
          · rfl

@[simp] theorem sizes_bandsGo (d : Dev) (num : Nat) (acc : Option BadWord) : sizes (bandsGo d num acc) = sizes d := by
  unfold bandsGo
  split <;> simp

@[simp] theorem sizes_pxcRelease (d : Dev) (acc : Option BadWord) : sizes (pxcRelease d acc) = sizes d := by
  unfold pxcRelease
  dsimp only
  repeat' split
  all_goals simp

@[simp] theorem sizes_pxcTake (d : Dev) : sizes (pxcTake d) = sizes d := by
  unfold pxcTake
  repeat' split
  all_goals simp

@[simp] theorem sizes_secAbandon (d : Dev) (blk : Blk) : sizes (secAbandon d blk) = sizes d := by
  unfold secAbandon
  split <;> simp

@[simp] theorem sizes_gridPoison (d : Dev) (s : Sec) (l : List Chain) (rows : Option (List Nat)) (n f : Nat) :
    sizes (gridPoison d s l rows n f) = sizes d := by simp [gridPoison]

@[simp] theorem sizes_chordPoison (d : Dev) (s : Sec) (out : List Chain) (rows : Option (List Nat)) (n : Nat) :
    sizes (chordPoison d s out rows n) = sizes d := by simp [chordPoison]

@[simp] theorem sizes_cutItem (d : Dev) (s : Sec) (out : List Chain) : sizes (cutItem d s out) = sizes d := by simp [cutItem]

@[simp] theorem sizes_itemEmit (d : Dev) (num : Nat) (l : List Chain) (rows : Option (List Nat)) (u : Upset) :
    sizes (itemEmit d num l rows u).1 = sizes d := by
  unfold itemEmit
  dsimp only
  repeat' split
  all_goals simp

@[simp] theorem sizes_instWait (d : Dev) (id reason culls : Nat) (rows : List Nat) :
    sizes (instWait d id reason culls rows).1 = sizes d := by
  unfold instWait
  dsimp only
  split <;> simp

@[simp] theorem sizes_instCut (d : Dev) (s : Sec) (id : Nat) (rows : List Nat) : sizes (instCut d s id rows) = sizes d := by simp [instCut]

@[simp] theorem sizes_placeInst (d : Dev) (s : Sec) (w : List W32) (off : Pt) (u : Upset) : sizes (placeInst d s w off u).1 = sizes d := by
  unfold placeInst
  extract_lets id t rows
  split
  next inj e hit =>
  have he : sizes e = sizes d := by rw [← sizes_injTake d (Page.xpd.base 0) false, hit]
  extract_lets f g a
  have hf : sizes f = sizes e := by simp [f]
  have hg : sizes g = sizes f := by
    unfold g
    split <;> simp
  rw [← he, ← hf, ← hg]
  clear_value a g
  split
  · simp
  · split
    · simp
    · dsimp only
      split <;> simp
    · dsimp only
      split <;> simp

@[simp] theorem sizes_placeGo (l : List Pt) (d : Dev) (num : Nat) (w : List W32) (u : Upset) :
    sizes (placeGo l d num w u) = sizes d := by
  induction l generalizing d u with
  | nil => simp [placeGo]
  | cons off l ih =>
    unfold placeGo
    split <;> simp [ih]

@[simp] theorem sizes_withRec (d : Dev) (typ : Nat) (blocks : List Nat) (len : Nat) (u : Upset) (f : Dev → List W32 → Dev)
    (h : ∀ d w, sizes (f d w) = sizes d) : sizes (withRec d typ blocks len u f) = sizes d := by
  unfold withRec; dsimp only; split <;> simp [h]

@[simp] theorem sizes_withSec (d : Dev) (w : List W32) (f : Dev → Sec → Dev) (h : ∀ d s, sizes (f d s) = sizes d) :
    sizes (withSec d w f) = sizes d := by
  unfold withSec; split <;> simp [h]

@[simp] theorem sizes_recPad (d : Dev) (u : Upset) : sizes (recPad d u) = sizes d := by simp [recPad]

@[simp] theorem sizes_recCellOpen (d : Dev) (u : Upset) : sizes (recCellOpen d u) = sizes d := by simp [recCellOpen]

@[simp] theorem sizes_recCellClose (d : Dev) (u : Upset) : sizes (recCellClose d u) = sizes d := by
  refine sizes_withRec _ _ _ _ _ _ fun d w => ?_
  split <;> simp

@[simp] theorem sizes_recCellDrop (d : Dev) (u : Upset) : sizes (recCellDrop d u) = sizes d := by simp [recCellDrop]

@[simp] theorem sizes_recLib (d : Dev) (w : List W32) : sizes (recLib d w) = sizes d := by simp [recLib]

@[simp] theorem sizes_recFigure (d : Dev) (u : Upset) : sizes (recFigure d u) = sizes d := by
  refine sizes_withRec _ _ _ _ _ _ fun d w => ?_
  split
  · rfl
  · simp

@[simp] theorem sizes_placeRec (d : Dev) (w : List W32) (u : Upset) : sizes (placeRec d w u) = sizes d := by simp [placeRec]

@[simp] theorem sizes_recPlace (d : Dev) (u : Upset) : sizes (recPlace d u) = sizes d := by simp [recPlace]

@[simp] theorem sizes_recArray (d : Dev) (u : Upset) : sizes (recArray d u) = sizes d := by simp [recArray]

@[simp] theorem sizes_oweRows (d : Dev) (s : Sec) : sizes (oweRows d s) = sizes d := by simp [oweRows]

@[simp] theorem sizes_snapMatch (d : Dev) (num : Nat) (index : W32) : sizes (snapMatch d num index) = sizes d := by simp [snapMatch]

@[simp] theorem sizes_recStripeOpen (d : Dev) (u : Upset) : sizes (recStripeOpen d u) = sizes d := by simp [recStripeOpen]

@[simp] theorem sizes_recBin (d : Dev) (u : Upset) : sizes (recBin d u) = sizes d := by simp [recBin]

@[simp] theorem sizes_recOrigin (d : Dev) (u : Upset) : sizes (recOrigin d u) = sizes d := by simp [recOrigin]

@[simp] theorem sizes_recField (d : Dev) (u : Upset) : sizes (recField d u) = sizes d := by simp [recField]

@[simp] theorem sizes_recStripeClose (d : Dev) (u : Upset) : sizes (recStripeClose d u) = sizes d := by
  refine sizes_withRec _ _ _ _ _ _ fun d w => ?_
  dsimp only
  split <;> simp

@[simp] theorem sizes_xpdResume (d : Dev) : sizes (xpdResume d) = sizes d := by
  unfold xpdResume
  dsimp only
  split <;> simp

@[simp] theorem sizes_xpdResolve (d : Dev) (f : Dev → Dev) (h : ∀ d, sizes (f d) = sizes d) : sizes (xpdResolve d f) = sizes d := by
  simp [xpdResolve, h]

@[simp] theorem sizes_patchAllocated (d : Dev) : sizes (patchAllocated d) = sizes d := by
  unfold patchAllocated
  dsimp only
  repeat' split
  all_goals simp

@[simp] theorem sizes_instLost (d : Dev) : sizes (instLost d) = sizes d := by
  unfold instLost
  split <;> simp

@[simp] theorem sizes_rowDueGo (d : Dev) : sizes (rowDueGo d) = sizes d := by simp [rowDueGo]

@[simp] theorem sizes_blockTake (d : Dev) (l : List Byte) : sizes (blockTake d l) = sizes d := by
  unfold blockTake
  dsimp only
  repeat' split
  all_goals simp

@[simp] theorem sizes_setChan (d : Dev) (n : Nat) (f : Chan → Chan) : sizes (setChan d n f) = sizes d := by simp [setChan]

@[simp] theorem sizes_blockTry (d : Dev) (n : Nat) (l : List Byte) : sizes (blockTry d n l) = sizes d := by simp [blockTry]

@[simp] theorem sizes_xpdQuery (d : Dev) (v : W32) : sizes (xpdQuery d v) = sizes d := by simp [xpdQuery]

end Sys2Proof.Machine
end

section
/-! SUPPORT. The lengths of the lists of fixed size: rastering, compression, transfers, scrubbing, faults and NVM leave them. -/

namespace Sys2Proof.Machine

@[simp] theorem sizes_winWrite (d : Dev) (off : Nat) (l : List Byte) : sizes (winWrite d off l) = sizes d := by simp [winWrite]

@[simp] theorem sizes_winPoison (d : Dev) (off n : Nat) : sizes (winPoison d off n) = sizes d := by simp [winPoison]

@[simp] theorem sizes_writeDoses (d : Dev) (t : Tkt) (w : WinRow) (p : Nat) (rep : Rep) (bad : Bool) :
    sizes (writeDoses d t w p rep bad) = sizes d := by simp [writeDoses]

@[simp] theorem sizes_setVer (d : Dev) (f : Ver → Ver) (h : ∀ v, (f v).tiles.length = v.tiles.length) :
    sizes (setVer d f) = sizes d := by
  simp [setVer, h]

@[simp] theorem sizes_setTile (d : Dev) (n : Nat) (f : Tile → Tile) : sizes (setTile d n f) = sizes d := by simp [setTile]

@[simp] theorem sizes_verErr (d : Dev) (b : Nat) (w : Work) (tile : Nat) : sizes (verErr d b w tile) = sizes d := by simp [verErr]

@[simp] theorem sizes_rasErr (d : Dev) (n b : Nat) (w : Option Work) : sizes (rasErr d n b w) = sizes d := by simp [rasErr]

@[simp] theorem sizes_requeue (d : Dev) (w : Work) : sizes (requeue d w) = sizes d := by
  unfold requeue
  dsimp only
  repeat' split
  all_goals simp

@[simp] theorem sizes_takeBack (d : Dev) (n : Nat) : sizes (takeBack d n) = sizes d :=
  (sizes_foldl sizes_requeue _ _).trans (by simp)

@[simp] theorem sizes_promote (d : Dev) (n : Nat) (w : Option Work) : sizes (promote d n w) = sizes d := by
  unfold promote
  repeat' split
  all_goals simp

@[simp] theorem sizes_fence (d : Dev) (n : Nat) (w : Work) : sizes (fence d n w) = sizes d := by simp [fence]

@[simp] theorem sizes_giveTile (d : Dev) (n : Nat) (w : Work) : sizes (giveTile d n w) = sizes d := by
  unfold giveTile
  split <;> simp

@[simp] theorem sizes_verDispatch (d : Dev) (scan : Nat) : sizes (verDispatch d scan) = sizes d := by
  unfold verDispatch
  repeat' split
  all_goals simp

@[simp] theorem sizes_putVerd (d : Dev) (w : Work) (v : Verd) : sizes (putVerd d w v) = sizes d := by simp [putVerd]

@[simp] theorem sizes_patchEnts (d : Dev) (t : Tkt) (w : Work) (cause : Nat) (rows : List Nat) :
    sizes (patchEnts d t w cause rows) = sizes d := by simp [patchEnts]

@[simp] theorem sizes_flagPatch (d : Dev) (w : Work) (tile : Nat) : sizes (flagPatch d w tile) = sizes d := by
  unfold flagPatch
  split <;> simp

@[simp] theorem sizes_mmCapture (d : Dev) (w : Work) (tile kind : Nat) (diff : Int) (bound : Nat) :
    sizes (mmCapture d w tile kind diff bound) = sizes d := by simp [mmCapture]

@[simp] theorem sizes_verInjAfter (d : Dev) (w : Work) (acted second : Bool) : sizes (verInjAfter d w acted second) = sizes d := by
  simp [verInjAfter]

@[simp] theorem sizes_verInjDrop (d : Dev) (w : Work) : sizes (verInjDrop d w) = sizes d := by simp [verInjDrop]

@[simp] theorem sizes_mismatch (d : Dev) (w : Work) (tile : Nat) : sizes (mismatch d w tile) = sizes d := by simp [mismatch]

@[simp] theorem sizes_passPatch (d : Dev) (w : Work) : sizes (passPatch d w) = sizes d := by
  unfold passPatch
  repeat' split
  all_goals simp

@[simp] theorem sizes_withholdPatch (d : Dev) (w : Work) : sizes (withholdPatch d w) = sizes d := by simp [withholdPatch]

@[simp] theorem sizes_verReport (d : Dev) (n : Nat) (w : Work) (t : Tkt) (x : Patch) (rep : Rep) (ue edge state : Bool)
    (store : Dev → Dev) (h : ∀ d, sizes (store d) = sizes d) : sizes (verReport d n w t x rep ue edge state store) = sizes d := by
  simp [verReport, h]

@[simp] theorem sizes_patchReport (d : Dev) (n : Nat) (u : TileUpset) : sizes (patchReport d n u) = sizes d := by
  unfold patchReport
  split
  · rfl
  next w rest heq =>
  split
  · rfl
  extract_lets e
  have he : sizes e = sizes d := by simp [e]
  clear_value e
  split
  next hit f h =>
  have hf : sizes f = sizes e := by
    split at h
    · rw [← sizes_injAny e (Page.ras.base n), h]
    · rw [(Prod.mk.inj h).2]
  split
  · rw [hf, he]
  next s hsec =>
  split
  · rw [hf, he]
  next x hx =>
  extract_lets t rep rep edge ue store g h1 h2 h3
  have stored (d : Dev) : sizes (store d) = sizes d := by
    simp only [store]
    split <;> simp
  have told : sizes h3 = sizes f := by
    simp [h3, h2, h1, g, stored]
  rw [sizes_verReport, told, hf, he]
  intro d
  split
  · exact stored d
  · rfl

@[simp] theorem sizes_secondRaster (d : Dev) (scan : Nat) : sizes (secondRaster d scan) = sizes d := by
  unfold secondRaster
  dsimp only
  repeat' split
  all_goals simp

@[simp] theorem sizes_verTimeout (d : Dev) (n : Nat) : sizes (verTimeout d n) = sizes d := by
  unfold verTimeout
  split <;> simp

@[simp] theorem sizes_poisonReraster (d : Dev) (k q p : Nat) : sizes (poisonReraster d k q p) = sizes d := by
  unfold poisonReraster
  split <;> simp

@[simp] theorem sizes_tileStop (d : Dev) (n : Nat) : sizes (tileStop d n) = sizes d := by simp [tileStop]

@[simp] theorem sizes_tileWake (d : Dev) (n : Nat) : sizes (tileWake d n) = sizes d := by simp [tileWake]

@[simp] theorem sizes_rasTest (d : Dev) (n : Nat) (v : W32) : sizes (rasTest d n v) = sizes d := by simp [rasTest]

@[simp] theorem sizes_verInject (d : Dev) (v : W32) : sizes (verInject d v) = sizes d := by simp [verInject]

@[simp] theorem sizes_setBlk (d : Dev) (ref : Bool) (k : Nat) (f : SBlk → SBlk) : sizes (setBlk d ref k f) = sizes d := by simp [setBlk]

@[simp] theorem sizes_cdcErr (d : Dev) (b : Nat) (x : SBlk) : sizes (cdcErr d b x) = sizes d := by simp [cdcErr]

@[simp] theorem sizes_cdcDispatch (d : Dev) : sizes (cdcDispatch d) = sizes d := by
  unfold cdcDispatch
  dsimp only
  repeat' split
  all_goals simp

@[simp] theorem sizes_frameBack (d : Dev) (n : Nat) : sizes (frameBack d n) = sizes d := by
  unfold frameBack
  repeat' split
  all_goals simp

@[simp] theorem sizes_refDone (d : Dev) (k : Nat) (b : SBlk) : sizes (refDone d k b) = sizes d := by simp [refDone]

@[simp] theorem sizes_frameFail (d : Dev) (ref : Bool) (k : Nat) (b : SBlk) (reason : Nat) :
    sizes (frameFail d ref k b reason) = sizes d := by simp [frameFail]

@[simp] theorem sizes_framePass (d : Dev) (ref : Bool) (k : Nat) (b : SBlk) (l : List Byte) :
    sizes (framePass d ref k b l) = sizes d := by simp [framePass]

@[simp] theorem sizes_frameUe (d : Dev) (n : Nat) : sizes (frameUe d n) = sizes d := by
  unfold frameUe
  split <;> simp

@[simp] theorem sizes_frameDecoded (d : Dev) (n : Nat) : sizes (frameDecoded d n) = sizes d := by
  unfold frameDecoded
  dsimp only
  repeat' split
  all_goals simp

@[simp] theorem sizes_jobEnd (d : Dev) (n result : Nat) (good : Option (Nat × Nat)) : sizes (jobEnd d n result good) = sizes d := by
  unfold jobEnd
  repeat' split
  all_goals simp

@[simp] theorem sizes_jobSpoil (d : Dev) (n result : Nat) : sizes (jobSpoil d n result) = sizes d := by
  unfold jobSpoil
  split <;> simp

@[simp] theorem sizes_jobDone (d : Dev) (n : Nat) : sizes (jobDone d n) = sizes d := by
  unfold jobDone
  dsimp only
  repeat' split
  all_goals simp

@[simp] theorem sizes_jobGo (d : Dev) (req : Req) (n : Nat) : sizes (jobGo d req n) = sizes d := by
  unfold jobGo
  dsimp only
  repeat' split
  all_goals simp

@[simp] theorem sizes_snapReady (d : Dev) (n : Nat) : sizes (snapReady d n) = sizes d := by
  unfold snapReady
  repeat' split
  all_goals simp

@[simp] theorem sizes_jobCtrl (d : Dev) (req : Req) (n : Nat) (v : W32) : sizes (jobCtrl d req n v) = sizes d := by simp [jobCtrl]

@[simp] theorem sizes_engAbandon (d : Dev) (n : Nat) : sizes (engAbandon d n) = sizes d := by simp [engAbandon]

@[simp] theorem sizes_pageClear (d : Dev) (base : Nat) : sizes (pageClear d base) = sizes d := by simp [pageClear]

@[simp] theorem sizes_chErr (d : Dev) (n b a : Nat) : sizes (chErr d n b a) = sizes d := by simp [chErr]

@[simp] theorem sizes_chHalt (d : Dev) (n cause b a : Nat) : sizes (chHalt d n cause b a) = sizes d := by simp [chHalt]

@[simp] theorem sizes_chRead (d : Dev) (n : Nat) (ph : Phase) (a : Nat) : sizes (chRead d n ph a) = sizes d := by simp [chRead]

@[simp] theorem sizes_chPark (d : Dev) (n : Nat) : sizes (chPark d n) = sizes d := by simp [chPark]

@[simp] theorem sizes_hostPut (d : Dev) (a : Nat) (l : List Byte) : sizes (hostPut d a l) = sizes d := by simp [hostPut]

@[simp] theorem sizes_hostData (d : Dev) (a : Nat) (l : List Byte) (ep : Bool) : sizes (hostData d a l ep) = sizes d := by simp [hostData]

@[simp] theorem sizes_chComplete (d : Dev) (n code done : Nat) : sizes (chComplete d n code done) = sizes d := by simp [chComplete]

@[simp] theorem sizes_chDoorbell (d : Dev) (n : Nat) : sizes (chDoorbell d n) = sizes d := by
  unfold chDoorbell
  dsimp only
  repeat' split
  all_goals simp

@[simp] theorem sizes_chHead (d : Dev) (n : Nat) (hi : Bool) (v : W32) : sizes (chHead d n hi v) = sizes d := by simp [chHead]

@[simp] theorem sizes_chWords (d : Dev) (n : Nat) (ws : List W32) (ue : Bool) : sizes (chWords d n ws ue) = sizes d := by simp [chWords]

@[simp] theorem sizes_chCut (d : Dev) (n : Nat) : sizes (chCut d n) = sizes d := by simp [chCut]

@[simp] theorem sizes_chResume (d : Dev) (n : Nat) : sizes (chResume d n) = sizes d := by simp [chResume]

@[simp] theorem sizes_chReadmit (d : Dev) (n : Nat) : sizes (chReadmit d n) = sizes d := by simp [chReadmit]

@[simp] theorem sizes_chSoftReset (d : Dev) (n : Nat) : sizes (chSoftReset d n) = sizes d := by simp [chSoftReset]

@[simp] theorem sizes_chFail (put : Dev → Nat → List Byte → Dev) (d : Dev) (n code done : Nat) (l : List Byte)
    (h : sizes (put d n l) = sizes d) : sizes (chFail put d n code done l) = sizes d := by
  simp [chFail, h]

@[simp] theorem sizes_hlkErr (d : Dev) (b : Nat) : sizes (hlkErr d b) = sizes d := by simp [hlkErr]

@[simp] theorem sizes_linkUpAt (d : Dev) (gen width : Nat) (flit : Bool) : sizes (linkUpAt d gen width flit) = sizes d := by simp [linkUpAt]

@[simp] theorem sizes_vc1Seen (d : Dev) (vc1 : Bool) : sizes (vc1Seen d vc1) = sizes d := by simp [vc1Seen]

@[simp] theorem sizes_aerLog (d : Dev) : sizes (aerLog d) = sizes d := by simp [aerLog]

@[simp] theorem sizes_hlkUr (d : Dev) : sizes (hlkUr d) = sizes d := by simp [hlkUr]

@[simp] theorem sizes_whCmd (d : Dev) (v : W32) : sizes (whCmd d v) = sizes d := by simp [whCmd]

@[simp] theorem sizes_whRow (d : Dev) (b : Nat) (v : W32) (vc1 : Bool) : sizes (whRow d b v vc1) = sizes d := by simp [whRow]

@[simp] theorem sizes_daRead (d : Dev) (da n : Nat) : sizes (daRead d da n).2 = sizes d := by
  unfold daRead
  extract_lets l
  rw [apply_ite Prod.snd, sizes_ite]
  split
  · exact sizes_freeBytes ..
  · rfl

@[simp] theorem sizes_bar4Access (d : Dev) (o : Nat) (wdata : Option (List Byte)) (n : Nat) : sizes (bar4Access d o wdata n) = sizes d := by
  -- The operation stays a variable: the kernel would evaluate the literals that its branches turn on.
  obtain ⟨r, hr, got⟩ : ∃ r, daRead = r ∧ ∀ d da n, sizes (r d da n).2 = sizes d := ⟨_, rfl, sizes_daRead⟩
  unfold bar4Access
  rw [hr]
  cases wdata <;> simp [got]

@[simp] theorem sizes_chDisable (d : Dev) (n : Nat) (v : W32) : sizes (chDisable d n v) = sizes d := by simp [chDisable]

@[simp] theorem sizes_meiErr (d : Dev) (b lo hi : Nat) : sizes (meiErr d b lo hi) = sizes d := by simp [meiErr]

@[simp] theorem sizes_rmpInstall (d : Dev) (sram : Bool) (unit a : Nat) (poisoned : Bool) (lo hi : Nat) :
    sizes (rmpInstall d sram unit a poisoned lo hi) = sizes d := by
  unfold rmpInstall
  split <;> simp

@[simp] theorem sizes_rmpRestore (d : Dev) (r : Remap) : sizes (rmpRestore d r) = sizes d := by
  unfold rmpRestore
  dsimp only
  repeat' split
  all_goals simp

@[simp] theorem sizes_rmpRetire (d : Dev) (v : W32) : sizes (rmpRetire d v) = sizes d := by
  unfold rmpRetire
  dsimp only
  repeat' split
  all_goals simp

@[simp] theorem sizes_trkCorrected (d : Dev) (sram : Bool) (unit a lo hi : Nat) :
    sizes (trkCorrected d sram unit a lo hi) = sizes d := by
  unfold trkCorrected
  dsimp only
  repeat' split
  all_goals simp

@[simp] theorem sizes_trkPass (d : Dev) (mine : Track → Bool) : sizes (trkPass d mine) = sizes d := by simp [trkPass]

@[simp] theorem sizes_lastUe (d : Dev) (lo hi : Nat) : sizes (lastUe d lo hi) = sizes d := by simp [lastUe]

@[simp] theorem sizes_scrubUe (d : Dev) (sram : Bool) (unit a lo hi : Nat) : sizes (scrubUe d sram unit a lo hi) = sizes d := by
  simp [scrubUe]

@[simp] theorem sizes_tellWindow (d : Dev) (da : Nat) : sizes (tellWindow d da) = sizes d := by
  unfold tellWindow
  dsimp only
  split <;> simp

@[simp] theorem sizes_tellQueue (d : Dev) (da : Nat) : sizes (tellQueue d da) = sizes d := by
  unfold tellQueue
  split <;> simp

@[simp] theorem sizes_tellOwner (d : Dev) (da : Nat) (item : ScrubItem) : sizes (tellOwner d da item) = sizes d := by
  -- Unfolded as a function, so that the kernel does not evaluate the literals that its branches turn on.
  generalize h : tellOwner = f
  delta tellOwner at h
  subst h
  beta_reduce
  generalize List.find? _ (List.range 7) = k
  split <;> simp

@[simp] theorem sizes_scrubSector (d : Dev) (p c x : Nat) (found : Option SectorUpset) :
    sizes (scrubSector d p c x found) = sizes d := by
  unfold scrubSector
  split <;> simp

@[simp] theorem sizes_scrubRead (d : Dev) (ups : List SectorUpset) : sizes (scrubRead d ups) = sizes d := by simp [scrubRead]

@[simp] theorem sizes_sramScrub (d : Dev) (m w : Nat) (found : WordFound) (home : WordHome) (last : Bool) :
    sizes (sramScrub d m w found home last) = sizes d := by
  unfold sramScrub
  repeat' split
  all_goals simp

@[simp] theorem sizes_odePoll (d : Dev) (counts : List Nat) : sizes (odePoll d counts) = sizes d := by simp [odePoll]

@[simp] theorem sizes_meiInj (d : Dev) (v : W32) : sizes (meiInj d v) = sizes d := by simp [meiInj]

@[simp] theorem sizes_setFcl (d : Dev) (f : Fcl → Fcl) (h : ∀ x, (f x).lvl.length = x.lvl.length) :
    sizes (setFcl d f) = sizes d := by
  simp [setFcl, h]

@[simp] theorem sizes_fclStatus (d : Dev) (v : W32) : sizes (fclStatus d v) = sizes d := by
  refine sizes_setFcl _ _ fun f => ?_
  exact foldl_keeps List.length (fun _ _ => length_modNth ..) _ _

@[simp] theorem sizes_fclSev (d : Dev) (s : Nat) (v : W32) : sizes (fclSev d s v) = sizes d := by
  unfold fclSev
  dsimp only
  split <;> simp

@[simp] theorem sizes_fclPop (d : Dev) : sizes (fclPop d) = sizes d := by simp [fclPop]

@[simp] theorem sizes_fclCmd (d : Dev) (v : W32) : sizes (fclCmd d v) = sizes d := by simp [fclCmd]

@[simp] theorem sizes_barkTick (d : Dev) : sizes (barkTick d) = sizes d := by simp [barkTick]

@[simp] theorem sizes_jobSwap (d : Dev) (v : W32) : sizes (jobSwap d v) = sizes d := by simp [jobSwap]

@[simp] theorem sizes_swapWorkDone (d : Dev) : sizes (swapWorkDone d) = sizes d := by simp [swapWorkDone]

@[simp] theorem sizes_setNvm (d : Dev) (f : Nvm → Nvm) : sizes (setNvm d f) = sizes d := by simp [setNvm]

@[simp] theorem sizes_nvmErr (d : Dev) (b off kind : Nat) : sizes (nvmErr d b off kind) = sizes d := by simp [nvmErr]

@[simp] theorem sizes_nvPut (d : Dev) (area c : Nat) (x : Option NvCopy) : sizes (nvPut d area c x) = sizes d := by simp [nvPut]

@[simp] theorem sizes_nvStoreArea (d : Dev) (area : Nat) (data : List Byte) (regs : List (Nat × W32)) (rmps : List Remap) :
    sizes (nvStoreArea d area data regs rmps) = sizes d := by simp [nvStoreArea]

@[simp] theorem sizes_loadEpoch (d : Dev) : sizes (loadEpoch d) = sizes d := by simp [loadEpoch]

@[simp] theorem sizes_nvStart (d : Dev) (kind index : Nat) : sizes (nvStart d kind index) = sizes d := by
  unfold nvStart
  split <;> simp

@[simp] theorem sizes_nvWrite (d : Dev) (j : NvJob) : sizes (nvWrite d j) = sizes d := by
  unfold nvWrite
  split <;> simp

@[simp] theorem sizes_nvFinish (d : Dev) (j : NvJob) (ok : Bool) : sizes (nvFinish d j ok) = sizes d := by
  unfold nvFinish
  dsimp only
  repeat' split
  all_goals simp

@[simp] theorem sizes_nvNow (d : Dev) (j : NvJob) : sizes (nvNow d j) = sizes d := by simp [nvNow]

@[simp] theorem sizes_bootStore (d : Dev) (r : W32 × W32 × W32) : sizes (bootStore d r) = sizes d := by simp [bootStore]

@[simp] theorem sizes_nvmCmd (d : Dev) (v : W32) : sizes (nvmCmd d v) = sizes d := by simp [nvmCmd]

@[simp] theorem sizes_nvRestoreWord (d : Dev) (e : Nat × W32) : sizes (nvRestoreWord d e) = sizes d := by
  unfold nvRestoreWord
  repeat' split
  all_goals simp

@[simp] theorem sizes_nvRestore (d : Dev) : sizes (nvRestore d) = sizes d := by
  unfold nvRestore
  split <;> simp

@[simp] theorem sizes_nvRead (d : Dev) : sizes (nvRead d).2 = sizes d := by
  unfold nvRead
  extract_lets a
  clear_value a
  refine sizes_snd_ite_eq rfl (sizes_snd_ite_eq (sizes_takeFree d) (sizes_snd_ite_eq ?_ (sizes_snd_ite_eq rfl rfl)))
  extract_lets
  split
  · rfl
  · exact sizes_takeFree d

end Sys2Proof.Machine
end

section
/-! SUPPORT. The lengths of the lists of fixed size: time, the kennel, the MAC, power, the bus and the firmware leave them. -/

namespace Sys2Proof.Machine

@[simp] theorem sizes_setTim (d : Dev) (f : Tim → Tim) : sizes (setTim d f) = sizes d := by simp [setTim]

@[simp] theorem sizes_timErr (d : Dev) (b : Nat) : sizes (timErr d b) = sizes d := by simp [timErr]

@[simp] theorem sizes_secondBegins (d : Dev) : sizes (secondBegins d) = sizes d := by simp [secondBegins]

@[simp] theorem sizes_kennelTime (d : Dev) (ns : Nat) : sizes (kennelTime d ns) = sizes d := by simp [kennelTime]

@[simp] theorem sizes_timAdvance (d : Dev) (ns n : Nat) : sizes (timAdvance d ns n) = sizes d := by simp [timAdvance]

@[simp] theorem sizes_secondCarry (d : Dev) : sizes (secondCarry d) = sizes d := by simp [secondCarry]

@[simp] theorem sizes_idleTime (d : Dev) : sizes (idleTime d) = sizes d := by simp [idleTime]

@[simp] theorem sizes_timJump (d : Dev) : sizes (timJump d) = sizes d := by simp [timJump]

@[simp] theorem sizes_untrust (d : Dev) : sizes (untrust d) = sizes d := by simp [untrust]

@[simp] theorem sizes_timCmd (d : Dev) (v : W32) : sizes (timCmd d v) = sizes d := by simp [timCmd]

@[simp] theorem sizes_timNsRead (d : Dev) : sizes (timNsRead d).2 = sizes d := by simp [timNsRead]

@[simp] theorem sizes_tsqPop (d : Dev) : sizes (tsqPop d) = sizes d := by simp [tsqPop]

@[simp] theorem sizes_osCorrHi (d : Dev) (v : W32) : sizes (osCorrHi d v) = sizes d := by simp [osCorrHi]

@[simp] theorem sizes_setKnl (d : Dev) (f : Knl → Knl) : sizes (setKnl d f) = sizes d := by simp [setKnl]

@[simp] theorem sizes_knlErr (d : Dev) (b : Nat) (i1 : W32) : sizes (knlErr d b i1) = sizes d := by simp [knlErr]

@[simp] theorem sizes_sramWrite (d : Dev) (a : Nat) (l : List Byte) : sizes (sramWrite d a l) = sizes d := by simp [sramWrite]

@[simp] theorem sizes_sramRead (d : Dev) (a n : Nat) : sizes (sramRead d a n).2 = sizes d := by
  unfold sramRead
  split <;> simp

@[simp] theorem sizes_runImage (d : Dev) (s : Nat) (h body : List Byte) : sizes (runImage d s h body) = sizes d := by simp [runImage]

@[simp] theorem sizes_runSlot (d : Dev) (s : Nat) : sizes (runSlot d s) = sizes d := by simp [runSlot]

@[simp] theorem sizes_recovery (d : Dev) : sizes (recovery d) = sizes d := by simp [recovery]

@[simp] theorem sizes_romTry (d : Dev) : sizes (romTry d).1 = sizes d := by
  unfold romTry
  dsimp only
  split <;> simp

@[simp] theorem sizes_romBoot (d : Dev) : sizes (romBoot d) = sizes d := by
  unfold romBoot
  dsimp only
  split <;> simp

@[simp] theorem sizes_awayBegin (d : Dev) : sizes (awayBegin d) = sizes d := by simp [awayBegin]

@[simp] theorem sizes_awayEnd (d : Dev) : sizes (awayEnd d) = sizes d := by simp [awayEnd]

@[simp] theorem sizes_coreReset (d : Dev) : sizes (coreReset d) = sizes d := by simp [coreReset]

@[simp] theorem sizes_crashRecord (d : Dev) : sizes (crashRecord d) = sizes d := by simp [crashRecord]

@[simp] theorem sizes_watchdog (d : Dev) (handled : Bool) : sizes (watchdog d handled) = sizes d := by simp [watchdog]

@[simp] theorem sizes_knlCmd (d : Dev) (v : W32) : sizes (knlCmd d v) = sizes d := by simp [knlCmd]

@[simp] theorem sizes_poisonedLoad (d : Dev) (kind : CoreAccess) (a : Nat) : sizes (poisonedLoad d kind a) = sizes d := by
  simp [poisonedLoad]

@[simp] theorem sizes_answer (d : Dev) (result : Nat) (echo : W32) : sizes (answer d result echo) = sizes d := by simp [answer]

@[simp] theorem sizes_h2kDoorbell (d : Dev) : sizes (h2kDoorbell d) = sizes d := by
  unfold h2kDoorbell
  split <;> simp

@[simp] theorem sizes_k2hDoorbell (d : Dev) : sizes (k2hDoorbell d) = sizes d := by simp [k2hDoorbell]

@[simp] theorem sizes_served (d : Dev) (w : List W32) (result : Nat) : sizes (served d w result) = sizes d := by simp [served]

@[simp] theorem sizes_mboxUpdate (d : Dev) (w : List W32) (flash : Bool) : sizes (mboxUpdate d w flash) = sizes d := by simp [mboxUpdate]

@[simp] theorem sizes_logStore (d : Dev) : sizes (logStore d) = sizes d := by simp [logStore]

@[simp] theorem sizes_mboxReboot (d : Dev) (w : List W32) : sizes (mboxReboot d w) = sizes d := by simp [mboxReboot]

@[simp] theorem sizes_mboxStore (d : Dev) (w : List W32) : sizes (mboxStore d w) = sizes d := by simp [mboxStore]

@[simp] theorem sizes_mboxExport (d : Dev) (w : List W32) : sizes (mboxExport d w) = sizes d := by
  unfold mboxExport
  split <;> simp

@[simp] theorem sizes_mboxKey (d : Dev) (w : List W32) : sizes (mboxKey d w) = sizes d := by simp [mboxKey]

@[simp] theorem sizes_mboxRunSram (d : Dev) (w : List W32) : sizes (mboxRunSram d w) = sizes d := by simp [mboxRunSram]

@[simp] theorem sizes_tempCheck (d : Dev) (got : List (Nat × Option Nat)) : sizes (tempCheck d got) = sizes d := by
  unfold tempCheck
  dsimp only
  repeat' split
  all_goals simp

@[simp] theorem sizes_knlKick (d : Dev) : sizes (knlKick d) = sizes d := by simp [knlKick]

@[simp] theorem sizes_descPut (d : Dev) (a i : Nat) (v : W32) : sizes (descPut d a i v) = sizes d := by simp [descPut]

@[simp] theorem sizes_macSend (d : Dev) (l : List Byte) : sizes (macSend d l) = sizes d := by simp [macSend]

@[simp] theorem sizes_macGo (d : Dev) : sizes (macGo d) = sizes d := by simp [macGo]

@[simp] theorem sizes_osDeadline (d : Dev) : sizes (osDeadline d) = sizes d := by simp [osDeadline]

@[simp] theorem sizes_txWriteback (d : Dev) : sizes (txWriteback d) = sizes d := by
  unfold txWriteback
  split <;> simp

@[simp] theorem sizes_rxFrame (d : Dev) (l : List Byte) (good : Bool) : sizes (rxFrame d l good) = sizes d := by simp [rxFrame]

@[simp] theorem sizes_nstopStray (d : Dev) : sizes (nstopStray d) = sizes d := by simp [nstopStray]

@[simp] theorem sizes_netstop (d : Dev) (w0 w1 w2 w3 : W32) : sizes (netstop d w0 w1 w2 w3) = sizes d := by simp [netstop]

@[simp] theorem sizes_nstopFrame (d : Dev) (l : List Byte) : sizes (nstopFrame d l) = sizes d := by
  unfold nstopFrame
  repeat' split
  all_goals simp

@[simp] theorem sizes_nstopCmd (d : Dev) (v : W32) : sizes (nstopCmd d v) = sizes d := by simp [nstopCmd]

@[simp] theorem sizes_setPmu (d : Dev) (f : Pmu → Pmu) (h : ∀ p, (f p).pd.length = p.pd.length) :
    sizes (setPmu d f) = sizes d := by
  simp [setPmu, h]

@[simp] theorem sizes_pmuErr (d : Dev) (b i0 : Nat) : sizes (pmuErr d b i0) = sizes d := by simp [pmuErr]

@[simp] theorem sizes_pmuEvt (d : Dev) (b : Nat) : sizes (pmuEvt d b) = sizes d := by simp [pmuEvt]

@[simp] theorem sizes_pcTestFail (d : Dev) (p : Nat) : sizes (pcTestFail d p) = sizes d := by
  unfold pcTestFail
  dsimp only
  repeat' split
  all_goals simp

@[simp] theorem sizes_outOfService (d : Dev) (base : Nat) : sizes (outOfService d base) = sizes d := by simp [outOfService]

@[simp] theorem sizes_tileFail (d : Dev) (n : Nat) : sizes (tileFail d n) = sizes d := by simp [tileFail]

@[simp] theorem sizes_testFail (d : Dev) (x : TestFail) : sizes (testFail d x) = sizes d := by
  unfold testFail
  split <;> simp

@[simp] theorem sizes_wordsClear (d : Dev) (a b : Nat) : sizes (wordsClear d a b) = sizes d := by simp [wordsClear]

@[simp] theorem sizes_hbmClear (d : Dev) (p : Nat) : sizes (hbmClear d p) = sizes d := by simp [hbmClear]

@[simp] theorem sizes_memReady (d : Dev) : sizes (memReady d) = sizes d := by simp [memReady]

@[simp] theorem sizes_domainDark (d : Dev) (n : Nat) : sizes (domainDark d n) = sizes d := by simp [domainDark]

@[simp] theorem sizes_pdGo (d : Dev) (n q : Nat) : sizes (pdGo d n q) = sizes d := by simp [pdGo]

@[simp] theorem sizes_pdDrain (fuel : Nat) (d : Dev) (n : Nat) : sizes (pdDrain fuel d n) = sizes d := by
  induction fuel generalizing d with
  | zero => rfl
  | succ fuel ih => unfold pdDrain; split <;> simp [ih]

@[simp] theorem sizes_pdWaited (d : Dev) (n : Nat) : sizes (pdWaited d n) = sizes d := by simp [pdWaited]

@[simp] theorem sizes_standbyCheck (d : Dev) : sizes (standbyCheck d) = sizes d := by simp [standbyCheck]

@[simp] theorem sizes_barkBegin (d : Dev) : sizes (barkBegin d) = sizes d := by simp [barkBegin]

@[simp] theorem sizes_seqFour (d : Dev) : sizes (seqFour d) = sizes d := by simp [seqFour]

@[simp] theorem sizes_seqGo (d : Dev) : sizes (seqGo d) = sizes d := by
  unfold seqGo
  repeat' split
  all_goals simp

@[simp] theorem sizes_supplyWarn (d : Dev) (r : Nat) : sizes (supplyWarn d r) = sizes d := by
  unfold supplyWarn
  dsimp only
  split <;> simp

@[simp] theorem sizes_seedLat (d : Dev) : sizes (seedLat d) = sizes d := by simp [seedLat]

@[simp] theorem sizes_powerUp (d : Dev) (cause : Nat) (refclk : Bool) (lines : List Nat) (fails : List TestFail) :
    sizes (powerUp d cause refclk lines fails) = sizes d := by
  unfold powerUp
  extract_lets d1 d2 d3 d4 found d5 d6 d7 d8 d9 d10 rails d11
  have begun : sizes d4 = sizes d := by simp [d1, d2, d3, d4]
  have restored : sizes d8 = sizes d4 := by simp [d5, d6, d7, d8]
  have timed : sizes d10 = sizes d8 := (sizes_setFd ..).trans (sizes_setTim ..)
  have warned : sizes d11 = sizes d10 := sizes_foldl sizes_supplyWarn _ _
  have h : sizes d11 = sizes d := by rw [warned, timed, restored, begun]
  clear_value d11
  split
  · rw [sizes_seqGo, sizes_pllLock, h]
  · rw [sizes_pllStart, h]

@[simp] theorem sizes_pdFail (d : Dev) (n : Nat) : sizes (pdFail d n) = sizes d := by
  unfold pdFail
  split <;> simp

@[simp] theorem sizes_pmuPd (d : Dev) (n : Nat) (v : W32) : sizes (pmuPd d n v) = sizes d := by simp [pmuPd]

@[simp] theorem sizes_memIdle (d : Dev) : sizes (memIdle d) = sizes d := by simp [memIdle]

@[simp] theorem sizes_srExit (d : Dev) : sizes (srExit d) = sizes d := by simp [srExit]

@[simp] theorem sizes_refclkLost (d : Dev) : sizes (refclkLost d) = sizes d := by simp [refclkLost]

@[simp] theorem sizes_refclkReturn (d : Dev) : sizes (refclkReturn d) = sizes d := by
  unfold refclkReturn
  dsimp only
  repeat' split
  all_goals simp

@[simp] theorem sizes_pllLost (d : Dev) (p : Nat) : sizes (pllLost d p) = sizes d := by simp [pllLost]

@[simp] theorem sizes_warmRecord (d : Dev) : sizes (warmRecord d) = sizes d := by
  unfold warmRecord
  split <;> simp

@[simp] theorem sizes_warningEnd (d : Dev) : sizes (warningEnd d) = sizes d := by
  unfold warningEnd
  dsimp only
  repeat' split
  all_goals simp

@[simp] theorem sizes_zeroRegs (d : Dev) (l : List Nat) : sizes (zeroRegs d l) = sizes d := by simp [zeroRegs]

@[simp] theorem sizes_evtsClear (d : Dev) (base : Nat) : sizes (evtsClear d base) = sizes d := by simp [evtsClear]

@[simp] theorem sizes_splSoftReset (d : Dev) : sizes (splSoftReset d) = sizes d := by simp [splSoftReset]

@[simp] theorem sizes_stcDrop (d : Dev) (k : Nat) : sizes (stcDrop d k) = sizes d := by simp [stcDrop]

@[simp] theorem sizes_stcSoftReset (d : Dev) : sizes (stcSoftReset d) = sizes d := by
  unfold stcSoftReset
  dsimp only
  split <;> simp

@[simp] theorem sizes_expSoftReset (d : Dev) : sizes (expSoftReset d) = sizes d := by simp [expSoftReset]

@[simp] theorem sizes_glrSoftReset (d : Dev) : sizes (glrSoftReset d) = sizes d := by simp [glrSoftReset]

@[simp] theorem sizes_rasSoftReset (d : Dev) (n : Nat) : sizes (rasSoftReset d n) = sizes d := by simp [rasSoftReset]

@[simp] theorem sizes_verSoftReset (d : Dev) : sizes (verSoftReset d) = sizes d := by simp [verSoftReset]

@[simp] theorem sizes_meiSoftReset (d : Dev) : sizes (meiSoftReset d) = sizes d := by simp [meiSoftReset]

@[simp] theorem sizes_fclSoftReset (d : Dev) : sizes (fclSoftReset d) = sizes d := by simp [fclSoftReset]

@[simp] theorem sizes_xpdSoftReset (d : Dev) : sizes (xpdSoftReset d) = sizes d := by simp [xpdSoftReset]

@[simp] theorem sizes_softReset (d : Dev) (p : Page) (n : Nat) : sizes (softReset d p n) = sizes d := by
  unfold softReset
  split <;> simp

@[simp] theorem sizes_ctlTile (o d : Dev) (n : Nat) : sizes (ctlTile o d n) = sizes d := by simp [ctlTile]

@[simp] theorem sizes_ctlEngine (o d : Dev) (n : Nat) : sizes (ctlEngine o d n) = sizes d := by simp [ctlEngine]

@[simp] theorem sizes_ctlChan (o d : Dev) (n : Nat) : sizes (ctlChan o d n) = sizes d := by simp [ctlChan]

@[simp] theorem sizes_laneRemove (d : Dev) (n : Nat) : sizes (laneRemove d n) = sizes d := by simp [laneRemove]

@[simp] theorem sizes_ctlLane (o d : Dev) (n : Nat) : sizes (ctlLane o d n) = sizes d := by simp [ctlLane]

@[simp] theorem sizes_glrFollow (d : Dev) (q : Nat) : sizes (glrFollow d q) = sizes d := by simp [glrFollow]

@[simp] theorem sizes_ctlGlr (o d : Dev) : sizes (ctlGlr o d) = sizes d := by simp [ctlGlr]

@[simp] theorem sizes_ctlActs (o d : Dev) (p : Page) (n : Nat) : sizes (ctlActs o d p n) = sizes d := by
  unfold ctlActs
  split <;> simp

@[simp] theorem sizes_ctrlDark (d : Dev) (p : Page) (n : Nat) (v : W32) : sizes (ctrlDark d p n v) = sizes d := by
  unfold ctrlDark
  repeat' split
  all_goals simp

@[simp] theorem sizes_ctrlGo (d : Dev) (p : Page) (n : Nat) (v : W32) : sizes (ctrlGo d p n v) = sizes d := by simp [ctrlGo]

@[simp] theorem sizes_ctrlWrite (d : Dev) (req : Req) (base : Nat) (v : W32) : sizes (ctrlWrite d req base v) = sizes d := by
  unfold ctrlWrite
  split <;> simp

@[simp] theorem sizes_selfTestDone (d : Dev) (base : Nat) (pass : Bool) : sizes (selfTestDone d base pass) = sizes d := by
  unfold selfTestDone
  repeat' split
  all_goals simp

@[simp] theorem sizes_evtPendWrite (d : Dev) (base : Nat) (v : W32) : sizes (evtPendWrite d base v) = sizes d := by simp [evtPendWrite]

@[simp] theorem sizes_evtEnWrite (d : Dev) (base : Nat) (v : W32) : sizes (evtEnWrite d base v) = sizes d := by simp [evtEnWrite]

@[simp] theorem sizes_injectWrite (d : Dev) (p : Page) (n : Nat) (v : W32) : sizes (injectWrite d p n v) = sizes d := by
  unfold injectWrite
  split <;> simp

@[simp] theorem sizes_headWrite (d : Dev) (p : Page) (n o : Nat) (v : W32) : sizes (headWrite d p n o v) = sizes d := by simp [headWrite]

@[simp] theorem sizes_rmpEnt0 (d : Dev) (req : Req) (v : W32) : sizes (rmpEnt0 d req v) = sizes d := by simp [rmpEnt0]

@[simp] theorem sizes_rmpEnt1 (d : Dev) (v : W32) : sizes (rmpEnt1 d v) = sizes d := by simp [rmpEnt1]

@[simp] theorem sizes_rasRole (d : Dev) (n : Nat) (v : W32) : sizes (rasRole d n v) = sizes d := by simp [rasRole]

@[simp] theorem sizes_laneFfe (d : Dev) (req : Req) (n : Nat) (v : W32) : sizes (laneFfe d req n v) = sizes d := by simp [laneFfe]

@[simp] theorem sizes_splSeq (d : Dev) (v : W32) : sizes (splSeq d v) = sizes d := by simp [splSeq]

@[simp] theorem sizes_rowDelay (d : Dev) (a : Nat) (v : W32) : sizes (rowDelay d a v) = sizes d := by simp [rowDelay]

@[simp] theorem sizes_dmaxDone (d : Dev) : sizes (dmaxDone d) = sizes d := by simp [dmaxDone]

@[simp] theorem sizes_gridWrite (d : Dev) (o : Nat) (v : W32) : sizes (gridWrite d o v) = sizes d := by simp [gridWrite]

@[simp] theorem sizes_windowWrite (d : Dev) (a : Nat) (v : W32) : sizes (windowWrite d a v) = sizes d := by simp [windowWrite]

@[simp] theorem sizes_ownerWrite (d : Dev) (req : Req) (p : Page) (n : Nat) (v : W32) : sizes (ownerWrite d req p n v) = sizes d := by
  simp [ownerWrite]

@[simp] theorem sizes_readLatch (d : Dev) (p : Page) (n a : Nat) : sizes (readLatch d p n a) = sizes d := by
  unfold readLatch
  split <;> simp

@[simp] theorem sizes_readActs (d : Dev) (a : Nat) : sizes (readActs d a) = sizes d := by
  unfold readActs
  split <;> simp

@[simp] theorem sizes_busRead (d : Dev) (req : Req) (a : Nat) : sizes (busRead d req a).2 = sizes d := by
  unfold busRead
  repeat' split
  all_goals simp

@[simp] theorem sizes_sizedRead (get : Dev → Nat → W32 × Dev) (d : Dev) (a len : Nat) (h : ∀ d a, sizes (get d a).2 = sizes d) :
    sizes (sizedRead get d a len).2 = sizes d := by
  unfold sizedRead
  split
  · rfl
  · exact foldl_keeps (fun x : List W32 × Dev => sizes x.2) (fun x i => h x.2 _) _ _

@[simp] theorem sizes_completions (d : Dev) (req : Req) (a : Nat) (ws : List W32) : sizes (completions d req a ws) = sizes d := by
  simp [completions]

@[simp] theorem sizes_msixRelease (d : Dev) (v : Nat) : sizes (msixRelease d v) = sizes d := by simp [msixRelease]

@[simp] theorem sizes_msixReleaseAll (d : Dev) : sizes (msixReleaseAll d) = sizes d := by simp [msixReleaseAll]

@[simp] theorem sizes_bar2Write (d : Dev) (o : Nat) (v : W32) : sizes (bar2Write d o v) = sizes d := by simp [bar2Write]

@[simp] theorem sizes_sizedWrite (put : Dev → Nat → W32 → Dev) (d : Dev) (size a : Nat) (ws : List W32)
    (h : ∀ d a v, sizes (put d a v) = sizes d) : sizes (sizedWrite put d size a ws) = sizes d := by
  simp [sizedWrite, h]

@[simp] theorem sizes_registerRead (d : Dev) (req : Req) (space : Space) (a len : Nat) (vc1 : Bool) :
    sizes (registerRead d req space a len vc1) = sizes d := by
  unfold registerRead
  split <;> simp

@[simp] theorem sizes_ucCond (d : Dev) (op : Nat) (c : Int → Bool) : sizes (ucCond d op c) = sizes d := by simp [ucCond]

@[simp] theorem sizes_barGet (d : Dev) (req : Req) (a n : Nat) : sizes (barGet d req a n).2 = sizes d :=
  foldl_keeps (fun x : List Byte × Dev => sizes x.2) (fun _ _ => sizes_busRead ..) _ _

@[simp] theorem sizes_xferGet (d : Dev) (n o len : Nat) : sizes (xferGet d n o len).2.2 = sizes d := by
  -- The operation stays a variable: the kernel would evaluate the literals that its branches turn on.
  obtain ⟨r, hr, got⟩ : ∃ r, daRead = r ∧ ∀ d da n, sizes (r d da n).2 = sizes d := ⟨_, rfl, sizes_daRead⟩
  unfold xferGet
  rw [hr]
  dsimp only
  split
  · simp [got]
  · simp
  · split <;> simp
  · rfl

@[simp] theorem sizes_xferWrite (d : Dev) (n o : Nat) (l : List Byte) (bad : Nat → Bool) : sizes (xferWrite d n o l bad) = sizes d := by
  simp [xferWrite]

@[simp] theorem sizes_xferSend (d : Dev) (n o len : Nat) : sizes (xferSend d n o len) = sizes d := by simp [xferSend]

@[simp] theorem sizes_xferAsk (d : Dev) (n o len : Nat) : sizes (xferAsk d n o len) = sizes d := by simp [xferAsk]

@[simp] theorem sizes_xferOut (d : Dev) (n : Nat) : sizes (xferOut d n) = sizes d := by
  unfold xferOut
  dsimp only
  split <;> simp

@[simp] theorem sizes_xferAsked (d : Dev) (n : Nat) : sizes (xferAsked d n) = sizes d := by simp [xferAsked]

@[simp] theorem sizes_linkSend (d : Dev) (n : Nat) : sizes (linkSend d n) = sizes d := by simp [linkSend]

@[simp] theorem sizes_linkTurn (d : Dev) : sizes (linkTurn d) = sizes d := by
  unfold linkTurn
  split <;> simp

@[simp] theorem sizes_reportFrame (d : Dev) (p : List Byte) : sizes (reportFrame d p).2 = sizes d := by simp [reportFrame]

@[simp] theorem sizes_reportSend (d : Dev) : sizes (reportSend d) = sizes d := by
  unfold reportSend
  dsimp only
  repeat' split
  all_goals simp

@[simp] theorem sizes_logEntry (d : Dev) (cls : Nat) (time : Option (W32 × W32)) (args : List W32) :
    sizes (logEntry d cls time args) = sizes d := by simp [logEntry]

@[simp] theorem sizes_freeArgs (d : Dev) (n : Nat) : sizes (freeArgs d n).2 = sizes d := by simp [freeArgs]

@[simp] theorem sizes_repairLog (d : Dev) : sizes (repairLog d) = sizes d := by simp [repairLog]

@[simp] theorem sizes_fclDrain (d : Dev) : sizes (fclDrain d) = sizes d := by
  unfold fclDrain
  dsimp only
  repeat' split
  all_goals simp

@[simp] theorem sizes_swapLog (d : Dev) : sizes (swapLog d) = sizes d := by
  unfold swapLog
  split <;> simp

@[simp] theorem sizes_logCopy (d : Dev) : sizes (logCopy d) = sizes d := by simp [logCopy]

@[simp] theorem sizes_fwCtrl (d : Dev) (base : Nat) (f : W32 → W32) : sizes (fwCtrl d base f) = sizes d := by simp [fwCtrl]

@[simp] theorem sizes_fwEnd (d : Dev) (r : Repair) : sizes (fwEnd d r) = sizes d := by simp [fwEnd]

@[simp] theorem sizes_fwBegin (d : Dev) (base : Nat) : sizes (fwBegin d base) = sizes d := by simp [fwBegin]

@[simp] theorem sizes_fwGoto (d : Dev) (r : Repair) (k : Nat) : sizes (fwGoto d r k) = sizes d := by simp [fwGoto]

@[simp] theorem sizes_fwReadmit (d : Dev) (r : Repair) : sizes (fwReadmit d r) = sizes d := by simp [fwReadmit]

@[simp] theorem sizes_fwMigrate (d : Dev) (r : Repair) : sizes (fwMigrate d r) = sizes d := by
  unfold fwMigrate
  repeat' split
  all_goals simp

@[simp] theorem sizes_fwStep (d : Dev) (r : Repair) : sizes (fwStep d r) = sizes d := by
  unfold fwStep
  dsimp only
  split <;> simp

@[simp] theorem sizes_repairTurn (d : Dev) : sizes (repairTurn d) = sizes d := by
  unfold repairTurn
  repeat' split
  all_goals simp

@[simp] theorem sizes_firmware (d : Dev) : sizes (firmware d) = sizes d := by simp [firmware]

end Sys2Proof.Machine
end

section
/-! SUPPORT. The fixed sizes stand after the commands that put whole blocks back to their reset values. -/

namespace Sys2Proof.Machine

/-- Blocks with the same lengths have both the fixed sizes. -/
theorem sizesStand_of_eq {d e : Dev} (h : sizes e = sizes d) (hd : SizesStand d) : SizesStand e := by
  rw [sizesStand_iff] at hd ⊢
  exact h.trans hd

theorem sizesStand_ite {c : Prop} [Decidable c] {d e : Dev} (hd : SizesStand d) (he : SizesStand e) : SizesStand (if c then d else e) := by
  split
  · exact hd
  · exact he

theorem sizesStand_foldl {α : Type} {f : Dev → α → Dev} (h : ∀ d x, SizesStand d → SizesStand (f d x)) (l : List α) {d : Dev}
    (hd : SizesStand d) : SizesStand (l.foldl f d) := by
  induction l generalizing d with
  | nil => exact hd
  | cons x l ih => exact ih (h d x hd)

theorem sizesStand_write (req : Req) (a : Nat) {d : Dev} {f : Dev → Dev} (hd : SizesStand d) (h : SizesStand (f d)) :
    SizesStand (write d req a f) := sizesStand_ite h hd

/-- The Heel changes, its registers becoming or remaining 16. -/
theorem sizesStand_setHel {d : Dev} {f : Hel → Hel} (hd : SizesStand d) (h : ∀ x, (f x).h.length = 16) : SizesStand (setHel d f) := by
  obtain ⟨chans, engs, lanes, tiles, pd, -, rest⟩ := hd
  exact ⟨chans, engs, lanes, tiles, pd, h _, rest⟩

theorem sizesStand_helStart {d : Dev} (hd : SizesStand d) : SizesStand (helStart d) :=
  sizesStand_setHel (sizesStand_of_eq (by simp) hd) fun _ => rfl

theorem sizesStand_helModes (enc : Bool) {d : Dev} (hd : SizesStand d) : SizesStand (helModes d enc) := by
  unfold helModes
  extract_lets +onlyGivenNames e f
  have he : SizesStand e := sizesStand_ite (sizesStand_helStart hd) hd
  have hf : SizesStand f := sizesStand_of_eq (by simp [f]) he
  clear_value f
  refine sizesStand_ite (sizesStand_of_eq (by simp) hf) ?_
  extract_lets +onlyGivenNames g
  have hg : SizesStand g := sizesStand_of_eq (by simp [g]) hf
  clear_value g
  split
  · exact sizesStand_ite (sizesStand_of_eq (by simp) hg) hg
  · exact sizesStand_ite (sizesStand_of_eq (by simp) hg) (sizesStand_of_eq (by simp) hg)
  · exact hg

theorem sizesStand_helTick (t : Nat) (enc : Bool) {d : Dev} (hd : SizesStand d) : SizesStand (helTick d t enc) := by
  unfold helTick
  refine sizesStand_ite hd ?_
  extract_lets +onlyGivenNames e was g
  have hg : SizesStand g := sizesStand_helModes enc (sizesStand_of_eq (sizes_inc ..) hd)
  clear_value g
  exact sizesStand_of_eq (by simp) hg

/-- A reset of the host link gives 16 new channels (R502). -/
theorem sizesStand_hlkReset {d : Dev} (hd : SizesStand d) : SizesStand (hlkReset d) := by
  unfold hlkReset
  extract_lets +onlyGivenNames link late e
  have he : SizesStand e := sizesStand_of_eq (by simp [e]) hd
  clear_value e
  obtain ⟨-, rest⟩ := he
  exact sizesStand_of_eq (sizes_wr ..) ⟨rfl, rest⟩

theorem sizesStand_hlkPerst {d : Dev} (hd : SizesStand d) : SizesStand (hlkPerst d) :=
  sizesStand_of_eq (by simp [hlkPerst]) (sizesStand_hlkReset hd)

/-- The domain of STC gives a new dead-beam map of nine slots (R288). -/
theorem sizesStand_domainClear (n : Nat) {d : Dev} (hd : SizesStand d) : SizesStand (domainClear d n) := by
  unfold domainClear
  split
  case h_4 =>
    obtain ⟨chans, engs, lanes, tiles, pd, h, chks, lvl, -⟩ := sizesStand_of_eq (sizes_wordsClear d 0x1000000 0x1300000) hd
    exact ⟨chans, engs, lanes, tiles, pd, h, chks, lvl, rfl⟩
  all_goals exact sizesStand_of_eq (by simp) hd

/-- After a power-on reset every list is that of a new block. -/
theorem sizesStand_powerReset (d : Dev) : SizesStand (powerReset d) :=
  sizesStand_of_eq (sizes_emit ..) ⟨rfl, rfl, rfl, rfl, rfl, rfl, rfl, rfl, rfl⟩

theorem sizesStand_porst (refclk : Bool) (lines : List Nat) (fails : List TestFail) {d : Dev} (hd : SizesStand d) :
    SizesStand (porst d refclk lines fails) :=
  sizesStand_ite hd (sizesStand_of_eq (sizes_powerUp ..) (sizesStand_powerReset d))

theorem sizesStand_brownout (d : Dev) (r : Nat) : SizesStand (brownout d r) :=
  sizesStand_of_eq (by simp [brownout]) (sizesStand_powerReset d)

theorem sizesStand_brownoutRelease (refclk : Bool) (lines : List Nat) (fails : List TestFail) {d : Dev} (hd : SizesStand d) :
    SizesStand (brownoutRelease d refclk lines fails) :=
  sizesStand_ite (sizesStand_of_eq (by simp) (sizesStand_powerReset d)) hd

theorem sizesStand_pdDone (n : Nat) (fails : List TestFail) {d : Dev} (hd : SizesStand d) : SizesStand (pdDone d n fails) := by
  unfold pdDone
  split
  · exact sizesStand_of_eq (by simp) hd
  · refine sizesStand_ite hd ?_
    extract_lets +onlyGivenNames sr e f
    have he : SizesStand e := sizesStand_of_eq (by simp [e]) hd
    have hf : SizesStand f := sizesStand_ite he (sizesStand_of_eq (by simp) (sizesStand_domainClear n he))
    clear_value f
    exact sizesStand_of_eq (by simp) hf
  · exact hd

/-- After a warm reset the lists that it leaves are as before, and the others those of a new block. -/
theorem sizesStand_warmLogic {d : Dev} (hd : SizesStand d) : SizesStand (warmLogic d) := by
  obtain ⟨-, -, -, -, pd, -, -, lvl, slots⟩ := hd
  exact sizesStand_of_eq (sizes_seedLat _) ⟨rfl, rfl, rfl, rfl, pd, rfl, rfl, lvl, slots⟩

theorem sizesStand_warmBegin (cause : Nat) {d : Dev} (hd : SizesStand d) : SizesStand (warmBegin d cause) :=
  sizesStand_ite hd (sizesStand_warmLogic (sizesStand_of_eq (by simp) hd))

theorem sizesStand_warmEnd {d : Dev} (hd : SizesStand d) : SizesStand (warmEnd d) := by
  unfold warmEnd
  refine sizesStand_ite hd ?_
  extract_lets +onlyGivenNames e wake f g h i j
  have he : SizesStand e := sizesStand_of_eq (sizes_wr ..) (sizesStand_warmLogic hd)
  have hg : sizes g = sizes e := by simp [g, f]
  have hj : sizes j = sizes g := by simp [j, i, h]
  clear_value j
  exact sizesStand_of_eq (by simp [hj, hg]) he

theorem sizesStand_pmuCmd (v : W32) {d : Dev} (hd : SizesStand d) : SizesStand (pmuCmd d v) :=
  sizesStand_ite (sizesStand_warmBegin 5 hd) hd

theorem sizesStand_writeMgmt (req : Req) (p : Page) (a : Nat) (v : W32) {d : Dev} (hd : SizesStand d) :
    SizesStand (writeMgmt d req p a v) := by
  unfold writeMgmt
  split
  case h_2 => exact sizesStand_ite (sizesStand_of_eq (by simp) hd) (sizesStand_ite (sizesStand_pmuCmd v hd) (sizesStand_of_eq (by simp) hd))
  all_goals exact sizesStand_of_eq (by simp) hd

theorem sizesStand_blockWrite (req : Req) (p : Page) (n a : Nat) (v : W32) {d : Dev} (hd : SizesStand d) :
    SizesStand (blockWrite d req p n a v) := by
  cases p with
  | glb | pmu | nvm | fcl | tim | knl | mei => exact sizesStand_writeMgmt req _ a v hd
  | _ => exact sizesStand_of_eq (by simp [blockWrite]) hd

theorem sizesStand_busWrite (req : Req) (a : Nat) (v : W32) {d : Dev} (hd : SizesStand d) : SizesStand (busWrite d req a v) := by
  refine sizesStand_ite hd (sizesStand_ite (sizesStand_of_eq (by simp) hd) ?_)
  split
  · exact hd
  · exact sizesStand_ite (sizesStand_of_eq (by simp) hd) <| sizesStand_ite (sizesStand_of_eq (by simp) hd) <| sizesStand_ite hd <|
      sizesStand_ite (sizesStand_of_eq (by simp) hd) (sizesStand_blockWrite req _ _ a v hd)

theorem sizesStand_cfgWrite (r : CfgReg) (v : W32) {d : Dev} (hd : SizesStand d) : SizesStand (cfgWrite d r v) := by
  cases r with
  | devCtl => exact sizesStand_ite (sizesStand_hlkReset hd) hd
  | _ => exact sizesStand_of_eq (by simp [cfgWrite]) hd

theorem sizesStand_sizedWrite {put : Dev → Nat → W32 → Dev} (h : ∀ d a v, SizesStand d → SizesStand (put d a v)) (size a : Nat)
    (ws : List W32) {d : Dev} (hd : SizesStand d) : SizesStand (sizedWrite put d size a ws) :=
  sizesStand_ite hd (sizesStand_foldl (fun _ _ => h _ _ _) _ hd)

theorem sizesStand_registerWrite (req : Req) (space : Space) (size a : Nat) (ws : List W32) (vc1 : Bool) {d : Dev} (hd : SizesStand d) :
    SizesStand (registerWrite d req space size a ws vc1) := by
  unfold registerWrite
  extract_lets +onlyGivenNames vc e
  have he : SizesStand e := sizesStand_of_eq (by simp [e]) hd
  clear_value e
  refine sizesStand_ite hd ?_
  cases space with
  | cfg r => exact sizesStand_ite (sizesStand_ite (sizesStand_of_eq (by simp) he) (sizesStand_cfgWrite _ _ he)) he
  | bar2 => exact sizesStand_of_eq (by simp) he
  | bar0 =>
    exact sizesStand_ite (sizesStand_of_eq (by simp) he)
      (sizesStand_sizedWrite (fun _ _ _ h => sizesStand_of_eq (sizes_settle _) (sizesStand_busWrite _ _ _ h)) _ _ _ he)

theorem sizesStand_slotPairs (b : Bool) (n : Nat) (w : List W32) {d : Dev} (hd : SizesStand d) : SizesStand (slotPairs b n d w) := by
  induction n generalizing d w with
  | zero => exact hd
  | succ n ih =>
    match w with
    | [] => exact hd
    | [_] => exact hd
    | a :: v :: r => exact ih r (sizesStand_ite (sizesStand_busWrite _ _ v hd) hd)

theorem sizesStand_withRec (typ : Nat) (blocks : List Nat) (len : Nat) (u : Upset) {f : Dev → List W32 → Dev}
    (h : ∀ d w, SizesStand d → SizesStand (f d w)) {d : Dev} (hd : SizesStand d) : SizesStand (withRec d typ blocks len u f) := by
  unfold withRec
  extract_lets +onlyGivenNames e
  have he : SizesStand e := sizesStand_of_eq (by simp [e]) hd
  clear_value e
  split
  · exact he
  · exact sizesStand_ite he (sizesStand_ite (sizesStand_of_eq (by simp) he) (h _ _ he))

theorem sizesStand_recSlotWrite (u : Upset) {d : Dev} (hd : SizesStand d) : SizesStand (recSlotWrite d u) :=
  sizesStand_withRec _ _ _ _ (fun _ _ h => sizesStand_ite (sizesStand_of_eq (sizes_recDone ..) (sizesStand_slotPairs _ _ _ h)) h) hd

theorem sizesStand_barPut (req : Req) (a : Nat) (l : List Byte) {d : Dev} (hd : SizesStand d) : SizesStand (barPut d req a l) :=
  sizesStand_foldl (fun _ _ => sizesStand_busWrite _ _ _) _ hd

theorem sizesStand_xferPut (n : Nat) (l : List Byte) {d : Dev} (hd : SizesStand d) : SizesStand (xferPut d n l) := by
  unfold xferPut
  split
  · exact sizesStand_of_eq (by simp) hd
  · exact sizesStand_barPut _ _ l hd
  · exact sizesStand_of_eq (by simp) hd
  · exact hd

theorem sizesStand_chFail {put : Dev → Nat → List Byte → Dev} (n code done : Nat) (l : List Byte)
    {d : Dev} (h : SizesStand (put d n l)) : SizesStand (chFail put d n code done l) :=
  sizesStand_of_eq (sizes_chComplete ..) h

theorem sizesStand_xferFail (n code done : Nat) (l : List Byte) {d : Dev} (hd : SizesStand d) : SizesStand (xferFail d n code done l) :=
  sizesStand_ite (sizesStand_of_eq (by simp) hd) (sizesStand_chFail _ _ _ _ (sizesStand_xferPut _ _ hd))

theorem sizesStand_xferDone (n : Nat) (res : Xfer) {d : Dev} (hd : SizesStand d) : SizesStand (xferDone d n res) := by
  have asked : SizesStand (xferAsked d n) := sizesStand_of_eq (by simp) hd
  unfold xferDone
  refine sizesStand_ite hd (sizesStand_ite ?_ ?_)
  · exact sizesStand_of_eq (by split <;> simp) hd
  · cases res with
    | ok l =>
      exact sizesStand_ite (sizesStand_of_eq (by simp) hd)
        (sizesStand_ite (sizesStand_of_eq (by simp) (sizesStand_xferPut n l asked)) hd)
    | bad done l => exact sizesStand_ite hd (sizesStand_xferFail _ _ _ _ hd)

theorem sizesStand_hostTimeout (n done : Nat) (l : List Byte) {d : Dev} (hd : SizesStand d) : SizesStand (hostTimeout d n done l) :=
  sizesStand_ite (sizesStand_xferFail _ _ _ _ hd) hd

theorem sizesStand_devTimeout (n done : Nat) (l : List Byte) {d : Dev} (hd : SizesStand d) : SizesStand (devTimeout d n done l) :=
  sizesStand_ite hd (sizesStand_ite (sizesStand_xferFail _ _ _ _ hd) (sizesStand_of_eq (by simp) hd))

theorem sizesStand_hlkDown (reads : List (Nat × Nat × List Byte)) {d : Dev} (hd : SizesStand d) : SizesStand (hlkDown d reads) := by
  unfold hlkDown
  refine sizesStand_ite hd ?_
  extract_lets +onlyGivenNames h e f
  have he : SizesStand e := sizesStand_of_eq (by simp [e]) hd
  clear_value e
  have hf : SizesStand f := sizesStand_of_eq (by simp [f]) he
  clear_value f
  refine sizesStand_foldl (fun d r hd => ?_) _ hf
  exact sizesStand_ite (sizesStand_hostTimeout _ _ _ hd) hd

theorem sizesStand_lateLand {d : Dev} (hd : SizesStand d) : SizesStand (lateLand d) := by
  unfold lateLand
  split
  · exact hd
  next l rest _ =>
  split
  next v e he =>
  split
  next x f hf =>
  have taken : SizesStand f :=
    sizesStand_of_eq (by rw [← congrArg (sizes ·.2) hf, sizes_freeBytes, ← congrArg (sizes ·.2) he, sizes_takeFree]; simp) hd
  split
  · exact sizesStand_of_eq (by simp) taken
  · exact sizesStand_of_eq (sizes_settle _) (sizesStand_barPut _ _ x taken)
  · exact sizesStand_of_eq (by simp) taken

theorem sizesStand_idle {d : Dev} (hd : SizesStand d) : SizesStand (idle d) :=
  sizesStand_ite hd (sizesStand_of_eq (sizes_firmware _) (sizesStand_lateLand (sizesStand_of_eq (by simp) hd)))

end Sys2Proof.Machine
end

section
/-! SUPPORT. Every command keeps the fixed sizes; O6. -/

namespace Sys2Proof.Machine

/-- Answer `a` of a command given in state `s` keeps the fixed sizes. -/
def KeepsSizes (s : State) (a : Answer) : Prop := ∀ t, a = .next t → SizesStand s.dev → SizesStand t.dev

theorem keepsSizes_run_of_stand {s : State} {f : Dev → Dev} (h : SizesStand s.dev → SizesStand (f s.dev)) : KeepsSizes s (run s f) := by
  intro t ht hs
  cases ht
  exact sizesStand_of_eq (sizes_drive _) (h hs)

theorem keepsSizes_runS_of_stand {s : State} {f : Dev → Dev} (h : SizesStand s.dev → SizesStand (f s.dev)) : KeepsSizes s (runS s f) :=
  keepsSizes_run_of_stand fun hs => sizesStand_of_eq (sizes_settle _) (h hs)

theorem keepsSizes_run {s : State} {f : Dev → Dev} (h : sizes (f s.dev) = sizes s.dev) : KeepsSizes s (run s f) :=
  keepsSizes_run_of_stand (sizesStand_of_eq h)

theorem keepsSizes_runS {s : State} {f : Dev → Dev} (h : sizes (f s.dev) = sizes s.dev) : KeepsSizes s (runS s f) :=
  keepsSizes_runS_of_stand (sizesStand_of_eq h)

theorem keepsSizes_execRegisterWrite (req : Req) (space : Space) (size a : Nat) (ws : List W32) (vc1 : Bool) (s : State) :
    KeepsSizes s (execRegisterWrite req space size a ws vc1 s) := keepsSizes_runS_of_stand (sizesStand_registerWrite _ _ _ _ _ _)

theorem keepsSizes_execEnableSet (req : Req) (base : Nat) (v : W32) (s : State) : KeepsSizes s (execEnableSet req base v s) :=
  keepsSizes_runS (by simp)

theorem keepsSizes_execEnableClear (req : Req) (base : Nat) (v : W32) (s : State) : KeepsSizes s (execEnableClear req base v s) :=
  keepsSizes_runS (by simp)

theorem keepsSizes_execEnableSelfTestDone (base : Nat) (pass : Bool) (s : State) : KeepsSizes s (execEnableSelfTestDone base pass s) :=
  keepsSizes_runS (by simp)

theorem keepsSizes_execQuiesceSet (req : Req) (base : Nat) (v : W32) (s : State) : KeepsSizes s (execQuiesceSet req base v s) :=
  keepsSizes_runS (by simp)

theorem keepsSizes_execQuiesceClear (req : Req) (base : Nat) (v : W32) (s : State) : KeepsSizes s (execQuiesceClear req base v s) :=
  keepsSizes_runS (by simp)

theorem keepsSizes_execIsolateSet (req : Req) (base : Nat) (v : W32) (s : State) : KeepsSizes s (execIsolateSet req base v s) :=
  keepsSizes_runS (by simp)

theorem keepsSizes_execIsolateClear (req : Req) (base : Nat) (v : W32) (s : State) : KeepsSizes s (execIsolateClear req base v s) :=
  keepsSizes_runS (by simp)

theorem keepsSizes_execSoftReset (req : Req) (base : Nat) (v : W32) (s : State) : KeepsSizes s (execSoftReset req base v s) :=
  keepsSizes_runS (by simp)

theorem keepsSizes_execEvtPendWrite (req : Req) (base : Nat) (v : W32) (s : State) : KeepsSizes s (execEvtPendWrite req base v s) := by
  unfold execEvtPendWrite
  refine keepsSizes_run ?_
  split <;> simp

theorem keepsSizes_execInject (req : Req) (base : Nat) (v : W32) (s : State) : KeepsSizes s (execInject req base v s) := by
  unfold execInject
  refine keepsSizes_run ?_
  split <;> simp

theorem keepsSizes_execRowDelay (req : Req) (r : Nat) (v : W32) (s : State) : KeepsSizes s (execRowDelay req r v s) :=
  keepsSizes_run_of_stand fun h => sizesStand_ite (sizesStand_busWrite _ _ _ h) h

theorem keepsSizes_execGeomDmaxDone (s : State) : KeepsSizes s (execGeomDmaxDone s) := keepsSizes_run (by simp)

theorem keepsSizes_execBlock (ch : Nat) (data : List Byte) (s : State) : KeepsSizes s (execBlock ch data s) := keepsSizes_runS (by simp)

theorem keepsSizes_execGapWait (s : State) : KeepsSizes s (execGapWait s) := keepsSizes_run (by simp)

theorem keepsSizes_execSplNakHold (seq : Nat) (s : State) : KeepsSizes s (execSplNakHold seq s) := keepsSizes_runS (by simp)

theorem keepsSizes_execSplReqW2 (req : Req) (s : State) : KeepsSizes s (execSplReqW2 req s) := keepsSizes_run (by simp)

theorem keepsSizes_execPad (u : Upset) (s : State) : KeepsSizes s (execPad u s) := keepsSizes_runS (by simp)

theorem keepsSizes_execSlotWrite (u : Upset) (s : State) : KeepsSizes s (execSlotWrite u s) :=
  keepsSizes_runS_of_stand (sizesStand_recSlotWrite _)

theorem keepsSizes_execCellOpen (u : Upset) (s : State) : KeepsSizes s (execCellOpen u s) := keepsSizes_runS (by simp)

theorem keepsSizes_execCellClose (u : Upset) (s : State) : KeepsSizes s (execCellClose u s) := keepsSizes_runS (by simp)

theorem keepsSizes_execCellDrop (u : Upset) (s : State) : KeepsSizes s (execCellDrop u s) := keepsSizes_runS (by simp)

theorem keepsSizes_execFigure (u : Upset) (s : State) : KeepsSizes s (execFigure u s) := keepsSizes_runS (by simp)

theorem keepsSizes_execPlace (u : Upset) (s : State) : KeepsSizes s (execPlace u s) := keepsSizes_runS (by simp)

theorem keepsSizes_execArray (u : Upset) (s : State) : KeepsSizes s (execArray u s) := keepsSizes_runS (by simp)

theorem keepsSizes_execStripeOpen (u : Upset) (s : State) : KeepsSizes s (execStripeOpen u s) := keepsSizes_runS (by simp)

theorem keepsSizes_execBin (u : Upset) (s : State) : KeepsSizes s (execBin u s) := keepsSizes_runS (by simp)

theorem keepsSizes_execOrigin (u : Upset) (s : State) : KeepsSizes s (execOrigin u s) := keepsSizes_runS (by simp)

theorem keepsSizes_execField (u : Upset) (s : State) : KeepsSizes s (execField u s) := keepsSizes_runS (by simp)

theorem keepsSizes_execStripeClose (u : Upset) (s : State) : KeepsSizes s (execStripeClose u s) := keepsSizes_runS (by simp)

theorem keepsSizes_execXpdQuery (req : Req) (v : W32) (s : State) : KeepsSizes s (execXpdQuery req v s) := keepsSizes_run (by simp)

theorem keepsSizes_execXpdLookupDone (s : State) : KeepsSizes s (execXpdLookupDone s) := keepsSizes_run (by simp)

theorem keepsSizes_execPatchRecordAllocated (s : State) : KeepsSizes s (execPatchRecordAllocated s) := keepsSizes_runS (by simp)

theorem keepsSizes_execLatched (s : State) : KeepsSizes s (execLatched s) := keepsSizes_runS (by simp)

theorem keepsSizes_execReleased (u : Upset) (s : State) : KeepsSizes s (execReleased u s) := keepsSizes_runS (by simp)

theorem keepsSizes_execDispatch (scan : Nat) (s : State) : KeepsSizes s (execDispatch scan s) := keepsSizes_runS (by simp)

theorem keepsSizes_execSecondRaster (scan : Nat) (s : State) : KeepsSizes s (execSecondRaster scan s) := keepsSizes_runS (by simp)

theorem keepsSizes_execPatchReport (tile : Nat) (u : TileUpset) (s : State) : KeepsSizes s (execPatchReport tile u s) :=
  keepsSizes_runS (by simp)

theorem keepsSizes_execVerTimeout (tile : Nat) (s : State) : KeepsSizes s (execVerTimeout tile s) := keepsSizes_runS (by simp)

theorem keepsSizes_execTileClockStop (tile us : Nat) (s : State) : KeepsSizes s (execTileClockStop tile us s) := keepsSizes_run (by simp)

theorem keepsSizes_execTileWake (tile : Nat) (s : State) : KeepsSizes s (execTileWake tile s) := keepsSizes_run (by simp)

theorem keepsSizes_execPdIdle (dom : Nat) (s : State) : KeepsSizes s (execPdIdle dom s) := keepsSizes_run (by simp)

theorem keepsSizes_execRasTestStart (req : Req) (tile : Nat) (v : W32) (s : State) : KeepsSizes s (execRasTestStart req tile v s) :=
  keepsSizes_run (by simp)

theorem keepsSizes_execTestDone (tile : Nat) (pass : Bool) (s : State) : KeepsSizes s (execTestDone tile pass s) := keepsSizes_run (by simp)

theorem keepsSizes_execVerInject (req : Req) (v : W32) (s : State) : KeepsSizes s (execVerInject req v s) := keepsSizes_run (by simp)

theorem keepsSizes_execStitchRow (fault : Nat) (s : State) : KeepsSizes s (execStitchRow fault s) := keepsSizes_runS (by simp)

theorem keepsSizes_execGather (late : List Nat) (fault : Nat) (s : State) : KeepsSizes s (execGather late fault s) := by
  unfold execGather
  refine keepsSizes_runS ?_
  split <;> simp

theorem keepsSizes_execBegin (s : State) : KeepsSizes s (execBegin s) := keepsSizes_runS (by simp)

theorem keepsSizes_execDbmCommit (req : Req) (v : W32) (s : State) : KeepsSizes s (execDbmCommit req v s) := keepsSizes_run (by simp)

theorem keepsSizes_execDbmBitmapWrite (req : Req) (slot word : Nat) (v : W32) (s : State) :
    KeepsSizes s (execDbmBitmapWrite req slot word v s) := keepsSizes_run (by simp)

theorem keepsSizes_execCopyDone (s : State) : KeepsSizes s (execCopyDone s) := keepsSizes_runS (by simp)

theorem keepsSizes_execBobMendRd (req : Req) (v : W32) (s : State) : KeepsSizes s (execBobMendRd req v s) := keepsSizes_run (by simp)

theorem keepsSizes_execMendWaitEnd (s : State) : KeepsSizes s (execMendWaitEnd s) := keepsSizes_run (by simp)

theorem keepsSizes_execMendViewRead (req : Req) (o : Nat) (s : State) : KeepsSizes s (execMendViewRead req o s) := keepsSizes_run (by simp)

theorem keepsSizes_execBobRequest (port da : Nat) (wr : Bool) (now : Nat) (s : State) : KeepsSizes s (execBobRequest port da wr now s) :=
  keepsSizes_run (by simp)

theorem keepsSizes_execBobCompletion (port latency : Nat) (s : State) : KeepsSizes s (execBobCompletion port latency s) :=
  keepsSizes_run (by simp)

theorem keepsSizes_execRefresh (pc now : Nat) (s : State) : KeepsSizes s (execRefresh pc now s) := keepsSizes_run (by simp)

theorem keepsSizes_execRefreshManagement (pc now : Nat) (banks : List Nat) (s : State) :
    KeepsSizes s (execRefreshManagement pc now banks s) := keepsSizes_run (by simp)

theorem keepsSizes_execOpenPageIdle (pc k now : Nat) (s : State) : KeepsSizes s (execOpenPageIdle pc k now s) := keepsSizes_run (by simp)

theorem keepsSizes_execRowDue (s : State) : KeepsSizes s (execRowDue s) := keepsSizes_runS (by simp)

theorem keepsSizes_execSpoolGrant (ch : Nat) (s : State) : KeepsSizes s (execSpoolGrant ch s) := by
  unfold execSpoolGrant
  refine keepsSizes_runS ?_
  split <;> simp

theorem keepsSizes_execMigStart (req : Req) (v : W32) (s : State) : KeepsSizes s (execMigStart req v s) := keepsSizes_run (by simp)

theorem keepsSizes_execMigChunk (bad : List Nat) (s : State) : KeepsSizes s (execMigChunk bad s) := keepsSizes_run (by simp)

theorem keepsSizes_execBobPcstate (req : Req) (p : Nat) (v : W32) (s : State) : KeepsSizes s (execBobPcstate req p v s) :=
  keepsSizes_run (by simp)

theorem keepsSizes_execPcLost (p : Nat) (s : State) : KeepsSizes s (execPcLost p s) := keepsSizes_run (by simp)

theorem keepsSizes_execCaParity (p k row us : Nat) (s : State) : KeepsSizes s (execCaParity p k row us s) := keepsSizes_run (by simp)

theorem keepsSizes_execTransmitterFault (n unsent : Nat) (s : State) : KeepsSizes s (execTransmitterFault n unsent s) :=
  keepsSizes_run (by simp)

theorem keepsSizes_execHello (n rseq : Nat) (body : HelloBody) (s : State) : KeepsSizes s (execHello n rseq body s) :=
  keepsSizes_run (by simp)

theorem keepsSizes_execLaneStatus (n rseq lock fec : Nat) (errs uncorr : List Nat) (s : State) :
    KeepsSizes s (execLaneStatus n rseq lock fec errs uncorr s) := keepsSizes_run (by simp)

theorem keepsSizes_execTuneReq (n rseq txLane tap action preset : Nat) (s : State) :
    KeepsSizes s (execTuneReq n rseq txLane tap action preset s) := keepsSizes_run (by simp)

theorem keepsSizes_execRowFail (n rseq lseq : Nat) (nocommit : Bool) (crc seqf : Nat) (s : State) :
    KeepsSizes s (execRowFail n rseq lseq nocommit crc seqf s) := keepsSizes_run (by simp)

theorem keepsSizes_execBeamDied (n rseq lseq k j : Nat) (s : State) : KeepsSizes s (execBeamDied n rseq lseq k j s) :=
  keepsSizes_run (by simp)

theorem keepsSizes_execDbmPart (n rseq p bitmap : Nat) (s : State) : KeepsSizes s (execDbmPart n rseq p bitmap s) :=
  keepsSizes_run (by simp)

theorem keepsSizes_execDbmEnd (n rseq count crc : Nat) (s : State) : KeepsSizes s (execDbmEnd n rseq count crc s) :=
  keepsSizes_run (by simp)

theorem keepsSizes_execTagResp (n rseq plateId count mac : Nat) (s : State) : KeepsSizes s (execTagResp n rseq plateId count mac s) :=
  keepsSizes_run (by simp)

theorem keepsSizes_execTagAck (n rseq _count mac : Nat) (s : State) : KeepsSizes s (execTagAck n rseq _count mac s) :=
  keepsSizes_run (by simp)

theorem keepsSizes_execStatus (n ackLseq _firedLseq nextRseq _flags : Nat) (s : State) :
    KeepsSizes s (execStatus n ackLseq _firedLseq nextRseq _flags s) := keepsSizes_run (by simp)

theorem keepsSizes_execBadmsg (n : Nat) (s : State) : KeepsSizes s (execBadmsg n s) := keepsSizes_run (by simp)

theorem keepsSizes_execResendTimeout (s : State) : KeepsSizes s (execResendTimeout s) := by
  unfold execResendTimeout
  refine keepsSizes_run ?_
  split <;> simp

theorem keepsSizes_execUnackClr (req : Req) (v : W32) (s : State) : KeepsSizes s (execUnackClr req v s) := keepsSizes_run (by simp)

theorem keepsSizes_execDbmReq (req : Req) (v : W32) (s : State) : KeepsSizes s (execDbmReq req v s) := keepsSizes_run (by simp)

theorem keepsSizes_execLclkLocked (s : State) : KeepsSizes s (execLclkLocked s) := keepsSizes_run (by simp)

theorem keepsSizes_execRetLock (s : State) : KeepsSizes s (execRetLock s) := keepsSizes_run (by simp)

theorem keepsSizes_execFecAlign (s : State) : KeepsSizes s (execFecAlign s) := keepsSizes_run (by simp)

theorem keepsSizes_execTrainHalfTimeout (s : State) : KeepsSizes s (execTrainHalfTimeout s) := keepsSizes_run (by simp)

theorem keepsSizes_execTrainFail (s : State) : KeepsSizes s (execTrainFail s) := keepsSizes_run (by simp)

theorem keepsSizes_execDbmMs (s : State) : KeepsSizes s (execDbmMs s) := keepsSizes_run (by simp)

theorem keepsSizes_execGlrHb (s : State) : KeepsSizes s (execGlrHb s) := keepsSizes_run (by simp)

theorem keepsSizes_execBlockLockLost (s : State) : KeepsSizes s (execBlockLockLost s) := keepsSizes_run (by simp)

theorem keepsSizes_execTrained (n : Nat) (s : State) : KeepsSizes s (execTrained n s) := keepsSizes_run (by simp)

theorem keepsSizes_execChal (req : Req) (v : W32) (s : State) : KeepsSizes s (execChal req v s) := keepsSizes_run (by simp)

theorem keepsSizes_execTagRetry (s : State) : KeepsSizes s (execTagRetry s) := keepsSizes_run (by simp)

theorem keepsSizes_execChkStart (req : Req) (n : Nat) (v : W32) (s : State) : KeepsSizes s (execChkStart req n v s) :=
  keepsSizes_run (by simp)

theorem keepsSizes_execChkD8 (req : Req) (n : Nat) (v : W32) (s : State) : KeepsSizes s (execChkD8 req n v s) := keepsSizes_run (by simp)

theorem keepsSizes_execChkD16 (req : Req) (n : Nat) (v : W32) (s : State) : KeepsSizes s (execChkD16 req n v s) := keepsSizes_run (by simp)

theorem keepsSizes_execChkD32 (req : Req) (n : Nat) (v : W32) (s : State) : KeepsSizes s (execChkD32 req n v s) := keepsSizes_run (by simp)

theorem keepsSizes_execCountEdge (x y : Bool) (width t : Nat) (s : State) : KeepsSizes s (execCountEdge x y width t s) :=
  keepsSizes_runS (by simp)

theorem keepsSizes_execLossOfInputSwing (s : State) : KeepsSizes s (execLossOfInputSwing s) := keepsSizes_runS (by simp)

theorem keepsSizes_execEncValidLow (s : State) : KeepsSizes s (execEncValidLow s) := keepsSizes_runS (by simp)

theorem keepsSizes_execStripeGo (t : Nat) (s : State) : KeepsSizes s (execStripeGo t s) := keepsSizes_runS (by simp)

theorem keepsSizes_execLeadBoundary (s : State) : KeepsSizes s (execLeadBoundary s) := keepsSizes_runS (by simp)

theorem keepsSizes_execShotBoundary (s : State) : KeepsSizes s (execShotBoundary s) := keepsSizes_runS (by simp)

theorem keepsSizes_execOsreqExpiry (s : State) : KeepsSizes s (execOsreqExpiry s) := keepsSizes_run (by simp)

theorem keepsSizes_execFreeze (s : State) : KeepsSizes s (execFreeze s) := keepsSizes_runS (by simp)

theorem keepsSizes_execStrobeRise (s : State) : KeepsSizes s (execStrobeRise s) := keepsSizes_run (by simp)

theorem keepsSizes_execStrobeFall (s : State) : KeepsSizes s (execStrobeFall s) := keepsSizes_run (by simp)

theorem keepsSizes_execStrobeCut (s : State) : KeepsSizes s (execStrobeCut s) := keepsSizes_runS (by simp)

theorem keepsSizes_execCalibration (pass : Bool) (cells : W32) (s : State) : KeepsSizes s (execCalibration pass cells s) :=
  keepsSizes_runS (by simp)

theorem keepsSizes_execAbortAsserted (s : State) : KeepsSizes s (execAbortAsserted s) := keepsSizes_runS (by simp)

theorem keepsSizes_execAbortReleased (s : State) : KeepsSizes s (execAbortReleased s) := keepsSizes_run (by simp)

theorem keepsSizes_execBlankReqAsserted (s : State) : KeepsSizes s (execBlankReqAsserted s) := keepsSizes_run (by simp)

theorem keepsSizes_execBlankReqReleased (s : State) : KeepsSizes s (execBlankReqReleased s) := keepsSizes_runS (by simp)

theorem keepsSizes_execClearStuck (req : Req) (v : W32) (s : State) : KeepsSizes s (execClearStuck req v s) := keepsSizes_run (by simp)

theorem keepsSizes_execMuzInjectCut (req : Req) (v : W32) (s : State) : KeepsSizes s (execMuzInjectCut req v s) := keepsSizes_run (by simp)

theorem keepsSizes_execResume (req : Req) (v : W32) (s : State) : KeepsSizes s (execResume req v s) := keepsSizes_run (by simp)

theorem keepsSizes_execTktClr (req : Req) (v : W32) (s : State) : KeepsSizes s (execTktClr req v s) := keepsSizes_run (by simp)

theorem keepsSizes_execExpTkt (req : Req) (v : W32) (s : State) : KeepsSizes s (execExpTkt req v s) := keepsSizes_run (by simp)

theorem keepsSizes_execAccepted (s : State) : KeepsSizes s (execAccepted s) := keepsSizes_runS (by simp)

theorem keepsSizes_execWake (s : State) : KeepsSizes s (execWake s) := keepsSizes_run (by simp)

theorem keepsSizes_execPaceFrame (s : State) : KeepsSizes s (execPaceFrame s) := keepsSizes_run (by simp)

theorem keepsSizes_execTick (t : Nat) (enc : Bool) (s : State) : KeepsSizes s (execTick t enc s) :=
  keepsSizes_run_of_stand (sizesStand_helTick _ _)

theorem keepsSizes_execNop (s : State) : KeepsSizes s (execNop s) := keepsSizes_run (by simp)

theorem keepsSizes_execLdi (s : State) : KeepsSizes s (execLdi s) := keepsSizes_run (by simp)

theorem keepsSizes_execLdh (s : State) : KeepsSizes s (execLdh s) := keepsSizes_run (by simp)

theorem keepsSizes_execAdd (s : State) : KeepsSizes s (execAdd s) := keepsSizes_run (by simp)

theorem keepsSizes_execSub (s : State) : KeepsSizes s (execSub s) := keepsSizes_run (by simp)

theorem keepsSizes_execAddi (s : State) : KeepsSizes s (execAddi s) := keepsSizes_run (by simp)

theorem keepsSizes_execMul (s : State) : KeepsSizes s (execMul s) := keepsSizes_run (by simp)

theorem keepsSizes_execShr (s : State) : KeepsSizes s (execShr s) := keepsSizes_run (by simp)

theorem keepsSizes_execShl (s : State) : KeepsSizes s (execShl s) := keepsSizes_run (by simp)

theorem keepsSizes_execMinI (s : State) : KeepsSizes s (execMinI s) := keepsSizes_run (by simp)

theorem keepsSizes_execMaxI (s : State) : KeepsSizes s (execMaxI s) := keepsSizes_run (by simp)

theorem keepsSizes_execInPort (s : State) : KeepsSizes s (execInPort s) := keepsSizes_run (by simp)

theorem keepsSizes_execCf (s : State) : KeepsSizes s (execCf s) := keepsSizes_run (by simp)

theorem keepsSizes_execHyst (s : State) : KeepsSizes s (execHyst s) := keepsSizes_run (by simp)

theorem keepsSizes_execOutI (s : State) : KeepsSizes s (execOutI s) := keepsSizes_run (by simp)

theorem keepsSizes_execCapI (s : State) : KeepsSizes s (execCapI s) := by
  unfold execCapI
  refine keepsSizes_run (sizes_ucExec _ _ _ _ _ fun d w => ?_)
  split <;> simp

theorem keepsSizes_execBr (s : State) : KeepsSizes s (execBr s) := keepsSizes_run (by simp)

theorem keepsSizes_execBz (s : State) : KeepsSizes s (execBz s) := keepsSizes_run (by simp)

theorem keepsSizes_execBn (s : State) : KeepsSizes s (execBn s) := keepsSizes_run (by simp)

theorem keepsSizes_execWaitInstruction (s : State) : KeepsSizes s (execWaitInstruction s) := keepsSizes_run (by simp)

theorem keepsSizes_execUcFault (ue : Bool) (s : State) : KeepsSizes s (execUcFault ue s) := keepsSizes_run (by simp)

theorem keepsSizes_execPeakClr (req : Req) (v : W32) (s : State) : KeepsSizes s (execPeakClr req v s) := keepsSizes_run (by simp)

theorem keepsSizes_execReload (req : Req) (v : W32) (s : State) : KeepsSizes s (execReload req v s) := keepsSizes_run (by simp)

theorem keepsSizes_execSafe (req : Req) (v : W32) (s : State) : KeepsSizes s (execSafe req v s) := keepsSizes_run (by simp)

theorem keepsSizes_execAcq (req : Req) (v : W32) (s : State) : KeepsSizes s (execAcq req v s) := keepsSizes_run (by simp)

theorem keepsSizes_execInjArm (req : Req) (v : W32) (s : State) : KeepsSizes s (execInjArm req v s) := keepsSizes_run (by simp)

theorem keepsSizes_execInjStop (req : Req) (v : W32) (s : State) : KeepsSizes s (execInjStop req v s) := keepsSizes_run (by simp)

theorem keepsSizes_execCapArm (req : Req) (v : W32) (s : State) : KeepsSizes s (execCapArm req v s) := keepsSizes_run (by simp)

theorem keepsSizes_execMicrocodeWrite (req : Req) (a : Nat) (v : W32) (s : State) : KeepsSizes s (execMicrocodeWrite req a v s) :=
  keepsSizes_run (by simp)

theorem keepsSizes_execPerst (s : State) : KeepsSizes s (execPerst s) := keepsSizes_run_of_stand sizesStand_hlkPerst

theorem keepsSizes_execFlr (s : State) : KeepsSizes s (execFlr s) := keepsSizes_run_of_stand sizesStand_hlkReset

theorem keepsSizes_execHlkLinkDown (reads : List (Nat × Nat × List Byte)) (s : State) : KeepsSizes s (execHlkLinkDown reads s) :=
  keepsSizes_runS_of_stand (sizesStand_hlkDown _)

theorem keepsSizes_execLinkUp (gen width : Nat) (flit : Bool) (s : State) : KeepsSizes s (execLinkUp gen width flit s) :=
  keepsSizes_runS (by simp)

theorem keepsSizes_execBar4Access (o : Nat) (wdata : Option (List Byte)) (n : Nat) (vc1 : Bool) (s : State) :
    KeepsSizes s (execBar4Access o wdata n vc1 s) := keepsSizes_runS (by simp)

theorem keepsSizes_execBlankSet (v : W32) (vc1 : Bool) (s : State) : KeepsSizes s (execBlankSet v vc1 s) := keepsSizes_run (by simp)

theorem keepsSizes_execBlankClr (v : W32) (vc1 : Bool) (s : State) : KeepsSizes s (execBlankClr v vc1 s) := keepsSizes_run (by simp)

theorem keepsSizes_execStopSet (v : W32) (vc1 : Bool) (s : State) : KeepsSizes s (execStopSet v vc1 s) := keepsSizes_run (by simp)

theorem keepsSizes_execStopClr (v : W32) (vc1 : Bool) (s : State) : KeepsSizes s (execStopClr v vc1 s) := keepsSizes_run (by simp)

theorem keepsSizes_execDmaHead (req : Req) (n : Nat) (hi : Bool) (v : W32) (s : State) : KeepsSizes s (execDmaHead req n hi v s) :=
  keepsSizes_run (by simp)

theorem keepsSizes_execDmaDb (req : Req) (n : Nat) (s : State) : KeepsSizes s (execDmaDb req n s) := keepsSizes_runS (by simp)

theorem keepsSizes_execDescriptorFetched (n : Nat) (res : Fetch) (s : State) : KeepsSizes s (execDescriptorFetched n res s) := by
  unfold execDescriptorFetched
  refine keepsSizes_runS (sizes_ite_eq ?_ rfl)
  split <;> simp

theorem keepsSizes_execDescriptorDone (n : Nat) (res : Xfer) (s : State) : KeepsSizes s (execDescriptorDone n res s) :=
  keepsSizes_runS_of_stand fun h => sizesStand_ite (sizesStand_xferDone _ _ h) h

theorem keepsSizes_execFetchTimeout (n : Nat) (s : State) : KeepsSizes s (execFetchTimeout n s) := keepsSizes_runS (by simp)

theorem keepsSizes_execHostTimeout (n done : Nat) (l : List Byte) (s : State) : KeepsSizes s (execHostTimeout n done l s) :=
  keepsSizes_runS_of_stand fun h => sizesStand_ite (sizesStand_hostTimeout _ _ _ h) h

theorem keepsSizes_execDevTimeout (n done : Nat) (l : List Byte) (s : State) : KeepsSizes s (execDevTimeout n done l s) :=
  keepsSizes_runS_of_stand fun h => sizesStand_ite (sizesStand_devTimeout _ _ _ h) h

theorem keepsSizes_execDisable (req : Req) (n : Nat) (s : State) : KeepsSizes s (execDisable req n s) := keepsSizes_run (by simp)

theorem keepsSizes_execCdcRole (req : Req) (v : W32) (s : State) : KeepsSizes s (execCdcRole req v s) := keepsSizes_run (by simp)

theorem keepsSizes_execCdcDispatch (s : State) : KeepsSizes s (execCdcDispatch s) := keepsSizes_run (by simp)

theorem keepsSizes_execFrameDecoded (n : Nat) (s : State) : KeepsSizes s (execFrameDecoded n s) := keepsSizes_runS (by simp)

theorem keepsSizes_execEngUe (n : Nat) (s : State) : KeepsSizes s (execEngUe n s) := by
  unfold execEngUe
  refine keepsSizes_runS (sizes_ite_eq ?_ rfl)
  split <;> simp

theorem keepsSizes_execJobGo (req : Req) (n : Nat) (v : W32) (s : State) : KeepsSizes s (execJobGo req n v s) := keepsSizes_runS (by simp)

theorem keepsSizes_execSnapReady (n : Nat) (s : State) : KeepsSizes s (execSnapReady n s) := keepsSizes_runS (by simp)

theorem keepsSizes_execJobAbort (req : Req) (n : Nat) (v : W32) (s : State) : KeepsSizes s (execJobAbort req n v s) :=
  keepsSizes_runS (by simp)

theorem keepsSizes_execJobDone (n : Nat) (s : State) : KeepsSizes s (execJobDone n s) := keepsSizes_runS (by simp)

theorem keepsSizes_execJobSwapGo (req : Req) (v : W32) (s : State) : KeepsSizes s (execJobSwapGo req v s) := keepsSizes_run (by simp)

theorem keepsSizes_execJobSwapCancel (req : Req) (v : W32) (s : State) : KeepsSizes s (execJobSwapCancel req v s) :=
  keepsSizes_run (by simp)

theorem keepsSizes_execSwapWorkDone (s : State) : KeepsSizes s (execSwapWorkDone s) := keepsSizes_run (by simp)

theorem keepsSizes_execScrubRead (ups : List SectorUpset) (s : State) : KeepsSizes s (execScrubRead ups s) := keepsSizes_runS (by simp)

theorem keepsSizes_execSramScrub (m w : Nat) (found : WordFound) (home : WordHome) (last : Bool) (s : State) :
    KeepsSizes s (execSramScrub m w found home last s) := keepsSizes_runS (by simp)

theorem keepsSizes_execOdePoll (counts : List Nat) (s : State) : KeepsSizes s (execOdePoll counts s) := keepsSizes_runS (by simp)

theorem keepsSizes_execMeiInjGo (req : Req) (v : W32) (s : State) : KeepsSizes s (execMeiInjGo req v s) := keepsSizes_run (by simp)

theorem keepsSizes_execFclStatus (req : Req) (v : W32) (s : State) : KeepsSizes s (execFclStatus req v s) := keepsSizes_run (by simp)

theorem keepsSizes_execFclSev (req : Req) (src : Nat) (v : W32) (s : State) : KeepsSizes s (execFclSev req src v s) :=
  keepsSizes_runS (by simp)

theorem keepsSizes_execFclLogW2 (req : Req) (s : State) : KeepsSizes s (execFclLogW2 req s) := keepsSizes_run (by simp)

theorem keepsSizes_execRestart (req : Req) (v : W32) (s : State) : KeepsSizes s (execRestart req v s) := keepsSizes_runS (by simp)

theorem keepsSizes_execBark (s : State) : KeepsSizes s (execBark s) := keepsSizes_run (by simp)

theorem keepsSizes_execWdog (handled : Bool) (s : State) : KeepsSizes s (execWdog handled s) := keepsSizes_runS (by simp)

theorem keepsSizes_execWdogReset (s : State) : KeepsSizes s (execWdogReset s) := keepsSizes_runS (by simp)

theorem keepsSizes_execKnlKick (req : Req) (s : State) : KeepsSizes s (execKnlKick req s) := keepsSizes_run (by simp)

theorem keepsSizes_execPoisonedLoad (kind : CoreAccess) (a : Nat) (s : State) : KeepsSizes s (execPoisonedLoad kind a s) :=
  keepsSizes_run (by simp)

theorem keepsSizes_execConfirm (req : Req) (v : W32) (s : State) : KeepsSizes s (execConfirm req v s) := keepsSizes_runS (by simp)

theorem keepsSizes_execAway (req : Req) (v : W32) (s : State) : KeepsSizes s (execAway req v s) := keepsSizes_runS (by simp)

theorem keepsSizes_execAwayEnd (req : Req) (v : W32) (s : State) : KeepsSizes s (execAwayEnd req v s) := keepsSizes_runS (by simp)

theorem keepsSizes_execReboot (req : Req) (v : W32) (s : State) : KeepsSizes s (execReboot req v s) := keepsSizes_runS (by simp)

theorem keepsSizes_execAwayExpired (s : State) : KeepsSizes s (execAwayExpired s) := keepsSizes_runS (by simp)

theorem keepsSizes_execStoreRegs (req : Req) (s : State) : KeepsSizes s (execStoreRegs req s) := keepsSizes_run (by simp)

theorem keepsSizes_execStoreBoot (req : Req) (s : State) : KeepsSizes s (execStoreBoot req s) := keepsSizes_run (by simp)

theorem keepsSizes_execStoreKey (req : Req) (index : Nat) (s : State) : KeepsSizes s (execStoreKey req index s) := keepsSizes_run (by simp)

theorem keepsSizes_execStoreCrash (req : Req) (index : Nat) (s : State) : KeepsSizes s (execStoreCrash req index s) :=
  keepsSizes_run (by simp)

theorem keepsSizes_execStoreLog (req : Req) (s : State) : KeepsSizes s (execStoreLog req s) := keepsSizes_run (by simp)

theorem keepsSizes_execStoreUser (req : Req) (s : State) : KeepsSizes s (execStoreUser req s) := keepsSizes_run (by simp)

theorem keepsSizes_execNvmDone (ok : Bool) (s : State) : KeepsSizes s (execNvmDone ok s) := by
  unfold execNvmDone
  refine keepsSizes_run ?_
  split <;> simp

theorem keepsSizes_execKnlH2kDb (req : Req) (s : State) : KeepsSizes s (execKnlH2kDb req s) := keepsSizes_run (by simp)

theorem keepsSizes_execKnlK2hDb (req : Req) (s : State) : KeepsSizes s (execKnlK2hDb req s) := keepsSizes_run (by simp)

theorem keepsSizes_execUpdate (flash : Bool) (s : State) : KeepsSizes s (execUpdate flash s) := by
  unfold execUpdate
  refine keepsSizes_runS ?_
  split <;> simp

theorem keepsSizes_execRebootCommand (s : State) : KeepsSizes s (execRebootCommand s) := by
  unfold execRebootCommand
  refine keepsSizes_runS ?_
  split <;> simp

theorem keepsSizes_execStoreCommand (s : State) : KeepsSizes s (execStoreCommand s) := by
  unfold execStoreCommand
  refine keepsSizes_run ?_
  split <;> simp

theorem keepsSizes_execLogExport (s : State) : KeepsSizes s (execLogExport s) := by
  unfold execLogExport
  refine keepsSizes_runS ?_
  split <;> simp

theorem keepsSizes_execKeyWrite (s : State) : KeepsSizes s (execKeyWrite s) := by
  unfold execKeyWrite
  refine keepsSizes_runS ?_
  split <;> simp

theorem keepsSizes_execRunSram (s : State) : KeepsSizes s (execRunSram s) := by
  unfold execRunSram
  refine keepsSizes_runS ?_
  split <;> simp

theorem keepsSizes_execTempCheck (got : List (Nat × Option Nat)) (s : State) : KeepsSizes s (execTempCheck got s) :=
  keepsSizes_runS (by simp)

theorem keepsSizes_execSecondCarry (s : State) : KeepsSizes s (execSecondCarry s) := keepsSizes_run (by simp)

theorem keepsSizes_execPpsOutEnd (s : State) : KeepsSizes s (execPpsOutEnd s) := keepsSizes_run (by simp)

theorem keepsSizes_execPpsIn (rising : Bool) (s : State) : KeepsSizes s (execPpsIn rising s) := keepsSizes_run (by simp)

theorem keepsSizes_execTimNs (req : Req) (s : State) : KeepsSizes s (execTimNs req s) := keepsSizes_run (by simp)

theorem keepsSizes_execStep (req : Req) (v : W32) (s : State) : KeepsSizes s (execStep req v s) := keepsSizes_run (by simp)

theorem keepsSizes_execTrust (req : Req) (v : W32) (s : State) : KeepsSizes s (execTrust req v s) := keepsSizes_run (by simp)

theorem keepsSizes_execHold (req : Req) (v : W32) (s : State) : KeepsSizes s (execHold req v s) := keepsSizes_run (by simp)

theorem keepsSizes_execHoldMax (s : State) : KeepsSizes s (execHoldMax s) := keepsSizes_runS (by simp)

theorem keepsSizes_execKnlMacTxtail (req : Req) (v : W32) (s : State) : KeepsSizes s (execKnlMacTxtail req v s) := keepsSizes_run (by simp)

theorem keepsSizes_execTimOsCorrHi (req : Req) (v : W32) (s : State) : KeepsSizes s (execTimOsCorrHi req v s) := keepsSizes_run (by simp)

theorem keepsSizes_execOnestepDeadline (s : State) : KeepsSizes s (execOnestepDeadline s) := keepsSizes_runS (by simp)

theorem keepsSizes_execTxWriteback (s : State) : KeepsSizes s (execTxWriteback s) := keepsSizes_runS (by simp)

theorem keepsSizes_execRxFrame (data : List Byte) (good : Bool) (s : State) : KeepsSizes s (execRxFrame data good s) :=
  keepsSizes_run (by simp)

theorem keepsSizes_execNetstopDatagram (w0 w1 w2 w3 : W32) (s : State) : KeepsSizes s (execNetstopDatagram w0 w1 w2 w3 s) :=
  keepsSizes_runS (by simp)

theorem keepsSizes_execTimTsqNs (req : Req) (s : State) : KeepsSizes s (execTimTsqNs req s) := keepsSizes_run (by simp)

theorem keepsSizes_execNstopClr (req : Req) (v : W32) (s : State) : KeepsSizes s (execNstopClr req v s) := keepsSizes_runS (by simp)

theorem keepsSizes_execPdReqOn (req : Req) (n : Nat) (v : W32) (s : State) : KeepsSizes s (execPdReqOn req n v s) :=
  keepsSizes_runS (by simp)

theorem keepsSizes_execPdReqOff (req : Req) (n : Nat) (v : W32) (s : State) : KeepsSizes s (execPdReqOff req n v s) :=
  keepsSizes_runS (by simp)

theorem keepsSizes_execPdReqSelfRefresh (req : Req) (n : Nat) (v : W32) (s : State) : KeepsSizes s (execPdReqSelfRefresh req n v s) :=
  keepsSizes_runS (by simp)

theorem keepsSizes_execPdSwitchDone (n : Nat) (fails : List TestFail) (s : State) : KeepsSizes s (execPdSwitchDone n fails s) :=
  keepsSizes_runS_of_stand fun h => sizesStand_ite (sizesStand_pdDone _ _ h) h

theorem keepsSizes_execPdFail (n : Nat) (s : State) : KeepsSizes s (execPdFail n s) := keepsSizes_runS (by simp)

theorem keepsSizes_execPmuMemidle (s : State) : KeepsSizes s (execPmuMemidle s) := keepsSizes_run (by simp)

theorem keepsSizes_execSelfRefreshExit (s : State) : KeepsSizes s (execSelfRefreshExit s) := keepsSizes_run (by simp)

theorem keepsSizes_execRefclkLost (s : State) : KeepsSizes s (execRefclkLost s) := keepsSizes_runS (by simp)

theorem keepsSizes_execRefclkReturn (s : State) : KeepsSizes s (execRefclkReturn s) := keepsSizes_runS (by simp)

theorem keepsSizes_execPllUnlock (p : Nat) (s : State) : KeepsSizes s (execPllUnlock p s) := keepsSizes_runS (by simp)

theorem keepsSizes_execPllLock (p : Nat) (s : State) : KeepsSizes s (execPllLock p s) := keepsSizes_run (by simp)

theorem keepsSizes_execPowerOn (s : State) : KeepsSizes s (execPowerOn s) :=
  keepsSizes_run_of_stand fun _ => sizesStand_of_eq (by simp) (sizesStand_powerReset s.dev)

theorem keepsSizes_execPorst (refclk : Bool) (lines : List Nat) (fails : List TestFail) (s : State) :
    KeepsSizes s (execPorst refclk lines fails s) := keepsSizes_run_of_stand (sizesStand_porst _ _ _)

theorem keepsSizes_execWrst (s : State) : KeepsSizes s (execWrst s) := keepsSizes_run_of_stand (sizesStand_warmBegin 4)

theorem keepsSizes_execWarm (req : Req) (v : W32) (s : State) : KeepsSizes s (execWarm req v s) :=
  keepsSizes_run_of_stand fun h => sizesStand_write _ _ h (sizesStand_pmuCmd _ h)

theorem keepsSizes_execWarmEnd (s : State) : KeepsSizes s (execWarmEnd s) := keepsSizes_run_of_stand sizesStand_warmEnd

theorem keepsSizes_execSupplyWarn (r : Nat) (s : State) : KeepsSizes s (execSupplyWarn r s) := keepsSizes_runS (by simp)

theorem keepsSizes_execRailRelease (r : Nat) (s : State) : KeepsSizes s (execRailRelease r s) := keepsSizes_run (by simp)

theorem keepsSizes_execWarningEnd (s : State) : KeepsSizes s (execWarningEnd s) := keepsSizes_runS (by simp)

theorem keepsSizes_execBrownout (r : Nat) (s : State) : KeepsSizes s (execBrownout r s) :=
  keepsSizes_run_of_stand fun h => sizesStand_ite (sizesStand_brownout _ _) h

theorem keepsSizes_execBrownoutRelease (refclk : Bool) (lines : List Nat) (fails : List TestFail) (s : State) :
    KeepsSizes s (execBrownoutRelease refclk lines fails s) := keepsSizes_run_of_stand (sizesStand_brownoutRelease _ _ _)

theorem keepsSizes_execCommandSlot (pc now : Nat) (s : State) : KeepsSizes s (execCommandSlot pc now s) := keepsSizes_run (by simp)

theorem keepsSizes_execReturnLaneBlockLock (n : Nat) (lock : Bool) (s : State) : KeepsSizes s (execReturnLaneBlockLock n lock s) :=
  keepsSizes_run (by simp)

theorem keepsSizes_execReadOfLo (req : Req) (rd : ReadAt) (s : State) : KeepsSizes s (execReadOfLo req rd s) := keepsSizes_run (by simp)

theorem keepsSizes_execRemapEntryRetire (req : Req) (v : W32) (s : State) : KeepsSizes s (execRemapEntryRetire req v s) :=
  keepsSizes_run (by simp)

theorem keepsSizes_execManagementNetworkLink (up : Bool) (s : State) : KeepsSizes s (execManagementNetworkLink up s) :=
  keepsSizes_run (by simp)

/-- No command changes a fixed size. -/
theorem keepsSizes_exec (i : Instr) (s : State) : KeepsSizes s (exec i s) := by
  cases i with
  | registerWrite req space size a ws vc1 => exact keepsSizes_execRegisterWrite req space size a ws vc1 s
  | enableSet req base v => exact keepsSizes_execEnableSet req base v s
  | enableClear req base v => exact keepsSizes_execEnableClear req base v s
  | enableSelfTestDone base pass => exact keepsSizes_execEnableSelfTestDone base pass s
  | quiesceSet req base v => exact keepsSizes_execQuiesceSet req base v s
  | quiesceClear req base v => exact keepsSizes_execQuiesceClear req base v s
  | isolateSet req base v => exact keepsSizes_execIsolateSet req base v s
  | isolateClear req base v => exact keepsSizes_execIsolateClear req base v s
  | softReset req base v => exact keepsSizes_execSoftReset req base v s
  | evtPendWrite req base v => exact keepsSizes_execEvtPendWrite req base v s
  | inject req base v => exact keepsSizes_execInject req base v s
  | rowDelay req r v => exact keepsSizes_execRowDelay req r v s
  | geomDmaxDone => exact keepsSizes_execGeomDmaxDone s
  | block ch data => exact keepsSizes_execBlock ch data s
  | gapWait => exact keepsSizes_execGapWait s
  | splNakHold seq => exact keepsSizes_execSplNakHold seq s
  | splReqW2 req => exact keepsSizes_execSplReqW2 req s
  | pad u => exact keepsSizes_execPad u s
  | slotWrite u => exact keepsSizes_execSlotWrite u s
  | cellOpen u => exact keepsSizes_execCellOpen u s
  | cellClose u => exact keepsSizes_execCellClose u s
  | cellDrop u => exact keepsSizes_execCellDrop u s
  | figure u => exact keepsSizes_execFigure u s
  | place u => exact keepsSizes_execPlace u s
  | array u => exact keepsSizes_execArray u s
  | stripeOpen u => exact keepsSizes_execStripeOpen u s
  | bin u => exact keepsSizes_execBin u s
  | origin u => exact keepsSizes_execOrigin u s
  | field u => exact keepsSizes_execField u s
  | stripeClose u => exact keepsSizes_execStripeClose u s
  | xpdQuery req v => exact keepsSizes_execXpdQuery req v s
  | xpdLookupDone => exact keepsSizes_execXpdLookupDone s
  | patchRecordAllocated => exact keepsSizes_execPatchRecordAllocated s
  | latched => exact keepsSizes_execLatched s
  | released u => exact keepsSizes_execReleased u s
  | dispatch scan => exact keepsSizes_execDispatch scan s
  | secondRaster scan => exact keepsSizes_execSecondRaster scan s
  | patchReport tile u => exact keepsSizes_execPatchReport tile u s
  | verTimeout tile => exact keepsSizes_execVerTimeout tile s
  | tileClockStop tile us => exact keepsSizes_execTileClockStop tile us s
  | tileWake tile => exact keepsSizes_execTileWake tile s
  | pdIdle dom => exact keepsSizes_execPdIdle dom s
  | rasTestStart req tile v => exact keepsSizes_execRasTestStart req tile v s
  | testDone tile pass => exact keepsSizes_execTestDone tile pass s
  | verInject req v => exact keepsSizes_execVerInject req v s
  | stitchRow fault => exact keepsSizes_execStitchRow fault s
  | gather late fault => exact keepsSizes_execGather late fault s
  | begin => exact keepsSizes_execBegin s
  | dbmCommit req v => exact keepsSizes_execDbmCommit req v s
  | dbmBitmapWrite req slot word v => exact keepsSizes_execDbmBitmapWrite req slot word v s
  | copyDone => exact keepsSizes_execCopyDone s
  | bobMendRd req v => exact keepsSizes_execBobMendRd req v s
  | mendWaitEnd => exact keepsSizes_execMendWaitEnd s
  | mendViewRead req o => exact keepsSizes_execMendViewRead req o s
  | bobRequest port da wr now => exact keepsSizes_execBobRequest port da wr now s
  | bobCompletion port latency => exact keepsSizes_execBobCompletion port latency s
  | refresh pc now => exact keepsSizes_execRefresh pc now s
  | refreshManagement pc now banks => exact keepsSizes_execRefreshManagement pc now banks s
  | openPageIdle pc k now => exact keepsSizes_execOpenPageIdle pc k now s
  | rowDue => exact keepsSizes_execRowDue s
  | spoolGrant ch => exact keepsSizes_execSpoolGrant ch s
  | migStart req v => exact keepsSizes_execMigStart req v s
  | migChunk bad => exact keepsSizes_execMigChunk bad s
  | bobPcstate req p v => exact keepsSizes_execBobPcstate req p v s
  | pcLost p => exact keepsSizes_execPcLost p s
  | caParity p k row us => exact keepsSizes_execCaParity p k row us s
  | transmitterFault lane unsent => exact keepsSizes_execTransmitterFault lane unsent s
  | hello lane rseq body => exact keepsSizes_execHello lane rseq body s
  | laneStatus lane rseq lock fec errs uncorr => exact keepsSizes_execLaneStatus lane rseq lock fec errs uncorr s
  | tuneReq lane rseq txLane tap action preset => exact keepsSizes_execTuneReq lane rseq txLane tap action preset s
  | rowFail lane rseq lseq nocommit crc seqf => exact keepsSizes_execRowFail lane rseq lseq nocommit crc seqf s
  | beamDied lane rseq lseq k j => exact keepsSizes_execBeamDied lane rseq lseq k j s
  | dbmPart lane rseq p bitmap => exact keepsSizes_execDbmPart lane rseq p bitmap s
  | dbmEnd lane rseq count crc => exact keepsSizes_execDbmEnd lane rseq count crc s
  | tagResp lane rseq plateId count mac => exact keepsSizes_execTagResp lane rseq plateId count mac s
  | tagAck lane rseq count mac => exact keepsSizes_execTagAck lane rseq count mac s
  | status lane ackLseq firedLseq nextRseq flags => exact keepsSizes_execStatus lane ackLseq firedLseq nextRseq flags s
  | badmsg lane => exact keepsSizes_execBadmsg lane s
  | resendTimeout => exact keepsSizes_execResendTimeout s
  | unackClr req v => exact keepsSizes_execUnackClr req v s
  | dbmReq req v => exact keepsSizes_execDbmReq req v s
  | lclkLocked => exact keepsSizes_execLclkLocked s
  | retLock => exact keepsSizes_execRetLock s
  | fecAlign => exact keepsSizes_execFecAlign s
  | trainHalfTimeout => exact keepsSizes_execTrainHalfTimeout s
  | trainFail => exact keepsSizes_execTrainFail s
  | dbmMs => exact keepsSizes_execDbmMs s
  | glrHb => exact keepsSizes_execGlrHb s
  | blockLockLost => exact keepsSizes_execBlockLockLost s
  | trained lane => exact keepsSizes_execTrained lane s
  | chal req v => exact keepsSizes_execChal req v s
  | tagRetry => exact keepsSizes_execTagRetry s
  | chkStart req unit v => exact keepsSizes_execChkStart req unit v s
  | chkD8 req unit v => exact keepsSizes_execChkD8 req unit v s
  | chkD16 req unit v => exact keepsSizes_execChkD16 req unit v s
  | chkD32 req unit v => exact keepsSizes_execChkD32 req unit v s
  | countEdge x y width t => exact keepsSizes_execCountEdge x y width t s
  | lossOfInputSwing => exact keepsSizes_execLossOfInputSwing s
  | encValidLow => exact keepsSizes_execEncValidLow s
  | stripeGo t => exact keepsSizes_execStripeGo t s
  | leadBoundary => exact keepsSizes_execLeadBoundary s
  | shotBoundary => exact keepsSizes_execShotBoundary s
  | osreqExpiry => exact keepsSizes_execOsreqExpiry s
  | freeze => exact keepsSizes_execFreeze s
  | strobeRise => exact keepsSizes_execStrobeRise s
  | strobeFall => exact keepsSizes_execStrobeFall s
  | strobeCut => exact keepsSizes_execStrobeCut s
  | calibration pass cells => exact keepsSizes_execCalibration pass cells s
  | abortAsserted => exact keepsSizes_execAbortAsserted s
  | abortReleased => exact keepsSizes_execAbortReleased s
  | blankReqAsserted => exact keepsSizes_execBlankReqAsserted s
  | blankReqReleased => exact keepsSizes_execBlankReqReleased s
  | clearStuck req v => exact keepsSizes_execClearStuck req v s
  | muzInjectCut req v => exact keepsSizes_execMuzInjectCut req v s
  | resume req v => exact keepsSizes_execResume req v s
  | tktClr req v => exact keepsSizes_execTktClr req v s
  | expTkt req v => exact keepsSizes_execExpTkt req v s
  | accepted => exact keepsSizes_execAccepted s
  | wake => exact keepsSizes_execWake s
  | paceFrame => exact keepsSizes_execPaceFrame s
  | tick t encValid => exact keepsSizes_execTick t encValid s
  | nop => exact keepsSizes_execNop s
  | ldi => exact keepsSizes_execLdi s
  | ldh => exact keepsSizes_execLdh s
  | add => exact keepsSizes_execAdd s
  | sub => exact keepsSizes_execSub s
  | addi => exact keepsSizes_execAddi s
  | mul => exact keepsSizes_execMul s
  | shr => exact keepsSizes_execShr s
  | shl => exact keepsSizes_execShl s
  | minI => exact keepsSizes_execMinI s
  | maxI => exact keepsSizes_execMaxI s
  | inPort => exact keepsSizes_execInPort s
  | cf => exact keepsSizes_execCf s
  | hyst => exact keepsSizes_execHyst s
  | outI => exact keepsSizes_execOutI s
  | capI => exact keepsSizes_execCapI s
  | br => exact keepsSizes_execBr s
  | bz => exact keepsSizes_execBz s
  | bn => exact keepsSizes_execBn s
  | waitInstruction => exact keepsSizes_execWaitInstruction s
  | ucFault ue => exact keepsSizes_execUcFault ue s
  | peakClr req v => exact keepsSizes_execPeakClr req v s
  | reload req v => exact keepsSizes_execReload req v s
  | safe req v => exact keepsSizes_execSafe req v s
  | acq req v => exact keepsSizes_execAcq req v s
  | injArm req v => exact keepsSizes_execInjArm req v s
  | injStop req v => exact keepsSizes_execInjStop req v s
  | capArm req v => exact keepsSizes_execCapArm req v s
  | microcodeWrite req a v => exact keepsSizes_execMicrocodeWrite req a v s
  | perst => exact keepsSizes_execPerst s
  | flr => exact keepsSizes_execFlr s
  | hlkLinkDown reads => exact keepsSizes_execHlkLinkDown reads s
  | linkUp gen width flit => exact keepsSizes_execLinkUp gen width flit s
  | bar4Access o wdata n vc1 => exact keepsSizes_execBar4Access o wdata n vc1 s
  | blankSet v vc1 => exact keepsSizes_execBlankSet v vc1 s
  | blankClr v vc1 => exact keepsSizes_execBlankClr v vc1 s
  | stopSet v vc1 => exact keepsSizes_execStopSet v vc1 s
  | stopClr v vc1 => exact keepsSizes_execStopClr v vc1 s
  | dmaHead req n hi v => exact keepsSizes_execDmaHead req n hi v s
  | dmaDb req n => exact keepsSizes_execDmaDb req n s
  | descriptorFetched n res => exact keepsSizes_execDescriptorFetched n res s
  | descriptorDone n res => exact keepsSizes_execDescriptorDone n res s
  | fetchTimeout n => exact keepsSizes_execFetchTimeout n s
  | hostTimeout n done l => exact keepsSizes_execHostTimeout n done l s
  | devTimeout n done l => exact keepsSizes_execDevTimeout n done l s
  | disable req n => exact keepsSizes_execDisable req n s
  | cdcRole req v => exact keepsSizes_execCdcRole req v s
  | cdcDispatch => exact keepsSizes_execCdcDispatch s
  | frameDecoded n => exact keepsSizes_execFrameDecoded n s
  | engUe n => exact keepsSizes_execEngUe n s
  | jobGo req n v => exact keepsSizes_execJobGo req n v s
  | snapReady n => exact keepsSizes_execSnapReady n s
  | jobAbort req n v => exact keepsSizes_execJobAbort req n v s
  | jobDone n => exact keepsSizes_execJobDone n s
  | jobSwapGo req v => exact keepsSizes_execJobSwapGo req v s
  | jobSwapCancel req v => exact keepsSizes_execJobSwapCancel req v s
  | swapWorkDone => exact keepsSizes_execSwapWorkDone s
  | scrubRead ups => exact keepsSizes_execScrubRead ups s
  | sramScrub m w found home last => exact keepsSizes_execSramScrub m w found home last s
  | odePoll counts => exact keepsSizes_execOdePoll counts s
  | meiInjGo req v => exact keepsSizes_execMeiInjGo req v s
  | fclStatus req v => exact keepsSizes_execFclStatus req v s
  | fclSev req src v => exact keepsSizes_execFclSev req src v s
  | fclLogW2 req => exact keepsSizes_execFclLogW2 req s
  | restart req v => exact keepsSizes_execRestart req v s
  | bark => exact keepsSizes_execBark s
  | wdog handled => exact keepsSizes_execWdog handled s
  | wdogReset => exact keepsSizes_execWdogReset s
  | knlKick req => exact keepsSizes_execKnlKick req s
  | poisonedLoad kind a => exact keepsSizes_execPoisonedLoad kind a s
  | confirm req v => exact keepsSizes_execConfirm req v s
  | away req v => exact keepsSizes_execAway req v s
  | awayEnd req v => exact keepsSizes_execAwayEnd req v s
  | reboot req v => exact keepsSizes_execReboot req v s
  | awayExpired => exact keepsSizes_execAwayExpired s
  | storeRegs req => exact keepsSizes_execStoreRegs req s
  | storeBoot req => exact keepsSizes_execStoreBoot req s
  | storeKey req index => exact keepsSizes_execStoreKey req index s
  | storeCrash req index => exact keepsSizes_execStoreCrash req index s
  | storeLog req => exact keepsSizes_execStoreLog req s
  | storeUser req => exact keepsSizes_execStoreUser req s
  | nvmDone ok => exact keepsSizes_execNvmDone ok s
  | knlH2kDb req => exact keepsSizes_execKnlH2kDb req s
  | knlK2hDb req => exact keepsSizes_execKnlK2hDb req s
  | update flash => exact keepsSizes_execUpdate flash s
  | rebootCommand => exact keepsSizes_execRebootCommand s
  | storeCommand => exact keepsSizes_execStoreCommand s
  | logExport => exact keepsSizes_execLogExport s
  | keyWrite => exact keepsSizes_execKeyWrite s
  | runSram => exact keepsSizes_execRunSram s
  | tempCheck got => exact keepsSizes_execTempCheck got s
  | secondCarry => exact keepsSizes_execSecondCarry s
  | ppsOutEnd => exact keepsSizes_execPpsOutEnd s
  | ppsIn rising => exact keepsSizes_execPpsIn rising s
  | timNs req => exact keepsSizes_execTimNs req s
  | step req v => exact keepsSizes_execStep req v s
  | trust req v => exact keepsSizes_execTrust req v s
  | hold req v => exact keepsSizes_execHold req v s
  | holdMax => exact keepsSizes_execHoldMax s
  | knlMacTxtail req v => exact keepsSizes_execKnlMacTxtail req v s
  | timOsCorrHi req v => exact keepsSizes_execTimOsCorrHi req v s
  | onestepDeadline => exact keepsSizes_execOnestepDeadline s
  | txWriteback => exact keepsSizes_execTxWriteback s
  | rxFrame data good => exact keepsSizes_execRxFrame data good s
  | netstopDatagram w0 w1 w2 w3 => exact keepsSizes_execNetstopDatagram w0 w1 w2 w3 s
  | timTsqNs req => exact keepsSizes_execTimTsqNs req s
  | nstopClr req v => exact keepsSizes_execNstopClr req v s
  | pdReqOn req n v => exact keepsSizes_execPdReqOn req n v s
  | pdReqOff req n v => exact keepsSizes_execPdReqOff req n v s
  | pdReqSelfRefresh req n v => exact keepsSizes_execPdReqSelfRefresh req n v s
  | pdSwitchDone n fails => exact keepsSizes_execPdSwitchDone n fails s
  | pdFail n => exact keepsSizes_execPdFail n s
  | pmuMemidle => exact keepsSizes_execPmuMemidle s
  | selfRefreshExit => exact keepsSizes_execSelfRefreshExit s
  | refclkLost => exact keepsSizes_execRefclkLost s
  | refclkReturn => exact keepsSizes_execRefclkReturn s
  | pllUnlock p => exact keepsSizes_execPllUnlock p s
  | pllLock p => exact keepsSizes_execPllLock p s
  | powerOn => exact keepsSizes_execPowerOn s
  | porst refclk lines fails => exact keepsSizes_execPorst refclk lines fails s
  | wrst => exact keepsSizes_execWrst s
  | warm req v => exact keepsSizes_execWarm req v s
  | warmEnd => exact keepsSizes_execWarmEnd s
  | supplyWarn r => exact keepsSizes_execSupplyWarn r s
  | railRelease r => exact keepsSizes_execRailRelease r s
  | warningEnd => exact keepsSizes_execWarningEnd s
  | brownout r => exact keepsSizes_execBrownout r s
  | brownoutRelease refclk lines fails => exact keepsSizes_execBrownoutRelease refclk lines fails s
  | commandSlot pc now => exact keepsSizes_execCommandSlot pc now s
  | returnLaneBlockLock lane lock => exact keepsSizes_execReturnLaneBlockLock lane lock s
  | readOfLo req rd => exact keepsSizes_execReadOfLo req rd s
  | remapEntryRetire req v => exact keepsSizes_execRemapEntryRetire req v s
  | managementNetworkLink up => exact keepsSizes_execManagementNetworkLink up s

/-- Nor does what passes while no command waits. -/
theorem keepsSizes_step (s : State) : KeepsSizes s (step s) := by
  unfold step
  split
  · exact keepsSizes_run_of_stand sizesStand_idle
  · exact fun t ht hs => keepsSizes_exec _ _ t ht hs

/-! ### The obligation -/

/-- Settles O6: no operation of the model changes the length of one of the lists, but for the resets, which put lists of the same
lengths in their places. -/
theorem sizesStandIsKept : Obligations.SizesStandIsKept := by
  unfold Obligations.SizesStandIsKept
  exact fun s t hs ht => keepsSizes_step s t ht hs

end Sys2Proof.Machine
end

section
/-! SUPPORT. The words of the tiles' and VER's pages, and VER's own state: what events, errors, power requests and settling leave of
them. -/

namespace Sys2Proof.Machine

/-! ### Words of the tiles and of VER (R251) -/

/-- The control words of the tiles' and VER's pages, and their registers beyond the header: no event, no error and no freeing of space
changes them. -/
def RasterWord (a : Nat) : Prop := 0x60000 ≤ a ∧ a < 0xA0000 ∧ (a % 0x1000 = oCTRL ∨ 0x100 ≤ a % 0x1000)

/-- The words that the response to an error can change lie in other pages than the tiles' and VER's. -/
theorem not_errWord_raster {a : Nat} (h : 0x60000 ≤ a) (h' : a < 0xA0000) : ¬ErrWord a := by
  intro e
  unfold ErrWord at e
  simp only [Page.base, Adr.FCL_CNT, Adr.FCL_FIRST, Adr.FCL_FIRST_S, Adr.FCL_FIRST_NS, Adr.MEI_CNT_CE, Adr.MUZ_CNT,
    Adr.BOB_MEND_WR, Adr.EXP_HWM, Adr.GLB_SEAL_INDEX, Adr.GLB_SEAL_WR, Adr.GLB_SEAL_STAT, oEVTPEND, oERRLATCH, oINFO0, oINFO1,
    oINJECT] at e
  omega

theorem rg_evt_rasterWord (d : Dev) {base : Nat} (b : Nat) (hb : base % 0x1000 = 0) {a : Nat} (ha : RasterWord a) :
    rg (evt d base b) a = rg d a := by
  obtain ⟨-, -, place⟩ := ha
  exact rg_evt_ne d base b (by simp only [oEVTPEND, oCTRL] at *; omega)

theorem rg_err_rasterWord (d : Dev) {base : Nat} (b : Nat) (i0 i1 : W32) (hb : base % 0x1000 = 0) {a : Nat} (ha : RasterWord a) :
    rg (err d base b i0 i1) a = rg d a := by
  obtain ⟨lo, hi, place⟩ := ha
  refine rg_err d base b i0 i1 (not_errWord_raster lo hi) ?_ ?_ ?_ <;> (simp only [oERRLATCH, oINFO0, oINFO1, oCTRL] at *; omega)

/-- Settling and driving the pins leave the words of the tiles' and VER's pages. -/
theorem rg_settled (d : Dev) {a : Nat} (h : 0x60000 ≤ a) (h' : a < 0xA0000) : rg (drive (settle d)) a = rg d a := by
  rw [rg_drive]
  exact rg_settle d (by simp only [Adr.BOB_CNT_LOW]; omega) (by simp only [Page.base, oEVTPEND]; omega)

@[simp] theorem settled_ver (d : Dev) : (drive (settle d)).ver = d.ver := by rw [drive_ver, settle_ver]

theorem rg_verErr (d : Dev) (b : Nat) (w : Work) (tile : Nat) {a : Nat} (ha : RasterWord a) : rg (verErr d b w tile) a = rg d a :=
  rg_err_rasterWord d b _ _ (base_mod .ver 0) ha

theorem rg_rasErr (d : Dev) (n b : Nat) (w : Option Work) {a : Nat} (ha : RasterWord a) : rg (rasErr d n b w) a = rg d a :=
  rg_err_rasterWord d b _ _ (base_mod .ras n) ha

/-! ### VER's own state -/

theorem err_ver (d : Dev) (base b : Nat) (i0 i1 : W32) : (err d base b i0 i1).ver = d.ver :=
  (congrArg Dev.ver (err_errRest d base b i0 i1) :)

@[simp] theorem verErr_ver (d : Dev) (b : Nat) (w : Work) (tile : Nat) : (verErr d b w tile).ver = d.ver := err_ver ..

@[simp] theorem rasErr_ver (d : Dev) (n b : Nat) (w : Option Work) : (rasErr d n b w).ver = d.ver := err_ver ..

@[simp] theorem standbyLeave_ver (d : Dev) : (standbyLeave d).ver = d.ver := by
  unfold standbyLeave
  split <;> rfl

/-- A power request leaves VER. -/
@[simp] theorem pdAsk_ver (d : Dev) (n q : Nat) : (pdAsk d n q).ver = d.ver := by
  unfold pdAsk pdAct
  split
  · rfl
  · split
    · rfl
    · rfl
    · split
      · split
        · exact standbyLeave_ver d
        · rfl
      · exact standbyLeave_ver d
      · rfl
      · exact standbyLeave_ver d
      · split <;> rfl
      · rfl

theorem tileOf_congr {d e : Dev} (h : e.ver.tiles = d.ver.tiles) (n : Nat) : tileOf e n = tileOf d n := by
  unfold tileOf
  rw [h]

theorem tileOf_setTile (d : Dev) {n : Nat} (f : Tile → Tile) (h : n < d.ver.tiles.length) :
    tileOf (setTile d n f) n = f (tileOf d n) := nth_modNth_self _ h f _

/-- A tile that holds a raster is one of the list. -/
theorem lt_tiles_of_work {d : Dev} {n : Nat} {w : Work} {r : List Work} (h : (tileOf d n).work = w :: r) :
    n < d.ver.tiles.length := by
  by_contra out
  have none : tileOf d n = {} := List.getD_eq_default _ _ (not_lt.1 out)
  rw [none] at h
  cases h

end Sys2Proof.Machine
end

section
/-! PROOF. Dispatch, fencing, sleep, tests of tiles and VER's injections (R224, R232 to R240, R245, R250). -/

namespace Sys2Proof.Machine

/-! ### A tile takes a raster (R237, R240) -/

/-- The tile holds the raster behind those that it held; VER changes in nothing else. -/
theorem giveTile_gives (d : Dev) {n : Nat} (w : Work) (h : n < d.ver.tiles.length) :
    (∃ w', (tileOf (giveTile d n w) n).work = (tileOf d n).work ++ [w'] ∧ { w' with ue := w.ue } = w) ∧
      (giveTile d n w).ver.wait = d.ver.wait ∧ (giveTile d n w).ver.retry = d.ver.retry := by
  let w' : Work := { w with ue := (tileOf d n).awake && tileInj d n }
  let e := setTile d n fun t => { t with work := t.work ++ [w'] }
  have ver : (giveTile d n w).ver = e.ver := by
    unfold giveTile
    split
    · dsimp only
      split
      · rfl
      · exact pdAsk_ver _ _ _
    · rfl
  refine ⟨⟨w', ?_, rfl⟩, (congrArg Ver.wait ver :), (congrArg Ver.retry ver :)⟩
  rw [tileOf_congr (congrArg Ver.tiles ver), tileOf_setTile d _ h]

theorem lt_of_firstTile {d : Dev} {scan n : Nat} (h : firstTile d scan = some n) : n < 34 := by
  have mem : n ∈ tiles := by
    unfold firstTile at h
    dsimp only at h
    split at h
    · next m found => exact Option.some.inj h ▸ List.mem_of_find?_eq_some found
    · exact List.mem_of_find?_eq_some h
  exact List.mem_range.1 mem

theorem lt_of_secondTile {d : Dev} {scan n : Nat} {avoid : List Nat} (h : secondTile d scan avoid = some n) : n < 34 := by
  have mem : n ∈ tiles := by
    unfold secondTile at h
    dsimp only at h
    split at h
    · next m found => exact Option.some.inj h ▸ List.mem_of_find?_eq_some found
    · split at h
      · next m found => exact Option.some.inj h ▸ List.mem_of_find?_eq_some found
      · split at h
        · next m found => exact Option.some.inj h ▸ List.mem_of_find?_eq_some found
        · exact List.mem_of_find?_eq_some h
  exact List.mem_range.1 mem

/-- The first patch that waits goes to its tile once its row has its space (R237, R315). -/
theorem verDispatch_gives {d : Dev} {scan n : Nat} {w : Work} {r : List Work} {sec : Sec} (hver : blkRuns d .ver .ver = true)
    (hretry : retryReady d scan = false) (hrr : d.ver.rr = []) (hwait : d.ver.wait = w :: r) (hsec : secOf d w.sec = some sec)
    (htile : firstTile d scan = some n) (hhigh : belowHigh d = true) (hwin : winOf d w.sec w.q ≠ none) :
    verDispatch d scan = giveTile (setVer d fun v => { v with wait := r }) n w := by
  have space : (winOf d w.sec w.q).isSome = true := Option.isSome_iff_ne_none.2 hwin
  unfold verDispatch
  simp [hver, hretry, hrr, hwait, hsec, htile, hhigh, space]

theorem secondRaster_gives {d : Dev} {scan n : Nat} {w : Work} (hver : blkRuns d .ver .ver = true)
    (hfind : (d.ver.retry.find? fun w => (secondTile d scan w.avoid).isSome || !secondCould d w.avoid) = some w)
    (htile : secondTile d scan w.avoid = some n) :
    secondRaster d scan = giveTile (setVer d fun v => { v with retry := v.retry.erase w }) n w := by
  have same : secondTile (setVer d fun v => { v with retry := v.retry.erase w }) scan w.avoid = some n := htile
  unfold secondRaster
  rw [hfind]
  simp [hver, same]

/-! ### Fencing (R233 to R235, R243) -/

theorem requeue_ver (d : Dev) (w : Work) : (requeue d w).ver.tiles = d.ver.tiles ∧ (requeue d w).regs = d.regs := by
  unfold requeue
  refine ⟨?_, rfl⟩
  dsimp only [setVer]
  split
  · rfl
  · split <;> rfl

/-- What a tile held goes back to the queues; its list is empty, and no word changes (R243). -/
theorem takeBack_empties (d : Dev) {n : Nat} (h : n < d.ver.tiles.length) :
    (tileOf (takeBack d n) n).work = [] ∧ (takeBack d n).regs = d.regs := by
  have folded := foldl_keeps (f := requeue) (fun e => (e.ver.tiles, e.regs))
    (fun e w => Prod.ext (requeue_ver e w).1 (requeue_ver e w).2) (tileOf d n).work.reverse (setTile d n fun t => { t with work := [] })
  refine ⟨?_, congrArg Prod.snd folded⟩
  unfold takeBack
  rw [tileOf_congr (congrArg Prod.fst folded), tileOf_setTile d _ h]

/-- A SPARE tile may become ACTIVE, or NO_SPARE latch: VER's own state stands, what has latched stays so, and of the words of the tiles'
and VER's pages the roles of other tiles alone may change (R235). -/
theorem promote_keeps (d : Dev) (n : Nat) (w : Option Work) : (promote d n w).ver = d.ver ∧
    (∀ a, RasterWord a → (∀ m, m ≠ n → a ≠ Adr.RAS_ROLE m) → rg (promote d n w) a = rg d a) ∧
    ∀ b, latched d (Page.ver.base 0) b = true → latched (promote d n w) (Page.ver.base 0) b = true := by
  have apart : Page.ver.base 0 ≠ Page.fcl.base 0 := by decide
  unfold promote
  split
  · exact ⟨rfl, fun _ _ _ => rfl, fun _ h => h⟩
  · split
    · next m found =>
      have other : m ≠ n := by
        have := List.find?_some found
        simp only [Bool.and_eq_true, bne_iff_ne] at this
        exact this.1.1
      refine ⟨by rw [evt_ver, wr_ver], fun a ha hm => ?_, fun b hb => ?_⟩
      · rw [rg_evt_rasterWord _ _ (base_mod .ver 0) ha, rg_wr_ne _ _ (hm m other)]
      · rw [← hb]
        refine latched_congr ?_ b
        rw [rg_evt_ne _ _ _ (by decide), rg_wr_ne _ _ (by simp only [Page.base, oERRLATCH, Adr.RAS_ROLE]; omega)]
    · split
      · exact ⟨verErr_ver .., fun a ha _ => rg_verErr _ _ _ _ ha,
          fun b hb => latched_err_of _ _ _ _ (base_mod .ver 0) (base_mod .ver 0) apart (by decide) hb⟩
      · exact ⟨err_ver .., fun a ha _ => rg_err_rasterWord _ _ _ _ (base_mod .ver 0) ha,
          fun b hb => latched_err_of _ _ _ _ (base_mod .ver 0) (base_mod .ver 0) apart (by decide) hb⟩

/-- What VER leaves of a tile that it fenced (R233). -/
structure Fenced (n : Nat) (d : Dev) : Prop where
  isolated : ctrlBit d (Page.ras.base n) 2 = true
  out : tileRole d n = 0
  empty : (tileOf d n).work = []
  error : latched d (Page.ver.base 0) Bit.err_VER_TILE_FENCED = true

/-- A tile stays fenced while its own words, VER's state and VER's error stand. -/
theorem Fenced.of_keeps {n : Nat} {d e : Dev} (h : Fenced n d) (hn : n < 34) (hv : e.ver = d.ver)
    (hw : ∀ a, RasterWord a → (∀ m, m ≠ n → a ≠ Adr.RAS_ROLE m) → rg e a = rg d a)
    (hl : ∀ b, latched d (Page.ver.base 0) b = true → latched e (Page.ver.base 0) b = true) : Fenced n e where
  isolated := by
    rw [← h.isolated]
    exact congrArg (bit · 2) (hw _ (by simp only [RasterWord, Page.base, oCTRL]; omega)
      fun m _ => by simp only [Page.base, oCTRL, Adr.RAS_ROLE]; omega)
  out := by
    rw [← h.out]
    exact congrArg (bits · 1 0) (hw _ (by simp only [RasterWord, Adr.RAS_ROLE]; omega)
      fun m hm => by simp only [Adr.RAS_ROLE]; omega)
  empty := by rw [tileOf_congr (congrArg Ver.tiles hv), h.empty]
  error := hl _ h.error

/-- A fenced tile is isolated, OUT, and holds nothing, and TILE_FENCED is latched (R233). -/
theorem fence_fences (d : Dev) {n : Nat} (w : Work) (hn : n < 34) (h : n < d.ver.tiles.length) : Fenced n (fence d n w) := by
  unfold fence
  extract_lets +onlyGivenNames active a d1 d2 d3 d4
  have ctrl : RasterWord a := by simp only [a, RasterWord, Page.base, oCTRL]; omega
  have role : RasterWord (Adr.RAS_ROLE n) := by simp only [RasterWord, Adr.RAS_ROLE]; omega
  have apart : a ≠ Adr.RAS_ROLE n := by simp only [a, Page.base, oCTRL, Adr.RAS_ROLE]; omega
  have ver3 : d3.ver = d.ver := by simp only [d3, d2, d1, verErr_ver, rasErr_ver, evt_ver, wr_ver]
  obtain ⟨empty, regs⟩ : (tileOf d4 n).work = [] ∧ d4.regs = d3.regs := takeBack_empties d3 (by rw [ver3]; exact h)
  have words {b : Nat} (hb : RasterWord b) : rg d4 b = rg d1 b :=
    (rg_congr regs b).trans <| (rg_verErr _ _ _ _ hb).trans <| (rg_rasErr _ _ _ _ hb).trans (rg_evt_rasterWord _ _ (base_mod .ver 0) hb)
  have fenced : Fenced n d4 := by
    refine ⟨?_, ?_, empty, ?_⟩
    · unfold ctrlBit
      rw [words ctrl, rg_wr_ne _ _ apart, rg_wr_self, bit_putBit _ _ _ _ (by decide), if_pos rfl]
    · unfold tileRole fd
      rw [words role, rg_wr_self]
      rfl
    · exact (latched_congr (rg_congr regs _) _).trans (latched_err _ _ _ _ _ (base_mod .ver 0) (by decide) (by decide))
  split
  · obtain ⟨ver, kept, errors⟩ := promote_keeps d4 n (some w)
    exact fenced.of_keeps hn ver kept errors
  · exact fenced

/-- A tile that has not reported in time is fenced, outside a halt (R232). -/
theorem verTimeout_fences {d : Dev} {n : Nat} {w : Work} {r : List Work} (hn : n < 34) (hhalt : d.fcl.halted = false)
    (hwork : (tileOf d n).work = w :: r) : Fenced n (verTimeout d n) := by
  unfold verTimeout
  rw [hhalt, hwork]
  refine fence_fences _ w hn ?_
  have len : (mmCapture d w n 6 0 0).ver = d.ver := by simp only [mmCapture, evt_ver, wr_ver]
  simp only [setTile, setVer, length_modNth, len]
  exact lt_tiles_of_work hwork

theorem Fenced.settled {n : Nat} {d : Dev} (h : Fenced n d) (hn : n < 34) : Fenced n (drive (settle d)) :=
  h.of_keeps hn (settled_ver d) (fun _ ⟨lo, hi, _⟩ _ => rg_settled d lo hi)
    fun b hb => (latched_congr (rg_settled d (by decide) (by decide)) b).trans hb

/-! ### Sleep and waking (R239, R240) -/

theorem tileWake_wakes (d : Dev) {n : Nat} (h : n < d.ver.tiles.length) : (tileOf (tileWake d n) n).awake = true ∧
    (tileOf (tileWake d n) n).work.map (fun w => { w with ue := false }) = (tileOf d n).work.map fun w => { w with ue := false } := by
  unfold tileWake
  split
  · next awake => exact ⟨awake, rfl⟩
  · rw [tileOf_setTile d _ h]
    refine ⟨rfl, ?_⟩
    cases (tileOf d n).work with
    | nil => rfl
    | cons w r => rfl

/-- A raster domain that is ON is switched off when it is asked to (R240, R674). -/
theorem pdAsk_off {d : Dev} {n : Nat} (h2 : 2 ≤ n) (h14 : n < 14) (hpd : d.pmu.pd.length = 14) (hon : pdState d n = .on) :
    pdState (pdAsk d n 2) n = .switchingOff := by
  unfold pdAsk
  rw [if_neg (by omega), hon]
  unfold pdAct
  rw [hon]
  exact congrArg Pd.st (nth_modNth_self _ (by omega) _ _)

/-! ### Tests of tiles (R245) -/

/-- What the end of a test leaves (R245): PASS or FAIL, the event, and the error of one that failed. -/
structure Tested (n : Nat) (pass : Bool) (d : Dev) : Prop where
  shown : rg d (Adr.RAS_TEST n) = if pass then 6 else 4
  told : pends d (Page.ras.base n) Bit.evt_RAS_TEST_DONE = true
  error : pass = false → latched d (Page.ras.base n) Bit.err_RAS_TEST_FAIL = true

theorem tested_of_end (d : Dev) {n : Nat} (pass : Bool) (hn : n < 34) : Tested n pass
    (let e := evt (wr d (Adr.RAS_TEST n) (if pass then 6 else 4)) (Page.ras.base n) Bit.evt_RAS_TEST_DONE
     if pass then e else rasErr e n Bit.err_RAS_TEST_FAIL none) := by
  have word : RasterWord (Adr.RAS_TEST n) := by simp only [RasterWord, Adr.RAS_TEST]; omega
  have base := base_mod .ras n
  extract_lets e
  have shown : rg e (Adr.RAS_TEST n) = if pass then 6 else 4 := (rg_evt_rasterWord _ _ base word).trans (rg_wr_self _ _ _)
  have told : pends e (Page.ras.base n) Bit.evt_RAS_TEST_DONE = true := pends_evt _ _ (by decide)
  cases pass with
  | true => exact ⟨shown, told, nofun⟩
  | false =>
    show Tested n false (rasErr e n Bit.err_RAS_TEST_FAIL none)
    refine ⟨(rg_rasErr e _ _ _ word).trans shown, (pends_congr ?_ _).trans told, fun _ => ?_⟩
    · refine rg_err e _ _ _ _ (not_errWord_raster ?_ ?_) ?_ ?_ ?_ <;>
        (simp only [Page.base, oEVTPEND, oERRLATCH, oINFO0, oINFO1]; omega)
    · exact latched_err _ _ _ _ _ base (by simp only [Page.base]; omega) (by decide)

theorem Tested.drive {n : Nat} {pass : Bool} {d : Dev} (h : Tested n pass d) : Tested n pass (drive d) :=
  ⟨by rw [rg_drive, h.shown], by rw [pends_drive, h.told], fun hp => by rw [latched_drive, h.error hp]⟩

/-- A test starts in an isolated tile that is enabled and not under self-test (R245). -/
theorem rasTest_starts {d : Dev} {n : Nat} {v : W32} (hv : bit v 0 = true) (henable : ctrlBit d (Page.ras.base n) 0 = true)
    (hisolate : ctrlBit d (Page.ras.base n) 2 = true) (htest : Page.ras.base n ∉ d.testing) :
    bit (rg (rasTest d n v) (Adr.RAS_TEST n)) 31 = true := by
  have enabled : ctl d .ras n 0 = true := henable
  have isolated : ctl d .ras n 2 = true := hisolate
  unfold rasTest
  rw [if_pos (by simp [hv, enabled, isolated, htest]), rg_wr_self]
  rfl

theorem bit_or_one (v : W32) : bit (v ||| 1) 0 = true := by simp [bit]

/-! ### The obligation -/

/-- Settles O38: each command does its own work, and settling afterwards changes neither VER's state nor a word of the tiles' and VER's
pages. -/
theorem rastersAreDispatched : Obligations.RastersAreDispatched := by
  unfold Obligations.RastersAreDispatched
  refine ⟨?_, ?_, ?_, ?_, ?_, ?_, ?_, ?_, ?_⟩
  · intro s scan n w r sec hlen hver hretry hrr hwait hsec htile hhigh hwin
    refine does_of_runS (f := fun d => verDispatch d scan) rfl ?_
    obtain ⟨given, wait, -⟩ := giveTile_gives (setVer s.dev fun v => { v with wait := r }) w
      (lt_of_lt_of_eq (lt_of_firstTile htile) hlen.symm)
    rw [verDispatch_gives hver hretry hrr hwait hsec htile hhigh hwin, tileOf_congr (congrArg Ver.tiles (settled_ver _)), settled_ver]
    exact ⟨wait, given⟩
  · intro s scan n w hlen hver hfind htile
    refine does_of_runS (f := fun d => Machine.secondRaster d scan) rfl ?_
    obtain ⟨given, -, retry⟩ := giveTile_gives (setVer s.dev fun v => { v with retry := v.retry.erase w }) w
      (lt_of_lt_of_eq (lt_of_secondTile htile) hlen.symm)
    rw [secondRaster_gives hver hfind htile, tileOf_congr (congrArg Ver.tiles (settled_ver _)), settled_ver]
    exact ⟨retry, given⟩
  · intro s n w r hn hhalt hwork
    refine does_of_runS (show _ = execVerTimeout n s from rfl) ?_
    rw [if_pos hn]
    obtain ⟨isolated, out, empty, error⟩ := (verTimeout_fences hn hhalt hwork).settled hn
    exact ⟨isolated, out, empty, error⟩
  · intro s n us hn hlen hhalt hawake hwork
    refine does_of_run (show _ = execTileClockStop n us s from rfl) ?_
    rw [if_pos (by simp [hn, hhalt, hawake, hwork]), tileOf_congr (congrArg Ver.tiles (drive_ver _)), rg_drive,
      tileOf_setTile _ _ (by rw [addReg_ver, hlen]; exact hn)]
    exact ⟨rfl, rg_wr_self _ _ _⟩
  · intro s n hn hlen hwork hon
    refine does_of_run (show _ = execTileWake n s from rfl) ?_
    rw [if_pos ⟨hn, hwork, hon⟩, tileOf_congr (congrArg Ver.tiles (drive_ver _))]
    exact tileWake_wakes s.dev (by rw [hlen]; exact hn)
  · intro s dom hdom hlen hidle hasleep hon hcfg hplan
    refine does_of_run (show _ = execPdIdle dom s from rfl) ?_
    rw [if_pos (by simp [hdom, hidle, hasleep, hon, hcfg, hplan])]
    unfold pdState
    rw [drive_pmu]
    exact pdAsk_off (by omega) (by omega) hlen hon
  · intro s req n v hn hacc henable hisolate htest
    refine does_of_run (show _ = execRasTestStart req n v s from rfl) ?_
    rw [if_pos hn, show write s.dev req (Adr.RAS_TEST n) (fun d => rasTest d n (v ||| 1)) = rasTest s.dev n (v ||| 1) from if_pos hacc,
      rg_drive]
    exact rasTest_starts (bit_or_one v) henable hisolate htest
  · intro s n pass hn hbusy
    refine does_of_run (show _ = execTestDone n pass s from rfl) ?_
    rw [if_pos ⟨hn, hbusy⟩]
    obtain ⟨shown, told, error⟩ := (tested_of_end s.dev pass hn).drive
    exact ⟨shown, told, error⟩
  · intro s req v hacc
    refine does_of_run (show _ = execVerInject req v s from rfl) ?_
    rw [show write s.dev req (Page.ver.base 0 + oINJECT) (fun d => verInject d v) = verInject s.dev v from if_pos hacc, rg_drive]
    exact rg_wr_self _ _ _

end Sys2Proof.Machine
end

section
/-! PROOF. The reports of first rasters: what the tile shows, the verdict, and the second raster of a mismatch (R218 to R225, R251). -/

namespace Sys2Proof.Machine

/-! ### The doses of a patch (R217, R314, R585) -/

theorem winWrite_errFrame (d : Dev) (off : Nat) (l : List Byte) : ErrFrame d (winWrite d off l) :=
  Frame.ite (hbmWrite_errFrame _ _ _) ((hbmWrite_errFrame _ _ _).trans (hbmWrite_errFrame _ _ _))

theorem hbmPoison_errFrame (d : Dev) (da : Nat) : ErrFrame d (hbmPoison d da) := errFrame_of rfl rfl

theorem winPoison_errFrame (d : Dev) (off n : Nat) : ErrFrame d (winPoison d off n) := by
  unfold winPoison
  exact Frame.foldl (fun d _ => hbmPoison_errFrame d _) _ d

theorem writeDoses_errFrame (d : Dev) (t : Tkt) (w : WinRow) (p : Nat) (rep : Rep) (bad : Bool) :
    ErrFrame d (writeDoses d t w p rep bad) :=
  Frame.ite ((winWrite_errFrame _ _ _).trans (winPoison_errFrame _ _ _)) (winWrite_errFrame _ _ _)

/-- The doses of patch `p` in the space of row `q` of section `k`, where it has space. -/
def dosesStored (d : Dev) (t : Tkt) (k q p : Nat) (rep : Rep) (bad : Bool) : Dev :=
  match winOf d k q with
  | some r => writeDoses d t r p rep bad
  | none => d

theorem dosesStored_errFrame (d : Dev) (t : Tkt) (k q p : Nat) (rep : Rep) (bad : Bool) :
    ErrFrame d (dosesStored d t k q p rep bad) := by
  unfold dosesStored
  split
  · exact writeDoses_errFrame ..
  · exact .refl d

/-! ### The report in the tile's page (R218, R251) -/

/-- The report as the tile makes it, with the upsets of its sums. -/
def patchRep (t : Tkt) (x : Patch) (u : TileUpset) : Rep :=
  let rep := rasterPatch (localEdges t x) x.mods u.wrong
  { rep with asum := rep.asum + u.dArea, csum := wrapS 32 (rep.csum + u.dCov), rmMain := (rep.rmMain + u.dRm) % 255 }

/-- The tile's counters of a report. -/
def repShown (d : Dev) (n : Nat) (rep : Rep) : Dev :=
  wr (wr (wr (inc d (Adr.RAS_CNT_PATCH n)) (Adr.RAS_LAST_FRAG n) (w32 rep.frag)) (Adr.RAS_LAST_NXI n) (w32 rep.nxi))
    (Adr.RAS_LAST_NYI n) (w32 rep.nyi)

/-- What stands before VER takes the report of a first raster `w`, the tile's next patches being `r`. -/
def reported (d : Dev) (n : Nat) (w : Work) (r : List Work) (t : Tkt) (rep : Rep) : Dev :=
  repShown (dosesStored (setTile d n fun x => { x with work := r }) t w.sec w.q w.p rep false) n rep

/-- The report of a first raster on which no injection and no poison acts goes to VER as the tile made it (R218, R220). -/
theorem patchReport_eq {d : Dev} {n : Nat} {u : TileUpset} {w : Work} {r : List Work} {sec : Sec} {x : Patch}
    (hwork : (tileOf d n).work = w :: r) (hawake : (tileOf d n).awake = true) (hclock : pageClocked d .ras n = true)
    (hver : blkRuns d .ver .ver = true) (hsec : secOf d w.sec = some sec) (hrr : w.rr = false)
    (hfind : (sec.patches.find? fun x => x.q = w.q && x.p = w.p) = some x) (hedge : x.edgeBad = false) (hued : u.edge = false)
    (hust : u.state = false) (hmod : x.modBad = false) (hue : w.ue = false) (hacc : u.acc = false) :
    patchReport d n u = verReport (reported d n w r (secTkt d sec) (patchRep (secTkt d sec) x u)) n w (secTkt d sec) x
      (patchRep (secTkt d sec) x u) false false false id := by
  have hsec' : secOf (setTile d n fun t => { t with work := r }) w.sec = some sec := hsec
  unfold patchReport
  rw [hwork]
  simp only [hawake, hclock, hver, hue, hsec', hfind, hrr, hedge, hued, hust, hmod, hacc, Bool.not_true, Bool.or_self, Bool.false_eq_true,
    if_false, reported, repShown, dosesStored, patchRep]
  rfl

/-- The words of a tile's page that show a report. -/
def reportWords (n : Nat) : List Nat := [Adr.RAS_CNT_PATCH n, Adr.RAS_LAST_FRAG n, Adr.RAS_LAST_NXI n, Adr.RAS_LAST_NYI n]

/-- The tile has gone on to the patches `r`, and its page shows the report `rep`, one more than before. -/
structure Told (d : Dev) (n : Nat) (r : List Work) (rep : Rep) (e : Dev) : Prop where
  work : (tileOf e n).work = r
  count : rg e (Adr.RAS_CNT_PATCH n) = rg d (Adr.RAS_CNT_PATCH n) + 1
  frag : rg e (Adr.RAS_LAST_FRAG n) = w32 rep.frag
  nxi : rg e (Adr.RAS_LAST_NXI n) = w32 rep.nxi
  nyi : rg e (Adr.RAS_LAST_NYI n) = w32 rep.nyi

theorem Told.of_keeps {d e f : Dev} {n : Nat} {r : List Work} {rep : Rep} (h : Told d n r rep e) (hv : f.ver.tiles = e.ver.tiles)
    (hw : ∀ a ∈ reportWords n, rg f a = rg e a) : Told d n r rep f where
  work := (congrArg Tile.work (tileOf_congr hv n)).trans h.work
  count := (hw _ (by simp [reportWords])).trans h.count
  frag := (hw _ (by simp [reportWords])).trans h.frag
  nxi := (hw _ (by simp [reportWords])).trans h.nxi
  nyi := (hw _ (by simp [reportWords])).trans h.nyi

theorem reported_view (d : Dev) (n : Nat) (w : Work) (r : List Work) (t : Tkt) (rep : Rep) :
    (reported d n w r t rep).ver = (setTile d n fun x => { x with work := r }).ver ∧ (reported d n w r t rep).secs = d.secs ∧
    (reported d n w r t rep).testing = d.testing := by
  have stored := (dosesStored_errFrame (setTile d n fun x => { x with work := r }) t w.sec w.q w.p rep false).view
  exact ⟨(congrArg Dev.ver stored :), (congrArg Dev.secs stored :), (congrArg Dev.testing stored :)⟩

theorem rg_reported (d : Dev) {n : Nat} (w : Work) (r : List Work) (t : Tkt) (rep : Rep) {a : Nat} (h : 0x60000 ≤ a) (h' : a < 0xA0000)
    (hn : a ∉ reportWords n) : rg (reported d n w r t rep) a = rg d a := by
  simp only [reportWords, List.mem_cons, List.not_mem_nil, or_false, not_or] at hn
  obtain ⟨count, frag, nxi, nyi⟩ := hn
  unfold reported repShown
  rw [rg_wr_ne _ _ nyi, rg_wr_ne _ _ nxi, rg_wr_ne _ _ frag, rg_inc, if_neg count]
  exact (dosesStored_errFrame _ _ _ _ _ _ _).words a (not_errWord_raster h h')

theorem told_reported {d : Dev} {n : Nat} (w : Work) (r : List Work) (t : Tkt) (rep : Rep) (hn : n < 34)
    (hlen : d.ver.tiles.length = 34) : Told d n r rep (reported d n w r t rep) := by
  have lo : 0x60000 ≤ Adr.RAS_CNT_PATCH n := by simp only [Adr.RAS_CNT_PATCH]; omega
  have hi : Adr.RAS_CNT_PATCH n < 0xA0000 := by simp only [Adr.RAS_CNT_PATCH]; omega
  refine ⟨?_, ?_, ?_, ?_, ?_⟩
  · rw [tileOf_congr (congrArg Ver.tiles (reported_view d n w r t rep).1), tileOf_setTile _ _ (by omega)]
  · unfold reported repShown
    rw [rg_wr_ne _ _ (by simp), rg_wr_ne _ _ (by simp), rg_wr_ne _ _ (by simp), rg_inc, if_pos rfl,
      (dosesStored_errFrame _ _ _ _ _ _ _).words _ (not_errWord_raster lo hi)]
    rfl
  · unfold reported repShown
    rw [rg_wr_ne _ _ (by simp), rg_wr_ne _ _ (by simp), rg_wr_self]
  · unfold reported repShown
    rw [rg_wr_ne _ _ (by simp), rg_wr_self]
  · exact rg_wr_self _ _ _

/-! ### What VER makes of a report (R220 to R226) -/

@[simp] theorem injectRep_none (rep : Rep) : injectRep rep false false false = rep := rfl

/-- A report that passes the checks, no injection acting on it (R223). -/
theorem verReport_pass {d : Dev} {n : Nat} {w : Work} {t : Tkt} {x : Patch} {rep : Rep} (hinj : verInj d w = 0)
    (hsecond : w.second = false) (hrr : w.rr = false) (hap : x.apBad = false) (hmod : x.modBad = false)
    (hkind : mmKind rep x.ap false = 0) :
    verReport d n w t x rep false false false id = inc (putVerd d w .released) Adr.VER_CNT_PASS1 := by
  unfold verReport
  simp [hinj, hap, hmod, hkind, verInjAfter, passPatch, hsecond, hrr]

/-- The state in which VER has captured a mismatch and counted it (R225, R251). -/
def mismatched (d : Dev) (n : Nat) (w : Work) (kind : Nat) (diff : Int) (bound : Nat) : Dev :=
  inc (mmCapture d w n kind diff bound) (Adr.RAS_CNT_MISMATCH n)

/-- A first raster that mismatches is rastered again while another tile can do so (R224). -/
theorem mismatch_waits {d : Dev} {n : Nat} {w : Work} (hsecond : w.second = false)
    (hcould : secondCould (inc d (Adr.RAS_CNT_MISMATCH n)) (n :: w.avoid) = true) :
    mismatch d w n = setVer (inc d (Adr.RAS_CNT_MISMATCH n)) fun v =>
      { v with retry := v.retry ++ [{ w with second := true, avoid := [n], ue := false }] } := by
  unfold mismatch
  simp [hsecond, hcould]

/-- A report that fails a check goes to another tile, no injection acting on it and one being left that can take it (R224). -/
theorem verReport_mismatch {d : Dev} {n : Nat} {w : Work} {t : Tkt} {x : Patch} {rep : Rep} (hinj : verInj d w = 0)
    (hsecond : w.second = false) (hap : x.apBad = false) (hmod : x.modBad = false) (hkind : mmKind rep x.ap false ≠ 0)
    (hcould : ∀ diff bound, secondCould (mismatched d n w (mmKind rep x.ap false) diff bound) (n :: w.avoid) = true) :
    ∃ diff bound, verReport d n w t x rep false false false id =
      setVer (mismatched d n w (mmKind rep x.ap false) diff bound) fun v =>
        { v with retry := v.retry ++ [{ w with second := true, avoid := [n], ue := false }] } := by
  unfold verReport
  simp only [hinj, hap, hmod, Bool.or_self, Bool.false_eq_true, if_false, Nat.zero_testBit, injectRep_none, hkind, verInjAfter,
    bne_self_eq_false, Bool.not_false, if_true]
  exact ⟨_, _, mismatch_waits hsecond (hcould _ _)⟩

theorem mismatched_ver (d : Dev) (n : Nat) (w : Work) (kind : Nat) (diff : Int) (bound : Nat) :
    (mismatched d n w kind diff bound).ver = d.ver := by
  simp only [mismatched, mmCapture, inc_ver, evt_ver, wr_ver]

/-- The mismatch capture writes words of VER's page alone (R251). -/
theorem rg_mmCapture (d : Dev) (w : Work) (tile kind : Nat) (diff : Int) (bound : Nat) {a : Nat} (ha : RasterWord a)
    (hv : a / 0x1000 ≠ 0x90) : rg (mmCapture d w tile kind diff bound) a = rg d a := by
  have ne (b : Nat) (hb : b / 0x1000 = 0x90) : a ≠ b := by
    rintro rfl
    exact hv hb
  unfold mmCapture
  dsimp only
  rw [rg_evt_rasterWord _ _ (base_mod .ver 0) ha, rg_wr_ne _ _ (ne _ rfl), rg_wr_ne _ _ (ne _ rfl), rg_wr_ne _ _ (ne _ rfl),
    rg_wr_ne _ _ (ne _ rfl), rg_wr_ne _ _ (ne _ rfl), rg_wr_ne _ _ (ne _ rfl), rg_wr_ne _ _ (ne _ rfl)]

/-- The capture of a first raster's mismatch shows the tile and the kind, and the event is announced (R251). -/
theorem mmCapture_shows (d : Dev) {w : Work} (tile kind : Nat) (diff : Int) (bound : Nat) (hsecond : w.second = false) :
    rg (mmCapture d w tile kind diff bound) Adr.VER_MM_KIND = w32 (tile * 256 + kind) ∧
    pends (mmCapture d w tile kind diff bound) (Page.ver.base 0) Bit.evt_VER_MISMATCH = true := by
  unfold mmCapture
  refine ⟨?_, pends_evt _ _ (by decide)⟩
  rw [rg_evt_ne _ _ _ (by decide), rg_wr_ne _ _ (by decide), rg_wr_ne _ _ (by decide), rg_wr_ne _ _ (by decide),
    rg_wr_ne _ _ (by decide), rg_wr_self, hsecond]
  simp [b2n]

/-! ### The tiles that can take a raster (R226, R251) -/

/-- Which tiles can take a raster follows from their control words, their roles, and the self-tests under way. -/
theorem secondCould_congr {d e : Dev} (hctl : ∀ n < 34, rg e (Page.ras.base n + oCTRL) = rg d (Page.ras.base n + oCTRL))
    (hrole : ∀ n < 34, rg e (Adr.RAS_ROLE n) = rg d (Adr.RAS_ROLE n)) (htest : e.testing = d.testing) (avoid : List Nat) :
    secondCould e avoid = secondCould d avoid := by
  have takes (n : Nat) (hn : n ∈ tiles) : tileTakes e n = tileTakes d n := by
    have lt : n < 34 := List.mem_range.1 hn
    unfold tileTakes tileInSvc tileRole ctl fd
    rw [hctl n lt, hrole n lt, htest]
  unfold secondCould
  rw [Bool.eq_iff_iff, List.any_eq_true, List.any_eq_true]
  exact exists_congr fun n => and_congr_right fun hn => by rw [takes n hn]

/-- The report and the capture of its mismatch leave which tiles can take a raster. -/
theorem secondCould_mismatched (d : Dev) (n : Nat) (w : Work) (r : List Work) (t : Tkt) (rep : Rep) (kind : Nat) (diff : Int)
    (bound : Nat) (avoid : List Nat) :
    secondCould (mismatched (reported d n w r t rep) n w kind diff bound) avoid = secondCould d avoid := by
  have words {a : Nat} (ha : RasterWord a) (hv : a / 0x1000 ≠ 0x90) (hm : a ≠ Adr.RAS_CNT_MISMATCH n) (hr : a ∉ reportWords n) :
      rg (mismatched (reported d n w r t rep) n w kind diff bound) a = rg d a := by
    unfold mismatched
    rw [rg_inc, if_neg hm, rg_mmCapture _ _ _ _ _ _ ha hv]
    exact rg_reported d w r t rep ha.1 ha.2.1 hr
  have testing : (mismatched (reported d n w r t rep) n w kind diff bound).testing = d.testing := by
    simp only [mismatched, mmCapture, inc_testing, evt_testing, wr_testing, (reported_view d n w r t rep).2.2]
  refine secondCould_congr (fun m hm => words ?_ ?_ ?_ ?_) (fun m hm => words ?_ ?_ ?_ ?_) testing avoid <;>
    (simp only [RasterWord, reportWords, Page.base, oCTRL, Adr.RAS_ROLE, Adr.RAS_CNT_MISMATCH, Adr.RAS_CNT_PATCH, Adr.RAS_LAST_FRAG,
      Adr.RAS_LAST_NXI, Adr.RAS_LAST_NYI, List.mem_cons, List.not_mem_nil, or_false, not_or, ne_eq]; omega)

/-! ### Verdicts (R223, R267) -/

/-- A patch has the verdict that it was given. -/
theorem secVerd_putVerd {d : Dev} {w : Work} {s : Sec} (hs : secOf d w.sec = some s) (v : Verd) :
    ∃ y, secOf (putVerd d w v) w.sec = some y ∧ secVerd y w.p w.q = some v := by
  let given (s : Sec) : Sec := { s with verd := s.verd.filter (fun x => x.1 != (w.q, w.p)) ++ [((w.q, w.p), v)] }
  refine ⟨given s, (secOf_setSec d w.sec (f := given) fun _ => rfl).trans (congrArg (Option.map given) hs), ?_⟩
  have before : ((s.verd.filter fun x => x.1 != (w.q, w.p)).find? fun x => x.1 = (w.q, w.p)) = none := by
    rw [List.find?_eq_none]
    intro x hx
    simpa using (List.mem_filter.1 hx).2
  unfold secVerd
  rw [List.find?_append, before]
  simp

/-- Settling leaves every verdict. -/
theorem secVerd_settled {d : Dev} {k : Nat} {y : Sec} (hy : secOf d k = some y) :
    ∃ z, secOf (drive (settle d)) k = some z ∧ ∀ p q, secVerd z p q = secVerd y p q := by
  obtain ⟨g, hg, kept⟩ := settle_secs d
  have verd : (g y).verd = y.verd := (congrArg Sec.verd (kept y).1 :)
  refine ⟨g y, ?_, fun p q => by unfold secVerd; rw [verd]⟩
  rw [secOf_congr (drive_secs _), secOf_map hg fun s => (congrArg Sec.num (kept s).1 :), hy]
  rfl

/-! ### After the report (R223 to R225) -/

theorem reportWords_place {n a : Nat} (hn : n < 34) (h : a ∈ reportWords n) :
    0x60000 ≤ a ∧ a < 0x90000 ∧ 0x100 ≤ a % 0x1000 ∧ a ≠ Adr.RAS_CNT_MISMATCH n := by
  simp only [reportWords, Adr.RAS_CNT_PATCH, Adr.RAS_LAST_FRAG, Adr.RAS_LAST_NXI, Adr.RAS_LAST_NYI, List.mem_cons,
    List.not_mem_nil, or_false] at h
  simp only [Adr.RAS_CNT_MISMATCH]
  omega

/-- The words that show a report lie in the tile's page, where settling does not reach. -/
theorem Told.settled {d e : Dev} {n : Nat} {r : List Work} {rep : Rep} (h : Told d n r rep e) (hn : n < 34) :
    Told d n r rep (drive (settle e)) := by
  refine h.of_keeps (congrArg Ver.tiles (settled_ver e)) fun a ha => ?_
  obtain ⟨lo, hi, -⟩ := reportWords_place hn ha
  exact rg_settled e lo (by omega)

/-- No word of VER's page is one that shows a report. -/
theorem rg_reported_ver (d : Dev) {n : Nat} (w : Work) (r : List Work) (t : Tkt) (rep : Rep) {a : Nat} (hn : n < 34)
    (ha : a / 0x1000 = 0x90) : rg (reported d n w r t rep) a = rg d a := by
  refine rg_reported d w r t rep (by omega) (by omega) fun h => ?_
  obtain ⟨-, hi, -⟩ := reportWords_place hn h
  omega

theorem verInj_reported {d : Dev} {n : Nat} {w : Work} (r : List Work) (t : Tkt) (rep : Rep) (hn : n < 34) :
    verInj (reported d n w r t rep) w = verInj d w := by
  unfold verInj fd
  rw [rg_reported_ver d w r t rep hn rfl, (reported_view d n w r t rep).1]
  rfl

/-- The verdict RELEASED and its count beside the tile's own (R223). -/
theorem report_passes {d : Dev} {n : Nat} {w : Work} {sec : Sec} (r : List Work) (t : Tkt) (rep : Rep) (hn : n < 34)
    (hlen : d.ver.tiles.length = 34) (hsec : secOf d w.sec = some sec) :
    let e := drive (settle (inc (putVerd (reported d n w r t rep) w .released) Adr.VER_CNT_PASS1))
    Told d n r rep e ∧ rg e Adr.VER_CNT_PASS1 = rg d Adr.VER_CNT_PASS1 + 1 ∧
      ∃ y, secOf e w.sec = some y ∧ secVerd y w.p w.q = some .released := by
  refine ⟨Told.settled ((told_reported w r t rep hn hlen).of_keeps rfl fun a ha => ?_) hn, ?_, ?_⟩
  · obtain ⟨-, hi, -⟩ := reportWords_place hn ha
    exact rg_wr_ne _ _ (by simp only [Adr.VER_CNT_PASS1]; omega)
  · rw [rg_settled _ (by decide) (by decide), rg_inc, if_pos rfl]
    exact congrArg (· + 1) (rg_reported_ver d w r t rep hn rfl)
  · obtain ⟨y, hy, verdict⟩ := secVerd_putVerd ((secOf_congr (reported_view d n w r t rep).2.1 _).trans hsec) .released
    obtain ⟨z, hz, same⟩ := secVerd_settled (d := inc (putVerd (reported d n w r t rep) w .released) Adr.VER_CNT_PASS1) hy
    exact ⟨z, hz, (same _ _).trans verdict⟩

/-- The tile's mismatch, the capture, the event and the second raster beside the tile's own counters (R224, R225, R251). -/
theorem report_mismatches {d : Dev} {n : Nat} {w : Work} (r : List Work) (t : Tkt) (rep : Rep) (kind : Nat) (diff : Int) (bound : Nat)
    (hn : n < 34) (hlen : d.ver.tiles.length = 34) (hsecond : w.second = false) (again : List Work) :
    let e := drive (settle (setVer (mismatched (reported d n w r t rep) n w kind diff bound) fun v =>
      { v with retry := v.retry ++ again }))
    Told d n r rep e ∧ rg e (Adr.RAS_CNT_MISMATCH n) = rg d (Adr.RAS_CNT_MISMATCH n) + 1 ∧
      rg e Adr.VER_MM_KIND = w32 (n * 256 + kind) ∧ pends e (Page.ver.base 0) Bit.evt_VER_MISMATCH = true ∧
      e.ver.retry = d.ver.retry ++ again := by
  let f := reported d n w r t rep
  obtain ⟨shows, announced⟩ := mmCapture_shows f n kind diff bound hsecond
  have lo : 0x60000 ≤ Adr.RAS_CNT_MISMATCH n := by simp only [Adr.RAS_CNT_MISMATCH]; omega
  have hi : Adr.RAS_CNT_MISMATCH n < 0x90000 := by simp only [Adr.RAS_CNT_MISMATCH]; omega
  have place : RasterWord (Adr.RAS_CNT_MISMATCH n) := ⟨lo, by omega, .inr (by simp only [Adr.RAS_CNT_MISMATCH]; omega)⟩
  have own : Adr.RAS_CNT_MISMATCH n ∉ reportWords n := fun h => (reportWords_place hn h).2.2.2 rfl
  have ver := mismatched_ver f n w kind diff bound
  refine ⟨Told.settled ((told_reported w r t rep hn hlen).of_keeps (congrArg Ver.tiles ver :) fun a ha => ?_) hn, ?_, ?_, ?_, ?_⟩
  · obtain ⟨lo, hi, block, other⟩ := reportWords_place hn ha
    rw [rg_setVer, mismatched, rg_inc, if_neg other]
    exact rg_mmCapture f w n kind diff bound ⟨lo, by omega, .inr block⟩ (by omega)
  · rw [rg_settled _ lo (by omega), rg_setVer, mismatched, rg_inc, if_pos rfl, rg_mmCapture _ _ _ _ _ _ place (by omega)]
    exact congrArg (· + 1) (rg_reported d w r t rep lo (by omega) own)
  · rw [rg_settled _ (by decide) (by decide), rg_setVer, mismatched, rg_inc, if_neg (by simp only [Adr.VER_MM_KIND]; omega)]
    exact shows
  · refine (pends_congr ?_ _).trans announced
    rw [rg_settled _ (by decide) (by decide), rg_setVer, mismatched, rg_inc,
      if_neg (by simp only [Page.base, oEVTPEND]; omega)]
  · rw [settled_ver, setVer_self, ver, (reported_view d n w r t rep).1]
    rfl

/-! ### The obligation -/

/-- Settles O39: nothing that a report changes on its way bears on VER's checks; a report that passes them gives the verdict, and one
that fails them puts a second raster in the queue. -/
theorem reportsAreVerified : Obligations.ReportsAreVerified := by
  unfold Obligations.ReportsAreVerified
  intro s n u w r sec x hn hlen hwork hawake hclock hver hsec hsecond hrr hfind hedge hued hust hap hmod hue hacc hinj rep0 rep told
  have ran : patchReport s.dev n u = verReport (reported s.dev n w r (secTkt s.dev sec) rep) n w (secTkt s.dev sec) x rep
      false false false id := patchReport_eq hwork hawake hclock hver hsec hrr hfind hedge hued hust hmod hue hacc
  have free : verInj (reported s.dev n w r (secTkt s.dev sec) rep) w = 0 := (verInj_reported r _ rep hn).trans hinj
  refine ⟨fun harea hround hresm hresp => ?_, fun hkind hcould => ?_⟩
  · have passes : mmKind rep x.ap false = 0 := by simp [mmKind, harea, hround, hresm, hresp]
    refine does_of_runS (show _ = execPatchReport n u s from rfl) ?_
    rw [if_pos hn, ran, verReport_pass free hsecond hrr hap hmod passes]
    obtain ⟨⟨work, count, frag, nxi, nyi⟩, passed, verdict⟩ := report_passes r (secTkt s.dev sec) rep hn hlen hsec
    exact ⟨⟨work, count, frag, nxi, nyi⟩, passed, verdict⟩
  · refine does_of_runS (show _ = execPatchReport n u s from rfl) ?_
    obtain ⟨diff, bound, waits⟩ := verReport_mismatch (t := secTkt s.dev sec) free hsecond hap hmod hkind fun diff bound =>
      (secondCould_mismatched s.dev n w r _ rep _ diff bound _).trans hcould
    rw [if_pos hn, ran, waits]
    obtain ⟨⟨work, count, frag, nxi, nyi⟩, counted, captured, announced, again⟩ :=
      report_mismatches r (secTkt s.dev sec) rep (mmKind rep x.ap false) diff bound hn hlen hsecond
        [{ w with second := true, avoid := [n], ue := false }]
    rw [hue]
    exact ⟨⟨work, count, frag, nxi, nyi⟩, counted, captured, announced, again⟩

end Sys2Proof.Machine
end

section
/-! PROOF. The dead-beam map: the host's writes of NEXT_SLOT, commits, and the copy (R288 to R293). -/

namespace Sys2Proof.Machine

/-! ### The beams of a slot (R288) -/

/-- In a store whose keys rise, a key gives each of its entries. -/
theorem alGet_of_mem {α : Type} {l : List (Nat × α)} (h : l.Pairwise fun e f => e.1 < f.1) {a : Nat} {x : α} (hm : (a, x) ∈ l) :
    alGet l a = some x := by
  induction l with
  | nil => cases hm
  | cons e r ih =>
    obtain ⟨k, v⟩ := e
    obtain ⟨first, later⟩ := List.pairwise_cons.1 h
    unfold alGet
    rcases List.mem_cons.1 hm with e | hm
    · cases e
      exact if_pos rfl
    · have := first _ hm
      dsimp only at this
      rw [if_neg (by omega)]
      exact ih later hm

/-- At reset no beam is dead (R288). -/
theorem wordReset_dbmBits {k j : Nat} (hk : k < 9) (hj : j < 16384) : wordReset (Adr.DBM_BITS k j) = 0 := by
  have window : inWindow (Adr.DBM_BITS k j) = true := by
    unfold inWindow
    simp only [decide_eq_true_eq, Adr.DBM_BITS]
    omega
  unfold wordReset
  rw [if_pos window]
  simp only [Adr.DBM_BITS, beq_iff_eq]
  rw [if_neg (by omega), if_neg (by omega), if_neg (by omega), if_neg (by omega)]

/-- A word of a slot that is not listed in the word store has no dead beam. -/
theorem rg_dbmBits_unlisted {d : Dev} {k j : Nat} (hk : k < 9) (hj : j < 16384) (h : ∀ v, (Adr.DBM_BITS k j, v) ∉ d.regs) :
    rg d (Adr.DBM_BITS k j) = 0 := by
  have unlisted : alGet d.regs (Adr.DBM_BITS k j) = none := Option.eq_none_iff_forall_ne_some.2 fun v hv => h v (alGet_mem hv)
  unfold rg
  rw [unlisted, wordReset_dbmBits hk hj]
  rfl

/-- The dead beams of a slot are those whose bits are set in its words (R288). -/
theorem mem_dbmDead {d : Dev} (hc : WordsCanonical d) (h4 : ∀ e ∈ d.regs, e.1 % 4 = 0) {k j b : Nat} (hk : k < 9)
    (hj : j < 16384) (hb : b < 32) : 32 * j + b ∈ dbmDead d k ↔ bit (rg d (Adr.DBM_BITS k j)) b = true := by
  simp only [dbmDead, List.mem_flatMap, List.mem_map, List.mem_filter, List.mem_range, decide_eq_true_eq]
  constructor
  · rintro ⟨⟨a, v⟩, ⟨listed, lo, hi⟩, c, ⟨hc32, set⟩, place⟩
    have aligned := h4 _ listed
    simp only [Adr.DBM_BITS] at aligned lo hi set place
    obtain rfl : a = Adr.DBM_BITS k j := by simp only [Adr.DBM_BITS]; omega
    obtain rfl : c = b := by omega
    unfold rg
    rw [alGet_of_mem hc.1 listed]
    exact set
  · intro set
    have ⟨v, listed⟩ : ∃ v, (Adr.DBM_BITS k j, v) ∈ d.regs := by
      by_contra none
      rw [rg_dbmBits_unlisted hk hj (not_exists.1 none)] at set
      simp [bit] at set
    have word : rg d (Adr.DBM_BITS k j) = v := by
      unfold rg
      rw [alGet_of_mem hc.1 listed]
      rfl
    refine ⟨_, ⟨listed, ?_, ?_⟩, b, ⟨hb, word ▸ set⟩, ?_⟩ <;> simp only [Adr.DBM_BITS] <;> omega

theorem bit_dbmMark (d : Dev) (k n : Nat) {j b : Nat} (hb : b < 32) :
    bit (rg (dbmMark d k n) (Adr.DBM_BITS k j)) b = (bit (rg d (Adr.DBM_BITS k j)) b || decide (32 * j + b = n)) := by
  unfold dbmMark
  dsimp only
  by_cases word : n / 32 = j
  · subst word
    rw [rg_wr_self, bit_putBit _ _ _ _ (Nat.mod_lt _ (by decide))]
    by_cases own : b = n % 32
    · rw [if_pos own, decide_eq_true (by omega), Bool.or_true]
    · rw [if_neg own, decide_eq_false (by omega), Bool.or_false]
  · rw [rg_wr_ne _ _ (by simp only [Adr.DBM_BITS]; omega), decide_eq_false (by omega), Bool.or_false]

/-- Marking beams one after another sets their bits and no other of the slot. -/
theorem bit_foldl_dbmMark (k : Nat) {j b : Nat} (hb : b < 32) (beams : List Nat) (d : Dev) :
    bit (rg (beams.foldl (fun d n => dbmMark d k n) d) (Adr.DBM_BITS k j)) b =
      (bit (rg d (Adr.DBM_BITS k j)) b || decide (32 * j + b ∈ beams)) := by
  induction beams generalizing d with
  | nil => simp
  | cons n beams ih =>
    rw [List.foldl_cons, ih, bit_dbmMark d k n hb, Bool.or_assoc, ← Bool.decide_or, decide_eq_decide.2 List.mem_cons]

/-- A slot whose map was replaced has the beams of the new one, and no other (R288). -/
theorem bit_dbmReplace (d : Dev) (beams : List Nat) {k j b : Nat} (hk : k < 9) (hj : j < 16384) (hb : b < 32) :
    bit (rg (dbmReplace d k beams) (Adr.DBM_BITS k j)) b = decide (32 * j + b ∈ beams) := by
  unfold dbmReplace
  dsimp only
  rw [bit_foldl_dbmMark k hb, rg_dbmBits_unlisted hk hj]
  · simp [bit]
  · intro v listed
    have kept := (List.mem_filter.1 listed).2
    simp only [Adr.DBM_BITS, Bool.not_eq_true', decide_eq_false_iff_not] at kept
    omega

/-- Replacing a slot's map changes words alone. -/
theorem dbmReplace_rest (d : Dev) (k : Nat) (beams : List Nat) :
    dbmReplace d k beams = { d with regs := (dbmReplace d k beams).regs } := by
  have marks (beams : List Nat) (e : Dev) : beams.foldl (fun d n => dbmMark d k n) e =
      { e with regs := (beams.foldl (fun d n => dbmMark d k n) e).regs } := by
    induction beams generalizing e with
    | nil => rfl
    | cons n beams ih =>
      rw [List.foldl_cons]
      exact ih (dbmMark e k n)
  exact marks beams _

/-- A slot that takes the dead beams of another has its words. -/
theorem rg_dbmReplace_dbmDead {d : Dev} (hc : WordsCanonical d) (h4 : ∀ e ∈ d.regs, e.1 % 4 = 0) {k l j : Nat} (hk : k < 9)
    (hl : l < 9) (hj : j < 16384) : rg (dbmReplace d l (dbmDead d k)) (Adr.DBM_BITS l j) = rg d (Adr.DBM_BITS k j) := by
  refine BitVec.eq_of_getLsbD_eq fun b hb => ?_
  have dead := mem_dbmDead hc h4 hk hj hb
  exact (bit_dbmReplace d (dbmDead d k) hl hj hb).trans (Bool.eq_iff_iff.2 (decide_eq_true_iff.trans dead))

/-! ### Commands of the map (R289 to R293) -/

/-- A write of a word of NEXT_SLOT while no copy runs is stored and leaves the map pending (R289). -/
theorem dbmBitsWrite_next {d : Dev} {k : Nat} (j : Nat) (v : W32) (hnext : k = d.stc.dbm.nextSlot)
    (hcopy : d.stc.dbm.copying = false) : rg (dbmBitsWrite d k j v) (Adr.DBM_BITS k j) = v ∧
      (dbmBitsWrite d k j v).stc.dbm = { d.stc.dbm with pending := true } := by
  let taken := injTake (wr d (Adr.DBM_BITS k j) v) (Page.stc.base 0) true
  have rest : taken.2 = { wr d (Adr.DBM_BITS k j) v with regs := taken.2.regs } := injTake_rest ..
  have word : rg taken.2 (Adr.DBM_BITS k j) = v :=
    (windowsStand_walk.injTake _ true (by decide) _ (by simp only [Adr.DBM_BITS]; omega)).trans (rg_wr_self ..)
  have dbm : taken.2.stc.dbm = d.stc.dbm := by rw [rest]; rfl
  unfold dbmBitsWrite
  rw [if_pos ⟨hnext, by rw [hcopy]; rfl⟩]
  exact ⟨word, congrArg (fun m : Dbm => { m with pending := true }) dbm⟩

/-- A write of any other slot, or during a copy, is dropped (R289). -/
theorem dbmBitsWrite_dropped {d : Dev} {k : Nat} (j : Nat) (v : W32)
    (h : k ≠ d.stc.dbm.nextSlot ∨ d.stc.dbm.copying = true) : dbmBitsWrite d k j v = d := by
  unfold dbmBitsWrite
  rw [if_neg]
  rintro ⟨next, idle⟩
  rcases h with other | copying
  · exact other next
  · rw [copying] at idle
    cases idle

/-- The copy ends with nothing held: NEXT_SLOT takes the current slot's beams, and PENDING stands (R290, R292). -/
theorem dbmCopied_unheld {d : Dev} (hcopy : d.stc.dbm.copying = true) (hmap : d.stc.dbm.heldMap = none)
    (hbits : d.stc.dbm.heldBits = []) :
    (dbmCopied d).regs = (dbmReplace d d.stc.dbm.nextSlot (dbmDead d d.stc.dbm.curSlot)).regs ∧
      (dbmCopied d).glr = d.glr ∧ (dbmCopied d).stc.dbm.copying = false ∧ (dbmCopied d).stc.dbm.pending = d.stc.dbm.pending := by
  unfold dbmCopied
  simp only [hcopy, hmap, hbits]
  rw [dbmReplace_rest]
  simp [setDbm, hmap, hbits]

/-- With no message waiting, what GLR does when the copy has ended leaves the map (R63, R734). -/
theorem glrDrain_map {d : Dev} (h : d.glr.buf = []) : (glrDrain d).stc = d.stc ∧
    ∀ a, 0x1000000 ≤ a → rg (glrDrain d) a = rg d a := by
  have frame := glrDrain_sealFrame h
  refine ⟨(stripe_of_sealFrame frame).1, fun a ha => frame.words a fun word => ?_⟩
  have := sealWord_lt word
  omega

/-! ### The obligation -/

/-- Settles O41: a slot's words are the beams that `dbmDead` lists of it, so the slot that takes that list has the same words; what
follows the copy writes no word of the map. -/
theorem deadBeamMapIsCommittedAndCopied : Obligations.DeadBeamMapIsCommittedAndCopied := by
  unfold Obligations.DeadBeamMapIsCommittedAndCopied
  refine ⟨fun s req k j v hk hj hacc => ?_, fun s req v hacc hcopy => ?_, ?_⟩
  · have writes {P : Dev → Prop} (h : P (drive (dbmBitsWrite s.dev k j v))) : Does (.dbmBitmapWrite req k j v) s P := by
      refine does_of_run (show _ = execDbmBitmapWrite req k j v s from rfl) ?_
      rw [if_pos ⟨hk, hj⟩, write, if_pos hacc]
      exact h
    refine ⟨fun hnext hcopy => writes ?_, fun hdrop => writes ?_⟩
    · rw [rg_drive, drive_stc]
      exact dbmBitsWrite_next j v hnext hcopy
    · rw [drive_regs, drive_stc, dbmBitsWrite_dropped j v hdrop]
      exact ⟨rfl, rfl⟩
  · refine does_of_run (show _ = execDbmCommit req v s from rfl) ?_
    rw [write, if_pos hacc, dbmCommitWrite, bit_or_one, hcopy, if_pos (by decide), drive_stc, drive_regs]
    exact ⟨rfl, rfl, rfl, rfl, rfl⟩
  · intro s hhalt hcopy hmap hbits hbuf hcanon haligned hcur hnext _
    obtain ⟨regs, glr, ended, pending⟩ := dbmCopied_unheld hcopy hmap hbits
    obtain ⟨stc, words⟩ := glrDrain_map (glr.symm ▸ hbuf : (dbmCopied s.dev).glr.buf = [])
    refine does_of_runS (show _ = execCopyDone s from rfl) ?_
    rw [hcopy, hhalt, if_pos (by decide), drive_stc, settle_stc, stc]
    refine ⟨ended, pending, fun j hj => ?_⟩
    have place : 0x1000000 ≤ Adr.DBM_BITS s.dev.stc.dbm.nextSlot j := by simp only [Adr.DBM_BITS]; omega
    rw [rg_drive, rg_settle _ (by simp only [Adr.DBM_BITS, Adr.BOB_CNT_LOW]; omega) (by simp only [Adr.DBM_BITS, Page.base, oEVTPEND]; omega),
      words _ place, rg_congr regs]
    exact rg_dbmReplace_dbmDead hcanon haligned hcur hnext hj

end Sys2Proof.Machine
end

section
/-! PROOF. Bytes and poison of the bobbin (R307, R311, R348, R490, R586). -/

namespace Sys2Proof.Machine

/-! ### Poison of a store (R586, R603, R604) -/

theorem mem_setIns_of_mem {l : List Nat} {x : Nat} (a : Nat) (h : x ∈ l) : x ∈ setIns l a := by
  induction l with
  | nil => cases h
  | cons k r ih =>
    unfold setIns
    split
    · exact List.mem_cons_of_mem _ h
    · split
      · exact h
      · rcases List.mem_cons.1 h with rfl | later
        · exact List.mem_cons_self
        · exact List.mem_cons_of_mem _ (ih later)

theorem daLost_of_lost_nil {d : Dev} (hlost : d.bob.lost = []) (da : Nat) : daLost d da = false := by
  unfold daLost
  rw [hlost]
  rfl

/-- An injection on a store takes no sector's poison away (R604). -/
theorem mem_poison_hbmInjWrite {d : Dev} {s : Nat} (da : Nat) (h : s ∈ d.poison) : s ∈ (hbmInjWrite d da).poison := by
  have taken : s ∈ (injTake d (Page.mc.base (pcOf d da / 2)) true).2.poison :=
    (congrArg Dev.poison (injTake_rest d (Page.mc.base (pcOf d da / 2)) true)).symm ▸ h
  unfold hbmInjWrite
  dsimp only
  split
  · exact taken
  · split <;> split
    · exact mem_setIns_of_mem _ taken
    · exact taken
    · exact mem_setIns_of_mem _ taken
    · exact taken

theorem mem_poison_ite_hbmInjWrite {d : Dev} {s : Nat} (da : Nat) (armed : Prop) [Decidable armed] (h : s ∈ d.poison) :
    s ∈ (if armed then hbmInjWrite d da else d).poison := by
  split
  · exact mem_poison_hbmInjWrite da h
  · exact h

/-- A sector stored whole loses its poison, no injection being armed (R586). -/
theorem not_mem_poison_hbmWrite {d : Dev} {da : Nat} {l : List Byte} (hlost : d.bob.lost = []) (hspan : da + l.length ≤ daSpan)
    (hcalm : mcArmed d = false) {s : Nat} (hlo : da ≤ 32 * s) (hhi : 32 * s + 32 ≤ da + l.length) :
    s ∉ (hbmWrite d da l).poison := by
  unfold hbmWrite
  dsimp only
  rw [if_neg, List.take_of_length_le (by omega)]
  · intro listed
    have kept := (List.mem_filter.1 listed).2
    rw [decide_eq_true ⟨hlo, hhi⟩, daLost_of_lost_nil hlost] at kept
    cases kept
  · intro armed
    exact Bool.noConfusion (hcalm.symm.trans (Bool.and_eq_true_iff.1 armed).1)

/-- A sector that a store does not cover whole keeps its poison (R586). -/
theorem mem_poison_hbmWrite {d : Dev} {da : Nat} {l : List Byte} {s : Nat} (hspan : da + l.length ≤ daSpan)
    (hpart : ¬(da ≤ 32 * s ∧ 32 * s + 32 ≤ da + l.length)) (h : s ∈ d.poison) : s ∈ (hbmWrite d da l).poison := by
  unfold hbmWrite
  dsimp only
  rw [List.take_of_length_le (by omega)]
  refine mem_poison_ite_hbmInjWrite da _ (List.mem_filter.2 ⟨h, ?_⟩)
  rw [decide_eq_false hpart]
  rfl

/-! ### The obligation -/

/-- Settles O43: within the space and with nothing lost a store is `Mem.write`, and the sectors it covers whole leave the poison. -/
theorem bobbinReadsBackWhatIsWritten : Obligations.BobbinReadsBackWhatIsWritten := by
  unfold Obligations.BobbinReadsBackWhatIsWritten
  intro d da l hlost hspan
  have laid : (hbmWrite d da l).hbm = d.hbm.write da l := hbmWrite_hbm hlost hspan
  refine ⟨?_, fun a outside => ?_, fun hwf => ?_, fun hcalm s hlo hhi => ?_, fun s hpart => ?_⟩
  · unfold hbmRead
    rw [laid]
    exact Mem.readN_write _ _ _
  · rw [laid, Mem.read_write, if_neg (by omega)]
  · rw [laid]
    exact Mem.write_wf _ _ _ hwf
  · exact not_mem_poison_hbmWrite hlost hspan hcalm hlo hhi
  · exact mem_poison_hbmWrite hspan hpart

end Sys2Proof.Machine
end

section
/-! SUPPORT. The pseudo-channel controllers: a bank as it was put, the admission of requests and the command of a slot (R326, R328). -/

namespace Sys2Proof.Machine

/-! ### Banks of a controller -/

theorem mem_insBy {α : Type} (le : α → α → Bool) (a x : α) (l : List α) : x ∈ insBy le a l ↔ x = a ∨ x ∈ l := by
  induction l with
  | nil => simp [insBy]
  | cons b r ih =>
    unfold insBy
    split
    · rw [List.mem_cons, ih, List.mem_cons]
      exact or_left_comm
    · exact List.mem_cons

theorem mem_sortBy {α : Type} (le : α → α → Bool) (x : α) (l : List α) : x ∈ sortBy le l ↔ x ∈ l := by
  have onto (l s : List α) : x ∈ l.foldl (fun s a => insBy le a s) s ↔ x ∈ l ∨ x ∈ s := by
    induction l generalizing s with
    | nil => simp
    | cons a l ih =>
      rw [List.foldl_cons, ih, mem_insBy, List.mem_cons, ← or_assoc, or_comm (a := x ∈ l)]
  exact (onto l []).trans (by simp)

/-- The banks of a controller after one was put: that one, and the others as they were. -/
theorem mem_putBank (c : Pc) (b x : Bank) : x ∈ (putBank c b).banks ↔ x = b ∨ x ∈ c.banks ∧ x.k ≠ b.k := by
  unfold putBank
  rw [mem_sortBy, List.mem_cons, List.mem_filter, bne_iff_ne]

theorem pcBank_eq {c : Pc} {b : Bank} (hb : b ∈ c.banks) (hu : ∀ x ∈ c.banks, x.k = b.k → x = b) : pcBank c b.k = b := by
  unfold pcBank
  cases found : c.banks.find? fun x => x.k = b.k with
  | none => exact absurd (decide_eq_true rfl) (List.find?_eq_none.1 found b hb)
  | some x => exact hu x (List.mem_of_find?_eq_some found) (of_decide_eq_true (List.find?_some found :))

@[simp] theorem pcBank_k (c : Pc) (k : Nat) : (pcBank c k).k = k := by
  unfold pcBank
  cases found : c.banks.find? fun x => x.k = k with
  | none => rfl
  | some x => exact of_decide_eq_true (List.find?_some found :)

/-- A bank reads as it was put. -/
theorem pcBank_putBank (c : Pc) {b : Bank} {k : Nat} (hk : b.k = k) : pcBank (putBank c b) k = b := by
  subst hk
  refine pcBank_eq ((mem_putBank c b b).2 (.inl rfl)) fun x hx hk => ?_
  rcases (mem_putBank c b x).1 hx with same | ⟨-, other⟩
  · exact same
  · exact absurd hk other

/-- No row is open in bank `k`, however often the controller lists it. -/
def BankClosed (c : Pc) (k : Nat) : Prop := ∀ b ∈ c.banks, b.k = k → b.opn = none

theorem BankClosed.pcBank {c : Pc} {k : Nat} (h : BankClosed c k) : (pcBank c k).opn = none := by
  unfold Machine.pcBank
  cases found : c.banks.find? fun x => x.k = k with
  | none => rfl
  | some x => exact h x (List.mem_of_find?_eq_some found) (of_decide_eq_true (List.find?_some found :))

/-- A refresh closes the row of its bank (R306). -/
theorem bankClosed_refreshBank_self (c : Pc) (k now : Nat) : BankClosed (refreshBank c k now) k := by
  intro b hb hk
  rcases (mem_putBank c _ b).1 hb with rfl | ⟨-, other⟩
  · rfl
  · exact absurd (hk.trans (pcBank_k c k).symm) other

/-- A refresh opens no row (R306). -/
theorem BankClosed.refreshBank {c : Pc} {k : Nat} (h : BankClosed c k) (j now : Nat) : BankClosed (refreshBank c j now) k := by
  intro b hb hk
  rcases (mem_putBank c _ b).1 hb with rfl | ⟨was, -⟩
  · rfl
  · exact h b was hk

/-- Refreshing banks one after another closes the rows of all of them (R306). -/
theorem bankClosed_foldl_refreshBank (now : Nat) {k : Nat} (l : List Nat) (c : Pc) (h : BankClosed c (k % 48) ∨ k ∈ l) :
    BankClosed (l.foldl (fun c k => refreshBank c (k % 48) now) c) (k % 48) := by
  induction l generalizing c with
  | nil => exact h.resolve_right List.not_mem_nil
  | cons j l ih =>
    rw [List.foldl_cons]
    refine ih _ ?_
    rcases h with closed | listed
    · exact .inl (closed.refreshBank _ _)
    · rcases List.mem_cons.1 listed with rfl | later
      · exact .inl (bankClosed_refreshBank_self _ _ _)
      · exact .inr later

/-! ### Admission (R326) -/

/-- Pseudo-channel `p` has admitted requests, none or more, between `d` and `e`: none has joined those that wait there, and no
number was given out. -/
structure Admitted (p : Nat) (d e : Dev) : Prop where
  reqNo : e.bob.reqNo = d.bob.reqNo
  held : ∀ x ∈ (mcPc e p).held, x ∈ (mcPc d p).held

theorem Admitted.refl (p : Nat) (d : Dev) : Admitted p d d := ⟨rfl, fun _ h => h⟩

theorem Admitted.trans {p : Nat} {d e f : Dev} (h : Admitted p d e) (k : Admitted p e f) : Admitted p d f :=
  ⟨k.reqNo.trans h.reqNo, fun x hx => h.held x (k.held x hx)⟩

theorem mcEnter_reqNo (d : Dev) (p : Nat) (r : BReq) : (mcEnter d p r).bob.reqNo = d.bob.reqNo := by
  unfold mcEnter
  dsimp only
  split <;> rfl

/-- A request enters at the end of its bank queue (R326). -/
theorem mcPc_mcEnter (d : Dev) (p : Nat) (r : BReq) : ∃ b : Bank, b.k = daBank r.da ∧
    b.q = (pcBank (mcPc d p) (daBank r.da)).q ++ [r] ∧ mcPc (mcEnter d p r) p = putBank (mcPc d p) b := by
  unfold mcEnter
  dsimp only
  rw [mcPc_setPc]
  split <;> exact ⟨_, by exact pcBank_k _ _, by rfl, rfl⟩

theorem mcAdmit_admitted (d : Dev) (p t : Nat) : Admitted p d (mcAdmit d p t) := by
  unfold mcAdmit
  split
  · exact Admitted.refl p d
  · dsimp only
    refine ⟨mcEnter_reqNo _ _ _, fun x hx => ?_⟩
    obtain ⟨b, -, -, entered⟩ := mcPc_mcEnter (setPc d p _) p _
    rw [entered, mcPc_setPc] at hx
    exact List.mem_of_mem_filter hx

theorem mcCatchN_admitted (n : Nat) (d : Dev) (p lim : Nat) : Admitted p d (mcCatchN n d p lim) := by
  induction n generalizing d with
  | zero => exact Admitted.refl p d
  | succ n ih =>
    unfold mcCatchN
    split
    · split
      · exact (mcAdmit_admitted d p _).trans (ih _)
      · exact Admitted.refl p d
    · exact Admitted.refl p d

theorem mcCatch_admitted (d : Dev) (p lim : Nat) : Admitted p d (mcCatch d p lim) := mcCatchN_admitted _ d p lim

theorem mcCatch_of_held_nil {d : Dev} {p : Nat} (h : (mcPc d p).held = []) (lim : Nat) : mcCatch d p lim = d := by
  unfold mcCatch
  rw [h]
  rfl

theorem mcAdmit_of_held_nil {d : Dev} {p : Nat} (h : (mcPc d p).held = []) (t : Nat) : mcAdmit d p t = d := by
  have heads : mcHeads d p = [] := by
    unfold mcHeads
    simp [h]
  unfold mcAdmit
  rw [heads]
  rfl

/-- One turn of the ports finds the one request that waits, once (R326). -/
theorem mcHeads_alone {d : Dev} {p : Nat} {r : BReq} (hheld : (mcPc d p).held = [r]) (hport : r.port < 15)
    (hroom : mcRoom d p r = true) : mcHeads d p = [r] := by
  let turn : Nat := (r.port + 14 * ((mcPc d p).rr + 1)) % 15
  have finds (i : Nat) (hi : i ∈ List.range 15) : ((mcPc d p).held.find? fun h => h.port = ((mcPc d p).rr + 1 + i) % 15) =
      if i == turn then some r else none := by
    have hi := List.mem_range.1 hi
    rw [hheld, List.find?_singleton]
    by_cases own : i = turn
    · rw [if_pos (decide_eq_true (by omega)), if_pos (beq_iff_eq.2 own)]
    · rw [if_neg (fun h => own (by have := of_decide_eq_true h; omega)), if_neg (fun h => own (beq_iff_eq.1 h))]
  have once : (List.range 15).filter (· == turn) = [turn] := by
    rw [List.filter_beq, List.count_eq_one_of_mem List.nodup_range (List.mem_range.2 (Nat.mod_lt _ (by decide)))]
    rfl
  unfold mcHeads
  dsimp only
  rw [List.filterMap_congr finds, ← List.filterMap_filter, once]
  simp [hroom]

/-- The one request that waits, its bank queue having room, enters it (R326). -/
theorem mcAdmit_alone {d : Dev} {p t : Nat} {r : BReq} (hheld : (mcPc d p).held = [r]) (hport : r.port < 15) (hat : r.at0 ≤ t)
    (hroom : mcRoom d p r = true) : mcAdmit d p t =
      mcEnter (setPc d p fun c => { c with held := c.held.filter fun h => h.id != r.id, rr := r.port, admitAt := t + 1 }) p r := by
  have due : [r].filter (fun r => decide (r.at0 ≤ t)) = [r] := by simp [hat]
  unfold mcAdmit
  rw [mcHeads_alone hheld hport hroom, due]
  rfl

/-! ### The command of a slot (R328) -/

/-- The only request of a bank queue is the bank's candidate. -/
theorem candidate_alone {d : Dev} {p : Nat} {b : Bank} {r : BReq} (hq : b.q = [r]) : candidate d p b = some r := by
  unfold candidate
  rw [hq]
  dsimp only
  rw [List.find?_singleton]
  split
  · next hit found =>
    split at found
    · cases found
      exact ite_self _
    · cases found
  · rfl

/-- A command for a request of urgency 3 is counted (R327). -/
def urgCounted (d : Dev) (p now : Nat) (r : BReq) : Dev :=
  if urgency d r now = 3 then inc d (Adr.MC_CNT_URG3 (p / 2)) else d

@[simp] theorem urgCounted_bob (d : Dev) (p now : Nat) (r : BReq) : (urgCounted d p now r).bob = d.bob := by
  unfold urgCounted
  split <;> rfl

theorem rg_urgCounted (d : Dev) (p now : Nat) (r : BReq) {a : Nat} (h : a ≠ Adr.MC_CNT_URG3 (p / 2)) :
    rg (urgCounted d p now r) a = rg d a := by
  unfold urgCounted
  split
  · exact rg_wr_ne _ _ h
  · rfl

/-- A column command is counted as a read or a write, and as a hit where the row was opened for another request (R328). -/
def colCounted (d : Dev) (p : Nat) (b : Bank) (r : BReq) : Dev :=
  let d := inc d (if r.wr then Adr.MC_CNT_WR (p / 2) else Adr.MC_CNT_RD (p / 2))
  if r.id = b.actFor then d else inc d (Adr.MC_CNT_HIT (p / 2))

@[simp] theorem colCounted_bob (d : Dev) (p : Nat) (b : Bank) (r : BReq) : (colCounted d p b r).bob = d.bob := by
  unfold colCounted
  dsimp only
  split <;> rfl

theorem rg_colCounted (d : Dev) (p : Nat) (b : Bank) (r : BReq) {a : Nat}
    (h : a = if r.wr then Adr.MC_CNT_WR (p / 2) else Adr.MC_CNT_RD (p / 2)) : rg (colCounted d p b r) a = rg d a + 1 := by
  unfold colCounted
  dsimp only
  rw [← h]
  split
  · exact rg_wr_self _ _ _
  · refine (rg_wr_ne _ _ ?_).trans (rg_wr_self _ _ _)
    rw [h]
    split
    · unfold Adr.MC_CNT_WR Adr.MC_CNT_HIT
      omega
    · unfold Adr.MC_CNT_RD Adr.MC_CNT_HIT
      omega

/-- With one bank at work on one request, whose next command meets the timing limits, that command is issued: whatever the direction
was, no other request stands against it (R328). -/
theorem mcIssue_alone {d : Dev} {p now : Nat} {b : Bank} {r : BReq} (hbanks : (mcPc d p).banks = [b]) (hq : b.q = [r])
    (htime : timingOk d p b r now = true) : ∃ dir,
      (nextCmd b r = .pre → mcIssue d p now = setPc (urgCounted d p now r) p fun c =>
        putBank { c with dirW := dir } { b with opn := none, pre := some now }) ∧
      (nextCmd b r = .act → mcIssue d p now = setPc (inc (urgCounted d p now r) (Adr.MC_CNT_ACT (p / 2))) p fun c =>
        putBank { c with dirW := dir, ptr := b.k }
          { b with opn := some (daRow r.da), act := some now, hits := 0, actFor := r.id }) ∧
      (nextCmd b r = .col → ∃ (b' : Bank) (cnt : Nat), b'.k = b.k ∧ b'.q = [] ∧
        mcIssue d p now = setPc (colCounted (urgCounted d p now r) p b r) p fun c =>
          putBank { c with dirW := r.wr, dirCnt := cnt, done := if r.acked then c.done else c.done ++ [r] } b') := by
  have cands : ((mcPc d p).banks.filterMap fun b => (candidate d p b).bind fun r =>
      if timingOk d p b r now then some (b, r) else none) = [(b, r)] := by
    rw [hbanks]
    simp [candidate_alone hq, htime]
  generalize issued : mcIssue d p now = m
  unfold mcIssue at issued
  extract_lets c n s u3 dirMax dir1 dir2 s1 key top s2 far at issued
  replace cands : s = [(b, r)] := cands
  clear_value s
  subst cands
  rw [if_neg (List.cons_ne_nil _ _)] at issued
  have chosen : s1 = [(b, r)] := by
    by_cases urgent : urgency d r now = 3
    · have : u3 = [(b, r)] := by simp [u3, urgent]
      rw [show s1 = u3 from if_neg (by rw [this]; exact List.cons_ne_nil _ _), this]
    · have none3 : u3 = [] := by simp [u3, urgent]
      have same : r.wr = dir2 := by
        by_cases own : r.wr = dir1
        · simp [dir2, none3, own]
        · rw [show dir2 = !dir1 by simp [dir2, none3, own]]
          exact Bool.eq_not.2 own
      simp [s1, none3, ← same]
  have alone : s2 = [(b, r)] := by simp [s2, top, chosen]
  rw [alone] at issued
  dsimp only [List.foldl_nil] at issued
  refine ⟨dir2, fun next => ?_, fun next => ?_, fun next => ?_⟩
  · rw [next] at issued
    exact issued.symm
  · rw [next] at issued
    exact issued.symm
  · rw [next] at issued
    refine ⟨_, _, ?_, ?_, issued.symm⟩
    · rfl
    · simp [hq]

end Sys2Proof.Machine
end

section
/-! PROOF. The controllers serve the requests of the ports (R306, R323, R325, R326, R328 to R331, R342). -/

namespace Sys2Proof.Machine

@[simp] theorem mcPc_drive (d : Dev) (p : Nat) : mcPc (drive d) p = mcPc d p := mcPc_congr (congrArg Bob.pcs (drive_bob d)) p

/-! ### Requests handed over (R326, R342) -/

/-- Waking the memory domains is PMU's alone (R679, R682). -/
theorem wakeMem_rest (d : Dev) : wakeMem d = { d with pmu := (wakeMem d).pmu } := by
  unfold wakeMem standbyLeave
  split
  · dsimp only
    split <;> rfl
  · rfl

/-- The block as a request with the next number finds it: the number given out, the memory domains woken (R326, R679). -/
def numbered (d : Dev) : Dev := wakeMem { d with bob := { d.bob with reqNo := d.bob.reqNo + 1 } }

theorem numbered_bob (d : Dev) : (numbered d).bob = { d.bob with reqNo := d.bob.reqNo + 1 } := by
  unfold numbered
  rw [wakeMem_rest]

theorem mcRoute_numbered (d : Dev) (da : Nat) : mcRoute (numbered d) da = mcRoute d da := by
  unfold numbered
  rw [wakeMem_rest]
  rfl

/-- A request with a pseudo-channel to serve it waits there, behind those that were not admitted meanwhile (R326). -/
theorem mcRequest_routed {d : Dev} {da p : Nat} (port : Nat) (wr : Bool) (now : Nat) (h : mcRoute d da = some p) :
    (mcRequest d port da wr now).bob.reqNo = d.bob.reqNo + 1 ∧ ∃ l, (mcPc (mcRequest d port da wr now) p).held =
      l ++ [{ id := d.bob.reqNo, port := port, da := da, wr := wr, at0 := now }] ∧ ∀ x ∈ l, x ∈ (mcPc d p).held := by
  have waits : mcRequest d port da wr now = setPc (mcCatch (numbered d) p now) p fun c =>
      { c with held := c.held ++ [{ id := d.bob.reqNo, port := port, da := da, wr := wr, at0 := now }] } := by
    unfold mcRequest
    dsimp only
    rw [← numbered, mcRoute_numbered, h]
  have admitted := mcCatch_admitted (numbered d) p now
  rw [waits, mcPc_setPc]
  refine ⟨admitted.reqNo.trans (congrArg Bob.reqNo (numbered_bob d)), _, rfl, fun x hx => ?_⟩
  rw [← mcPc_congr (d := d) (e := numbered d) (by rw [numbered_bob])]
  exact admitted.held x hx

/-- A request for the chunk being copied waits for the copy (R342). -/
theorem mcRequest_unrouted {d : Dev} {da : Nat} (port : Nat) (wr : Bool) (now : Nat) (h : mcRoute d da = none) :
    (mcRequest d port da wr now).bob = { d.bob with
      reqNo := d.bob.reqNo + 1
      migHeld := d.bob.migHeld ++ [{ id := d.bob.reqNo, port := port, da := da, wr := wr, at0 := now }] } := by
  unfold mcRequest
  dsimp only
  rw [← numbered, mcRoute_numbered, h, numbered_bob]

theorem does_bobRequest {s : State} {port da now : Nat} {wr : Bool} {P : Dev → Prop} (hport : port < 15) (hda : da < daSpan)
    (h : P (drive (mcRequest s.dev port da wr now))) : Does (.bobRequest port da wr now) s P := by
  refine does_of_run (show _ = execBobRequest port da wr now s from rfl) ?_
  rw [if_pos ⟨hport, hda⟩]
  exact h

/-! ### Command slots (R326, R328) -/

/-- Where nothing waits before or after its command, a slot is its command. -/
theorem mcSlot_of_held_nil {d : Dev} {p now : Nat} (h : (mcPc d p).held = []) (hi : (mcPc (mcIssue d p now) p).held = []) :
    mcSlot d p now = mcIssue d p now := by
  unfold mcSlot
  rw [mcCatch_of_held_nil h]
  dsimp only
  rw [mcAdmit_of_held_nil hi, ite_self]

/-- What a slot does when its command puts bank `b` and nothing waits. -/
theorem does_commandSlot {s : State} {p now : Nat} {e : Dev} {g : Pc → Pc} {b : Bank} {P : Dev → Prop} (hp : p < 128)
    (hheld : (mcPc s.dev p).held = []) (issue : mcIssue s.dev p now = setPc e p fun c => putBank (g c) b)
    (hbob : e.bob = s.dev.bob) (hg : ∀ c, (g c).held = c.held)
    (h : ∀ d, pcBank (mcPc d p) b.k = b → mcPc d p = putBank (g (mcPc s.dev p)) b → (∀ a, rg d a = rg e a) → P d) :
    Does (.commandSlot p now) s P := by
  have put : mcPc (setPc e p fun c => putBank (g c) b) p = putBank (g (mcPc s.dev p)) b := by
    rw [mcPc_setPc, mcPc_congr (congrArg Bob.pcs hbob)]
  have idle : (mcPc (mcIssue s.dev p now) p).held = [] := by
    rw [issue, put]
    exact (hg _).trans hheld
  refine does_of_run (show _ = execCommandSlot p now s from rfl) ?_
  rw [if_pos hp, mcSlot_of_held_nil hheld idle, issue]
  have after := (mcPc_drive _ p).trans put
  exact h _ (by rw [after]; exact pcBank_putBank _ rfl) after fun a => rg_drive _ a

theorem commandSlot_act {s : State} {p now : Nat} {b : Bank} {r : BReq} (hp : p < 128) (hbanks : (mcPc s.dev p).banks = [b])
    (hheld : (mcPc s.dev p).held = []) (hq : b.q = [r]) (htime : timingOk s.dev p b r now = true) (next : nextCmd b r = .act) :
    Does (.commandSlot p now) s fun d =>
      (pcBank (mcPc d p) b.k).opn = some (daRow r.da) ∧ (pcBank (mcPc d p) b.k).q = [r] ∧ (mcPc d p).ptr = b.k ∧
      rg d (Adr.MC_CNT_ACT (p / 2)) = rg s.dev (Adr.MC_CNT_ACT (p / 2)) + 1 := by
  obtain ⟨dir, -, act, -⟩ := mcIssue_alone hbanks hq htime
  refine does_commandSlot hp hheld (act next) (urgCounted_bob _ _ _ _) (fun _ => rfl) fun d bank put words => ?_
  rw [bank, put, words, inc, addReg, rg_wr_self, rg_urgCounted _ _ _ _ (by unfold Adr.MC_CNT_ACT Adr.MC_CNT_URG3; omega)]
  exact ⟨rfl, hq, rfl, rfl⟩

theorem commandSlot_pre {s : State} {p now : Nat} {b : Bank} {r : BReq} (hp : p < 128) (hbanks : (mcPc s.dev p).banks = [b])
    (hheld : (mcPc s.dev p).held = []) (hq : b.q = [r]) (htime : timingOk s.dev p b r now = true) (next : nextCmd b r = .pre) :
    Does (.commandSlot p now) s fun d => (pcBank (mcPc d p) b.k).opn = none ∧ (pcBank (mcPc d p) b.k).q = [r] := by
  obtain ⟨dir, pre, -, -⟩ := mcIssue_alone hbanks hq htime
  refine does_commandSlot hp hheld (pre next) (urgCounted_bob _ _ _ _) (fun _ => rfl) fun d bank _ _ => ?_
  rw [bank]
  exact ⟨rfl, hq⟩

theorem commandSlot_col {s : State} {p now : Nat} {b : Bank} {r : BReq} (hp : p < 128) (hbanks : (mcPc s.dev p).banks = [b])
    (hheld : (mcPc s.dev p).held = []) (hq : b.q = [r]) (htime : timingOk s.dev p b r now = true) (next : nextCmd b r = .col) :
    Does (.commandSlot p now) s fun d =>
      (pcBank (mcPc d p) b.k).q = [] ∧ (mcPc d p).dirW = r.wr ∧
      (mcPc d p).done = (mcPc s.dev p).done ++ (if r.acked then [] else [r]) ∧
      (r.wr = true → rg d (Adr.MC_CNT_WR (p / 2)) = rg s.dev (Adr.MC_CNT_WR (p / 2)) + 1) ∧
      (r.wr = false → rg d (Adr.MC_CNT_RD (p / 2)) = rg s.dev (Adr.MC_CNT_RD (p / 2)) + 1) := by
  obtain ⟨dir, -, -, col⟩ := mcIssue_alone hbanks hq htime
  obtain ⟨b', cnt, hk, hempty, issue⟩ := col next
  refine does_commandSlot hp hheld issue (by simp) (fun _ => rfl) fun d bank put words => ?_
  rw [← hk, bank, put]
  refine ⟨hempty, rfl, ?_, fun hwr => ?_, fun hrd => ?_⟩
  · show (if r.acked then _ else _) = _
    split <;> simp
  · rw [words, rg_colCounted _ _ _ _ (by rw [hwr, if_pos rfl]),
      rg_urgCounted _ _ _ _ (by unfold Adr.MC_CNT_WR Adr.MC_CNT_URG3; omega)]
  · rw [words, rg_colCounted _ _ _ _ (by rw [hrd]; rfl),
      rg_urgCounted _ _ _ _ (by unfold Adr.MC_CNT_RD Adr.MC_CNT_URG3; omega)]

/-! ### The estimate of a port (R331) -/

/-- A completion that no earlier request of the port hinders moves the port's estimate (R323, R331). -/
theorem rg_mcComplete {d : Dev} {port : Nat} (l : Nat) (h : ∀ r, portOldest d port ≠ some (r, false)) :
    rg (mcComplete d port l) (Adr.BOB_LAT_EST port) = w32 (estNext (fd d (Adr.BOB_LAT_EST port) 15 0) (min l 65535)) := by
  unfold mcComplete
  dsimp only
  cases oldest : portOldest d port with
  | none =>
    simp only [oldest]
    exact rg_wr_self _ _ _
  | some x =>
    obtain ⟨r, _ | _⟩ := x
    · exact absurd oldest (h r)
    · simp only [oldest]
      exact rg_wr_self _ _ _

/-! ### The obligation -/

/-- Settles O45: a request joins what its controller has not admitted; the only request at work has no rival, so its next command is
the slot's; a refresh closes its bank and opens none. -/
theorem controllersServeRequests : Obligations.ControllersServeRequests := by
  unfold Obligations.ControllersServeRequests
  refine ⟨fun s port da now wr hport hda => ?_, fun d p t r hheld hport hat hroom => ?_,
    fun s p now b r hp hbanks hheld hq htime => ?_, fun s p now hp hdue => ?_, fun s p now l hp => ?_,
    fun s p k now hp hk hheld => ?_, fun s port l hport hfree => ?_⟩
  · refine ⟨fun p route => does_bobRequest hport hda ?_, fun route => does_bobRequest hport hda ?_⟩
    · rw [drive_bob, mcPc_drive]
      exact mcRequest_routed port wr now route
    · rw [drive_bob, mcRequest_unrouted port wr now route]
      exact ⟨rfl, rfl⟩
  · obtain ⟨b, bank, queue, entered⟩ := mcPc_mcEnter (setPc d p fun c =>
      { c with held := c.held.filter fun h => h.id != r.id, rr := r.port, admitAt := t + 1 }) p r
    rw [mcPc_setPc] at entered queue
    rw [mcAdmit_alone hheld hport hat hroom, entered]
    refine ⟨?_, ?_, rfl, rfl⟩
    · rw [pcBank_putBank _ bank]
      exact queue
    · simp [putBank, hheld]
  · exact ⟨commandSlot_act hp hbanks hheld hq htime, commandSlot_pre hp hbanks hheld hq htime,
      commandSlot_col hp hbanks hheld hq htime⟩
  · refine does_of_run (show _ = execRefresh p now s from rfl) ?_
    rw [if_pos hp, mcRefresh, if_pos hdue, mcPc_drive, mcPc_setPc]
    exact ⟨(bankClosed_refreshBank_self _ _ _).pcBank, rfl, rfl⟩
  · refine does_of_run (show _ = execRefreshManagement p now l s from rfl) fun k hk => ?_
    rw [if_pos hp, mcRfm, mcPc_drive, mcPc_setPc]
    exact (bankClosed_foldl_refreshBank now l _ (.inr hk)).pcBank
  · intro b hopen hlast hquiet
    refine does_of_run (show _ = execOpenPageIdle p k now s from rfl) ?_
    have unwanted : (b.q.any fun r => b.opn = some (daRow r.da)) = false := by simpa using hquiet
    rw [if_pos ⟨hp, hk⟩, mcIdle, mcCatch_of_held_nil hheld,
      if_pos ⟨Option.isSome_iff_ne_none.2 hopen, hlast, by rw [unwanted]; rfl⟩, mcPc_drive, mcPc_setPc, pcBank_putBank]
    exact pcBank_k _ _
  · refine does_of_run (show _ = execBobCompletion port l s from rfl) ?_
    rw [if_pos hport, rg_drive]
    exact rg_mcComplete l hfree

end Sys2Proof.Machine
end

section
/-! PROOF. The check-value units: a value begun, data held in the FIFO, and the FIFO taken while LCLK runs (R398 to R401, R405). -/

namespace Sys2Proof.Machine

/-! ### One unit of a list -/

theorem nth_modNth_ne {α : Type} (l : List α) {n m : Nat} (h : m ≠ n) (f : α → α) (x : α) :
    nth (modNth l n f) m x = nth l m x := by
  induction l generalizing n m with
  | nil => rfl
  | cons a r ih =>
    cases n with
    | zero => cases m with
      | zero => exact absurd rfl h
      | succ m => rfl
    | succ n => cases m with
      | zero => rfl
      | succ m => exact ih fun e => h (congrArg (· + 1) e)

theorem nth_chkPut {d : Dev} {n : Nat} (h : n < d.chks.length) (v : Nat) :
    nth (chkPut d n v).chks n {} = { nth d.chks n {} with crc := v } := nth_modNth_self _ h _ _

theorem chkFifo_chkPutFifo {d : Dev} {n : Nat} (h : n < d.chks.length) (l : List ChkItem) : chkFifo (chkPutFifo d n l) n = l :=
  congrArg Chk.fifo (nth_modNth_self _ h _ _)

/-! ### The result registers (R401) -/

theorem chkShow_chks (d : Dev) (n : Nat) : (chkShow d n).chks = d.chks := rfl

theorem rg_chkShow (d : Dev) {n a : Nat} (hlo : a ≠ Adr.CHK_RES_LO n) (hhi : a ≠ Adr.CHK_RES_HI n) : rg (chkShow d n) a = rg d a := by
  unfold chkShow
  dsimp only
  rw [rg_wr_ne _ _ hhi, rg_wr_ne _ _ hlo]

theorem rg_chkShow_lo (d : Dev) (n : Nat) :
    rg (chkShow d n) (Adr.CHK_RES_LO n) = w32 ((nth d.chks n {}).crc ^^^ chkXor (chkAlg d n)) := by
  unfold chkShow
  dsimp only
  rw [rg_wr_ne _ _ (by simp only [Adr.CHK_RES_LO, Adr.CHK_RES_HI]; omega), rg_wr_self]

theorem chkAlg_congr {d e : Dev} {n : Nat} (h : rg e (Adr.CHK_CFG n) = rg d (Adr.CHK_CFG n)) : chkAlg e n = chkAlg d n := by
  unfold chkAlg fd
  rw [h]

/-! ### START (R399) -/

/-- The block as START leaves it before the new value: CHK_BYTES cleared, and ALIVE counted where it is in use. -/
def chkCleared (d : Dev) (n : Nat) : Dev :=
  let d := wr d (Adr.CHK_BYTES n) 0
  if fd d (Adr.CHK_CFG n) 4 4 = 1 then inc d (Adr.CHK_ALIVE n) else d

/-- Clearing comes first, then the value: any for a reserved algorithm, else the initial one. -/
theorem chkStart_eq (d : Dev) (n : Nat) : chkStart d n =
    let e := chkCleared d n
    if 4 ≤ chkAlg e n then chkShow (chkPut (takeFree e).2 n (takeFree e).1.toNat) n
    else chkShow (chkPut e n (chkInit (chkAlg e n) ^^^ chkSeed e n ^^^ chkFold (wr d (Adr.CHK_BYTES n) 0) n)) n := rfl

theorem chkCleared_chks (d : Dev) (n : Nat) : (chkCleared d n).chks = d.chks := by
  unfold chkCleared
  dsimp only
  split <;> rfl

theorem rg_chkCleared (d : Dev) {n a : Nat} (h : a ≠ Adr.CHK_ALIVE n) :
    rg (chkCleared d n) a = if a = Adr.CHK_BYTES n then 0 else rg d a := by
  unfold chkCleared
  dsimp only
  split
  · rw [rg_inc, if_neg h, rg_wr]
  · exact rg_wr ..

theorem rg_chkCleared_ne (d : Dev) {n a : Nat} (h : a ≠ Adr.CHK_ALIVE n) (hb : a ≠ Adr.CHK_BYTES n) :
    rg (chkCleared d n) a = rg d a := by
  rw [rg_chkCleared _ h, if_neg hb]

theorem chkSeed_congr {d e : Dev} {n : Nat} (ha : chkAlg e n = chkAlg d n)
    (hlo : rg e (Adr.CHK_SEED_LO n) = rg d (Adr.CHK_SEED_LO n)) (hhi : rg e (Adr.CHK_SEED_HI n) = rg d (Adr.CHK_SEED_HI n)) :
    chkSeed e n = chkSeed d n := by
  unfold chkSeed
  rw [ha, hlo, hhi]

theorem chkFold_congr {d e : Dev} {n : Nat} (hc : rg e (Adr.CHK_CFG n) = rg d (Adr.CHK_CFG n))
    (ha : rg e (Adr.CHK_ALIVE n) = rg d (Adr.CHK_ALIVE n)) : chkFold e n = chkFold d n := by
  unfold chkFold fd
  rw [chkAlg_congr hc, hc, ha]

/-- START clears CHK_BYTES (R399). -/
theorem chkStart_bytes (d : Dev) (n : Nat) : rg (chkStart d n) (Adr.CHK_BYTES n) = 0 := by
  have shown (e : Dev) (h : e.regs = (chkCleared d n).regs) : rg (chkShow e n) (Adr.CHK_BYTES n) = 0 := by
    rw [rg_chkShow _ (by simp only [Adr.CHK_BYTES, Adr.CHK_RES_LO]; omega) (by simp only [Adr.CHK_BYTES, Adr.CHK_RES_HI]; omega),
      rg_congr h, rg_chkCleared _ (by simp only [Adr.CHK_BYTES, Adr.CHK_ALIVE]; omega), if_pos rfl]
  rw [chkStart_eq]
  dsimp only
  split
  · exact shown _ rfl
  · exact shown _ rfl

/-- START of an implemented algorithm begins its value and shows it (R399, R401). -/
theorem chkStart_begins {d : Dev} {n : Nat} (hn : n < d.chks.length) (halg : chkAlg d n < 4) :
    (nth (chkStart d n).chks n {}).crc = chkInit (chkAlg d n) ^^^ chkSeed d n ^^^ chkFold d n ∧
    rg (chkStart d n) (Adr.CHK_RES_LO n) = w32 ((nth (chkStart d n).chks n {}).crc ^^^ chkXor (chkAlg d n)) := by
  have alg : chkAlg (chkCleared d n) n = chkAlg d n :=
    chkAlg_congr (rg_chkCleared_ne _ (by simp only [Adr.CHK_CFG, Adr.CHK_ALIVE]; omega) (by simp only [Adr.CHK_CFG, Adr.CHK_BYTES]; omega))
  have seed : chkSeed (chkCleared d n) n = chkSeed d n := chkSeed_congr alg
    (rg_chkCleared_ne _ (by simp only [Adr.CHK_SEED_LO, Adr.CHK_ALIVE]; omega) (by simp only [Adr.CHK_SEED_LO, Adr.CHK_BYTES]; omega))
    (rg_chkCleared_ne _ (by simp only [Adr.CHK_SEED_HI, Adr.CHK_ALIVE]; omega) (by simp only [Adr.CHK_SEED_HI, Adr.CHK_BYTES]; omega))
  have fold : chkFold (wr d (Adr.CHK_BYTES n) 0) n = chkFold d n := chkFold_congr
    (rg_wr_ne _ _ (by simp only [Adr.CHK_CFG, Adr.CHK_BYTES]; omega)) (rg_wr_ne _ _ (by simp only [Adr.CHK_ALIVE, Adr.CHK_BYTES]; omega))
  rw [chkStart_eq]
  dsimp only
  rw [alg, seed, fold, if_neg (by omega), chkShow_chks, rg_chkShow_lo, nth_chkPut (by rw [chkCleared_chks]; exact hn)]
  exact ⟨rfl, congrArg (fun k => w32 (_ ^^^ chkXor k)) alg⟩

/-! ### Data (R400) -/

/-- Data that find room enter the FIFO behind what it holds. -/
theorem chkFifo_chkData {d : Dev} {n : Nat} (hn : n < d.chks.length) (hroom : chkLevel d n < 16) (k : Nat) (v : W32) :
    chkFifo (chkData d n k v) n = chkFifo d n ++ [.data k v] := by
  unfold chkData
  rw [if_pos hroom]
  exact chkFifo_chkPutFifo hn _

/-- What feeding bytes leaves: the bytes counted, the register and the result moved on by them (R400, R401). -/
theorem chkFeed_feeds {d : Dev} {n : Nat} (hn : n < d.chks.length) (halg : chkAlg d n < 4) (k : Nat) (v : W32) :
    rg (chkFeed d n k v) (Adr.CHK_BYTES n) = rg d (Adr.CHK_BYTES n) + w32 k ∧
    nth (chkFeed d n k v).chks n {} = { nth d.chks n {} with
      crc := (leBytes k v.toNat).foldl (fun c b => chkByte (chkAlg d n) c b.toNat) (nth d.chks n {}).crc } ∧
    rg (chkFeed d n k v) (Adr.CHK_RES_LO n) = w32 ((nth (chkFeed d n k v).chks n {}).crc ^^^ chkXor (chkAlg d n)) := by
  have alg : chkAlg (addReg d (Adr.CHK_BYTES n) k) n = chkAlg d n :=
    chkAlg_congr (rg_wr_ne _ _ (by simp only [Adr.CHK_CFG, Adr.CHK_BYTES]; omega))
  unfold chkFeed
  dsimp only
  rw [alg, if_neg (by omega), chkShow_chks, rg_chkShow_lo, nth_chkPut (d := addReg d (Adr.CHK_BYTES n) k) hn,
    rg_chkShow _ (by simp only [Adr.CHK_BYTES, Adr.CHK_RES_LO]; omega) (by simp only [Adr.CHK_BYTES, Adr.CHK_RES_HI]; omega)]
  exact ⟨rg_wr_self .., rfl, congrArg (fun k => w32 (_ ^^^ chkXor k)) alg⟩

/-! ### Other units -/

/-- Unit `m` stands between `d` and `e`: its register, its FIFO and the words of its page (R398, R405). -/
structure ChkStands (m : Nat) (d e : Dev) : Prop where
  size : e.chks.length = d.chks.length
  unit : nth e.chks m {} = nth d.chks m {}
  words : ∀ a, a / 0x1000 = 8 + m → rg e a = rg d a

namespace ChkStands

variable {m n : Nat} {d e f : Dev}

theorem trans (h : ChkStands m d e) (k : ChkStands m e f) : ChkStands m d f :=
  ⟨k.size.trans h.size, k.unit.trans h.unit, fun a ha => (k.words a ha).trans (h.words a ha)⟩

/-- Neither the units nor the words change. -/
theorem same (h : e.chks = d.chks) (hr : e.regs = d.regs) : ChkStands m d e :=
  ⟨congrArg List.length h, congrArg (nth · m {}) h, fun a _ => rg_congr hr a⟩

theorem free (d : Dev) : ChkStands m d (takeFree d).2 := same rfl rfl

theorem foldl {α : Type} {f : Dev → α → Dev} {l : List α} (h : ∀ x ∈ l, ∀ d, ChkStands m d (f d x)) (d : Dev) :
    ChkStands m d (l.foldl f d) := by
  induction l generalizing d with
  | nil => exact same rfl rfl
  | cons x l ih => exact (h x List.mem_cons_self d).trans (ih (fun y hy => h y (List.mem_cons_of_mem _ hy)) _)

theorem wr (d : Dev) {a : Nat} (v : W32) (h : a / 0x1000 ≠ 8 + m) : ChkStands m d (wr d a v) :=
  ⟨rfl, rfl, fun _ hb => rg_wr_ne _ _ fun e => h (e ▸ hb)⟩

theorem put (d : Dev) (h : m ≠ n) (f : Chk → Chk) : ChkStands m d { d with chks := modNth d.chks n f } :=
  ⟨length_modNth .., nth_modNth_ne _ h _ _, fun _ _ => rfl⟩

theorem shown (d : Dev) (h : m ≠ n) : ChkStands m d (chkShow d n) :=
  (wr d _ (by simp only [Adr.CHK_RES_LO]; omega)).trans (wr _ _ (by simp only [Adr.CHK_RES_HI]; omega))

/-- A value put in the register of another unit, and shown. -/
theorem putShow (d : Dev) (h : m ≠ n) (v : Nat) : ChkStands m d (chkShow (chkPut d n v) n) := (put d h _).trans (shown _ h)

theorem start (d : Dev) (h : m ≠ n) : ChkStands m d (chkStart d n) := by
  have cleared : ChkStands m d (chkCleared d n) := by
    have bytes : ChkStands m d (Machine.wr d (Adr.CHK_BYTES n) 0) := wr d _ (by simp only [Adr.CHK_BYTES]; omega)
    unfold chkCleared
    dsimp only
    split
    · exact bytes.trans (wr _ _ (by simp only [Adr.CHK_ALIVE]; omega))
    · exact bytes
  rw [chkStart_eq]
  dsimp only
  split
  · exact cleared.trans ((free _).trans (putShow _ h _))
  · exact cleared.trans (putShow _ h _)

theorem feed (d : Dev) (h : m ≠ n) (k : Nat) (v : W32) : ChkStands m d (chkFeed d n k v) := by
  have counted : ChkStands m d (addReg d (Adr.CHK_BYTES n) k) := wr d _ (by simp only [Adr.CHK_BYTES]; omega)
  unfold chkFeed
  dsimp only
  split
  · exact counted.trans ((free _).trans (putShow _ h _))
  · exact counted.trans (putShow _ h _)

theorem item (d : Dev) (h : m ≠ n) (i : ChkItem) : ChkStands m d (chkItem d n i) := by
  cases i with
  | data k v => exact feed d h k v
  | start => exact start d h

theorem run (d : Dev) (h : m ≠ n) : ChkStands m d (chkRun d n) := (put d h _).trans (foldl (fun i _ d => item d h i) _)

end ChkStands

/-- A unit's turn while LCLK runs: it takes what its FIFO holds. -/
def chkTick (d : Dev) (n : Nat) : Dev := if chkFifo d n = [] then d else chkRun d n

theorem chkTicks_eq (d : Dev) : chkTicks d = (List.range 8).foldl chkTick d := rfl

theorem chkTick_stands {m n : Nat} (d : Dev) (h : m ≠ n) : ChkStands m d (chkTick d n) := by
  unfold chkTick
  split
  · exact .same rfl rfl
  · exact .run d h

/-- What LCLK does to one unit is that unit's own turn: the turns of the others, before and after it, leave it. -/
theorem chkTicks_turn (d : Dev) {n : Nat} (h : n < 8) : ∃ e, ChkStands n d e ∧ ChkStands n (chkTick e n) (chkTicks d) := by
  obtain ⟨before, after, split⟩ := List.append_of_mem (List.mem_range.2 h)
  have once : (before ++ n :: after).Nodup := split ▸ List.nodup_range
  rw [List.nodup_append, List.nodup_cons] at once
  obtain ⟨-, ⟨notAfter, -⟩, notBefore⟩ := once
  refine ⟨before.foldl chkTick d, ChkStands.foldl (fun x hx d => chkTick_stands d ?_) d, ?_⟩
  · exact fun e => notBefore x hx n List.mem_cons_self e.symm
  · rw [chkTicks_eq, split, List.foldl_append]
    exact ChkStands.foldl (fun x hx d => chkTick_stands d fun same : n = x => notAfter (same ▸ hx)) _

/-! ### The obligation -/

theorem chkCmd_or_one (d : Dev) (n : Nat) (v : W32) : chkCmd d n (v ||| 1) = chkBegin d n := if_pos (bit_or_one v)

theorem chkFifo_drive (d : Dev) (n : Nat) : chkFifo (drive d) n = chkFifo d n := by
  unfold chkFifo
  rw [drive_chks]

/-- Settles O16: each command is one operation of its unit, and while LCLK runs the turns of the other units leave the unit. -/
theorem checkUnitsCompute : Obligations.CheckUnitsCompute := by
  unfold Obligations.CheckUnitsCompute
  refine ⟨fun s req n v h8 hn hacc => ?_, fun s req n v h8 hn hroom => ?_, fun d n k v h8 hn halg hfifo => ?_⟩
  · have begins : write s.dev req (Adr.CHK_CMD n) (fun d => chkCmd d n (v ||| 1)) = chkBegin s.dev n :=
      (if_pos hacc).trans (chkCmd_or_one ..)
    refine ⟨fun hempty => does_of_run (show _ = execChkStart req n v s from rfl) ?_,
      fun hheld => does_of_run (show _ = execChkStart req n v s from rfl) ?_⟩
    · rw [if_pos h8, begins, chkBegin, if_pos hempty, rg_drive, rg_drive, drive_chks]
      exact ⟨chkStart_bytes .., chkStart_begins hn⟩
    · rw [if_pos h8, begins, chkBegin, if_neg hheld, chkFifo_drive, chkFifo_chkPutFifo hn]
  · have enters {c : Instr} {a k : Nat}
        (hc : exec c s = Machine.run s fun d => if n < 8 then write d req a fun d => chkData d n k v else d)
        (hacc : acc s.dev req a = true) : Does c s fun d => chkFifo d n = chkFifo s.dev n ++ [.data k v] := by
      refine does_of_run hc ?_
      rw [if_pos h8, write, if_pos hacc, chkFifo_drive, chkFifo_chkData hn hroom]
    exact ⟨enters rfl, enters rfl, enters rfl⟩
  · obtain ⟨e, before, after⟩ := chkTicks_turn d h8
    have held : chkFifo e n = [.data k v] := (congrArg Chk.fifo before.unit).trans hfifo
    have turn : chkTick e n = chkFeed (chkPutFifo e n []) n k v := by
      unfold chkTick chkRun
      rw [held, if_neg (by simp)]
      rfl
    have place (o : Nat) (h : o < 0x1000) : (0x8000 + o + 0x1000 * n) / 0x1000 = 8 + n := by omega
    have alg : chkAlg (chkPutFifo e n []) n = chkAlg d n := chkAlg_congr (before.words _ (place 0x100 (by decide)))
    have len : n < e.chks.length := before.size ▸ hn
    have unit : nth (chkPutFifo e n []).chks n {} = { nth d.chks n {} with fifo := [] } :=
      (nth_modNth_self _ len _ _).trans (congrArg (fun c : Chk => { c with fifo := [] }) before.unit)
    obtain ⟨bytes, fed, shown⟩ := chkFeed_feeds (d := chkPutFifo e n []) (n := n) (by simpa [chkPutFifo] using len) (alg ▸ halg) k v
    rw [turn] at after
    rw [alg, unit] at fed
    rw [fed, alg] at shown
    dsimp only
    unfold chkFifo
    rw [after.unit, fed, after.words _ (place 0x12C (by decide)), after.words _ (place 0x118 (by decide))]
    exact ⟨rfl, bytes.trans (congrArg (· + w32 k) (before.words _ (place 0x12C (by decide)))), rfl, shown⟩

end Sys2Proof.Machine
end

section
/-! SUPPORT. What the steps of a tag exchange leave alone, said narrowly (R391 to R397, R751, R752). -/

namespace Sys2Proof.Machine

/-- The four words that show the nonce. -/
def NonceWord (a : Nat) : Prop := ∃ i < 4, a = Adr.TAG_NONCE i

/-- The words that starting and ending an exchange can change. -/
def TagWord (a : Nat) : Prop := a = Adr.TAG_CTRL ∨ NonceWord a

/-- The block without what they can change beside words: it has AUTH, the count, and the link. -/
def Dev.tagRest (d : Dev) : Dev := { d with
  regs := [], outs := [], free := 0, tag := { d.tag with x := none, resid := 0, chalWait := false } }

abbrev TagFrame : Dev → Dev → Prop := Frame TagWord Dev.tagRest

theorem glr_of_tagFrame {d e : Dev} (h : TagFrame d e) : e.glr = d.glr :=
  (congrArg Dev.glr h.view : e.tagRest.glr = d.tagRest.glr)

theorem tagWord_place {a : Nat} (h : TagWord a) : 0x120100 ≤ a ∧ a < 0x120124 := by
  rcases h with rfl | ⟨i, hi, rfl⟩
  · decide
  · simp only [Adr.TAG_NONCE]
    omega

/-! ### Sending, starting and ending -/

/-- Sending changes what is put out and the free values alone. -/
theorem tagSend_keeps (d : Dev) : (tagSend d).tag = d.tag ∧ (tagSend d).regs = d.regs ∧ (tagSend d).tagRest = d.tagRest := by
  unfold tagSend
  split
  · exact ⟨rfl, rfl, rfl⟩
  · dsimp only
    split
    · split <;> exact ⟨rfl, rfl, rfl⟩
    · exact ⟨rfl, rfl, rfl⟩

theorem tagSend_tag (d : Dev) : (tagSend d).tag = d.tag := (tagSend_keeps d).1

theorem tagSend_tagFrame (d : Dev) : TagFrame d (tagSend d) :=
  have ⟨_, regs, rest⟩ := tagSend_keeps d
  Frame.of rest regs

theorem nonceWords_tag (v : Nat → W32) (d : Dev) : ((List.range 4).foldl (fun d i => wr d (Adr.TAG_NONCE i) (v i)) d).tag = d.tag := rfl

theorem nonceWords_frame (v : Nat → W32) (d : Dev) :
    Frame NonceWord Dev.tagRest d ((List.range 4).foldl (fun d i => wr d (Adr.TAG_NONCE i) (v i)) d) := by
  have word (d : Dev) {i : Nat} (h : i < 4) : Frame NonceWord Dev.tagRest d (wr d (Adr.TAG_NONCE i) (v i)) :=
    Frame.wr (fun _ _ _ => rfl) d _ _ ⟨i, h, rfl⟩
  exact (((word d (i := 0) (by decide)).trans (word _ (i := 1) (by decide))).trans (word _ (i := 2) (by decide))).trans
    (word _ (i := 3) (by decide))

/-- A started exchange is outstanding with its nonce, unrepeated (R391). -/
theorem tagStart_x (d : Dev) (adv : Bool) : (tagStart d adv).tag.x = some ⟨adv, (Config.nonce d.free).toNat, 0⟩ := by
  unfold tagStart
  dsimp only
  rw [tagSend_tag, nonceWords_tag]

/-- Starting an exchange leaves TAG_CTRL. -/
theorem rg_tagStart_ctrl (d : Dev) (adv : Bool) : rg (tagStart d adv) Adr.TAG_CTRL = rg d Adr.TAG_CTRL := by
  have apart : ¬NonceWord Adr.TAG_CTRL := by
    rintro ⟨i, -, h⟩
    simp only [Adr.TAG_CTRL, Adr.TAG_NONCE] at h
    omega
  have ⟨_, sent, _⟩ := tagSend_keeps ((List.range 4).foldl
    (fun e i => wr e (Adr.TAG_NONCE i) (w32 ((Config.nonce d.free).toNat >>> (32 * i))))
    { d with free := d.free + 1, tag := { d.tag with x := some ⟨adv, (Config.nonce d.free).toNat, 0⟩ } })
  exact (rg_congr sent _).trans ((nonceWords_frame _ _).words _ apart)

theorem tagStart_tagFrame (d : Dev) (adv : Bool) : TagFrame d (tagStart d adv) := by
  have noted : TagFrame d { d with
      free := d.free + 1, tag := { d.tag with x := some ⟨adv, (Config.nonce d.free).toNat, 0⟩ } } := Frame.of rfl rfl
  have words (v : Nat → W32) (d : Dev) := (nonceWords_frame v d).weaken id (fun _ => rfl) fun _ h => (Or.inr h : TagWord _)
  exact (noted.trans (words _ _)).trans (tagSend_tagFrame _)

theorem tagAdvance_tagFrame (d : Dev) : TagFrame d (tagAdvance d) := by
  have spent (n : Nat) : TagFrame d { d with tag := { d.tag with resid := n } } := Frame.of rfl rfl
  unfold tagAdvance
  exact Frame.ite ((spent _).trans (tagStart_tagFrame _ _)) (.refl d)

theorem setFd_tagCtrl_tagFrame (d : Dev) (hi lo v : Nat) : TagFrame d (setFd d Adr.TAG_CTRL hi lo v) :=
  Frame.wr (fun _ _ _ => rfl) d _ _ (.inl rfl)

theorem tagEnd_tagFrame (d : Dev) : TagFrame d (tagEnd d) := by
  have ended : TagFrame d { d with tag := { d.tag with x := none } } := Frame.of rfl rfl
  have taken : TagFrame d { d with tag := { d.tag with x := none, chalWait := false } } := Frame.of rfl rfl
  unfold tagEnd
  dsimp only
  refine Frame.ite (taken.trans (tagStart_tagFrame _ _)) (ended.trans (Frame.trans ?_ (tagAdvance_tagFrame _)))
  exact Frame.ite (setFd_tagCtrl_tagFrame _ _ _ _) (.refl _)

/-! ### The count (R392, R395) -/

theorem err_tag (d : Dev) (base b : Nat) (i0 i1 : W32) : (err d base b i0 i1).tag = d.tag :=
  (congrArg Dev.tag (err_errRest d base b i0 i1) : (err d base b i0 i1).errRest.tag = d.errRest.tag)

theorem err_glrSt (d : Dev) (base b : Nat) (i0 i1 : W32) : (err d base b i0 i1).glr.st = d.glr.st :=
  (congrArg (fun d : Dev => d.glr.st) (err_errRest d base b i0 i1) : (err d base b i0 i1).errRest.glr.st = d.errRest.glr.st)

theorem tagSetCount_tag (d : Dev) (c : Nat) : (tagSetCount d c).tag = { d.tag with count := c % 4294967296 } := by
  unfold tagSetCount
  dsimp only
  split
  · exact err_tag ..
  · rfl

theorem tagSetCount_glrSt (d : Dev) (c : Nat) : (tagSetCount d c).glr.st = d.glr.st := by
  unfold tagSetCount
  dsimp only
  split
  · exact err_glrSt ..
  · rfl

/-! ### What an exchange's end and the acknowledgement keep -/

/-- AUTH, the count and the words of TAG's common header stand. -/
structure TagKeeps (d e : Dev) : Prop where
  auth : e.tag.auth = d.tag.auth
  count : e.tag.count = d.tag.count
  head : ∀ a, 0x120000 ≤ a → a < 0x120100 → rg e a = rg d a

namespace TagKeeps

variable {d e f : Dev}

theorem trans (h : TagKeeps d e) (k : TagKeeps e f) : TagKeeps d f :=
  ⟨k.auth.trans h.auth, k.count.trans h.count, fun a lo hi => (k.head a lo hi).trans (h.head a lo hi)⟩

theorem of_tagFrame (h : TagFrame d e) : TagKeeps d e where
  auth := (congrArg (fun d : Dev => d.tag.auth) h.view : e.tagRest.tag.auth = d.tagRest.tag.auth)
  count := (congrArg (fun d : Dev => d.tag.count) h.view : e.tagRest.tag.count = d.tagRest.tag.count)
  head := fun _ _ hi => h.words _ fun w => by
    have := tagWord_place w
    omega

theorem tagEnd (d : Dev) : TagKeeps d (tagEnd d) := of_tagFrame (tagEnd_tagFrame d)

theorem glrTagged (d : Dev) : TagKeeps d (glrTagged d) := by
  unfold Machine.glrTagged
  split <;> exact ⟨rfl, rfl, fun _ _ _ => rfl⟩

theorem ackTake (d : Dev) : TagKeeps d (ackTake d) := by
  have tag : (Machine.ackTake d).tag = d.tag :=
    (congrArg Dev.tag (ackTake_sealFrame d).view : (Machine.ackTake d).sealRest.tag = d.sealRest.tag)
  refine ⟨by rw [tag], by rw [tag], fun a lo hi => (ackTake_sealFrame d).words a fun w => ?_⟩
  unfold SealWord at w
  simp only [Adr.GLB_SEAL_INDEX, Adr.GLB_SEAL_WR, Adr.GLB_SEAL_STAT, Page.base, oEVTPEND, Adr.GLR_CNT_RESEND] at w
  omega

theorem drive (d : Dev) : TagKeeps d (drive d) := ⟨by rw [drive_tag], by rw [drive_tag], fun _ _ _ => rg_drive ..⟩

/-- So they do through what follows the answer to a challenge. -/
theorem answered (d : Dev) : TagKeeps d (Machine.drive (Machine.ackTake (Machine.glrTagged (Machine.tagEnd d)))) :=
  ((tagEnd _).trans (glrTagged _)).trans ((ackTake _).trans (drive _))

theorem latched (h : TagKeeps d e) (b : Nat) : latched e (Page.tag.base 0) b = latched d (Page.tag.base 0) b :=
  latched_congr (h.head _ (by decide) (by decide)) b

theorem pends (h : TagKeeps d e) (b : Nat) : pends e (Page.tag.base 0) b = pends d (Page.tag.base 0) b :=
  pends_congr (h.head _ (by decide) (by decide)) b

end TagKeeps

end Sys2Proof.Machine
end

section
/-! PROOF. Plate-tag exchanges: how they begin, repeat and end (R392, R393, R395, R396, R751, R752). -/

namespace Sys2Proof.Machine

/-! ### Answers of the plate (R392, R395) -/

/-- Which MAC is right follows from the key that TAG_CTRL names and from the plate's identity (R391, R641). -/
theorem tagRight_congr {d e : Dev} (hn : e.nvm = d.nvm) (hc : rg e Adr.TAG_CTRL = rg d Adr.TAG_CTRL) (hp : e.glr.plate = d.glr.plate)
    (label : String) (nonce count mac : Nat) : tagRight e label nonce count mac = tagRight d label nonce count mac := by
  unfold tagRight tagMac tagKey fd
  rw [hn, hc, hp]

/-- A message that arrives in turn is taken, and leaves TAG, the right MACs, and the step and plate of the link (R377). -/
theorem rxMsg_taken {d : Dev} {n q : Nat} (h : NextMsg d n q) : ∃ e, rxMsg d n q = (true, e) ∧ e.tag = d.tag ∧
    e.glr.st = d.glr.st ∧ e.glr.plate = d.glr.plate ∧
    ∀ label nonce count mac, tagRight e label nonce count mac = tagRight d label nonce count mac :=
  ⟨_, rxMsg_next h, rfl, rfl, rfl, tagRight_congr rfl rfl rfl⟩

/-- A right TAG_RESP sets AUTH, takes the count, and ends the challenge (R392). -/
theorem tagResp_right {d : Dev} {x : TagX} (hx : d.tag.x = some x) (hadv : x.adv = false) {plate count mac : Nat}
    (hp : plate = d.glr.plate) (h : tagRight d "KQTC" x.nonce count mac = true) : tagResp d plate count mac =
      (tagEnd (tagSetCount { d with tag := { d.tag with auth := true, resid := 0 } } count), true) := by
  unfold tagResp
  rw [hx]
  dsimp only
  rw [hadv, if_neg Bool.false_ne_true, if_pos ⟨hp, h⟩]

/-- A wrong TAG_RESP clears AUTH, latches TAG_FAIL, and ends the challenge (R392). -/
theorem tagResp_wrong {d : Dev} {x : TagX} (hx : d.tag.x = some x) (hadv : x.adv = false) {plate count mac : Nat}
    (h : tagRight d "KQTC" x.nonce count mac = false) : tagResp d plate count mac =
      (tagEnd (tagErr { d with tag := { d.tag with auth := false } } Bit.err_TAG_TAG_FAIL), true) := by
  unfold tagResp
  rw [hx]
  dsimp only
  rw [hadv, if_neg Bool.false_ne_true, if_neg (by simp [h])]

/-- A right TAG_ACK takes the advanced count, raises ADVANCED, and ends the advance (R395). -/
theorem tagAck_right {d : Dev} {x : TagX} (hx : d.tag.x = some x) (hadv : x.adv = true) {mac : Nat}
    (h : tagRight d "KQTB" x.nonce ((d.tag.count + 1) % 2 ^ 32) mac = true) : tagAck d mac =
      tagEnd (evt (tagSetCount d ((d.tag.count + 1) % 2 ^ 32)) (Page.tag.base 0) Bit.evt_TAG_ADVANCED) := by
  unfold tagAck
  rw [hx]
  dsimp only
  rw [hadv, if_neg (by decide)]
  exact if_pos h

/-- An exchange unanswered is sent again (R396). -/
theorem tagRetry_repeats {d : Dev} {x : TagX} (hx : d.tag.x = some x) (h : x.repeats < 3) : tagRetry d =
    (tagSend { d with tag := { d.tag with x := some { x with repeats := x.repeats + 1 } } }, false) := by
  unfold tagRetry
  rw [hx]
  exact if_pos h

/-- After three repeats it ends with TAG_TIMEOUT (R396). -/
theorem tagRetry_ends {d : Dev} {x : TagX} (hx : d.tag.x = some x) (h : 3 ≤ x.repeats) : tagRetry d =
    (tagEnd (tagErr d Bit.err_TAG_TAG_TIMEOUT), true) := by
  unfold tagRetry
  rw [hx]
  exact if_neg (Nat.not_lt.2 h)

/-! ### The link after an exchange (R752) -/

theorem latched_tagErr (d : Dev) {b : Nat} (h : b < 32) : latched (tagErr d b) (Page.tag.base 0) b = true :=
  latched_err _ _ _ _ _ (by decide) (by decide) h

/-- An exchange of a link that has just come up moves it to TAGGED (R752). -/
theorem glrTagged_st {d : Dev} (h : d.glr.st = 6) : (glrTagged d).glr.st = 7 := by
  unfold glrTagged
  rw [if_pos h]
  rfl

theorem ackTake_glrSt (d : Dev) : (ackTake d).glr.st = d.glr.st :=
  (congrArg (fun d : Dev => d.glr.st) (ackTake_sealFrame d).view : (ackTake d).sealRest.glr.st = d.sealRest.glr.st)

/-! ### CHAL (R751) -/

/-- CHAL with the link up and no exchange outstanding starts a challenge, and CHAL reads 1 (R751). -/
theorem tagCtrl_chal {d : Dev} (hup : linkUp d = true) (hx : d.tag.x = none) (v : W32) :
    (tagCtrl d (v ||| 1)).tag.x = some ⟨false, (Config.nonce d.free).toNat, 0⟩ ∧
    bit (rg (tagCtrl d (v ||| 1)) Adr.TAG_CTRL) 0 = true := by
  have starts : tagCtrl d (v ||| 1) =
      tagStart (setFd (wr d Adr.TAG_CTRL ((rg d Adr.TAG_CTRL &&& 1) ||| ((v ||| 1) &&& 0xF2))) Adr.TAG_CTRL 0 0 1) false := by
    have up (w : W32) : linkUp (wr d Adr.TAG_CTRL w) = true := hup
    unfold tagCtrl
    dsimp only
    rw [bit_or_one, if_pos rfl, tagChal, up, if_neg (by decide)]
    dsimp only
    rw [setFd_tag, wr_tag, hx]
    rfl
  rw [starts]
  refine ⟨tagStart_x _ _, ?_⟩
  rw [rg_tagStart_ctrl, rg_setFd, if_pos rfl, bit_setBits _ _ _ (by decide) (by decide)]
  rfl

/-! ### The commands of the plate's answers -/

/-- A right TAG_RESP sets AUTH and takes the count, and a link that has just come up is then TAGGED (R392, R752). -/
theorem does_tagResp_right {s : State} {n rseq count mac : Nat} {x : TagX} (next : NextMsg s.dev n rseq)
    (hx : s.dev.tag.x = some x) (hadv : x.adv = false)
    (right : tagRight s.dev "KQTC" x.nonce (count % 2 ^ 32) mac = true) :
    Does (.tagResp n rseq s.dev.glr.plate count mac) s fun d =>
      d.tag.auth = true ∧ d.tag.count = count % 2 ^ 32 ∧ (s.dev.glr.st = 6 → d.glr.st = 7) := by
  obtain ⟨e, taken, tag, st, plate, macs⟩ := rxMsg_taken next
  refine does_of_run (show _ = execTagResp n rseq s.dev.glr.plate count mac s from rfl) ?_
  rw [taken]
  dsimp only
  rw [tagResp_right (tag ▸ hx) hadv plate.symm ((macs ..).trans right)]
  simp only [Bool.not_true, Bool.false_eq_true, if_false, if_true]
  generalize hf : tagSetCount { e with tag := { e.tag with auth := true, resid := 0 } } (count % 2 ^ 32) = f
  have answer : f.tag = { e.tag with auth := true, resid := 0, count := count % 2 ^ 32 } := by
    rw [← hf, tagSetCount_tag, show count % 2 ^ 32 % 4294967296 = count % 2 ^ 32 from Nat.mod_mod ..]
  have kept := TagKeeps.answered f
  refine ⟨by rw [kept.auth, answer], by rw [kept.count, answer], fun six => ?_⟩
  rw [drive_glr, ackTake_glrSt]
  refine glrTagged_st ?_
  rw [glr_of_tagFrame (tagEnd_tagFrame f), ← hf, tagSetCount_glrSt]
  exact st.trans six

/-- A wrong TAG_RESP clears AUTH and latches TAG_FAIL (R392). -/
theorem does_tagResp_wrong {s : State} {n rseq count mac : Nat} {x : TagX} (next : NextMsg s.dev n rseq)
    (hx : s.dev.tag.x = some x) (hadv : x.adv = false)
    (wrong : tagRight s.dev "KQTC" x.nonce (count % 2 ^ 32) mac = false) :
    Does (.tagResp n rseq s.dev.glr.plate count mac) s fun d =>
      d.tag.auth = false ∧ latched d (Page.tag.base 0) Bit.err_TAG_TAG_FAIL = true := by
  obtain ⟨e, taken, tag, -, -, macs⟩ := rxMsg_taken next
  refine does_of_run (show _ = execTagResp n rseq s.dev.glr.plate count mac s from rfl) ?_
  rw [taken]
  dsimp only
  rw [tagResp_wrong (tag ▸ hx) hadv ((macs ..).trans wrong)]
  simp only [Bool.not_true, Bool.false_eq_true, if_false, if_true]
  generalize hf : tagErr { e with tag := { e.tag with auth := false } } Bit.err_TAG_TAG_FAIL = f
  have kept := TagKeeps.answered f
  rw [kept.auth, kept.latched, ← hf]
  exact ⟨congrArg Tag.auth (err_tag ..), latched_tagErr _ (by decide)⟩

/-- A right TAG_ACK advances the count and raises ADVANCED (R395). -/
theorem does_tagAck_right {s : State} {n rseq count mac : Nat} {x : TagX} (next : NextMsg s.dev n rseq)
    (hx : s.dev.tag.x = some x) (hadv : x.adv = true)
    (right : tagRight s.dev "KQTB" x.nonce ((s.dev.tag.count + 1) % 2 ^ 32) mac = true) :
    Does (.tagAck n rseq count mac) s fun d =>
      d.tag.count = (s.dev.tag.count + 1) % 2 ^ 32 ∧ pends d (Page.tag.base 0) Bit.evt_TAG_ADVANCED = true := by
  obtain ⟨e, taken, tag, -, -, macs⟩ := rxMsg_taken next
  refine does_of_run (show _ = execTagAck n rseq count mac s from rfl) ?_
  rw [taken]
  dsimp only
  rw [if_pos rfl, tagAck_right (tag ▸ hx) hadv ((macs ..).trans (tag ▸ right))]
  have kept (f : Dev) : TagKeeps f (drive (ackTake (tagEnd f))) :=
    (TagKeeps.tagEnd _).trans ((TagKeeps.ackTake _).trans (.drive _))
  rw [(kept _).count, (kept _).pends, evt_tag, tagSetCount_tag, tag]
  exact ⟨Nat.mod_mod .., pends_evt _ _ (by decide)⟩

/-! ### The obligation -/

/-- Settles O15: each answer ends its exchange, and what the end and the acknowledgement do afterwards leaves AUTH, the count and TAG's
events and errors. -/
theorem tagExchangesEnd : Obligations.TagExchangesEnd := by
  unfold Obligations.TagExchangesEnd
  refine ⟨fun s req v hacc hup hx => ?_, fun s n rseq count mac x next hx hadv right => ?_,
    fun s n rseq count mac x next hx hadv wrong => ?_, fun s n rseq count mac x next hx hadv right => ?_,
    fun s x hx hfew => ?_, fun s x hx hmany => ?_⟩
  · refine does_of_run (show _ = execChal req v s from rfl) ?_
    rw [write, if_pos hacc, drive_tag, rg_drive]
    exact tagCtrl_chal hup hx v
  · exact does_tagResp_right next hx hadv right
  · exact does_tagResp_wrong next hx hadv wrong
  · exact does_tagAck_right next hx hadv right
  · refine does_of_run (show _ = execTagRetry s from rfl) ?_
    simp only [tagRetry_repeats hx hfew, Bool.false_eq_true, if_false]
    exact congrArg Tag.x ((drive_tag _).trans (tagSend_tag _))
  · refine does_of_run (show _ = execTagRetry s from rfl) ?_
    simp only [tagRetry_ends hx hmany, if_true]
    exact ((((TagKeeps.tagEnd _).trans (.glrTagged _)).trans (.drive _)).latched _).trans (latched_tagErr _ (by decide))

end Sys2Proof.Machine
end

section
/-! SUPPORT. What raising errors and events of any page, losing a lane, and the link's going down can change, said narrowly (R369 to
R373, R389, R606, R738). -/

namespace Sys2Proof.Machine

/-! ### A lane as it was put -/

theorem lane_congr {d e : Dev} (h : e.glr = d.glr) (n : Nat) : lane e n = lane d n := by
  unfold lane
  rw [h]

theorem lane_setLane_self {d : Dev} {n : Nat} (h : n < d.glr.lanes.length) (f : Lane → Lane) :
    lane (setLane d n f) n = f (lane d n) := nth_modNth_self _ h f _

theorem lane_setLane_ne (d : Dev) {n m : Nat} (h : m ≠ n) (f : Lane → Lane) : lane (setLane d n f) m = lane d m :=
  nth_modNth_ne _ h f _

/-- A flag that a change of a lane clears reads 0 then, whether the block has the lane or not. -/
theorem setLane_clears {p : Lane → Bool} (h0 : p {} = false) {f : Lane → Lane} {d : Dev} {n : Nat} (hf : p (f (lane d n)) = false) :
    p (lane (setLane d n f) n) = false := by
  by_cases h : n < d.glr.lanes.length
  · exact (congrArg p (nth_modNth_self _ h _ _)).trans hf
  · have beyond : lane (setLane d n f) n = {} := List.getD_eq_default _ _ (by
      rw [setLane, setGlr_self, length_modNth]
      omega)
    rw [beyond, h0]

/-! ### Flags -/

/-- Where the flags and the injection stand in a page's common header (R606, R738). -/
def flagOffsets : List Nat := [oEVTPEND, oERRLATCH, oINFO0, oINFO1, oINJECT]

/-- The words that raising errors and events of any page, and the link's going down, can change: those of an error's response, the
flags and injections of pages, and TAG_CTRL. -/
def FlagWord (a : Nat) : Prop := ErrWord a ∨ a % 0x1000 ∈ flagOffsets ∨ a = Adr.TAG_CTRL

/-- `e` differs from `d` in nothing but flags and what the response to an error can change. -/
abbrev FlagFrame : Dev → Dev → Prop := Frame FlagWord Dev.errRest

/-- `e` differs from `d` in nothing but flags, the link, the tag and STC. -/
abbrev DownFrame : Dev → Dev → Prop := Frame FlagWord Dev.linkRest

theorem Frame.flag {d e : Dev} (h : ErrFrame d e) : FlagFrame d e := h.weaken id (fun _ => rfl) fun _ w => .inl w

theorem Frame.down {d e : Dev} (h : FlagFrame d e) : DownFrame d e := ⟨linkRest_of_err h.view, h.words⟩

/-- A word of a page's common header is a flag or an injection whatever the page. -/
theorem flagWord_base (p : Page) (n : Nat) {o : Nat} (h : o ∈ flagOffsets) : FlagWord (p.base n + o) := by
  have base := base_mod p n
  have small : o < 0x1000 := by
    revert o
    decide
  refine .inr (.inl ?_)
  rwa [show (p.base n + o) % 0x1000 = o by omega]

/-- No word of a lane's page is a flag but those of its header. -/
theorem not_flagWord_lane (n : Nat) {o : Nat} (h : o < 0x1000) (hf : o ∉ flagOffsets) : ¬FlagWord (Page.lane.base n + o) := by
  have base := base_mod .lane n
  have place : (Page.lane.base n + o) % 0x1000 = o := by omega
  have high : 0x150000 ≤ Page.lane.base n := by
    simp only [Page.base]
    omega
  rintro (w | w | w)
  · rcases errWord_place w with w | w | w
    · omega
    · omega
    · exact hf (by rw [place.symm.trans w]; decide)
  · exact hf (place ▸ w)
  · simp only [Adr.TAG_CTRL] at w
    omega

theorem not_flagWord_cntLane : ¬FlagWord Adr.GLR_CNT_LANE := by
  rintro (w | w | w)
  · rcases errWord_place w with w | w | w <;> exact absurd w (by decide)
  · exact absurd w (by decide)
  · exact absurd w (by decide)

/-! ### Errors, events and entries -/

theorem evt_flagFrame (d : Dev) (p : Page) (n b : Nat) : FlagFrame d (evt d (p.base n) b) :=
  ⟨evt_errRest d _ b, fun _ ha => rg_evt_ne d _ b fun e => ha (e ▸ flagWord_base p n (by decide))⟩

theorem err_flagFrame (d : Dev) (p : Page) (n b : Nat) (i0 i1 : W32) : FlagFrame d (err d (p.base n) b i0 i1) :=
  ⟨err_errRest .., fun _ ha => rg_err d _ b i0 i1 (fun w => ha (.inl w)) (fun e => ha (e ▸ flagWord_base p n (by decide)))
    (fun e => ha (e ▸ flagWord_base p n (by decide))) fun e => ha (e ▸ flagWord_base p n (by decide))⟩

theorem glrErr_flagFrame (d : Dev) (b l : Nat) (x : W32) : FlagFrame d (glrErr d b l x) := err_flagFrame d .glr 0 b _ x

theorem listCheck_flagFrame (d : Dev) : FlagFrame d (listCheck d) := by
  unfold listCheck
  dsimp only
  refine Frame.ite (Frame.after (halt_errFrame _).flag ?_) (.refl d)
  exact Frame.after (err_flagFrame _ .bob 0 _ _ _) (abortStripe_errFrame _ _).flag

theorem histEnts_flagFrame (d : Dev) (h : Hist) (l : List EntWords) : FlagFrame d (histEnts d h l) := by
  have added (l : List MEnt) : FlagFrame d (addEnts d l) :=
    Frame.ite (.refl d) ((putEnts_errFrame l d).flag.trans (listCheck_flagFrame _))
  exact Frame.ite (.refl d) (added _)

theorem injTake_flagFrame (d : Dev) (p : Page) (n : Nat) (onWrite : Bool) : FlagFrame d (injTake d (p.base n) onWrite).2 := by
  have armed (v : W32) : FlagFrame d (wr d (p.base n + oINJECT) v) :=
    Frame.wr (fun _ _ _ => rfl) d _ _ (flagWord_base p n (by decide))
  have counted (d : Dev) : FlagFrame d (inc d Adr.MEI_CNT_CE) := (inc_errFrame d _ (by unfold ErrWord; simp)).flag
  unfold injTake
  dsimp only
  split
  · exact .refl d
  · exact (armed _).trans (Frame.ite (counted _) (.refl _))

theorem lostPackets_flagFrame (d : Dev) (l : Nat) (ks : List Nat) : FlagFrame d (lostPackets d l ks) := by
  have read : FlagFrame d (histRead d l).2.2 := by
    rw [histRead_dev]
    exact injTake_flagFrame d .glr 0 false
  unfold lostPackets
  refine Frame.ite (.refl d) ?_
  dsimp only
  split
  · exact read.trans (histEnts_flagFrame _ _ _)
  · exact Frame.ite (read.trans (glrErr_flagFrame _ _ _ _)) read

/-! ### The link goes down (R389) -/

/-- The range of frames not acknowledged is latched and marked as an old link's (R385, R389). -/
def rangeKept (d : Dev) : Dev :=
  let d := latchUnack d
  if unackEmpty d then d else setGlr d fun g => { g with unackOld := true }

/-- GLR, TAG and the map as the link's going down leaves them, before LINK_DOWN is raised and the stripe in progress ends (R389). -/
def linkCut (d : Dev) : Dev :=
  setDbm (tagDown (setGlr (glrOff d) fun g => { g with frames := d.glr.frames })) fun m => { m with
    valid := false, pendMap := false, heldOld := m.heldOld || m.heldMap.isSome }

/-- GLR is OFF with no lane in use, the map is not valid and AUTH is clear. -/
structure LinkLost (d : Dev) : Prop where
  off : d.glr.st = 0
  lanes : ∀ n, (lane d n).live = false
  map : d.stc.dbm.valid = false
  tag : d.tag.auth = false

theorem glrOff_glr (d : Dev) : (glrOff d).glr = { d.glr with
    st := 0, lclk := false, map := [], mapPrev := [], frames := [], rxMiss := [], rxLost := [], resends := [], buf := []
    ackWant := none, parts := [], dbmAsked := false, half := false, rateLimited := false, leaving := []
    lanes := d.glr.lanes.map fun l => { l with live := false, lock := false, fec := false, pendLive := false } } := by
  unfold glrOff glrEvt
  dsimp only
  split
  · rw [evt_glr]
    rfl
  · rfl

theorem glrOff_downFrame (d : Dev) : DownFrame d (glrOff d) := by
  have put (f : Glr → Glr) : DownFrame d (setGlr d f) := Frame.of rfl rfl
  exact Frame.ite ((put _).trans (evt_flagFrame _ .glr 0 _).down) (put _)

theorem glrOff_live (d : Dev) (n : Nat) : (lane (glrOff d) n).live = false := by
  unfold lane nth
  rw [glrOff_glr, List.getD_eq_getElem?_getD]
  dsimp only
  rw [List.getElem?_map]
  cases d.glr.lanes[n]? <;> rfl

theorem linkCut_lost (d : Dev) : LinkLost (linkCut d) :=
  ⟨congrArg Glr.st (glrOff_glr d), glrOff_live d, rfl, rfl⟩

theorem rangeKept_downFrame (d : Dev) : DownFrame d (rangeKept d) := by
  have put (e : Dev) (f : Glr → Glr) : DownFrame e (setGlr e f) := Frame.of rfl rfl
  have latched : DownFrame d (latchUnack d) := by
    unfold latchUnack
    dsimp only
    split
    · exact .refl d
    · split
      · exact .refl d
      · exact put _ _
  exact latched.trans (Frame.ite (.refl _) (put _ _))

theorem linkCut_downFrame (d : Dev) : DownFrame d (linkCut d) := by
  have tag (e : Dev) : DownFrame e (tagDown e) :=
    Frame.trans (e := { e with tag := { e.tag with auth := false, x := none, chalWait := false } }) (Frame.of rfl rfl)
      (Frame.wr (fun _ _ _ => rfl) _ _ _ (.inr (.inr rfl)))
  have frames (e : Dev) (l : List Frm) : DownFrame e (setGlr e fun g => { g with frames := l }) := Frame.of rfl rfl
  have map (e : Dev) (f : Dbm → Dbm) : DownFrame e (setDbm e f) := Frame.of rfl rfl
  exact Frame.after (map _ _) (Frame.after (tag _) (Frame.after (frames _ _) (glrOff_downFrame d)))

/-- What follows the cut is what the response to errors may do (R296, R385, R389, R564). -/
theorem linkDownIf_up {d : Dev} (h : linkUp d = true) (raise : Bool) : ∃ l x,
    ErrFrame (if raise then glrErr (linkCut (rangeKept d)) Bit.err_GLR_LINK_DOWN l x
      else linkCut (rangeKept d)) (linkDownIf raise d) := by
  have stopped (e : Dev) : ErrFrame e (if exposing e then halt (abortStripe (muzMoment e) (some 5)) else e) :=
    Frame.ite ((muzMoment_errFrame _).trans ((abortStripe_errFrame _ _).trans (halt_errFrame _))) (.refl e)
  have frames (e : Dev) : ErrFrame e (setGlr e fun g => { g with frames := [] }) := Frame.of rfl rfl
  unfold linkDownIf
  rw [h, if_neg (by decide)]
  dsimp only
  exact ⟨_, _, Frame.after (frames _) (Frame.after (sealDown_errFrame _) (stopped _))⟩

theorem LinkLost.of_errRest {d e : Dev} (h : LinkLost d) (hr : e.errRest = d.errRest) : LinkLost e where
  off := (congrArg (fun d : Dev => d.glr.st) hr : e.errRest.glr.st = d.errRest.glr.st).trans h.off
  lanes n := (congrArg (fun d => (lane d n).live) hr : (lane e.errRest n).live = (lane d.errRest n).live).trans (h.lanes n)
  map := (congrArg (fun d : Dev => d.stc.dbm.valid) hr : e.errRest.stc.dbm.valid = d.errRest.stc.dbm.valid).trans h.map
  tag := (congrArg (fun d : Dev => d.tag.auth) hr : e.errRest.tag.auth = d.errRest.tag.auth).trans h.tag

theorem linkDownIf_lost {d : Dev} (h : linkUp d = true) (raise : Bool) : LinkLost (linkDownIf raise d) := by
  obtain ⟨l, x, frame⟩ := linkDownIf_up h raise
  refine LinkLost.of_errRest ?_ frame.view
  split
  · exact (linkCut_lost _).of_errRest (err_errRest ..)
  · exact linkCut_lost _

theorem linkDown_latched {d : Dev} (h : linkUp d = true) :
    latched (linkDown d) (Page.glr.base 0) Bit.err_GLR_LINK_DOWN = true := by
  obtain ⟨l, x, frame⟩ := linkDownIf_up h true
  rw [if_pos rfl] at frame
  refine (latched_congr (frame.words _ (not_errWord_errLatch (by decide) (by decide))) _).trans ?_
  exact latched_err _ _ _ _ _ (by decide) (by decide) (by decide)

theorem linkDown_downFrame {d : Dev} (h : linkUp d = true) : DownFrame d (linkDown d) := by
  obtain ⟨l, x, frame⟩ := linkDownIf_up h true
  rw [if_pos rfl] at frame
  exact ((rangeKept_downFrame d).trans (linkCut_downFrame _)).trans ((glrErr_flagFrame _ _ _ _).trans frame.flag).down

/-- After the link's check it is as it was, with a return lane in use, or down where it was up (R373, R389). -/
theorem linkCheck_cases (d : Dev) : (linkCheck d = d ∧ (linkUp d = true → ∃ i < 4, (lane d (48 + i)).live = true)) ∨
    (linkUp d = true ∧ linkCheck d = linkDown d) := by
  unfold linkCheck
  dsimp only
  split
  · next h =>
    rw [Bool.and_eq_true] at h
    exact .inr ⟨h.1, rfl⟩
  · next h =>
    refine .inl ⟨rfl, fun up => ?_⟩
    simp only [up, Bool.true_and, Bool.or_eq_true, decide_eq_true_eq, not_or, List.length_eq_zero_iff] at h
    obtain ⟨i, hi⟩ := List.exists_mem_of_ne_nil _ h.2
    rw [List.mem_filter, List.mem_range] at hi
    exact ⟨i, hi⟩

/-! ### Lanes leave the map (R369 to R373) -/

/-- Flags, the link, the tag and STC may change, but no lane comes into use. -/
structure LanesOnlyLeave (d e : Dev) : Prop where
  frame : DownFrame d e
  out : ∀ n, (lane d n).live = false → (lane e n).live = false

namespace LanesOnlyLeave

variable {d e f : Dev}

theorem trans (h : LanesOnlyLeave d e) (k : LanesOnlyLeave e f) : LanesOnlyLeave d f :=
  ⟨h.frame.trans k.frame, fun n hn => k.out n (h.out n hn)⟩

theorem flag (h : FlagFrame d e) : LanesOnlyLeave d e where
  frame := h.down
  out n hn := (congrArg (fun d => (lane d n).live) h.view : (lane e.errRest n).live = (lane d.errRest n).live).trans hn

theorem refl (d : Dev) : LanesOnlyLeave d d := flag (.refl d)

theorem mapChanged (d : Dev) : LanesOnlyLeave d (mapChanged d) := by
  have told : LanesOnlyLeave d (glrEvt d Bit.evt_GLR_MAP_CHANGE) := flag (evt_flagFrame d .glr 0 _)
  have rate (e : Dev) (b : Bool) : LanesOnlyLeave e (setGlr e fun g => { g with rateLimited := b }) :=
    ⟨Frame.of rfl rfl, fun _ h => h⟩
  unfold Machine.mapChanged
  dsimp only
  split
  · exact (told.trans (rate _ _)).trans (flag (glrErr_flagFrame _ _ _ _))
  · exact told.trans (rate _ _)

theorem linkCheck (d : Dev) : LanesOnlyLeave d (linkCheck d) := by
  obtain ⟨same, -⟩ | ⟨up, down⟩ := linkCheck_cases d
  · rw [same]
    exact refl d
  · rw [down]
    exact ⟨linkDown_downFrame up, fun n _ => (linkDownIf_lost up true).lanes n⟩

end LanesOnlyLeave

/-- What follows a lane's leaving the map, until the map is in line (R371). -/
theorem laneDrop_leaves {d : Dev} {n : Nat} (h : (lane d n).live = true) (unsent : Nat) :
    LanesOnlyLeave (laneOut d n) (laneDrop d n unsent) := by
  have lost (e : Dev) : FlagFrame e (err e (Page.lane.base n) Bit.err_LANE_LANE_LOST (w32 ((laneOut d n).glr.lseq.getD 0)) 0) :=
    err_flagFrame e .lane n _ _ _
  unfold laneDrop
  rw [h, if_neg (by decide)]
  dsimp only
  refine .flag (Frame.after (lost _) ?_)
  split
  · exact .refl _
  · exact (lostPackets_flagFrame _ _ _).trans (lostPackets_flagFrame _ _ _)

end Sys2Proof.Machine
end

section
/-! PROOF. Bring-up of the Glaur link, its time-outs, and the loss of its return lanes (R388, R389, R752). -/

namespace Sys2Proof.Machine

/-! ### Step, frame count, acknowledgement and half-time -/

/-- GLR_LINK.STATE, LSEQ of the last frame, GLR_ACK, and whether half of the time-out has passed. -/
def upView (d : Dev) : Nat × Option Nat × Nat × Bool := (d.glr.st, d.glr.lseq, d.glr.ack, d.glr.half)

theorem upView_congr {d e : Dev} (h : e.glr = d.glr) : upView e = upView d := by
  unfold upView
  rw [h]

theorem upView_of_errRest {d e : Dev} (h : e.errRest = d.errRest) : upView e = upView d :=
  (congrArg upView h : upView e.errRest = upView d.errRest)

theorem upView_evt (d : Dev) (base b : Nat) : upView (evt d base b) = upView d := upView_congr (evt_glr ..)

theorem upView_mapChanged (d : Dev) : upView (mapChanged d) = upView d := by
  have told (c : Bool) : upView (setGlr (glrEvt d Bit.evt_GLR_MAP_CHANGE) fun g => { g with rateLimited := c }) = upView d :=
    upView_evt d _ _
  unfold mapChanged
  dsimp only
  split
  · exact (upView_of_errRest (err_errRest ..)).trans (told _)
  · exact told _

/-! ### The link comes up (steps 8 to 10 of R388) -/

/-- The lanes that are locked, aligned and within R369. -/
def goodLanes (d : Dev) : List Nat :=
  (List.range 48).filter fun n => laneAllowed d n && (lane d n).lock && (lane d n).fec && laneGood d n

/-- Step 8 is complete, and enough lanes are good. -/
def ComesUp (d : Dev) : Prop :=
  d.glr.st = 5 ∧ d.glr.aligned = true ∧ trainStep d (fun l => l.lock && l.fec) = true ∧
  fd d Adr.GLR_CFG 5 0 ≤ (goodLanes d).length

/-- The link is then in state 6 with no frame begun and none acknowledged. -/
theorem upView_glrLinkUp {d : Dev} (h : ComesUp d) : upView (glrLinkUp d) = (6, none, 0xFFFFFFFF, d.glr.half) := by
  obtain ⟨hst, haligned, htrained, henough⟩ := h
  unfold goodLanes at henough
  unfold glrLinkUp
  dsimp only
  rw [if_neg (by simp [hst, haligned, htrained]; omega), upView_congr (glr_of_tagFrame (tagStart_tagFrame _ _)), upView_mapChanged]
  refine (upView_evt ..).trans ((foldl_keeps upView (fun d n => upView_evt d _ _) _ _).trans ?_)
  unfold upView
  rw [setDbm_glr, setGlr_self]
  dsimp only
  rw [foldl_keeps (fun d : Dev => d.glr.half) fun d n => ?_]
  split <;> rfl

theorem glrLinkUp_of_not {d : Dev} (h : ¬ComesUp d) : glrLinkUp d = d := by
  unfold glrLinkUp
  refine if_pos ?_
  unfold ComesUp goodLanes at h
  by_contra no
  simp only [ne_eq, not_or, not_not, Bool.not_eq_true', Bool.not_eq_false, Nat.not_lt] at no
  exact h no

theorem glrLinkUp_half (d : Dev) : (glrLinkUp d).glr.half = d.glr.half := by
  by_cases h : ComesUp d
  · exact congrArg (·.2.2.2) (upView_glrLinkUp h)
  · rw [glrLinkUp_of_not h]

theorem tuneDone_half (d : Dev) : (tuneDone d).glr.half = d.glr.half := by
  unfold tuneDone
  split <;> rfl

/-! ### The return lanes lose block lock (R389, R754) -/

/-- One return lane loses block lock. -/
def returnLost (d : Dev) (i : Nat) : Dev := retUpdate (setLane d (48 + i) fun l => { l with lock := false }) (48 + i)

/-- Without block lock the lane leaves use, and the link's check follows. -/
theorem returnLost_eq (d : Dev) (i : Nat) : returnLost d i =
    linkCheck (setLane (setLane d (48 + i) fun l => { l with lock := false }) (48 + i) fun l => { l with live := false }) := by
  unfold returnLost retUpdate
  dsimp only
  rw [setLane_clears (p := Lane.lock) rfl rfl]
  rfl

/-- The first `i` return lanes are out of use; the link is down, its map not valid, or up with a return lane left to lose. -/
def ReturnsLost (i : Nat) (d : Dev) : Prop :=
  (∀ j < i, (lane d (48 + j)).live = false) ∧ ((linkUp d = true ∧ i < 4) ∨ (d.glr.st = 0 ∧ d.stc.dbm.valid = false))

theorem returnLost_step {i : Nat} {d : Dev} (h : ReturnsLost i d) : ReturnsLost (i + 1) (returnLost d i) := by
  obtain ⟨gone, state⟩ := h
  rw [returnLost_eq]
  generalize he : setLane (setLane d (48 + i) fun l => { l with lock := false }) (48 + i) (fun l => { l with live := false }) = e
  have dead (j : Nat) (hj : j < i + 1) : (lane e (48 + j)).live = false := by
    rw [← he]
    by_cases same : j = i
    · subst same
      exact setLane_clears (p := Lane.live) rfl rfl
    · rw [lane_setLane_ne _ (by omega), lane_setLane_ne _ (by omega)]
      exact gone j (by omega)
  have st : e.glr.st = d.glr.st := by rw [← he]; rfl
  have stc : e.stc = d.stc := by rw [← he]; rfl
  obtain ⟨same, live⟩ | ⟨up, down⟩ := linkCheck_cases e
  · rw [same]
    refine ⟨dead, ?_⟩
    rw [st, stc]
    unfold linkUp at state live ⊢
    rw [st] at live ⊢
    refine state.imp_left fun ⟨up, _⟩ => ⟨up, ?_⟩
    obtain ⟨k, hk, on⟩ := live up
    by_contra last
    rw [dead k (by omega)] at on
    exact absurd on (by decide)
  · have lost := linkDownIf_lost up true
    rw [down]
    exact ⟨fun j _ => lost.lanes _, .inr ⟨lost.off, lost.map⟩⟩

/-! ### The obligation -/

/-- Settles O13: each step writes its own field last or before operations that leave it, and a link-down is that of R389. -/
theorem linkBringUpSteps : Obligations.LinkBringUpSteps := by
  unfold Obligations.LinkBringUpSteps
  refine ⟨fun s hst h11 h12 => ?_, fun s hst hlclk => ?_, fun s hlo hhi => ?_, fun s hst htrained henough => ?_,
    fun s hlo hhi => ?_, fun s hasked => ?_, fun s hup => ?_, fun s hup => ?_⟩
  · refine does_of_run (show _ = execLclkLocked s from rfl) ?_
    rw [if_pos ⟨hst, h11, h12⟩, drive_glr]
    exact ⟨rfl, hst⟩
  · refine does_of_run (show _ = execRetLock s from rfl) ?_
    rw [if_pos ⟨hst, hlclk⟩, drive_glr]
    rfl
  · refine does_of_run (show _ = execTrainHalfTimeout s from rfl) ?_
    rw [if_pos ⟨hlo, hhi⟩, drive_glr, glrLinkUp_half, tuneDone_half]
    rfl
  · refine does_of_run (show _ = execFecAlign s from rfl) ?_
    rw [if_pos hst, drive_glr]
    have up := upView_glrLinkUp (d := setGlr s.dev fun g => { g with aligned := true }) ⟨hst, rfl, htrained, henough⟩
    simp only [upView, Prod.mk.injEq] at up
    exact ⟨up.1, up.2.1, up.2.2.1⟩
  · refine does_of_run (show _ = execTrainFail s from rfl) ?_
    rw [if_pos ⟨hlo, hhi⟩, drive_glr, latched_drive]
    refine ⟨(err_glrSt ..).trans ?_, latched_err _ _ _ _ _ (by decide) (by decide) (by decide)⟩
    by_cases up : linkUp s.dev = true
    · exact (linkDownIf_lost up false).off
    · unfold linkDownIf
      rw [if_pos (by simpa using up), if_neg (by omega)]
      exact congrArg Glr.st (glrOff_glr _)
  · refine does_of_run (show _ = execDbmMs s from rfl) ?_
    rw [if_pos hasked, drive_glr, latched_drive]
    have kept := (glrErr_flagFrame (setGlr s.dev fun g => { g with parts := [], dbmAsked := false }) Bit.err_GLR_DBM_BAD
      (s.dev.glr.lseq.getD 0) 0).view
    exact ⟨congrArg (fun d : Dev => d.glr.dbmAsked) kept, congrArg (fun d : Dev => d.glr.parts) kept,
      latched_err _ _ _ _ _ (by decide) (by decide) (by decide)⟩
  · refine does_of_run (show _ = execGlrHb s from rfl) ?_
    have lost := linkDownIf_lost hup true
    rw [if_pos hup, drive_glr, drive_stc, drive_tag, latched_drive]
    exact ⟨lost.off, lost.map, lost.tag, linkDown_latched hup⟩
  · refine does_of_run (show _ = execBlockLockLost s from rfl) ?_
    have start : ReturnsLost 0 s.dev := ⟨fun j hj => absurd hj (Nat.not_lt_zero j), .inl ⟨hup, by decide⟩⟩
    obtain ⟨-, ⟨-, four⟩ | down⟩ := returnLost_step (returnLost_step (returnLost_step (returnLost_step start)))
    · exact absurd four (by decide)
    · rw [drive_glr, drive_stc]
      exact down

end Sys2Proof.Machine
end

section
/-! PROOF. Lanes out of use, retrained and repaired, RESEND time-outs, and GLR_CMD (R369, R371, R372, R377, R386, R388, R572, R574,
R754). -/

namespace Sys2Proof.Machine

/-! ### A lane (R369, R371, R754) -/

/-- A lane that leaves the map is out of use. -/
theorem laneOut_live (d : Dev) (n : Nat) : (lane (laneOut d n) n).live = false :=
  setLane_clears (p := Lane.live) rfl rfl

theorem rg_laneOut_ne (d : Dev) {n a : Nat} (hl : a ≠ Adr.LANE_CNT_LOSS n) (hc : a ≠ Adr.GLR_CNT_LANE) :
    rg (laneOut d n) a = rg d a := by
  unfold laneOut
  rw [rg_inc, if_neg hc, rg_inc, if_neg hl]
  rfl

/-- Its loss is counted on its page and in GLR_CNT_LANE (R402, R403). -/
theorem rg_laneOut_counts (d : Dev) (n : Nat) :
    rg (laneOut d n) (Adr.LANE_CNT_LOSS n) = rg d (Adr.LANE_CNT_LOSS n) + 1 ∧
    rg (laneOut d n) Adr.GLR_CNT_LANE = rg d Adr.GLR_CNT_LANE + 1 := by
  have apart : Adr.LANE_CNT_LOSS n ≠ Adr.GLR_CNT_LANE := by
    simp only [Adr.LANE_CNT_LOSS, Adr.GLR_CNT_LANE]
    omega
  unfold laneOut
  rw [rg_inc, if_neg apart, rg_inc, if_pos rfl, rg_inc, if_pos rfl, rg_inc, if_neg apart.symm]
  exact ⟨rfl, rfl⟩

theorem not_flagWord_loss (n : Nat) : ¬FlagWord (Adr.LANE_CNT_LOSS n) := by
  have place : Adr.LANE_CNT_LOSS n = Page.lane.base n + 0x110 := by
    simp only [Adr.LANE_CNT_LOSS, Page.base]
    omega
  rw [place]
  exact not_flagWord_lane n (by decide) (by decide)

/-- One live lane's removal is followed by bringing map and link in line. -/
theorem lanesDrop_one {d : Dev} {n : Nat} (h : (lane d n).live = true) (f : Dev → Nat → Dev) :
    lanesDrop d [n] f = linkCheck (mapChanged (f d n)) := by
  unfold lanesDrop
  simp [h]

/-- The link's check leaves a link that is not up. -/
theorem linkCheck_of_down {d : Dev} (h : linkUp d = false) : linkCheck d = d := by
  unfold linkCheck
  rw [h]
  rfl

/-- With the link not up, bringing a return lane's use in line leaves its block lock (R754). -/
theorem retUpdate_lock {d : Dev} {n : Nat} (h : linkUp d = false) (hn : n < d.glr.lanes.length) :
    (lane (retUpdate d n) n).lock = (lane d n).lock := by
  unfold retUpdate
  dsimp only
  rw [linkCheck_of_down (d := setLane d n _) h, lane_setLane_self hn]

/-! ### ISOLATE of a transmit lane (R369, R371, R574) -/

/-- Lane `n` is out of use, and nothing but flags, its counts of losses, the link, the tag and STC has changed. -/
structure LaneGone (n : Nat) (d e : Dev) : Prop where
  out : (lane e n).live = false
  knl : e.knl = d.knl
  words : ∀ a, ¬FlagWord a → a ≠ Adr.LANE_CNT_LOSS n → a ≠ Adr.GLR_CNT_LANE → rg e a = rg d a

/-- The removal of a live lane of which no command says how much it has sent takes at most a free value. -/
theorem laneDropFree_eq {d : Dev} {n : Nat} (h : (lane d n).live = true) : ∃ f unsent, f.knl = d.knl ∧ f.regs = d.regs ∧
    (lane f n).live = true ∧ laneDropFree d n = laneDrop f n unsent := by
  unfold laneDropFree
  split
  · exact ⟨d, 0, rfl, rfl, h, rfl⟩
  · exact ⟨(takeFree d).2, _, rfl, rfl, h, rfl⟩

theorem laneRemove_gone (d : Dev) (n : Nat) : LaneGone n d (laneRemove d n) := by
  have leaves {f e : Dev} (hk : f.knl = d.knl) (hr : f.regs = d.regs) (h : LanesOnlyLeave (laneOut f n) e) :
      LaneGone n d (linkCheck (mapChanged e)) := by
    have only := (h.trans (.mapChanged _)).trans (.linkCheck _)
    refine ⟨only.out n (laneOut_live f n), ?_, fun a ha hl hc => ?_⟩
    · exact (congrArg Dev.knl only.frame.view : (linkCheck (mapChanged e)).linkRest.knl = (laneOut f n).linkRest.knl).trans hk
    · rw [only.frame.words a ha, rg_laneOut_ne f hl hc, rg_congr hr]
  unfold laneRemove
  split
  · next live =>
    obtain ⟨f, unsent, knl, regs, lives, eq⟩ := laneDropFree_eq live
    rw [lanesDrop_one live, eq]
    exact leaves knl regs (laneDrop_leaves lives unsent)
  · next dead =>
    exact ⟨setLane_clears (p := Lane.live) rfl (Bool.eq_false_of_not_eq_true dead), rfl, fun _ _ _ _ => rfl⟩

/-- ISOLATE newly set on a transmit lane, with ENABLE as it was, removes the lane (R369). -/
theorem ctlActs_isolate {o d : Dev} {n : Nat} (hn : n < 48) (h0 : ctrlBit d (Page.lane.base n) 0 = ctrlBit o (Page.lane.base n) 0)
    (hi : ctrlBit o (Page.lane.base n) 2 = false) (hs : ctrlBit d (Page.lane.base n) 2 = true) :
    ctlActs o d .lane n = laneRemove d n := by
  have set : ctlSet o d (Page.lane.base n) 0 = false := by
    unfold ctlSet
    rw [h0, Bool.not_and_self]
  have clr : ctlClr o d (Page.lane.base n) 0 = false := by
    unfold ctlClr
    rw [h0, Bool.and_not_self]
  have isolate : ctlSet o d (Page.lane.base n) 2 = true := by
    unfold ctlSet
    rw [hi, hs]
    rfl
  unfold ctlActs
  dsimp only
  simp only [set, clr, Bool.and_false, Bool.false_eq_true, if_false]
  unfold ctlLane
  simp only [set, clr, isolate, Bool.false_eq_true, if_false, if_true, if_neg (Nat.not_le.2 hn)]

/-! ### A repair begins (R572, R574) -/

/-- A lane's page, whose base names it. -/
theorem pageOf_lane : ∀ n < 48, pageOf (Page.lane.base n) = some (.lane, n) := by decide

/-- SOFT_RESET of a lane clears three counters of its page. -/
theorem softReset_lane (d : Dev) (n : Nat) : (softReset d .lane n).knl = d.knl ∧
    ∀ o < 0x100, rg (softReset d .lane n) (Page.lane.base n + o) = rg d (Page.lane.base n + o) := by
  have zeroed : softReset d .lane n = wr (wr (wr d (Adr.LANE_BER n) 0) (Adr.LANE_CNT_UNCORR n) 0) (Adr.LANE_CNT_LOSS n) 0 := rfl
  rw [zeroed]
  refine ⟨rfl, fun o ho => ?_⟩
  rw [rg_wr_ne, rg_wr_ne, rg_wr_ne] <;>
    (simp only [Page.base, Adr.LANE_BER, Adr.LANE_CNT_UNCORR, Adr.LANE_CNT_LOSS]; omega)

/-- Bits 0 to 2 of _CTRL as the firmware writes it to isolate a lane. -/
theorem bit_isolate (w : W32) {i : Nat} (h : i < 3) : bit (putBit w 2 true &&& 7) i = if i = 2 then true else bit w i := by
  have low : bit (7 : W32) i = true := (by decide : ∀ i < 3, bit (7 : W32) i = true) i h
  rw [show bit (putBit w 2 true &&& 7) i = (bit (putBit w 2 true) i && bit 7 i) from BitVec.getLsbD_and, low, Bool.and_true,
    bit_putBit _ _ _ _ (by decide)]

/-- The firmware's write of ISOLATE on a lane it owns and that is not isolated removes the lane and stores the bit (R369, R574). -/
theorem ctrlWrite_isolate {d : Dev} {n : Nat} (hn : n < 48) (hon : pageOn d .lane n = true) (how : owns d .knl .lane n = true)
    (hi : ctrlBit d (Page.lane.base n) 2 = false) : ∃ e, e.knl = d.knl ∧ ctrlBit e (Page.lane.base n) 2 = true ∧
    rg e (Page.lane.base n + oOWNER) = rg d (Page.lane.base n + oOWNER) ∧
    ctrlWrite d .knl (Page.lane.base n) (putBit (rg d (Page.lane.base n + oCTRL)) 2 true) = laneRemove e n := by
  generalize hv : putBit (rg d (Page.lane.base n + oCTRL)) 2 true = v
  have reset : ∃ o : Dev, (if bit v 3 then softReset d .lane n else d) = o ∧ o.knl = d.knl ∧
      ∀ k < 0x100, rg o (Page.lane.base n + k) = rg d (Page.lane.base n + k) := by
    refine ⟨_, rfl, ?_⟩
    split
    · exact softReset_lane d n
    · exact ⟨rfl, fun _ _ => rfl⟩
  obtain ⟨o, ho, knl, words⟩ := reset
  have stored (i : Nat) (h : i < 3) : ctrlBit (wr o (Page.lane.base n + oCTRL) (v &&& 7)) (Page.lane.base n) i =
      if i = 2 then true else ctrlBit o (Page.lane.base n) i := by
    unfold ctrlBit
    rw [rg_wr_self, ← hv, bit_isolate _ h, words _ (by decide)]
  have before : ctrlBit o (Page.lane.base n) 2 = false := (congrArg (bit · 2) (words _ (by decide))).trans hi
  refine ⟨wr o (Page.lane.base n + oCTRL) (v &&& 7), knl, stored 2 (by decide), ?_, ?_⟩
  · rw [rg_wr_ne _ _ (by simp only [oOWNER, oCTRL]; omega), words _ (by decide)]
  · have go : ctrlWrite d .knl (Page.lane.base n) v = ctrlGo d .lane n v := by
      unfold ctrlWrite
      rw [pageOf_lane n hn]
      simp [how]
    rw [go]
    unfold ctrlGo
    rw [hon, if_neg (by decide)]
    dsimp only
    rw [ho]
    exact ctlActs_isolate hn (stored 0 (by decide)) before (stored 2 (by decide))

/-- A lane's repair begins: KNL takes its page, and the lane is isolated and leaves use (R572, R574). -/
theorem fwBegin_lane {d : Dev} {n : Nat} (hn : n < 48) (hon : pageOn d .lane n = true) (hi : ctrlBit d (Page.lane.base n) 2 = false) :
    let e := fwBegin d (Page.lane.base n)
    (lane e n).live = false ∧ ctrlBit e (Page.lane.base n) 2 = true ∧ rg e (Page.lane.base n + oOWNER) = 2 ∧
      ⟨Page.lane.base n, rg d (Page.lane.base n + oOWNER), 0⟩ ∈ e.knl.repairs := by
  have kind : (pg (Page.lane.base n)).1 = .lane := by
    unfold pg
    rw [pageOf_lane n hn]
    rfl
  generalize hf : (setKnl (wr d (Page.lane.base n + oOWNER) 2) fun k => { k with
    repairs := k.repairs ++ [⟨Page.lane.base n, rg d (Page.lane.base n + oOWNER), 0⟩] }) = f
  have owner : rg f (Page.lane.base n + oOWNER) = 2 := by
    rw [← hf]
    exact rg_wr_self _ _ _
  have ctrl : rg f (Page.lane.base n + oCTRL) = rg d (Page.lane.base n + oCTRL) := by
    rw [← hf]
    exact rg_wr_ne _ _ (by simp only [oOWNER, oCTRL]; omega)
  have begun : fwBegin d (Page.lane.base n) =
      settle (ctrlWrite f .knl (Page.lane.base n) (putBit (rg f (Page.lane.base n + oCTRL)) 2 true)) := by
    unfold fwBegin
    dsimp only
    rw [hf, kind, if_neg (by decide)]
    rfl
  have owns : owns f .knl .lane n = true := by
    unfold Machine.owns
    rw [owner]
    rfl
  have on : pageOn f .lane n = true := by
    rw [← hf]
    exact hon
  obtain ⟨e, knl, isolated, taken, eq⟩ := ctrlWrite_isolate hn on owns ((congrArg (bit · 2) ctrl).trans hi)
  have gone := laneRemove_gone e n
  have word (o : Nat) (h : o ∈ [oCTRL, oOWNER]) :
      rg (settle (laneRemove e n)) (Page.lane.base n + o) = rg e (Page.lane.base n + o) := by
    have small : o < 0x100 ∧ o ∉ flagOffsets := by
      revert o
      decide
    have apart : Page.lane.base n + o ≠ Adr.BOB_CNT_LOW ∧ Page.lane.base n + o ≠ Page.bob.base 0 + oEVTPEND ∧
        Page.lane.base n + o ≠ Adr.LANE_CNT_LOSS n ∧ Page.lane.base n + o ≠ Adr.GLR_CNT_LANE := by
      simp only [Page.base, Adr.BOB_CNT_LOW, Adr.LANE_CNT_LOSS, Adr.GLR_CNT_LANE, oEVTPEND]
      omega
    obtain ⟨low, event, loss, count⟩ := apart
    rw [rg_settle _ low event, gone.words _ (not_flagWord_lane n (by omega) small.2) loss count]
  dsimp only
  rw [begun, eq, lane_congr (settle_glr _), settle_knl, gone.knl, knl, word _ (by simp), taken, owner, ← hf]
  refine ⟨gone.out, ?_, rfl, by simp⟩
  exact (congrArg (bit · 2) (word _ (by simp))).trans isolated

/-! ### RESEND and GLR_CMD (R377, R386, R388) -/

/-- UNACK_CLR leaves the range empty (R386). -/
theorem unackEmpty_unackClear (d : Dev) : unackEmpty (unackClear d) = true := by
  unfold unackEmpty unackClear
  rw [setGlr_self]
  simp only [decide_eq_true_eq]
  omega

theorem glrCmd_unackClr (d : Dev) (v : W32) : unackEmpty (glrCmd d (v ||| 2)) = true := by
  have one : bit (v ||| 2) 1 = true := by simp [bit]
  unfold glrCmd
  rw [one, if_pos rfl]
  dsimp only
  split
  · exact unackEmpty_unackClear d
  · exact unackEmpty_unackClear d

theorem glrCmd_dbmReq {d : Dev} (h : 7 ≤ d.glr.st) (v : W32) : (glrCmd d (v ||| 1)).glr.dbmAsked = true := by
  have st : 7 ≤ (if bit (v ||| 1) 1 then unackClear d else d : Dev).glr.st := by
    split <;> exact h
  unfold glrCmd
  dsimp only
  rw [bit_or_one, decide_eq_true st]
  rfl

/-! ### The obligation -/

/-- Settles O14: what a lane's removal does after it is out of use brings no lane back and counts no loss, and every other command is
one change of the link. -/
theorem laneCommandsHaveTheirEffect : Obligations.LaneCommandsHaveTheirEffect := by
  unfold Obligations.LaneCommandsHaveTheirEffect
  refine ⟨fun s n unsent hn hlive => ?_, fun s n hn halone htest hlock => ?_, fun s n lock hlo hlen hhi hlclk hdown => ?_,
    fun s r rest hr hfirst => ?_, fun s r rest hr hagain => ?_, fun s req v hacc => ?_, fun s req v hacc hst => ?_,
    fun d n hn _ hon hi hready hnext => ?_⟩
  · refine does_of_run (show _ = execTransmitterFault n unsent s from rfl) ?_
    have left := ((laneDrop_leaves hlive unsent).trans (.mapChanged _)).trans (.linkCheck _)
    obtain ⟨loss, count⟩ := rg_laneOut_counts s.dev n
    rw [if_pos hn, lanesDrop_one hlive, lane_congr (drive_glr _), rg_drive, rg_drive,
      left.frame.words _ (not_flagWord_loss n), left.frame.words _ not_flagWord_cntLane]
    exact ⟨left.out n (laneOut_live s.dev n), loss, count⟩
  · refine does_of_run (show _ = execTrained n s from rfl) ?_
    have ends : n < 52 ∧ (lane s.dev n).alone ∧ !s.dev.testing.contains (Page.lane.base n) ∧
        (48 ≤ n ∨ ((lane s.dev n).lock ∧ (lane s.dev n).fec)) :=
      ⟨hn, halone, by simpa using htest, (Nat.lt_or_ge n 48).symm.imp_right hlock⟩
    dsimp only
    rw [if_pos ends, lane_congr (drive_glr _), lane_congr (evt_glr ..), pends_drive]
    exact ⟨setLane_clears (p := Lane.alone) rfl rfl, pends_evt _ _ (by decide)⟩
  · refine does_of_run (show _ = execReturnLaneBlockLock n lock s from rfl) ?_
    rw [if_pos ⟨hlo, hhi, hlclk⟩, lane_congr (drive_glr _)]
    rw [retUpdate_lock (d := setLane s.dev n _) hdown (by simpa [setLane] using hlen), lane_setLane_self hlen]
  · refine does_of_run (show _ = execResendTimeout s from rfl) ?_
    rw [hr]
    dsimp only
    rw [hfirst, if_neg (by decide), drive_glr, rg_drive]
    exact ⟨rfl, rg_wr_self ..⟩
  · refine does_of_run (show _ = execResendTimeout s from rfl) ?_
    rw [hr]
    dsimp only
    rw [hagain, if_pos rfl, drive_glr, latched_drive]
    exact ⟨congrArg (fun d : Dev => d.glr.resends) (glrErr_flagFrame _ Bit.err_GLR_MSG_LOST _ _).view,
      latched_err _ _ _ _ _ (by decide) (by decide) (by decide)⟩
  · refine does_of_run (show _ = execUnackClr req v s from rfl) ?_
    rw [write, if_pos hacc]
    unfold unackEmpty
    rw [drive_glr]
    exact glrCmd_unackClr s.dev v
  · refine does_of_run (show _ = execDbmReq req v s from rfl) ?_
    rw [write, if_pos hacc, drive_glr]
    exact glrCmd_dbmReq hst v
  · have begun : repairTurn d = fwBegin (setGlr (setKnl d fun k => { k with
        calls := k.calls.filter (· != Page.lane.base n) }) fun g => { g with
        fails := g.fails.filter fun e => Page.lane.base e.1 != Page.lane.base n }) (Page.lane.base n) := by
      unfold repairTurn
      rw [hready, hnext]
    dsimp only
    rw [begun]
    exact fwBegin_lane hn hon hi

end Sys2Proof.Machine
end

section
/-! SUPPORT. The output pins after a step: every step ends by driving them (O4, O5). -/

namespace Sys2Proof.Machine

/-! ### Every answer drives the pins -/

/-- Whatever the command, exec ends by driving the pins of what the command made of the block, and leaves the queue. -/
theorem exec_drives (c : Instr) (s : State) : ∃ d, exec c s = .next { s with dev := drive d } := by
  cases c <;> exact ⟨_, rfl⟩

theorem pinsFollow_exec {c : Instr} {s t : State} (h : exec c s = .next t) : PinsFollow t := by
  obtain ⟨d, hd⟩ := exec_drives c s
  exact run_pinsFollow s t (fun _ => d) (hd.symm.trans h)

/-- The pins follow the state after every step, whatever they were before it. -/
theorem pinsFollow_step {s t : State} (h : step s = .next t) : PinsFollow t := by
  unfold step at h
  split at h
  · exact run_pinsFollow s t idle h
  · exact pinsFollow_exec h

/-! ### The levels that a state gives its pins (R427, R432, R433, R617, R702) -/

theorem pinLevels_of_off {d : Dev} (h : d.pmu.seq = .off) : pinLevels d = {} := if_pos h

section
variable {d : Dev} (h : d.pmu.seq ≠ .off)
include h

theorem pinLevels_strobe : (pinLevels d).strobe = some (!d.muz.muzzled && d.muz.pulses.any (·.high)) := by
  unfold pinLevels
  rw [if_neg h]

theorem pinLevels_blankAll : (pinLevels d).blankAll = some (!d.muz.muzzled) := by
  unfold pinLevels
  rw [if_neg h]

theorem pinLevels_fault : (pinLevels d).fault = some (!faultLow d) := by
  unfold pinLevels
  rw [if_neg h]

theorem pinLevels_trk_of_expOff (off : pdOn d 13 = false) : (pinLevels d).trk = none := by
  unfold pinLevels
  rw [if_neg h]
  simp [off]

end

theorem faultLow_iff (d : Dev) : faultLow d = true ↔ ∃ l ∈ d.fcl.lvl, fd d Adr.FCL_OUT 1 0 ≤ l := by
  simp [faultLow]

/-- A muzzled block does not strobe, and shows BLANK_ALL# asserted unless it is held in reset (R432, R433). -/
theorem pinLevels_of_muzzled {d : Dev} (h : d.muz.muzzled = true) :
    (pinLevels d).strobe ≠ some true ∧ (d.pmu.seq ≠ .off → (pinLevels d).blankAll = some false) := by
  by_cases off : d.pmu.seq = .off
  · rw [pinLevels_of_off off]
    exact ⟨nofun, fun on => absurd off on⟩
  · rw [pinLevels_strobe off, pinLevels_blankAll off, h]
    exact ⟨nofun, fun _ => rfl⟩

theorem muzzled_of_blankAll {d : Dev} (h : (pinLevels d).blankAll = some false) : d.muz.muzzled = true := by
  by_cases off : d.pmu.seq = .off
  · rw [pinLevels_of_off off] at h
    cases h
  · simpa [pinLevels_blankAll off] using h

/-! ### The obligations -/

/-- Settles O4: every step ends by driving the pins, so they stand at `pinLevels`, whose levels are those named. -/
theorem pinsFollowIsKept : Obligations.PinsFollowIsKept := by
  unfold Obligations.PinsFollowIsKept
  intro s t _ ht
  have follow : t.dev.pins = pinLevels t.dev := pinsFollow_step ht
  refine ⟨follow, fun off => follow.trans (pinLevels_of_off off), fun on => ?_⟩
  rw [follow, pinLevels_blankAll on, pinLevels_strobe on, pinLevels_fault on, ← faultLow_iff]
  exact ⟨by simp, by simp, pinLevels_trk_of_expOff on, by simp⟩

/-- Settles O5: after a step the pins stand at `pinLevels`, where a muzzle both asserts BLANK_ALL# and closes the gate of STROBE. -/
theorem gateHoldsInEveryNextState : Obligations.GateHoldsInEveryNextState := by
  unfold Obligations.GateHoldsInEveryNextState GateHolds
  intro s t ht
  have follow : t.dev.pins = pinLevels t.dev := pinsFollow_step ht
  rw [follow]
  exact ⟨fun blank => (pinLevels_of_muzzled (muzzled_of_blankAll blank)).1, pinLevels_of_muzzled⟩

end Sys2Proof.Machine
end

section
/-! SUPPORT. What the response to an error can do to exposure (R434, R606 to R617): it can end the running stripe, never start or change
one; it leaves HALTED set where it was; and a muzzle that a cause holds goes on. -/

namespace Sys2Proof.Machine

/-- From `d` to `e` exposure has at most stopped: the running stripe stands or has ended, HALTED has not been cleared, and a muzzle that a
cause held is still held; MUZ's _INJECT, with CUT, is as it was. -/
structure StopsOnly (d e : Dev) : Prop where
  run : e.exp.run = none ∨ e.exp.run = d.exp.run
  halted : d.exp.halted = true → e.exp.halted = true
  muzzle : d.muz.muzzled = true → muzCause d = true → e.muz.muzzled = true ∧ muzCause e = true
  cut : rg e (Page.muz.base 0 + oINJECT) = rg d (Page.muz.base 0 + oINJECT)

/-- Two blocks with the same MUZ have the same causes of a muzzle. -/
theorem muzCause_congr {d e : Dev} (h : e.muz = d.muz) : muzCause e = muzCause d := by
  unfold muzCause
  rw [h]

namespace StopsOnly

/-- EXP and MUZ stand. -/
theorem of_eq {d e : Dev} (he : e.exp = d.exp) (hm : e.muz = d.muz)
    (hr : rg e (Page.muz.base 0 + oINJECT) = rg d (Page.muz.base 0 + oINJECT)) : StopsOnly d e :=
  ⟨.inr (congrArg Exp.run he), fun h => (congrArg Exp.halted he).trans h,
    fun h c => ⟨(congrArg Muz.muzzled hm).trans h, (muzCause_congr hm).trans c⟩, hr⟩

/-- Typed state outside EXP and MUZ changes. -/
theorem same {d e : Dev} (he : e.exp = d.exp) (hm : e.muz = d.muz) (hr : e.regs = d.regs) : StopsOnly d e :=
  of_eq he hm (rg_congr hr _)

theorem refl (d : Dev) : StopsOnly d d := same rfl rfl rfl

theorem trans {d e f : Dev} (h : StopsOnly d e) (k : StopsOnly e f) : StopsOnly d f where
  run := by
    rcases k.run with kr | kr
    · exact .inl kr
    · rw [kr]
      exact h.run
  halted x := k.halted (h.halted x)
  muzzle x c := by
    obtain ⟨m, c'⟩ := h.muzzle x c
    exact k.muzzle m c'
  cut := k.cut.trans h.cut

/-- The later part first. -/
theorem after {d e f : Dev} (k : StopsOnly e f) (h : StopsOnly d e) : StopsOnly d f := h.trans k

theorem ite {d e f : Dev} {c : Prop} [Decidable c] (h : StopsOnly d e) (k : StopsOnly d f) :
    StopsOnly d (if c then e else f) := by
  split
  · exact h
  · exact k

theorem foldl {α : Type} {f : Dev → α → Dev} (h : ∀ d x, StopsOnly d (f d x)) (l : List α) (d : Dev) :
    StopsOnly d (l.foldl f d) := by
  induction l generalizing d with
  | nil => exact refl d
  | cons x l ih => exact (h d x).trans (ih _)

/-- With no stripe running, none runs afterwards. -/
theorem run_none {d e : Dev} (h : StopsOnly d e) (hd : d.exp.run = none) : e.exp.run = none :=
  h.run.elim id (·.trans hd)

/-! ### Words, events and the mending list -/

theorem wr (d : Dev) {a : Nat} (v : W32) (h : Page.muz.base 0 + oINJECT ≠ a) : StopsOnly d (wr d a v) :=
  of_eq rfl rfl (rg_wr_ne d v h)

theorem inc (d : Dev) {a : Nat} (h : Page.muz.base 0 + oINJECT ≠ a) : StopsOnly d (inc d a) := wr d _ h

theorem evt (d : Dev) {base : Nat} (b : Nat) (h : Page.muz.base 0 + oINJECT ≠ base + oEVTPEND) : StopsOnly d (evt d base b) :=
  of_eq (evt_exp ..) (evt_muz ..) (rg_evt_ne _ _ _ h)

theorem injTake (d : Dev) {base : Nat} (w : Bool) (h : Page.muz.base 0 + oINJECT ≠ base + oINJECT) :
    StopsOnly d (injTake d base w).2 := by
  refine of_eq ?_ ?_ (rg_injTake _ _ _ h (by decide)) <;> rw [injTake_rest]

theorem hbmInjWrite (d : Dev) (da : Nat) : StopsOnly d (hbmInjWrite d da) := by
  have pc : pcOf d da < 2 ^ 7 := Nat.mod_lt _ (by decide)
  have taken := injTake d (base := Page.mc.base (pcOf d da / 2)) true (by simp only [Page.base]; omega)
  unfold Machine.hbmInjWrite
  dsimp only
  refine ite taken (taken.trans ?_)
  split <;> split <;> exact same rfl rfl rfl

theorem hbmWrite (d : Dev) (da : Nat) (l : List Byte) : StopsOnly d (hbmWrite d da l) := by
  unfold Machine.hbmWrite
  dsimp only
  exact ite (after (hbmInjWrite _ _) (same rfl rfl rfl)) (same rfl rfl rfl)

theorem putEnt (d : Dev) (e : MEnt) : StopsOnly d (putEnt d e) := by
  have stored : StopsOnly d (mendStore d e) := after (wr _ _ (by decide)) (hbmWrite ..)
  have waits : StopsOnly d { d with bob := { d.bob with waitq := d.bob.waitq ++ [e] } } := same rfl rfl rfl
  exact ite stored (ite (after (evt _ _ (by decide)) waits) waits)

/-! ### The muzzle -/

/-- A change that leaves EXP alone and the muzzle, and every cause that was there, standing. -/
theorem of_muzzle {d e : Dev} (he : e.exp = d.exp) (hr : e.regs = d.regs) (h : d.muz.muzzled = true → e.muz.muzzled = true)
    (c : muzCause d = true → muzCause e = true) : StopsOnly d e :=
  ⟨.inr (congrArg Exp.run he), fun x => (congrArg Exp.halted he).trans x, fun m k => ⟨h m, c k⟩, rg_congr hr _⟩

theorem muzBegin (d : Dev) : StopsOnly d (muzBegin d) :=
  after (evt _ _ (by decide)) (after (inc _ (by decide)) (of_muzzle rfl rfl (fun _ => rfl) id))

theorem muzUpdate (d : Dev) : StopsOnly d (muzUpdate d) := by
  unfold Machine.muzUpdate
  split
  · split
    · exact refl d
    · next h c => exact after (evt _ _ (by decide)) ⟨.inr rfl, id, fun _ k => absurd k c, rfl⟩
  · exact ite (muzBegin d) (refl d)

theorem muzBlink (d : Dev) : StopsOnly d (muzBlink d) := by
  have blink := (muzBegin d).trans (muzUpdate _)
  exact ite blink (blink.trans (same (emitAll_exp ..) (emitAll_muz ..) (emitAll_regs ..)))

theorem muzMoment (d : Dev) : StopsOnly d (muzMoment d) := ite (refl d) (ite (of_muzzle rfl rfl id id) (muzBlink d))

/-! ### The end of a stripe -/

theorem stripeBoundary (d : Dev) : StopsOnly d (stripeBoundary d) := by
  unfold Machine.stripeBoundary
  split
  · exact refl d
  · exact ite (after (evt _ _ (by decide)) ⟨.inr rfl, id, fun m c => ⟨m, c⟩, rfl⟩) (refl d)

theorem sealOne (d : Dev) (e : Ended) (u : Bool) : StopsOnly d (sealOne d e u) := by
  have words (x y : W32) : StopsOnly d (Machine.wr (Machine.wr (Machine.wr d Adr.GLB_SEAL_INDEX e.index) Adr.GLB_SEAL_WR x)
      Adr.GLB_SEAL_STAT y) := after (wr _ _ (by decide)) (after (wr _ _ (by decide)) (wr _ _ (by decide)))
  have put (d : Dev) (g : Glb) : StopsOnly d { d with glb := g } := same rfl rfl rfl
  unfold Machine.sealOne
  dsimp only
  exact after (evt _ _ (by decide)) (ite (words _ _) (after (put _ _) (words _ _)))

theorem sealCheck (d : Dev) : StopsOnly d (sealCheck d) := by
  have one (d : Dev) (e : Ended) :
      StopsOnly d (Machine.sealOne { d with glr := { d.glr with ended := d.glr.ended.filter fun x => x != e } } e e.down) :=
    after (sealOne _ _ _) (same rfl rfl rfl)
  unfold Machine.sealCheck
  exact foldl (fun d e => ite (one d e) (refl d)) _ d

theorem closeCover (d : Dev) (r : Run) (f : Nat) : StopsOnly d (closeCover d r f) := by
  have one (d : Dev) (s : Option Nat) (c : Nat) : StopsOnly d (match s with
      | some a => if a < f && !r.refused then Machine.putEnt d (mkEnt d .exp r.tkt c 2 (w32 a) (w32 (f - 1))) else d
      | none => d) := by
    split
    · exact ite (putEnt _ _) (refl d)
    · exact refl d
  have covers (d : Dev) : StopsOnly d { d with muz := { d.muz with blankFrom := none, whFrom := none, supplyFrom := none } } :=
    of_muzzle rfl rfl id id
  exact after (covers _) ((one _ _ _).trans ((one _ _ _).trans (one _ _ _)))

/-- The stripe has ended. -/
theorem endStripe (d : Dev) (r : Run) : StopsOnly d (endStripe d r) := by
  refine after (sealCheck _) (after (stripeBoundary _) (after (evt _ _ (by decide)) ?_))
  have marked := (closeCover d r r.shots).trans (wr _ (a := Adr.EXP_HWM) (w32 (ofS 32 r.hwm)) (by decide))
  exact ⟨.inl rfl, marked.halted, marked.muzzle, marked.cut⟩

theorem abortFrom (d : Dev) (c f : Option Nat) : StopsOnly d (abortFrom d c f) := by
  have sent : ∀ (l : List (Nat × Hist)) (d : Dev),
      StopsOnly d (l.foldl (fun d h => if d.glr.st < 6 then d else sendCommit d false h.2.lseq) d) :=
    foldl fun d x => ite (refl d) (same rfl rfl rfl)
  unfold Machine.abortFrom
  split
  · exact refl d
  · refine after (endStripe _ _) ?_
    split
    · exact (sent _ d).trans (ite (putEnt _ _) (refl _))
    · exact sent _ d

theorem halt (d : Dev) : StopsOnly d (halt d) := ⟨.inr rfl, fun _ => rfl, fun m c => ⟨m, c⟩, rfl⟩

/-! ### Fault collection -/

theorem fclLog (d : Dev) (s i l b : Nat) : StopsOnly d (fclLog d s i l b) :=
  ite (same rfl rfl rfl) (ite (after (evt _ _ (by decide)) (same rfl rfl rfl)) (same rfl rfl rfl))

theorem fclFirst (d : Dev) (s i l b : Nat) : StopsOnly d (fclFirst d s i l b) :=
  ite (refl d) (after (wr _ _ (by decide)) (after (wr _ _ (by decide)) (wr _ _ (by decide))))

theorem sevStop (d : Dev) : StopsOnly d (sevStop d) := after (halt _) (after (abortFrom _ _ _) (muzMoment d))

theorem sevHalt (d : Dev) : StopsOnly d (sevHalt d) := by
  refine after (halt _) (after (abortFrom _ _ _) (after (muzUpdate _) (of_muzzle rfl rfl id fun c => ?_)))
  simp [muzCause]

theorem fclAct (d : Dev) (s i b : Nat) : StopsOnly d (fclAct d s i b) := by
  have ev (d : Dev) (n l k : Nat) : StopsOnly d (if n ≤ l then Machine.evt d (Page.fcl.base 0) k else d) :=
    ite (evt _ _ (by decide)) (refl d)
  have track (d : Dev) (c : Prop) [Decidable c] : StopsOnly d (if c then { d with muz := { d.muz with track := true } } else d) :=
    ite (of_muzzle rfl rfl id id) (refl d)
  have stop (d : Dev) (l : Nat) : StopsOnly d (if l = 2 then Machine.sevStop d else if 3 ≤ l then Machine.sevHalt d else d) :=
    ite (sevStop d) (ite (sevHalt d) (refl d))
  exact after (stop _ _) (after (track _ _) (after (ev _ 3 _ _) (after (ev _ 2 _ _) (after (ev _ 1 _ _)
    (after (fclLog _ _ _ _ _) (after (fclFirst _ _ _ _ _) (after (inc _ (by decide)) (same rfl rfl rfl))))))))

theorem errSet (d : Dev) {base : Nat} (b : Nat) (i0 i1 : W32) (h : base % 0x1000 = 0) : StopsOnly d (errSet d base b i0 i1).2 := by
  unfold Machine.errSet
  dsimp only
  have latch (v : W32) : StopsOnly d (Machine.wr d (base + oERRLATCH) v) :=
    wr d v (by simp only [Page.base, oINJECT, oERRLATCH]; omega)
  have info (e : Dev) : StopsOnly e (Machine.wr (Machine.wr e (base + oINFO0) i0) (base + oINFO1) i1) :=
    after (wr _ _ (by simp only [Page.base, oINJECT, oINFO1]; omega)) (wr _ _ (by simp only [Page.base, oINJECT, oINFO0]; omega))
  split
  · exact latch _
  · exact (latch _).trans (ite ((info _).trans (same rfl rfl rfl)) (refl _))

theorem sevUe (d : Dev) (s : Nat) : StopsOnly d (sevUe d s) :=
  after (fclAct _ _ _ _) (after (errSet _ _ _ _ (by decide)) (same rfl rfl rfl))

theorem fclTake (d : Dev) (s i b : Nat) : StopsOnly d (fclTake d s i b) :=
  after (fclAct _ _ _ _) (after (ite (sevUe _ _) (refl _)) (injTake d _ (by decide)))

theorem err (d : Dev) {base : Nat} (b : Nat) (i0 i1 : W32) (h : base % 0x1000 = 0) : StopsOnly d (err d base b i0 i1) := by
  refine (errSet d b i0 i1 h).trans (ite ?_ (refl _))
  split
  · exact refl _
  · exact fclTake _ _ _ _

theorem listCheck (d : Dev) : StopsOnly d (listCheck d) :=
  ite (after (halt _) (after (err _ _ _ _ (by decide)) (abortFrom _ _ _))) (refl d)

theorem addEnt (d : Dev) (e : MEnt) : StopsOnly d (addEnt d e) := after (listCheck _) (putEnt d e)

theorem addEnts (d : Dev) (l : List MEnt) : StopsOnly d (addEnts d l) :=
  ite (refl d) (after (listCheck _) (foldl putEnt l d))

theorem stripeEnt (d : Dev) (b : Blk) (t : Tkt) (c k : Nat) (w2 w3 : W32) : StopsOnly d (stripeEnt d b t c k w2 w3) :=
  ite (refl d) (addEnt _ _)

end StopsOnly

/-! ### The running stripe is ended -/

theorem endStripe_run (d : Dev) (r : Run) : (endStripe d r).exp.run = none := by
  unfold endStripe
  refine (((StopsOnly.evt _ _ (by decide)).trans (StopsOnly.stripeBoundary _)).trans (StopsOnly.sealCheck _)).run_none ?_
  rfl

/-- No stripe runs after an abort (R434, R442). -/
theorem abortFrom_run (d : Dev) (c f : Option Nat) : (abortFrom d c f).exp.run = none := by
  unfold abortFrom
  split
  · assumption
  · exact endStripe_run _ _

/-! ### The muzzle begins and ends with its causes (R434) -/

theorem muzBegin_muz (d : Dev) : (muzBegin d).muz = { d.muz with muzzled := true } := by simp [muzBegin]

theorem muzEnd_muz (d : Dev) : (muzEnd d).muz = { d.muz with muzzled := false } := by simp [muzEnd]

theorem muzUpdate_exp (d : Dev) : (muzUpdate d).exp = d.exp := by
  unfold muzUpdate muzEnd muzBegin
  split <;> split <;> simp

/-- A muzzle that a cause holds goes on. -/
theorem muzUpdate_held {d : Dev} (m : d.muz.muzzled = true) (c : muzCause d = true) : muzUpdate d = d := by
  simp [muzUpdate, m, c]

/-- A muzzle ends with its last cause. -/
theorem muzUpdate_ends {d : Dev} (m : d.muz.muzzled = true) (c : muzCause d = false) : muzUpdate d = muzEnd d := by
  simp [muzUpdate, m, c]

/-- With no strobe in progress a cause muzzles at once (R432). -/
theorem muzUpdate_begins {d : Dev} (m : d.muz.muzzled = false) (c : muzCause d = true) (p : d.muz.pulses = []) :
    muzUpdate d = muzBegin d := by
  simp [muzUpdate, m, c, p]

/-- A muzzle stays exactly while a cause holds it. -/
theorem muzUpdate_muz_of_muzzled {d : Dev} (m : d.muz.muzzled = true) :
    (muzUpdate d).muz = { d.muz with muzzled := muzCause d } := by
  cases c : muzCause d
  · rw [muzUpdate_ends m c, muzEnd_muz]
  · rw [muzUpdate_held m c, ← m]

/-- With no strobe in progress a cause muzzles. -/
theorem muzUpdate_muz_of_cause {d : Dev} (c : muzCause d = true) (p : d.muz.pulses = []) :
    (muzUpdate d).muz = { d.muz with muzzled := true } := by
  cases m : d.muz.muzzled
  · rw [muzUpdate_begins m c p, muzBegin_muz]
  · rw [muzUpdate_held m c, ← m]

/-- Bringing the muzzle in line with its causes changes nothing of MUZ but the muzzle. -/
theorem muzUpdate_muz (d : Dev) : ∃ m, (muzUpdate d).muz = { d.muz with muzzled := m } := by
  unfold muzUpdate
  split
  · split
    · exact ⟨d.muz.muzzled, rfl⟩
    · exact ⟨false, muzEnd_muz d⟩
  · split
    · exact ⟨true, muzBegin_muz d⟩
    · exact ⟨d.muz.muzzled, rfl⟩

/-- The causes of a muzzle do not name the muzzle. -/
theorem muzCause_of_muzzled {d e : Dev} {m : Bool} (h : e.muz = { d.muz with muzzled := m }) : muzCause e = muzCause d := by
  unfold muzCause
  rw [h]

@[simp] theorem halt_halted (d : Dev) : (halt d).exp.halted = true := rfl
@[simp] theorem halt_run (d : Dev) : (halt d).exp.run = d.exp.run := rfl

/-- A muzzle that a cause holds goes on through the end of the stripe. -/
theorem abortFrom_muzzled {d : Dev} (m : d.muz.muzzled = true) (c : muzCause d = true) (x f : Option Nat) :
    (abortFrom d x f).muz.muzzled = true :=
  ((StopsOnly.abortFrom d x f).muzzle m c).1

theorem externalStop_eq (d : Dev) : externalStop d = halt (abortFrom (muzUpdate d) (some 6) none) := rfl

theorem externalStop_run (d : Dev) : (externalStop d).exp.run = none := by
  rw [externalStop_eq, halt_run, abortFrom_run]

theorem externalStop_halted (d : Dev) : (externalStop d).exp.halted = true := by rw [externalStop_eq, halt_halted]

/-- A stop with an EXTERNAL entry muzzles when no strobe is in progress (R432, R434). -/
theorem externalStop_muzzled {d : Dev} (c : muzCause d = true) (p : d.muz.pulses = []) :
    (externalStop d).muz.muzzled = true := by
  have begun := muzUpdate_muz_of_cause c p
  rw [externalStop_eq, halt_muz]
  exact abortFrom_muzzled (by rw [begun]) ((muzCause_of_muzzled begun).trans c) _ _

theorem externalStop_errRest (d : Dev) : (externalStop d).errRest = d.errRest :=
  (halt_errFrame _).view.trans ((abortStripe_errFrame _ _).view.trans (muzUpdate_errFrame d).view)

end Sys2Proof.Machine
end

section
/-! PROOF. Muzzle causes hold and release, RESUME and CLR (R432 to R436, R441, R443, R498, R750). -/

namespace Sys2Proof.Machine

theorem closeOne_of_idle {d : Dev} (h : d.exp.run = none) (a : Option Nat) (c : Nat) : closeOne d a c = d := by
  unfold closeOne
  rw [h]

/-- RESUME leaves EXP halted exactly when a cause of R434 is present (R441). -/
theorem expCmd_resume {d : Dev} {v : W32} (resume : bit v 1 = true) (h : d.exp.halted = true) :
    (expCmd d v).exp.halted = abortCause d := by
  have answer (e : Dev) (he : e.exp.halted = true) :
      (if true && e.exp.halted && !abortCause e then
        setMuz (setExp e fun x => { x with halted := false }) fun m => { m with track := false } else e).exp.halted = abortCause e := by
    cases c : abortCause e <;> simp [he, setExp, setMuz]
  unfold expCmd
  rw [resume]
  split
  · exact answer _ h
  · exact answer _ h

/-- CLR empties the partial record (R443). -/
theorem expCmd_clr {d : Dev} {v : W32} (clr : bit v 0 = true) : (expCmd d v).exp.words = [] := by
  unfold expCmd
  rw [if_pos clr]
  dsimp only
  split <;> rfl

/-! ### The obligation -/

theorem abortAsserted_muzzles {s : State} (up : s.dev.muz.abortPin = false) : Does .abortAsserted s fun d =>
    d.muz.abortPin = true ∧ d.exp.run = none ∧ d.exp.halted = true ∧ (s.dev.muz.pulses = [] → d.muz.muzzled = true) := by
  refine does_of_runS (show _ = execAbortAsserted s from rfl) ?_
  rw [if_neg (by simp [up])]
  generalize hd : setMuz s.dev (fun m => { m with abortPin := true }) = d
  have pin : (externalStop d).errRest.muz.abortPin = d.errRest.muz.abortPin := by rw [externalStop_errRest]
  have cause : muzCause d = true := by simp [← hd, muzCause, setMuz]
  simp only [drive_exp, drive_muz, settle_exp, settle_muz]
  refine ⟨pin.trans (by rw [← hd]; rfl), externalStop_run d, externalStop_halted d, fun p => ?_⟩
  exact externalStop_muzzled cause (by rw [← hd]; exact p)

theorem blankReqAsserted_muzzles (s : State) : Does .blankReqAsserted s fun d =>
    d.muz.blankPin = true ∧ d.exp = s.dev.exp ∧ (s.dev.muz.pulses = [] → d.muz.muzzled = true) := by
  refine does_of_run (show _ = execBlankReqAsserted s from rfl) ?_
  generalize hd : setMuz s.dev (fun m => { m with blankPin := true }) = d
  have cause : muzCause d = true := by simp [← hd, muzCause, setMuz]
  obtain ⟨m, updated⟩ := muzUpdate_muz d
  simp only [drive_exp, drive_muz, muzUpdate_exp]
  refine ⟨by rw [updated, ← hd]; rfl, by rw [← hd]; rfl, fun p => ?_⟩
  rw [muzUpdate_muz_of_cause cause (by rw [← hd]; exact p)]

theorem abortReleased_keepsOtherCauses {s : State} (m : s.dev.muz.muzzled = true) : Does .abortReleased s fun d =>
    d.muz.abortPin = false ∧ d.muz.muzzled = muzCause { s.dev with muz := { s.dev.muz with abortPin := false } } := by
  refine does_of_run (show _ = execAbortReleased s from rfl) ?_
  rw [drive_muz, muzUpdate_muz_of_muzzled (by exact m)]
  exact ⟨rfl, rfl⟩

theorem blankReqReleased_keepsOtherCauses {s : State} (m : s.dev.muz.muzzled = true) (idle : s.dev.exp.run = none) :
    Does .blankReqReleased s fun d => d.muz.blankPin = false ∧ d.muz.blankFrom = none ∧
      d.muz.muzzled = muzCause { s.dev with muz := { s.dev.muz with blankPin := false } } := by
  refine does_of_runS (show _ = execBlankReqReleased s from rfl) ?_
  dsimp only
  rw [closeOne_of_idle (by rw [muzUpdate_exp]; exact idle), drive_muz, settle_muz, muzUpdate_muz_of_muzzled (by exact m)]
  exact ⟨rfl, rfl, rfl⟩

/-- Settles O24: a cause muzzles through `muzUpdate`, which ends a muzzle exactly when no cause is left, and the abort of ABORT#
leaves no stripe and EXP halted. -/
theorem muzzleCausesHoldAndRelease : Obligations.MuzzleCausesHoldAndRelease := by
  unfold Obligations.MuzzleCausesHoldAndRelease
  refine ⟨fun s up => abortAsserted_muzzles up, blankReqAsserted_muzzles, fun s m => abortReleased_keepsOtherCauses m,
    fun s m idle => blankReqReleased_keepsOtherCauses m idle, fun s req v ha h => ?_, fun s req v ha => ?_⟩
  · refine does_of_run (show _ = execResume req v s from rfl) ?_
    rw [write, if_pos ha, drive_exp]
    exact expCmd_resume (by simp [bit]) h
  · refine does_of_run (show _ = execTktClr req v s from rfl) ?_
    rw [write, if_pos ha, drive_exp]
    exact expCmd_clr (by simp [bit])

end Sys2Proof.Machine
end

section
/-! PROOF. The whistle (R434, R495 to R501). -/

namespace Sys2Proof.Machine

/-! ### The key and the command's bit -/

/-- The command's own bit leaves the key in the upper half as it is. -/
theorem key_putBit (v : W32) {i : Nat} (h : i < 16) : bits (putBit v i true) 31 16 = bits v 31 16 := by
  refine Nat.eq_of_testBit_eq fun j => ?_
  rw [testBit_bits, testBit_bits, bit_putBit _ _ _ _ (by omega), if_neg (by omega)]

/-! ### What a command with its key does -/

/-- The causes and the count that a command with its key leaves, before the muzzle follows. -/
def whMarked (d : Dev) (v : W32) : Dev :=
  let blank := bit v 0 || (d.muz.whBlank && !bit v 1)
  setMuz { d with hlk := { d.hlk with whCnt := d.hlk.whCnt + 1 } } fun m => { m with
    whBlank := blank, whStop := bit v 2 || (d.muz.whStop && !bit v 3)
    whFrom := if d.muz.whBlank && !blank then none else m.whFrom }

theorem closeOne_stopsOnly (d : Dev) (a : Option Nat) (c : Nat) : StopsOnly d (closeOne d a c) := by
  unfold closeOne
  split
  · exact .ite (.addEnt _ _) (.refl d)
  · exact .refl d

theorem closeOne_errRest (d : Dev) (a : Option Nat) (c : Nat) : (closeOne d a c).errRest = d.errRest := by
  unfold closeOne
  split
  · split
    · exact addEnt_errRest _ _
    · rfl
  · rfl

theorem externalStop_stopsOnly (d : Dev) : StopsOnly d (externalStop d) := by
  rw [externalStop_eq]
  exact ((StopsOnly.muzUpdate d).trans (.abortFrom _ _ _)).trans (.halt _)

/-- After the causes, the muzzle follows, BLANK's covering entry closes, and a new STOP stops exposure. -/
theorem whCmd_of_key {d : Dev} {v : W32} (key : bits v 31 16 = 0x57E1) :
    ∃ x, StopsOnly (muzUpdate (whMarked d v)) x ∧ x.errRest = (whMarked d v).errRest ∧
      whCmd d v = if (whMarked d v).muz.whStop && !d.muz.whStop then externalStop x else x := by
  unfold whCmd
  rw [if_neg (not_not.mpr key)]
  dsimp only
  refine ⟨_, ?_, ?_, rfl⟩
  · exact .ite (closeOne_stopsOnly _ _ _) (.refl _)
  · split
    · exact (closeOne_errRest _ _ _).trans (muzUpdate_errFrame _).view
    · exact (muzUpdate_errFrame _).view

theorem whCmd_errRest {d : Dev} {v : W32} (key : bits v 31 16 = 0x57E1) : (whCmd d v).errRest = (whMarked d v).errRest := by
  obtain ⟨x, -, hx, eq⟩ := whCmd_of_key (d := d) key
  rw [eq]
  split
  · rw [externalStop_errRest, hx]
  · exact hx

theorem whCmd_whBlank {d : Dev} {v : W32} (key : bits v 31 16 = 0x57E1) :
    (whCmd d v).muz.whBlank = (bit v 0 || (d.muz.whBlank && !bit v 1)) :=
  congrArg (fun e : Dev => e.muz.whBlank) (whCmd_errRest key)

theorem whCmd_whStop {d : Dev} {v : W32} (key : bits v 31 16 = 0x57E1) :
    (whCmd d v).muz.whStop = (bit v 2 || (d.muz.whStop && !bit v 3)) :=
  congrArg (fun e : Dev => e.muz.whStop) (whCmd_errRest key)

theorem whCmd_whCnt {d : Dev} {v : W32} (key : bits v 31 16 = 0x57E1) : (whCmd d v).hlk.whCnt = d.hlk.whCnt + 1 :=
  congrArg (fun e : Dev => e.hlk.whCnt) (whCmd_errRest key)

/-- BLANK muzzles when no strobe is in progress. -/
theorem whCmd_blanks {d : Dev} {v : W32} (key : bits v 31 16 = 0x57E1) (set : bit v 0 = true) (p : d.muz.pulses = []) :
    (whCmd d v).muz.muzzled = true := by
  obtain ⟨x, stops, -, eq⟩ := whCmd_of_key (d := d) key
  have cause : muzCause (whMarked d v) = true := by simp [muzCause, whMarked, setMuz, set]
  have begun := muzUpdate_muz_of_cause cause p
  obtain ⟨muzzled, held⟩ := stops.muzzle (by rw [begun]) ((muzCause_of_muzzled begun).trans cause)
  rw [eq]
  split
  · exact ((externalStop_stopsOnly x).muzzle muzzled held).1
  · exact muzzled

/-- A new STOP leaves no stripe running and EXP halted. -/
theorem whCmd_stops {d : Dev} {v : W32} (key : bits v 31 16 = 0x57E1) (set : bit v 2 = true) (new : d.muz.whStop = false) :
    (whCmd d v).exp.run = none ∧ (whCmd d v).exp.halted = true := by
  obtain ⟨x, -, -, eq⟩ := whCmd_of_key (d := d) key
  rw [eq, if_pos (by simp [whMarked, setMuz, set, new])]
  exact ⟨externalStop_run x, externalStop_halted x⟩

/-! ### The whole command -/

@[simp] theorem evt_whCnt (d : Dev) (base b : Nat) : (evt d base b).hlk.whCnt = d.hlk.whCnt := by rw [evt_hlk]
@[simp] theorem evt_whStray (d : Dev) (base b : Nat) : (evt d base b).hlk.whStray = d.hlk.whStray := by rw [evt_hlk]

@[simp] theorem settle_whCnt (d : Dev) : (settle d).hlk.whCnt = d.hlk.whCnt := by
  unfold settle lookCheck
  dsimp only
  split <;> split <;> simp only [evt_whCnt, inc_hlk] <;> rfl

@[simp] theorem settle_whStray (d : Dev) : (settle d).hlk.whStray = d.hlk.whStray := by
  unfold settle lookCheck
  dsimp only
  split <;> split <;> simp only [evt_whStray, inc_hlk] <;> rfl

@[simp] theorem vc1Seen_muz (d : Dev) (vc1 : Bool) : (vc1Seen d vc1).muz = d.muz := by cases vc1 <;> rfl
@[simp] theorem vc1Seen_exp (d : Dev) (vc1 : Bool) : (vc1Seen d vc1).exp = d.exp := by cases vc1 <;> rfl
@[simp] theorem vc1Seen_hlk (d : Dev) (vc1 : Bool) : (vc1Seen d vc1).hlk = d.hlk := by cases vc1 <;> rfl

/-- On a virtual channel that is open, the command writes WH_CMD with its own bit set. -/
theorem whRow_of_open {d : Dev} {vc1 : Bool} (hvc : vc1 = true → d.hlk.cfg.vc1 = true) (b : Nat) (v : W32) :
    whRow d b v vc1 = settle (whCmd (vc1Seen d vc1) (putBit v b true)) := by
  refine if_pos ?_
  unfold vcOpen
  cases vc1
  · rfl
  · exact hvc rfl

/-- A whistle command that has come, settled and driven. -/
theorem does_of_whRow {c : Instr} {s : State} {b : Nat} {v : W32} {vc1 : Bool} {P : Dev → Prop}
    (hc : exec c s = run s fun d => whRow d b v vc1) (hvc : vc1 = true → s.dev.hlk.cfg.vc1 = true)
    (h : P (drive (settle (whCmd (vc1Seen s.dev vc1) (putBit v b true))))) : Does c s P :=
  does_of_run hc (by rw [whRow_of_open hvc]; exact h)

theorem does_stray {c : Instr} {s : State} {b : Nat} {v : W32} {vc1 : Bool}
    (hc : exec c s = run s fun d => whRow d b v vc1) (hb : b < 16) (hvc : vc1 = true → s.dev.hlk.cfg.vc1 = true)
    (stray : bits v 31 16 ≠ 0x57E1) : Does c s fun d =>
      d.hlk.whStray = s.dev.hlk.whStray + 1 ∧ d.hlk.whCnt = s.dev.hlk.whCnt ∧ d.muz = s.dev.muz ∧ d.exp = s.dev.exp := by
  refine does_of_whRow hc hvc ?_
  rw [whCmd, if_pos (by rw [key_putBit v hb]; exact stray)]
  simp

/-- Settles O49: with the key, the causes follow the bits and the muzzle follows the causes; without it only WH_STRAY moves. -/
theorem whistleMuzzlesAndStops : Obligations.WhistleMuzzlesAndStops := by
  unfold Obligations.WhistleMuzzlesAndStops
  intro s v vc1 hvc
  refine ⟨fun key => ?_, fun stray c hc => ?_⟩
  · have keyed (b : Nat) (hb : b < 16) : bits (putBit v b true) 31 16 = 0x57E1 := (key_putBit v hb).trans key
    have k0 := keyed 0 (by decide)
    have k1 := keyed 1 (by decide)
    have k2 := keyed 2 (by decide)
    have k3 := keyed 3 (by decide)
    refine ⟨does_of_whRow (show _ = execBlankSet v vc1 s from rfl) hvc ?_,
      does_of_whRow (show _ = execStopSet v vc1 s from rfl) hvc ?_,
      fun other => does_of_whRow (show _ = execBlankClr v vc1 s from rfl) hvc ?_,
      fun other => does_of_whRow (show _ = execStopClr v vc1 s from rfl) hvc ?_⟩
    · simp only [drive_muz, settle_muz, drive_hlk, settle_whCnt, whCmd_whBlank k0, whCmd_whCnt k0, vc1Seen_hlk, true_and]
      exact ⟨by simp [bit_putBit], fun p => whCmd_blanks k0 (by simp [bit_putBit]) (by rw [vc1Seen_muz]; exact p)⟩
    · simp only [drive_muz, settle_muz, drive_hlk, drive_exp, settle_exp, settle_whCnt, whCmd_whStop k2, whCmd_whCnt k2,
        vc1Seen_hlk, true_and]
      exact ⟨by simp [bit_putBit], fun new => whCmd_stops k2 (by simp [bit_putBit]) (by rw [vc1Seen_muz]; exact new)⟩
    · simp only [drive_muz, settle_muz, drive_hlk, settle_whCnt, whCmd_whBlank k1, whCmd_whCnt k1, vc1Seen_hlk, and_true]
      simp [bit_putBit, other]
    · simp only [drive_muz, settle_muz, drive_hlk, settle_whCnt, whCmd_whStop k3, whCmd_whCnt k3, vc1Seen_hlk, and_true]
      simp [bit_putBit, other]
  · simp only [List.mem_cons, List.not_mem_nil, or_false] at hc
    rcases hc with rfl | rfl | rfl | rfl
    · exact does_stray (show _ = execBlankSet v vc1 s from rfl) (by decide) hvc stray
    · exact does_stray (show _ = execBlankClr v vc1 s from rfl) (by decide) hvc stray
    · exact does_stray (show _ = execStopSet v vc1 s from rfl) (by decide) hvc stray
    · exact does_stray (show _ = execStopClr v vc1 s from rfl) (by decide) hvc stray

end Sys2Proof.Machine
end

section
/-! PROOF. Strobes, the watchdog, calibration, CLEAR_STUCK and CUT (R427, R432, R433, R438 to R440, R746). -/

namespace Sys2Proof.Machine

/-! ### Pulses that have ended -/

theorem pulseOver_errFrame (d : Dev) : ErrFrame d (pulseOver d) := by
  unfold pulseOver
  split
  · exact (muzBlink_errFrame _).after (errFrame_of rfl rfl)
  · exact muzUpdate_errFrame d

theorem pulseOver_errRest (d : Dev) : (pulseOver d).errRest = d.errRest := (pulseOver_errFrame d).view

theorem pulseOver_stopsOnly (d : Dev) : StopsOnly d (pulseOver d) := by
  unfold pulseOver
  split
  · exact .after (.muzBlink _) (.of_muzzle rfl rfl id id)
  · exact .muzUpdate d

theorem pulseOver_pulses (d : Dev) : (pulseOver d).muz.pulses = d.muz.pulses :=
  (congrArg (fun e : Dev => e.muz.pulses) (pulseOver_errRest d) :)

theorem muzBlink_held {d : Dev} (c : muzCause d = true) : muzBlink d = muzBegin d := by
  have cause : muzCause (muzBegin d) = true := (muzCause_of_muzzled (muzBegin_muz d)).trans c
  have muzzled : (muzBegin d).muz.muzzled = true := by rw [muzBegin_muz]
  unfold muzBlink
  rw [muzUpdate_held muzzled cause, if_pos muzzled]

/-- With no pulse left a cause muzzles (R432). -/
theorem pulseOver_muzzles {d : Dev} (c : muzCause d = true) (p : d.muz.pulses = []) :
    (pulseOver d).muz.muzzled = true ∧ muzCause (pulseOver d) = true := by
  unfold pulseOver
  split
  · have cause : muzCause (setMuz d fun m => { m with momentary := false }) = true := c
    rw [muzBlink_held cause]
    exact ⟨by rw [muzBegin_muz], (muzCause_of_muzzled (muzBegin_muz _)).trans cause⟩
  · have begun := muzUpdate_muz_of_cause c p
    exact ⟨by rw [begun], (muzCause_of_muzzled begun).trans c⟩

/-! ### The watchdog -/

/-- What the watchdog records of the cut pulse, and STUCK, before the muzzle begins (R438). -/
def cutRecorded (d : Dev) (p : Pulse) : Dev :=
  wr (wr (setMuz (if p.cut then wr d (Page.muz.base 0 + oINJECT) 0 else d) fun m => { m with stuck := true, pulses := [] })
    Adr.MUZ_CUT_SHOT (w32 p.shot)) Adr.MUZ_CUT_STRIPE p.tkt.index

theorem cutRecorded_muz (d : Dev) (p : Pulse) : (cutRecorded d p).muz = { d.muz with stuck := true, pulses := [] } := by
  unfold cutRecorded
  cases p.cut <;> rfl

theorem cutRecorded_pmu (d : Dev) (p : Pulse) : (cutRecorded d p).pmu = d.pmu := by
  unfold cutRecorded
  cases p.cut <;> rfl

theorem rg_cutRecorded_inject {d : Dev} {p : Pulse} (cut : p.cut = true) :
    rg (cutRecorded d p) (Page.muz.base 0 + oINJECT) = 0 := by
  unfold cutRecorded
  rw [if_pos cut, rg_wr_ne _ _ (by decide), rg_wr_ne _ _ (by decide), rg_setMuz, rg_wr_self]

/-- After the record the muzzle begins, the stripe is aborted from the shot after the cut one or its entry is made, and MUZ's error
STUCK occurs. -/
theorem strobeCut_of_high {d : Dev} {p : Pulse} {rest : List Pulse} (hp : d.muz.pulses = p :: rest) (high : p.high = true) :
    ∃ x, ErrFrame (pulseOver (cutRecorded d p)) x ∧ StopsOnly (pulseOver (cutRecorded d p)) x ∧
      strobeCut d = err x (Page.muz.base 0) Bit.err_MUZ_STUCK (w32 p.shot) p.tkt.index := by
  unfold strobeCut
  rw [hp]
  dsimp only
  rw [high, if_neg (by decide)]
  refine ⟨_, ?_, ?_, rfl⟩
  · split
    · exact (abortFrom_errFrame _ _ _).trans (halt_errFrame _)
    · exact .ite (putEnt_errFrame _ _) (.refl _)
  · split
    · exact (StopsOnly.abortFrom _ _ _).trans (.halt _)
    · exact .ite (.putEnt _ _) (.refl _)

/-- The strobe of `p` has been cut. -/
structure Cut (p : Pulse) (d : Dev) : Prop where
  stuck : d.muz.stuck = true
  pulses : d.muz.pulses = []
  muzzled : d.muz.muzzled = true
  shot : rg d Adr.MUZ_CUT_SHOT = w32 p.shot
  stripe : rg d Adr.MUZ_CUT_STRIPE = p.tkt.index
  error : latched d (Page.muz.base 0) Bit.err_MUZ_STUCK = true
  inject : p.cut = true → bit (rg d (Page.muz.base 0 + oINJECT)) 0 = false

theorem strobeCut_cuts {d : Dev} {p : Pulse} {rest : List Pulse} (hp : d.muz.pulses = p :: rest) (high : p.high = true) :
    Cut p (strobeCut d) ∧ (strobeCut d).pmu = d.pmu := by
  obtain ⟨x, frame, stops, eq⟩ := strobeCut_of_high hp high
  have whole : (strobeCut d).errRest = (cutRecorded d p).errRest := by
    rw [eq, err_errRest, frame.view, pulseOver_errRest]
  have word {a : Nat} (h : ¬ErrWord a) (hl : a ≠ Page.muz.base 0 + oERRLATCH) (h0 : a ≠ Page.muz.base 0 + oINFO0)
      (h1 : a ≠ Page.muz.base 0 + oINFO1) : rg (strobeCut d) a = rg (cutRecorded d p) a := by
    rw [eq, rg_err _ _ _ _ _ h hl h0 h1, frame.words a h, (pulseOver_errFrame _).words a h]
  have cause : muzCause (cutRecorded d p) = true := by simp [muzCause, cutRecorded_muz]
  obtain ⟨muzzled, held⟩ := pulseOver_muzzles cause (by rw [cutRecorded_muz])
  have answered := stops.trans (StopsOnly.err x Bit.err_MUZ_STUCK (w32 p.shot) p.tkt.index (base_mod .muz 0))
  rw [← eq] at answered
  have begun : StopsOnly (cutRecorded d p) (strobeCut d) := (pulseOver_stopsOnly _).trans answered
  refine ⟨{ stuck := ?_, pulses := ?_, muzzled := (answered.muzzle muzzled held).1, shot := ?_, stripe := ?_, error := ?_,
            inject := fun cut => ?_ }, ?_⟩
  · exact (congrArg (fun e : Dev => e.muz.stuck) whole :).trans (congrArg Muz.stuck (cutRecorded_muz d p))
  · exact (congrArg (fun e : Dev => e.muz.pulses) whole :).trans (congrArg Muz.pulses (cutRecorded_muz d p))
  · rw [word (not_errWord_of (by decide) (by decide)) (by decide) (by decide) (by decide)]
    exact (rg_wr_ne _ _ (by decide)).trans (rg_wr_self _ _ _)
  · rw [word (not_errWord_of (by decide) (by decide)) (by decide) (by decide) (by decide)]
    exact rg_wr_self _ _ _
  · rw [eq]
    exact latched_err x _ _ _ _ (base_mod .muz 0) (by decide) (by decide)
  · rw [begun.cut, rg_cutRecorded_inject cut]
    rfl
  · exact (congrArg (fun e : Dev => e.pmu) whole :).trans (cutRecorded_pmu d p)

/-! ### The obligation -/

theorem Cut.of_settle {p : Pulse} {d : Dev} (h : Cut p d) : Cut p (settle d) where
  stuck := by rw [settle_muz, h.stuck]
  pulses := by rw [settle_muz, h.pulses]
  muzzled := by rw [settle_muz, h.muzzled]
  shot := (rg_settle d (by decide) (by decide)).trans h.shot
  stripe := (rg_settle d (by decide) (by decide)).trans h.stripe
  error := (latched_congr (rg_settle d (by decide) (by decide)) _).trans h.error
  inject cut := by rw [rg_settle d (by decide) (by decide), h.inject cut]

/-- The obligation's reading of a cut, once the pins are driven. -/
theorem Cut.driven {p : Pulse} {d : Dev} (h : Cut p d) (on : d.pmu.seq ≠ .off) :
    (drive d).muz.stuck = true ∧ (drive d).muz.pulses = [] ∧ (drive d).muz.muzzled = true ∧ (drive d).pins.blankAll = some false ∧
    rg (drive d) Adr.MUZ_CUT_SHOT = w32 p.shot ∧ rg (drive d) Adr.MUZ_CUT_STRIPE = p.tkt.index ∧
    latched (drive d) (Page.muz.base 0) Bit.err_MUZ_STUCK = true ∧
    (p.cut = true → bit (rg (drive d) (Page.muz.base 0 + oINJECT)) 0 = false) := by
  simp only [drive_muz, drive_pins, rg_drive, latched_drive]
  exact ⟨h.stuck, h.pulses, h.muzzled, (pinLevels_of_muzzled h.muzzled).2 on, h.shot, h.stripe, h.error, h.inject⟩

/-- A pulse that reads as reaching MUZ_LIMIT is cut at its fall (R746). -/
theorem strobeFall_of_cut {d : Dev} {p : Pulse} {rest : List Pulse} (hp : d.muz.pulses = p :: rest) (high : p.high = true)
    (cut : p.cut = true) : strobeFall d = strobeCut d := by
  unfold strobeFall
  rw [hp]
  dsimp only
  rw [if_neg (by rw [high]; decide), if_pos cut]

/-- Settles O23: a strobe rises and falls in the list of pulses; the watchdog records the cut, muzzles and raises STUCK, and nothing
after that clears any of it. -/
theorem strobesAndWatchdog : Obligations.StrobesAndWatchdog := by
  unfold Obligations.StrobesAndWatchdog
  refine ⟨fun s p rest hp low => ?_, fun s p rest hp high plain => ?_, fun s p rest hp high on => ?_, fun s cells => ?_,
    fun s cells => ?_, fun s req v ha stuck calm => ?_, fun s req v ha => ?_⟩
  · refine does_of_run (show _ = execStrobeRise s from rfl) ?_
    rw [drive_muz, strobeRise, hp]
    dsimp only
    rw [if_neg (by rw [low]; decide)]
    rfl
  · refine does_of_run (show _ = execStrobeFall s from rfl) ?_
    rw [drive_muz, strobeFall, hp]
    dsimp only
    rw [if_neg (by rw [high]; decide), if_neg (by rw [plain]; decide), pulseOver_pulses]
    rfl
  · obtain ⟨cut, pmu⟩ := strobeCut_cuts hp high
    have on' : (strobeCut s.dev).pmu.seq ≠ .off := by rw [pmu]; exact on
    refine ⟨does_of_runS (show _ = execStrobeCut s from rfl) ?_, fun marked => does_of_run (show _ = execStrobeFall s from rfl) ?_⟩
    · exact cut.of_settle.driven (by rw [settle_pmu]; exact on')
    · rw [strobeFall_of_cut hp high marked]
      exact cut.driven on'
  · refine does_of_runS (show _ = execCalibration true cells s from rfl) ?_
    rw [rg_drive, rg_settle _ (by decide) (by decide)]
    exact rg_wr_self _ _ _
  · refine does_of_runS (show _ = execCalibration false cells s from rfl) ?_
    rw [rg_drive, rg_settle _ (by decide) (by decide), latched_drive]
    refine ⟨?_, ?_⟩
    · exact (rg_err _ _ _ _ _ (not_errWord_of (by decide) (by decide)) (by decide) (by decide) (by decide)).trans (rg_wr_self _ _ _)
    · exact (latched_congr (rg_settle _ (by decide) (by decide)) _).trans
        (latched_err _ _ _ _ _ (base_mod .muz 0) (by decide) (by decide))
  · refine does_of_run (show _ = execClearStuck req v s from rfl) ?_
    have below : (s.dev.fcl.lvl.any fun l => decide (3 ≤ l)) = false := by
      simpa [List.any_eq_false] using fun l hl => calm l hl
    obtain ⟨m, updated⟩ := muzUpdate_muz (setMuz s.dev fun m => { m with stuck := false })
    rw [write, if_pos ha, drive_muz, muzCmd, if_pos (by rw [bit_or_one, stuck, below]; rfl), updated]
    rfl
  · refine does_of_run (show _ = execMuzInjectCut req v s from rfl) ?_
    rw [write, if_pos ha, rg_drive, muzInject, rg_wr_self]
    simp [bit]

end Sys2Proof.Machine
end

section
/-! PROOF. The stage's inputs and faults (R406 to R408, R424 to R426, R434). -/

namespace Sys2Proof.Machine

/-! ### Errors of EXP -/

theorem expErr_eq (d : Dev) (b : Nat) : ∃ i0 i1, expErr d b = err d (Page.exp.base 0) b i0 i1 := by
  unfold expErr
  exact ⟨_, _, rfl⟩

theorem expErr_errRest (d : Dev) (b : Nat) : (expErr d b).errRest = d.errRest := by
  obtain ⟨i0, i1, eq⟩ := expErr_eq d b
  rw [eq, err_errRest]

theorem expErr_stopsOnly (d : Dev) (b : Nat) : StopsOnly d (expErr d b) := by
  obtain ⟨i0, i1, eq⟩ := expErr_eq d b
  rw [eq]
  exact .err d b i0 i1 (base_mod .exp 0)

theorem latched_expErr (d : Dev) {b : Nat} (h : b < 32) : latched (expErr d b) (Page.exp.base 0) b = true := by
  obtain ⟨i0, i1, eq⟩ := expErr_eq d b
  rw [eq]
  exact latched_err d _ b i0 i1 (base_mod .exp 0) (by decide) h

/-! ### A stage fault -/

/-- What a stage fault changes before its error occurs: MUZ_STAT.TRACK, and for feedback loss and freeze the request for SAFE. -/
def faultNoted (d : Dev) (b : Nat) : Dev :=
  let d := setMuz d fun m => { m with track := true }
  if b = Bit.err_EXP_FEEDBACK_LOST ∨ b = Bit.err_EXP_FREEZE then helCause d else d

theorem helCause_exp (d : Dev) : (helCause d).exp = d.exp := by
  unfold helCause
  split <;> rfl

theorem helCause_muz (d : Dev) : (helCause d).muz = d.muz := by
  unfold helCause
  split <;> rfl

theorem helCause_safeReq {d : Dev} (h : 1 ≤ d.hel.mode) (h' : d.hel.mode ≤ 3) : (helCause d).hel.safeReq = true := by
  unfold helCause
  rw [if_pos ⟨h, h'⟩]
  rfl

theorem faultNoted_exp (d : Dev) (b : Nat) : (faultNoted d b).exp = d.exp := by
  unfold faultNoted
  dsimp only
  split
  · exact helCause_exp _
  · rfl

theorem faultNoted_supply (d : Dev) (b : Nat) : (faultNoted d b).muz.supply = d.muz.supply := by
  unfold faultNoted
  dsimp only
  split
  · rw [helCause_muz]
    rfl
  · rfl

/-- The error and the stop of a stage fault (R434, R435). -/
def faultStop (d : Dev) (b : Nat) : Dev :=
  match d.exp.run with
  | some r =>
    if d.muz.supply && b != Bit.err_EXP_SKIP_LIMIT then
      halt (errHold (setMuz d fun m => { m with supplyBroke := true }) (Page.exp.base 0) b (w32 r.shots) r.tkt.index)
    else
      let d := expErr d b
      if (d.exp.run.filter fun x => x.tkt.seq = r.tkt.seq).isSome then halt (abortStripe (muzMoment d) (some 5)) else halt d
  | none => halt (expErr d b)

theorem stageFault_eq (d : Dev) (b : Nat) : stageFault d b = faultStop (faultNoted d b) b := rfl

/-- The stop that follows an error in the running stripe. -/
theorem stop_errFrame (d : Dev) : ErrFrame d (halt (abortStripe (muzMoment d) (some 5))) :=
  ((muzMoment_errFrame d).trans (abortStripe_errFrame _ _)).trans (halt_errFrame _)

theorem faultStop_exp (d : Dev) (b : Nat) : (faultStop d b).errRest.exp = d.errRest.exp := by
  unfold faultStop
  split
  · split
    · rw [(halt_errFrame _).view, errHold_errRest]
      rfl
    · dsimp only
      split
      · rw [(stop_errFrame _).view, expErr_errRest]
      · rw [(halt_errFrame _).view, expErr_errRest]
  · rw [(halt_errFrame _).view, expErr_errRest]

/-- A stage fault leaves of EXP what any error leaves. -/
theorem stageFault_exp (d : Dev) (b : Nat) : (stageFault d b).errRest.exp = d.errRest.exp := by
  rw [stageFault_eq, faultStop_exp]
  unfold Dev.errRest
  dsimp only
  rw [faultNoted_exp]

/-- With no supply warning in force, a fault that a running stripe meets leaves the error latched and the stripe ended, and no more
than an error does to the rest. -/
theorem faultStop_of_running {d : Dev} {b : Nat} (hr : d.exp.run ≠ none) (supply : d.muz.supply = false) (hb : b < 32) :
    (faultStop d b).exp.run = none ∧ (faultStop d b).exp.halted = true ∧
    latched (faultStop d b) (Page.exp.base 0) b = true ∧ (faultStop d b).errRest = d.errRest := by
  obtain ⟨r, hr⟩ := Option.ne_none_iff_exists'.mp hr
  have error := latched_expErr d hb
  have kept {e : Dev} (h : ErrFrame (expErr d b) e) : latched e (Page.exp.base 0) b = true ∧ e.errRest = d.errRest :=
    ⟨(latched_congr (h.words _ (not_errWord_errLatch (by decide) (by decide))) b).trans error,
      h.view.trans (expErr_errRest d b)⟩
  unfold faultStop
  rw [hr, supply]
  dsimp only
  rw [Bool.false_and, if_neg Bool.false_ne_true]
  split
  · refine ⟨?_, halt_halted _, kept (stop_errFrame _)⟩
    rw [halt_run]
    exact abortFrom_run _ _ _
  · next gone =>
    refine ⟨?_, halt_halted _, kept (halt_errFrame _)⟩
    rw [halt_run]
    refine (expErr_stopsOnly d b).run.elim id fun same => absurd ?_ gone
    rw [same, hr]
    simp

/-- The stage's faults that ask the Heel for SAFE (R426). -/
theorem stageFault_stops {d : Dev} {b : Nat} (hb : b = Bit.err_EXP_FEEDBACK_LOST ∨ b = Bit.err_EXP_FREEZE)
    (hr : inStripe d = true) (supply : d.muz.supply = false) :
    (stageFault d b).exp.run = none ∧ (stageFault d b).exp.halted = true ∧ latched (stageFault d b) (Page.exp.base 0) b = true ∧
    (1 ≤ d.hel.mode → d.hel.mode ≤ 3 → (stageFault d b).hel.safeReq = true) := by
  have hr' : (faultNoted d b).exp.run ≠ none := by
    rw [faultNoted_exp]
    exact Option.isSome_iff_ne_none.mp hr
  have small : b < 32 := by rcases hb with rfl | rfl <;> decide
  obtain ⟨run, halted, error, rest⟩ := faultStop_of_running hr' ((faultNoted_supply d b).trans supply) small
  rw [stageFault_eq]
  refine ⟨run, halted, error, fun h h' => ?_⟩
  refine (congrArg (fun e : Dev => e.hel.safeReq) rest :).trans ?_
  change (faultNoted d b).hel.safeReq = true
  unfold faultNoted
  rw [if_pos hb]
  exact helCause_safeReq h h'

/-! ### A count edge (R406) -/

/-- POS after a count. -/
def posAfter (pos : Nat) (up : Bool) : Nat := if up then (pos + 1) % 2 ^ 48 else (pos + 2 ^ 48 - 1) % 2 ^ 48

theorem feedbackLost_exp (d : Dev) : (feedbackLost d).errRest.exp = d.errRest.exp := by
  unfold feedbackLost
  split
  · exact stageFault_exp _ _
  · rfl

/-- EXP with a count edge noted (R406, R416). -/
def edgeNoted (d : Dev) (up : Bool) (t : Nat) : Dev :=
  setExp d fun e => { e with pos := posAfter e.pos up, lastEdge := some t, edges := (t :: e.edges).take 9, lastUp := up }

/-- The running stripe's travel after a count edge, and the reversal beyond GUARD (R410 to R412, R416 to R418). -/
def travelMoved (d : Dev) (last : Option Nat) (up : Bool) (t : Nat) : Dev :=
  match d.exp.run with
  | none => d
  | some r =>
    let tr := travel d r
    let r := { r with tEdge := last.getD r.tEdge }
    if up != (r.tkt.minus != decide (fd d Adr.EXP_CFG 4 4 = 1)) then setExp d fun e => { e with run := some (travelUp r tr t) }
    else
      let d := inc (setExp d fun e => { e with run := some (travelDown r t) }) Adr.EXP_CNT_BACKLASH
      if tr < r.hwm - fd d Adr.EXP_GUARD 7 0 then stageFault d Bit.err_EXP_REVERSAL else d

/-- Two count edges closer together than 36 ns are a loss of feedback (R409). -/
def edgeTimed (d : Dev) (last : Option Nat) (t : Nat) : Dev :=
  match last with
  | some l => if t - l < 36 then feedbackLost d else d
  | none => d

theorem countEdge_eq (d : Dev) (up : Bool) (t : Nat) :
    countEdge d up t = edgeTimed (travelMoved (edgeNoted d up t) d.exp.lastEdge up t) d.exp.lastEdge t := rfl

theorem travelMoved_exp (d : Dev) (last : Option Nat) (up : Bool) (t : Nat) :
    (travelMoved d last up t).errRest.exp = d.errRest.exp := by
  unfold travelMoved
  split
  · rfl
  · dsimp only
    split
    · rfl
    · split
      · exact stageFault_exp _ _
      · rfl

theorem edgeTimed_exp (d : Dev) (last : Option Nat) (t : Nat) : (edgeTimed d last t).errRest.exp = d.errRest.exp := by
  unfold edgeTimed
  split
  · split
    · exact feedbackLost_exp d
    · rfl
  · rfl

/-- Beside what an error can change and the running stripe, a count edge leaves EXP with the edge noted. -/
theorem countEdge_exp (d : Dev) (up : Bool) (t : Nat) : (countEdge d up t).errRest.exp = (edgeNoted d up t).errRest.exp := by
  rw [countEdge_eq, edgeTimed_exp, travelMoved_exp]

theorem countEdge_pos (d : Dev) (up : Bool) (t : Nat) : (countEdge d up t).exp.pos = posAfter d.exp.pos up := by
  have moved : (countEdge d up t).exp.pos = (edgeNoted d up t).exp.pos := (congrArg Exp.pos (countEdge_exp d up t) :)
  rw [moved, edgeNoted]
  rfl

theorem countEdge_qA (d : Dev) (up : Bool) (t : Nat) : (countEdge d up t).exp.qA = d.exp.qA :=
  (congrArg Exp.qA (countEdge_exp d up t) :)

/-- POS after a count, as R406 words it. -/
theorem posAfter_eq (pos : Nat) (up : Bool) : posAfter pos up = (if up then pos + 1 else pos + (2 ^ 48 - 1)) % 2 ^ 48 := by
  unfold posAfter
  cases up
  · simp only [Bool.false_eq_true, if_false]
    rw [Nat.add_sub_assoc (by decide)]
  · simp only [if_true]

/-! ### The inputs (R406, R408) -/

/-- In STEP/DIR a rising STEP that passes the filter counts. -/
theorem stageInput_step {d : Dev} {dir : Bool} {width : Nat} (t : Nat) (on : pdState d 13 = .on)
    (wide : 2 * fd d Adr.EXP_CFG 3 0 ≤ width) (mode : fd d Adr.EXP_CFG 9 8 = 0) (low : d.exp.qA = false) :
    stageInput d true dir width t = countEdge (setExp d fun e => { e with qA := true, qB := dir }) dir t := by
  have on' : pdState (setExp d fun e => { e with qA := true, qB := dir }) 13 = .on := on
  have mode' : fd (setExp d fun e => { e with qA := true, qB := dir }) Adr.EXP_CFG 9 8 = 0 := mode
  unfold stageInput
  rw [if_neg (Nat.not_lt.mpr wide)]
  dsimp only
  rw [if_neg (not_not.mpr on'), mode', low]
  rfl

/-- In quadrature an edge of A counts by the level of B. -/
theorem stageInput_quad {d : Dev} {x : Bool} {width : Nat} (t : Nat) (on : pdState d 13 = .on)
    (wide : 2 * fd d Adr.EXP_CFG 3 0 ≤ width) (mode : fd d Adr.EXP_CFG 9 8 = 1) (edge : d.exp.qA ≠ x) :
    stageInput d x d.exp.qB width t = countEdge (setExp d fun e => { e with qA := x }) (x != d.exp.qB) t := by
  have on' : pdState (setExp d fun e => { e with qA := x, qB := d.exp.qB }) 13 = .on := on
  have mode' : fd (setExp d fun e => { e with qA := x, qB := d.exp.qB }) Adr.EXP_CFG 9 8 = 1 := mode
  unfold stageInput
  rw [if_neg (Nat.not_lt.mpr wide)]
  dsimp only
  rw [if_neg (not_not.mpr on'), mode']
  change (if d.exp.qA ≠ x ∧ d.exp.qB ≠ d.exp.qB then _ else if d.exp.qA ≠ x then countEdge _ _ t else _) = _
  rw [if_neg (fun h => h.2 rfl), if_pos edge]
  rfl

/-! ### The obligation -/

/-- Settles O20: a count moves POS and nothing that follows it changes EXP's counters; a stage fault aborts the stripe it meets. -/
theorem stageInputsMovePosition : Obligations.StageInputsMovePosition := by
  unfold Obligations.StageInputsMovePosition
  refine ⟨fun s dir width t on wide mode low _ => ?_, fun s x width t on wide mode edge _ => ?_, fun s hrun supply => ?_,
    fun s last => ?_⟩
  · refine does_of_runS (show _ = execCountEdge true dir width t s from rfl) ?_
    rw [drive_exp, settle_exp, stageInput_step t on wide mode low, countEdge_pos]
    exact posAfter_eq _ _
  · refine does_of_runS (show _ = execCountEdge x s.dev.exp.qB width t s from rfl) ?_
    rw [drive_exp, settle_exp, stageInput_quad t on wide mode edge, countEdge_pos, countEdge_qA]
    refine ⟨(posAfter_eq _ _).trans ?_, rfl⟩
    simp [setExp, bne_iff_ne]
  · have settled {f : Dev} {b : Nat} (h : f.exp.run = none ∧ f.exp.halted = true ∧ latched f (Page.exp.base 0) b = true ∧
        (1 ≤ s.dev.hel.mode → s.dev.hel.mode ≤ 3 → f.hel.safeReq = true)) :
        (drive (settle f)).exp.run = none ∧ (drive (settle f)).exp.halted = true ∧
        latched (drive (settle f)) (Page.exp.base 0) b = true ∧
        (1 ≤ s.dev.hel.mode → s.dev.hel.mode ≤ 3 → (drive (settle f)).hel.safeReq = true) := by
      rw [drive_exp, settle_exp, latched_drive, latched_congr (rg_settle f (by decide) (by decide)), drive_hel, settle_hel]
      exact h
    have lost : feedbackLost s.dev = stageFault s.dev Bit.err_EXP_FEEDBACK_LOST := if_pos hrun
    have feedback := stageFault_stops (.inl rfl) hrun supply
    refine ⟨does_of_runS (show _ = execLossOfInputSwing s from rfl) (settled ?_),
      does_of_runS (show _ = execEncValidLow s from rfl) (settled ?_), does_of_runS (show _ = execFreeze s from rfl) (settled ?_)⟩
    · rw [lost]
      exact feedback
    · rw [lost]
      exact feedback
    · rw [if_pos hrun]
      exact stageFault_stops (.inr rfl) hrun supply
  · refine does_of_run (show _ = execOsreqExpiry s from rfl) ?_
    rw [if_pos last, drive_exp]
    rfl

end Sys2Proof.Machine
end

section
/-! PROOF. STRIPE_GO (R413, R428, R446, R447, R562, R757). -/

namespace Sys2Proof.Machine

/-! ### The stripe that STRIPE_GO starts -/

/-- The running stripe of ticket `k` at its STRIPE_GO. -/
def goRun (d : Dev) (k : Tkt) (t : Nat) : Run where
  tkt := k
  refused := decide (refuseWhy d ≠ 0) || slotShadow d k.slotB || k.rejected || k.swept
  ratio := fd d (slotReg k.slotB Adr.EXP_RATIO_A Adr.EXP_RATIO_B) 24 0
  width := fd d (slotReg k.slotB Adr.EXP_STROBE_A Adr.EXP_STROBE_B) 9 0
  goLead := max 2 (fd d Adr.EXP_GO 15 0)
  posGo := d.exp.pos
  hwm := 0
  tEdge := t
  tau := 0
  nb := 1
  sched := none
  due := [t]
  next := 0
  shots := 0
  lastFired := none
  lastB := none
  lastIv := 0
  skips := []
  begun := 0
  gathered := 0

/-- EXP, MUZ and HEL with the stripe of ticket `k` running, and the words that show it. -/
def goShown (d : Dev) (k : Tkt) (t : Nat) : Dev :=
  let width := fd d (slotReg k.slotB Adr.EXP_STROBE_A Adr.EXP_STROBE_B) 9 0
  let why := refuseWhy d
  let lim := width + 2 * fd d Adr.MUZ_GRACE 7 0
  let r := goRun d k t
  let d := setExp d fun e => { e with run := some r, goPos := e.pos }
  let d := setMuz d fun m => { m with limit := lim, supplyBroke := false }
  let d := setHel d fun h => { h with seen := h.seen ||| 2, leash := 0 }
  wr (wr (wr d Adr.EXP_STRIPE k.index) Adr.EXP_N (w32 k.n)) Adr.EXP_REFUSE (w32 why)

/-- The entry of a refused stripe, and the error of a slot that is SHADOW (R562, R757). -/
def goEntered (d : Dev) (k : Tkt) (entry stale : Bool) : Dev :=
  let d := if entry then putEnt d (mkEnt d .exp k 5 2 0 (w32 (k.n - 1))) else d
  if stale then err d (Page.glb.base 0) Bit.err_GLB_SLOT_STALE k.index (w32 (b2n k.slotB)) else d

/-- The errors of a STRIPE_GO with its domains or the Heel not ready (R449, R466). -/
def goLate (d : Dev) (late notReady : Bool) : Dev :=
  let d := if late then expErr d Bit.err_EXP_WAKE_LATE else d
  if notReady then helErr d Bit.err_HEL_NOT_READY 0 else d

/-- The entry and the errors of a STRIPE_GO; `why` is what EXP_REFUSE shows. -/
def goErrors (d : Dev) (k : Tkt) (entry stale late notReady : Bool) (why : Nat) : Dev :=
  goLate (if why ≠ 0 then expErr (goEntered d k entry stale) Bit.err_EXP_REFUSED else goEntered d k entry stale) late notReady

theorem stripeGo_starts {d : Dev} {k : Tkt} {q : List Tkt} (t : Nat) (on : pdState d 13 = .on) (idle : d.exp.run = none)
    (head : d.exp.queue = k :: q) :
    stripeGo d t = goErrors (goShown d k t) k ((goRun d k t).refused && !k.rejected) (slotShadow d k.slotB) (wakeLate d)
      (fd d Adr.HEL_CFG 8 8 = 1 && d.hel.mode != 3) (refuseWhy d) := by
  unfold stripeGo
  rw [if_neg (not_not.mpr on), idle, head]
  rfl

/-- With a stripe running, or none queued, the edge is counted and ignored (R447). -/
theorem stripeGo_ignored {d : Dev} (t : Nat) (on : pdState d 13 = .on) (h : d.exp.run ≠ none ∨ d.exp.queue = []) :
    stripeGo d t = inc d Adr.EXP_CNT_GO_IGNORED := by
  unfold stripeGo
  rw [if_neg (not_not.mpr on)]
  split
  · next idle head =>
    exact absurd h (by simp [idle, head])
  · rfl

theorem goShown_run (d : Dev) (k : Tkt) (t : Nat) : (goShown d k t).exp.run = some (goRun d k t) := rfl

theorem rg_goShown_stripe (d : Dev) (k : Tkt) (t : Nat) : rg (goShown d k t) Adr.EXP_STRIPE = k.index := by
  unfold goShown
  rw [rg_wr_ne _ _ (by decide), rg_wr_ne _ _ (by decide), rg_wr_self]

theorem rg_goShown_n (d : Dev) (k : Tkt) (t : Nat) : rg (goShown d k t) Adr.EXP_N = w32 k.n := by
  unfold goShown
  rw [rg_wr_ne _ _ (by decide), rg_wr_self]

theorem rg_goShown_refuse (d : Dev) (k : Tkt) (t : Nat) : rg (goShown d k t) Adr.EXP_REFUSE = w32 (refuseWhy d) := by
  unfold goShown
  exact rg_wr_self _ _ _

/-! ### The errors of a STRIPE_GO -/

/-- From `d` to `e` exposure has at most stopped, EXP_REFUSE stands, and a latched REFUSED is still latched. -/
structure RefusalStands (d e : Dev) : Prop where
  stops : StopsOnly d e
  word : rg e Adr.EXP_REFUSE = rg d Adr.EXP_REFUSE
  latch : latched d (Page.exp.base 0) Bit.err_EXP_REFUSED = true → latched e (Page.exp.base 0) Bit.err_EXP_REFUSED = true

namespace RefusalStands

theorem refl (d : Dev) : RefusalStands d d := ⟨.refl d, rfl, id⟩

theorem trans {d e f : Dev} (h : RefusalStands d e) (k : RefusalStands e f) : RefusalStands d f :=
  ⟨h.stops.trans k.stops, k.word.trans h.word, fun x => k.latch (h.latch x)⟩

theorem ite {d e : Dev} {c : Prop} [Decidable c] (h : RefusalStands d e) : RefusalStands d (if c then e else d) := by
  split
  · exact h
  · exact refl d

theorem of_errFrame {d e : Dev} (h : ErrFrame d e) (k : StopsOnly d e) : RefusalStands d e :=
  ⟨k, h.words _ (not_errWord_of (by decide) (by decide)),
    fun x => (latched_congr (h.words _ (not_errWord_errLatch (by decide) (by decide))) _).trans x⟩

theorem err (d : Dev) {base : Nat} {b : Nat} (i0 i1 : W32) (hb : base % 0x1000 = 0) (h : b < 32) :
    RefusalStands d (err d base b i0 i1) := by
  refine ⟨.err d b i0 i1 hb, rg_err _ _ _ _ _ (not_errWord_of (by decide) (by decide)) ?_ ?_ ?_,
    latched_err_of d b i0 i1 hb (base_mod .exp 0) (by decide) h⟩ <;>
    (simp only [Adr.EXP_REFUSE, oERRLATCH, oINFO0, oINFO1]; omega)

theorem expErr (d : Dev) {b : Nat} (h : b < 32) : RefusalStands d (expErr d b) := by
  obtain ⟨i0, i1, eq⟩ := expErr_eq d b
  rw [eq]
  exact err d i0 i1 (base_mod .exp 0) h

theorem helErr (d : Dev) {b : Nat} (i1 : W32) (h : b < 32) : RefusalStands d (helErr d b i1) := by
  have seen : RefusalStands d (setHel d fun x => { x with seen := x.seen ||| 4 }) := ⟨.same rfl rfl rfl, rfl, id⟩
  exact seen.trans (err _ _ _ (base_mod .hel 0) h)

end RefusalStands

theorem goEntered_stands (d : Dev) (k : Tkt) (entry stale : Bool) : RefusalStands d (goEntered d k entry stale) :=
  (RefusalStands.ite (.of_errFrame (putEnt_errFrame _ _) (.putEnt _ _))).trans (.ite (.err _ _ _ (base_mod .glb 0) (by decide)))

theorem goLate_stands (d : Dev) (late notReady : Bool) : RefusalStands d (goLate d late notReady) :=
  (RefusalStands.ite (.expErr _ (by decide))).trans (.ite (.helErr _ _ (by decide)))

/-- A refusal latches, and the other errors of the STRIPE_GO leave what shows it. -/
theorem goErrors_refused (d : Dev) (k : Tkt) (entry stale late notReady : Bool) {why : Nat} (h : why ≠ 0) :
    RefusalStands d (goErrors d k entry stale late notReady why) ∧
    latched (goErrors d k entry stale late notReady why) (Page.exp.base 0) Bit.err_EXP_REFUSED = true := by
  unfold goErrors
  rw [if_pos h]
  have entered := goEntered_stands d k entry stale
  have refused := RefusalStands.expErr (goEntered d k entry stale) (b := Bit.err_EXP_REFUSED) (by decide)
  have late := goLate_stands (expErr (goEntered d k entry stale) Bit.err_EXP_REFUSED) late notReady
  exact ⟨(entered.trans refused).trans late, late.latch (latched_expErr _ (by decide))⟩

/-! ### The obligation -/

/-- Settles O21: with nothing in the way STRIPE_GO raises no error, so the stripe runs as it was made; a refusal latches, and the errors
beside it can only end the refused stripe. -/
theorem stripeGoStartsTheHeadTicket : Obligations.StripeGoStartsTheHeadTicket := by
  unfold Obligations.StripeGoStartsTheHeadTicket
  refine ⟨fun s t k q on idle head accepted shown good swept early heel => ?_, fun s t k q on idle head why => ?_,
    fun s t on busy => ?_⟩
  · refine does_of_runS (show _ = execStripeGo t s from rfl) ?_
    have ready : (fd s.dev Adr.HEL_CFG 8 8 = 1 && s.dev.hel.mode != 3) = false := by simpa using heel
    have kept : (goRun s.dev k t).refused = false := by simp [goRun, accepted, shown, good, swept]
    have started : stripeGo s.dev t = goShown s.dev k t := by
      rw [stripeGo_starts t on idle head, kept, shown, early, ready, accepted]
      rfl
    rw [drive_exp, settle_exp, rg_drive, rg_drive, rg_drive, rg_settle _ (by decide) (by decide),
      rg_settle _ (by decide) (by decide), rg_settle _ (by decide) (by decide), started, rg_goShown_stripe, rg_goShown_n,
      rg_goShown_refuse, accepted]
    exact ⟨⟨_, goShown_run .., rfl, kept, rfl, rfl, rfl, rfl, rfl⟩, rfl, rfl, rfl⟩
  · refine does_of_runS (show _ = execStripeGo t s from rfl) ?_
    rw [drive_exp, settle_exp, rg_drive, rg_settle _ (by decide) (by decide), latched_drive,
      latched_congr (rg_settle _ (by decide) (by decide)), stripeGo_starts t on idle head]
    obtain ⟨stands, latch⟩ := goErrors_refused (goShown s.dev k t) k ((goRun s.dev k t).refused && !k.rejected)
      (slotShadow s.dev k.slotB) (wakeLate s.dev) (fd s.dev Adr.HEL_CFG 8 8 = 1 && s.dev.hel.mode != 3) why
    refine ⟨fun r hr => ?_, stands.word.trans (rg_goShown_refuse ..), latch⟩
    rcases stands.stops.run with none | same
    · rw [none] at hr
      cases hr
    · rw [same, goShown_run] at hr
      obtain rfl := Option.some.inj hr
      simp [goRun, why]
  · refine does_of_runS (show _ = execStripeGo t s from rfl) ?_
    rw [drive_exp, settle_exp, rg_drive, rg_settle _ (by decide) (by decide), stripeGo_ignored t on busy]
    exact ⟨rg_wr_self _ _ _, rfl⟩

end Sys2Proof.Machine
end

section
/-! PROOF. The management network: a report whose stamp finds the stamp queue full can end a stripe, which owes a report of its own
(R434, R565, R609, R663 to R665). -/

namespace Sys2Proof.Machine

/-- The MAC runs, reports are on and one is owed; the stamp queue holds its sixteen entries; TSQ_OVF of TIM, which is source 4, has
severity 2 (R608); and a refused stripe, of which no frame has been sent, runs. -/
def stampsFull : Dev :=
  let t : Tkt := ⟨0, 0, 0, false, false, false, 0, 0, 0, 0, 0, 0, 0, [], false, none, 0, none, false⟩
  { regs := [(Adr.FCL_SEV 4, 0x20), (Adr.KNL_MAC_CFG, 0xA0000000), (Adr.KNL_RPT_PORT, 1)]
    pmu := { pd := [{ st := .on }], lock := 1 }
    glb := { reports := [⟨0, 0, false, false, false, 0, 0, 0⟩] }
    tim := { tsq := List.replicate 16 (0, 0, 0) }
    exp := { queue := [t], count := 1
             run := some ⟨t, true, 0, 0, 2, 0, 0, 0, 0, 0, none, [], 0, 0, none, none, 0, [], 0, 0⟩ } }

/-- The stripe that the stop of TSQ_OVF ends seals at once and owes a report. -/
theorem stampsFull_owesAnother : (reportSend stampsFull).glb.reports ≠ [] := by decide

/-- Refutes O57: its clause on reports asks that sending the only report owed leaves none. The report's stamp finds the stamp queue full
(R663), TSQ_OVF at severity 2 aborts the stripe that runs (R434, R609), the stripe seals, since none of its frames was sent (R564), and
its own report joins those owed (R665). -/
theorem not_managementNetworkMovesFrames : ¬ Obligations.ManagementNetworkMovesFrames := by
  unfold Obligations.ManagementNetworkMovesFrames
  intro h
  obtain ⟨-, -, -, -, -, -, -, sends⟩ := h
  obtain ⟨none, -⟩ := sends stampsFull ⟨0, 0, false, false, false, 0, 0, 0⟩ [] rfl (by decide) (by decide)
  exact stampsFull_owesAnother none

end Sys2Proof.Machine
end

section
/-! SUPPORT. What gathering frames, handing them over, committing a shot and ending its stripe leave alone: the pulses in progress, EXP's
words of the shot, and a SKIP that has latched (R360, R414, R415, R431). -/

namespace Sys2Proof.Machine

/-- The words that show a shot's decision, and EXP's latch. -/
def shotWords : List Nat := [Adr.EXP_SHOT, Adr.EXP_CNT_SHOTS, Adr.EXP_CNT_SKIP, Page.exp.base 0 + oERRLATCH]

/-- From `d` to `e` the pulses and the words that show a shot's decision stand, and SKIP stays latched. -/
structure ShotStands (d e : Dev) : Prop where
  pulses : e.muz.pulses = d.muz.pulses
  shot : rg e Adr.EXP_SHOT = rg d Adr.EXP_SHOT
  shots : rg e Adr.EXP_CNT_SHOTS = rg d Adr.EXP_CNT_SHOTS
  skips : rg e Adr.EXP_CNT_SKIP = rg d Adr.EXP_CNT_SKIP
  latch : latched d (Page.exp.base 0) Bit.err_EXP_SKIP = true → latched e (Page.exp.base 0) Bit.err_EXP_SKIP = true

namespace ShotStands

theorem of_words {d e : Dev} (hp : e.muz.pulses = d.muz.pulses) (h : ∀ a ∈ shotWords, rg e a = rg d a) : ShotStands d e where
  pulses := hp
  shot := h _ (by decide)
  shots := h _ (by decide)
  skips := h _ (by decide)
  latch x := (latched_congr (h _ (by decide)) _).trans x

/-- Typed state outside the pulses changes. -/
theorem same {d e : Dev} (hp : e.muz.pulses = d.muz.pulses) (hr : e.regs = d.regs) : ShotStands d e :=
  of_words hp fun a _ => rg_congr hr a

theorem refl (d : Dev) : ShotStands d d := same rfl rfl

theorem trans {d e f : Dev} (h : ShotStands d e) (k : ShotStands e f) : ShotStands d f where
  pulses := k.pulses.trans h.pulses
  shot := k.shot.trans h.shot
  shots := k.shots.trans h.shots
  skips := k.skips.trans h.skips
  latch x := k.latch (h.latch x)

/-- The later part first. -/
theorem after {d e f : Dev} (k : ShotStands e f) (h : ShotStands d e) : ShotStands d f := h.trans k

theorem ite {d e f : Dev} {c : Prop} [Decidable c] (h : ShotStands d e) (k : ShotStands d f) :
    ShotStands d (if c then e else f) := by
  split
  · exact h
  · exact k

theorem foldl {α : Type} {f : Dev → α → Dev} (h : ∀ d x, ShotStands d (f d x)) (l : List α) (d : Dev) :
    ShotStands d (l.foldl f d) := by
  induction l generalizing d with
  | nil => exact refl d
  | cons x l ih => exact (h d x).trans (ih _)

theorem wr (d : Dev) {a : Nat} (v : W32) (h : a ∉ shotWords) : ShotStands d (wr d a v) :=
  of_words rfl fun _ hb => rg_wr_ne d v fun e => h (e ▸ hb)

theorem addReg (d : Dev) {a : Nat} (n : Nat) (h : a ∉ shotWords) : ShotStands d (addReg d a n) := wr d _ h

theorem evt (d : Dev) {base : Nat} (b : Nat) (h : base + oEVTPEND ∉ shotWords) : ShotStands d (evt d base b) :=
  of_words (by rw [evt_muz]) fun _ ha => rg_evt_ne d base b fun e => h (e ▸ ha)

theorem injTake (d : Dev) {base : Nat} (w : Bool) (h : base + oINJECT ∉ shotWords) : ShotStands d (injTake d base w).2 := by
  refine of_words (by rw [injTake_rest]) fun a ha => rg_injTake d base w (fun e => h (e ▸ ha)) fun e => ?_
  exact absurd (e ▸ ha) (by decide : Adr.MEI_CNT_CE ∉ shotWords)

/-! ### Errors and entries -/

theorem of_errFrame {d e : Dev} (h : ErrFrame d e) : ShotStands d e := by
  refine of_words (congrArg (fun x : Dev => x.muz.pulses) h.view :) fun a ha => h.words a ?_
  have apart : ∀ a ∈ shotWords, a % 0x1000 ≠ oINJECT ∧ a ∉ errWords := by decide
  exact not_errWord_of (apart a ha).1 (apart a ha).2

theorem errSet (d : Dev) {base b : Nat} (i0 i1 : W32) (hb : base % 0x1000 = 0) (h : b < 32) :
    ShotStands d (errSet d base b i0 i1).2 := by
  have word {a : Nat} (ha : a % 0x1000 ≠ oERRLATCH) (h0 : a % 0x1000 ≠ oINFO0) (h1 : a % 0x1000 ≠ oINFO1) :
      rg (Machine.errSet d base b i0 i1).2 a = rg d a := by
    simp only [oERRLATCH, oINFO0, oINFO1] at ha h0 h1
    rw [rg_errSet _ _ _ _ _ _ (by simp only [oINFO0]; omega) (by simp only [oINFO1]; omega),
      if_neg (by simp only [oERRLATCH]; omega)]
  refine ⟨(congrArg (fun x : Dev => x.muz.pulses) (errSet_errRest d base b i0 i1) :), word (by decide) (by decide) (by decide),
    word (by decide) (by decide) (by decide), word (by decide) (by decide) (by decide), fun x => ?_⟩
  unfold latched at x ⊢
  rw [rg_errSet _ _ _ _ _ _ (by simp only [Page.base, oERRLATCH, oINFO0]; omega) (by simp only [Page.base, oERRLATCH, oINFO1]; omega)]
  split
  · next same =>
    rw [bit_putBit _ _ _ _ h, ← same, x, ite_self]
  · exact x

theorem err (d : Dev) {base b : Nat} (i0 i1 : W32) (hb : base % 0x1000 = 0) (h : b < 32) : ShotStands d (err d base b i0 i1) :=
  (errSet d i0 i1 hb h).trans (of_errFrame (err_errFrame d base b i0 i1))

theorem errHold (d : Dev) {base b : Nat} (i0 i1 : W32) (hb : base % 0x1000 = 0) (h : b < 32) : ShotStands d (errHold d base b i0 i1) := by
  unfold Machine.errHold
  split
  · exact err d i0 i1 hb h
  · refine ite (err d i0 i1 hb h) ?_
    dsimp only
    refine (errSet d i0 i1 hb h).trans (ite (refl _) ?_)
    have ev (d : Dev) (n l k : Nat) : ShotStands d (if n ≤ l then Machine.evt d (Page.fcl.base 0) k else d) :=
      ite (evt _ _ (by decide)) (refl d)
    exact after (ev _ 2 _ _) (after (ev _ 1 _ _) (after (of_errFrame (fclLog_errFrame _ _ _ _ _))
      (after (of_errFrame (fclFirst_errFrame _ _ _ _ _)) (after (addReg _ _ (by decide)) (same rfl rfl)))))

theorem expErr (d : Dev) {b : Nat} (h : b < 32) : ShotStands d (expErr d b) := by
  obtain ⟨i0, i1, eq⟩ := expErr_eq d b
  rw [eq]
  exact err d i0 i1 (base_mod .exp 0) h

theorem listCheck (d : Dev) : ShotStands d (listCheck d) :=
  ite (after (of_errFrame (halt_errFrame _)) (after (err _ _ _ (base_mod .bob 0) (by decide)) (of_errFrame (abortStripe_errFrame _ _))))
    (refl d)

theorem addEnts (d : Dev) (l : List MEnt) : ShotStands d (addEnts d l) :=
  ite (refl d) (after (listCheck _) (of_errFrame (putEnts_errFrame l d)))

theorem addEnt (d : Dev) (e : MEnt) : ShotStands d (addEnt d e) := after (listCheck _) (of_errFrame (putEnt_errFrame d e))

theorem stripeEnts (d : Dev) (b : Blk) (t : Tkt) (l : List EntWords) : ShotStands d (stripeEnts d b t l) := ite (refl d) (addEnts _ _)

theorem stripeEnt (d : Dev) (b : Blk) (t : Tkt) (c k : Nat) (w2 w3 : W32) : ShotStands d (stripeEnt d b t c k w2 w3) :=
  ite (refl d) (addEnt _ _)

theorem endStripe (d : Dev) (r : Run) : ShotStands d (endStripe d r) := of_errFrame (endStripe_errFrame d r)

theorem stageFault (d : Dev) {b : Nat} (h : b < 32) : ShotStands d (stageFault d b) := by
  have noted : ShotStands d (faultNoted d b) := by
    have track : ShotStands d (setMuz d fun m => { m with track := true }) := same rfl rfl
    have cause (e : Dev) : ShotStands e (helCause e) := ite (same rfl rfl) (refl e)
    exact ite (track.trans (cause _)) track
  rw [stageFault_eq]
  refine noted.trans ?_
  unfold faultStop
  split
  · refine ite ?_ ?_
    · exact after (of_errFrame (halt_errFrame _)) (after (errHold _ _ _ (base_mod .exp 0) h) (same rfl rfl))
    · exact (expErr _ h).trans (ite (of_errFrame (stop_errFrame _)) (of_errFrame (halt_errFrame _)))
  · exact after (of_errFrame (halt_errFrame _)) (expErr _ h)

/-! ### Gather -/

theorem hbmCe (d : Dev) (da n : Nat) : ShotStands d (hbmCe d da n) := by
  unfold Machine.hbmCe
  split
  · exact refl d
  · exact addReg _ _ (by decide)

theorem findRows (d : Dev) (t : Tkt) (s : Nat) : ShotStands d (findRows d t s).2 := by
  unfold Machine.findRows
  dsimp only
  split
  · exact refl d
  · refine (injTake d (base := Page.stc.base 0) false (by decide)).trans (ite (refl _) (foldl (fun d x => ?_) _ _))
    exact (hbmCe _ _ _).trans (hbmCe _ _ _)

theorem tableFault (d : Dev) (a b fault : Nat) : ShotStands d (tableFault d a b fault).2 :=
  (injTake d (base := Page.stc.base 0) false (by decide)).trans (same rfl rfl)

theorem stcErr (d : Dev) {b : Nat} (t : Tkt) (w : Nat) (h : b < 32) : ShotStands d (stcErr d b t w) := err d _ _ (base_mod .stc 0) h

theorem stcErrAt (d : Dev) {b : Nat} (t : Tkt) (w s : Nat) (h : b < 32) : ShotStands d (stcErrAt d b t w s) :=
  (errHold d _ _ (base_mod .stc 0) h).trans (same rfl rfl)

theorem stcGather (d : Dev) (t : Tkt) (s : Nat) (late : List Nat) (fault : Nat) : ShotStands d (stcGather d t s late fault) := by
  have none (d : Dev) (n a b : Nat) (ha : a ∉ shotWords) (h : b < 32) :
      ShotStands d (if n = 0 then d else Machine.stcErr (Machine.addReg d a n) b t s) :=
    ite (refl d) (after (stcErr _ _ _ h) (addReg _ _ ha))
  have counted (d : Dev) (l : List Nat) (a b : Nat) (ha : a ∉ shotWords) (h : b < 32) :
      ShotStands d (if l = [] then d else Machine.stcErr (Machine.addReg d a l.length) b t s) :=
    ite (refl d) (after (stcErr _ _ _ h) (addReg _ _ ha))
  have ended (d : Dev) (c : Prop) [Decidable c] : ShotStands d (if c then Machine.evt d (Page.stc.base 0) Bit.evt_STC_END else d) :=
    ite (evt _ _ (by decide)) (refl d)
  have remapUe (d : Dev) (c : Prop) [Decidable c] :
      ShotStands d (if c then Machine.stcErrAt d Bit.err_STC_REMAP_UE t s s else d) :=
    ite (stcErrAt _ _ _ _ (by decide)) (refl d)
  have tableCe (d : Dev) (c : Prop) [Decidable c] : ShotStands d (if c then Machine.stcErr d Bit.err_STC_TABLE_CE t s else d) :=
    ite (stcErr _ _ _ (by decide)) (refl d)
  have poisons (d : Dev) (l : List Nat) : ShotStands d (l.foldl (fun d _ => Machine.stcErr d Bit.err_STC_SLOT_POISON t s) d) :=
    foldl (fun d _ => stcErr d _ _ (by decide)) l d
  have frame (d : Dev) (g : Glr) (c : Stc) : ShotStands d { d with glr := g, stc := c } := same rfl rfl
  have found := findRows d t s
  unfold Machine.stcGather
  generalize Machine.findRows d t s = x at found ⊢
  obtain ⟨rows, e⟩ := x
  have table := tableFault e (Adr.REMAP 0) (Adr.REMAP 524288) fault
  dsimp only at found ⊢
  generalize Machine.tableFault e (Adr.REMAP 0) (Adr.REMAP 524288) fault = y at table ⊢
  obtain ⟨fault, f⟩ := y
  dsimp only at table ⊢
  refine (found.trans table).trans ?_
  refine after (ended _ _) (after (remapUe _ _) (after (tableCe _ _) (after (counted _ _ _ _ (by decide) (by decide)) (after (poisons _ _)
    (after (counted _ _ _ _ (by decide) (by decide)) (after (none _ _ _ _ (by decide) (by decide)) (after (stripeEnts _ _ _ _)
    (after (stripeEnts _ _ _ _) (after (wr _ _ (by decide)) (frame _ _ _))))))))))

/-! ### Frames and commits -/

theorem mapSettle (d : Dev) : ShotStands d (mapSettle d) := by
  have link (d : Dev) (f : Glr → Glr) : ShotStands d (setGlr d f) := same rfl rfl
  have changed (d : Dev) : ShotStands d (mapChanged d) := by
    have slow (d : Dev) (c : Bool) : ShotStands d (setGlr (glrEvt d Bit.evt_GLR_MAP_CHANGE) fun g => { g with rateLimited := c }) :=
      after (link _ _) (evt _ _ (by decide))
    exact ite (after (err _ _ _ (base_mod .glr 0) (by decide)) (slow _ _)) (slow _ _)
  exact ite (after (changed _) (after (link _ _) (link _ _))) (link _ _)

theorem tagCount (d : Dev) : ShotStands d (tagCount d) := by
  have counted : ShotStands d { d with tag := { d.tag with resid := d.tag.resid + 1 } } := same rfl rfl
  refine counted.trans (of_words (congrArg (fun x : Dev => x.muz.pulses) (tagAdvance_tagFrame _).view :) fun a ha => ?_)
  have apart : ∀ a ∈ shotWords, 0x130000 ≤ a := by decide
  have place := apart a ha
  exact (tagAdvance_tagFrame _).words a fun w => by
    have := tagWord_place w
    omega

theorem commitFrame (d : Dev) (fire : Bool) (l : Nat) : ShotStands d (commitFrame d fire l) := by
  have committed : ShotStands d (histCommit d l (if fire then 1 else 2)) := same rfl rfl
  exact ite (committed.trans (tagCount _)) committed

theorem commitUnit (d : Dev) (fire : Bool) (l : Nat) : ShotStands d (commitUnit d fire l) :=
  after (commitFrame _ _ _) (same rfl rfl)

theorem beginFrame (d : Dev) (r : Run) (g : Nat) (commit : Option Bool) : ShotStands d (beginFrame d r g commit) := by
  have put (d : Dev) (f : Glr → Glr) (o : Out) : ShotStands d (emit (setGlr d f) o) := same rfl rfl
  unfold Machine.beginFrame
  refine (mapSettle d).trans (ite (refl _) ?_)
  have taken := injTake (Machine.mapSettle d) (base := Page.glr.base 0) true (by decide)
  dsimp only
  split
  · exact after (commitFrame _ _ _) (after (put _ _ _) taken)
  · exact after (put _ _ _) taken

theorem handOver (d : Dev) (g : Nat) (commit : Option Bool) : ShotStands d (handOver d g commit) := by
  unfold Machine.handOver
  split
  · exact refl d
  · exact (beginFrame d _ g commit).trans (same rfl rfl)

theorem gatherTo (d : Dev) (g : Nat) : ShotStands d (gatherTo d g) := by
  unfold Machine.gatherTo
  split
  · exact refl d
  · exact ite (refl d) (after (stcGather _ _ _ _ _) (same rfl rfl))

theorem commitShot (d : Dev) (k n f : Nat) (fire : Bool) : ShotStands d (commitShot d k n f fire) := by
  unfold Machine.commitShot
  refine ShotStands.trans (e := if f + 2 < n then Machine.gatherTo d (f + 2) else d) (ite (gatherTo d _) (refl d)) ?_
  generalize (if f + 2 < n then Machine.gatherTo d (f + 2) else d) = d
  dsimp only
  split
  · split
    · generalize (if (frameLseq d k f).isSome then some fire else none) = commit
      refine (handOver d (f + 2) commit).trans ?_
      split
      · exact ite (commitUnit _ _ _) (refl _)
      · exact refl _
    · have left : ShotStands d (setGlr d fun g => { g with leaving := [] }) := same rfl rfl
      refine left.trans ?_
      split
      · exact ite (commitUnit _ _ _) (refl _)
      · exact refl _
  · split
    · exact commitUnit _ _ _
    · exact refl d

/-- The end of a shot: its events, and the end of the stripe at the last one (R415). -/
theorem shotDone (d : Dev) (k f : Nat) : ShotStands d (shotDone d k f) := by
  unfold Machine.shotDone
  refine ShotStands.trans (e := if f = 0 then expEvt d Bit.evt_EXP_STRIPE_START else d) (ite (evt _ _ (by decide)) (refl d)) ?_
  generalize (if f = 0 then expEvt d Bit.evt_EXP_STRIPE_START else d) = d
  dsimp only
  split
  · exact ite (endStripe _ _) (refl d)
  · exact refl d

end ShotStands

end Sys2Proof.Machine
end

section
/-! PROOF. Lead boundaries and shots (R414, R420 to R422, R427, R431, R437). -/

namespace Sys2Proof.Machine

/-! ### Lead boundaries -/

/-- The run that a lead boundary at time `t` leaves, when it is not the last. -/
def leadRun (r : Run) (t : Nat) : Run :=
  { r with
    lastB := some t, lastIv := match r.lastB with | some l => t - l | none => r.lastIv
    lastFired := if r.next - 1 + 1 = r.goLead then some t else r.lastFired }

theorem leadBoundary_eq {d : Dev} {t : Nat} {r : Run} (take : takeBoundary d = some (t, r)) (lead : r.next - 1 < r.goLead) :
    leadBoundary d =
      (if r.next - 1 + 2 < r.goLead ∨ r.tkt.n ≤ r.next - 1 + 2 - r.goLead then setExp d fun e => { e with run := some (leadRun r t) }
      else handOver (gatherTo (setExp d fun e => { e with run := some (leadRun r t) }) (r.next - 1 + 2 - r.goLead))
        (r.next - 1 + 2 - r.goLead) none) := by
  unfold leadBoundary
  rw [take]
  dsimp only
  rw [if_neg (Nat.not_le.mpr lead)]
  rfl

/-- A frame that has been handed over has begun. -/
theorem handOver_begun (d : Dev) (g : Nat) (commit : Option Bool) {r : Run} (h : (handOver d g commit).exp.run = some r) :
    g < r.begun := by
  unfold handOver at h
  split at h
  · next none => simp [none] at h
  · obtain ⟨x, -, rfl⟩ := Option.map_eq_some_iff.mp h
    exact Nat.le_max_right _ _

/-! ### Shots -/

/-- OSREQ's count takes one boundary (R423). -/
def shotPaced (d : Dev) : Dev := if 1 < d.exp.osLeft then setExp d fun e => { e with osLeft := e.osLeft - 1 } else d

/-- The interval from the last fired shot. -/
def shotGap (r : Run) (t : Nat) : Nat :=
  match r.lastFired with
  | some l => t - l
  | none => t

/-- OVERSPEED, and OSREQ's count (R423). -/
def shotFast (d : Dev) (r : Run) (t : Nat) : Dev :=
  if shotGap r t ≤ 2 * (tminNs d * fd d Adr.EXP_OVS 8 0 / 256) then
    expEvt (setExp d fun e => { e with osLeft := 1025 }) Bit.evt_EXP_OVERSPEED
  else d

/-- A shot skipped at its boundary (R421, R422). -/
def shotSkipped (d : Dev) (r : Run) (f t : Nat) : Dev :=
  let k := r.tkt.seq
  let d := inc (decideShot d r f t .skip) Adr.EXP_CNT_SKIP
  let d := stripeEnt d .exp r.tkt 3 2 (w32 f) (w32 f)
  let d := commitShot d k r.tkt.n f false
  let d := err d (Page.exp.base 0) Bit.err_EXP_SKIP (w32 f) r.tkt.index
  let d := match running d k with
    | some r => if skipOver d r f then stageFault d Bit.err_EXP_SKIP_LIMIT else d
    | none => d
  shotDone d k f

/-- A shot fired, and its pulse due (R420, R427). -/
def shotFired (d : Dev) (r : Run) (f t : Nat) : Dev :=
  let d := inc (decideShot d r f t .fire) Adr.EXP_CNT_SHOTS
  let d := setMuz (emit d (.mark (if f = 0 then 256 else 64))) fun m => { m with
    pulses := m.pulses ++ [{ shot := f, tkt := r.tkt }] }
  shotDone (commitShot d r.tkt.seq r.tkt.n f true) r.tkt.seq f

/-- A shot whose interval has passed, by its frame and the window of acknowledgement (R384, R420). -/
def shotReady (d : Dev) (r : Run) (f t : Nat) : Dev :=
  let k := r.tkt.seq
  let blocked := match frameLseq d k f with
    | some l => ackBlocked d l || !unackEmpty d
    | none => false
  if blocked then
    let d := setExp d fun e => { e with run := some r }
    let d := ackStall d ((frameLseq d k f).getD 0)
    match running d k with
    | some _ => halt (abortStripe (muzMoment d) (some 5))
    | none => d
  else if (frameLseq d k f).isNone then shotDone (commitShot (decideShot d r f t .blank) k r.tkt.n f false) k f
  else shotFired d r f t

/-- What is decided at the boundary of shot `f`, at time `t`. -/
def shotDecided (d : Dev) (r : Run) (f t : Nat) : Dev :=
  let k := r.tkt.seq
  if r.refused then shotDone (commitShot (decideShot d r f t .blank) k r.tkt.n f false) k f
  else if covered d then shotDone (commitShot (openCover (decideShot d r f t .blank) f) k r.tkt.n f false) k f
  else if shotGap r t < 2 * tminNs d then shotSkipped (shotFast d r t) r f t
  else shotReady (shotFast d r t) r f t

theorem shotBoundary_eq {d : Dev} {t f : Nat} {r : Run} (take : takeBoundary d = some (t, r)) (next : r.next = r.goLead + f + 1)
    (going : ∀ a, r.tkt.stopAt = some a → f < a) : shotBoundary d = shotDecided (shotPaced d) r f t := by
  have shot : r.next - 1 - r.goLead = f := by omega
  unfold shotBoundary
  rw [take]
  dsimp only
  rw [if_neg (by omega), shot]
  split
  · next a ha =>
    rw [if_neg (by simpa using going a ha)]
    rfl
  · rw [if_neg Bool.false_ne_true]
    rfl

/-! ### What the decision shows -/

theorem rg_decideShot_shot (d : Dev) (r : Run) (f t : Nat) (c : Decision) : rg (decideShot d r f t c) Adr.EXP_SHOT = w32 f := by
  unfold decideShot
  rw [rg_wr_ne _ _ (by decide), rg_wr_self]

theorem rg_decideShot_ne (d : Dev) (r : Run) (f t : Nat) (c : Decision) {a : Nat} (h : a ≠ Adr.EXP_SHOT) (h' : a ≠ Adr.EXP_PERIOD) :
    rg (decideShot d r f t c) a = rg d a := by
  unfold decideShot
  rw [rg_wr_ne _ _ h', rg_wr_ne _ _ h]
  rfl

theorem shotPaced_stands (d : Dev) : ShotStands d (shotPaced d) := .ite (.same rfl rfl) (.refl d)

theorem shotFast_stands (d : Dev) (r : Run) (t : Nat) : ShotStands d (shotFast d r t) :=
  .ite (.after (.evt _ _ (by decide)) (.same rfl rfl)) (.refl d)

theorem shotPaced_muz (d : Dev) : (shotPaced d).muz = d.muz := by
  unfold shotPaced
  split <;> rfl

theorem covered_shotPaced (d : Dev) : covered (shotPaced d) = covered d := by
  unfold covered
  rw [muzCause_congr (shotPaced_muz d), shotPaced_muz]

/-- What only the link and GLR's words decide stands through the counts of a boundary. -/
theorem shotPaced_link (d : Dev) : (shotPaced d).glr = d.glr ∧ (shotPaced d).regs = d.regs := by
  unfold shotPaced
  split <;> exact ⟨rfl, rfl⟩

theorem tminNs_shotPaced (d : Dev) : tminNs (shotPaced d) = tminNs d := by
  unfold shotPaced
  split <;> rfl

theorem shotFast_glr (d : Dev) (r : Run) (t : Nat) : (shotFast d r t).glr = d.glr := by
  unfold shotFast
  split
  · exact evt_glr ..
  · rfl

theorem rg_shotFast (d : Dev) (r : Run) (t : Nat) {a : Nat} (h : a ≠ Page.exp.base 0 + oEVTPEND) : rg (shotFast d r t) a = rg d a := by
  unfold shotFast
  split
  · exact rg_evt_ne _ _ _ h
  · rfl

/-! ### The four decisions -/

/-- A shot that is blanked: it is shown, and nothing is counted. -/
theorem blanked_shows {d : Dev} (r : Run) (f t : Nat) {e : Dev} (h : ShotStands (decideShot d r f t .blank) e) :
    let x := shotDone (commitShot e r.tkt.seq r.tkt.n f false) r.tkt.seq f
    rg x Adr.EXP_SHOT = w32 f ∧ rg x Adr.EXP_CNT_SHOTS = rg d Adr.EXP_CNT_SHOTS ∧ rg x Adr.EXP_CNT_SKIP = rg d Adr.EXP_CNT_SKIP ∧
    x.muz.pulses = d.muz.pulses := by
  have done := (h.trans (.commitShot e r.tkt.seq r.tkt.n f false)).trans (.shotDone _ r.tkt.seq f)
  exact ⟨done.shot.trans (rg_decideShot_shot ..), done.shots.trans (rg_decideShot_ne _ _ _ _ _ (by decide) (by decide)),
    done.skips.trans (rg_decideShot_ne _ _ _ _ _ (by decide) (by decide)), done.pulses⟩

theorem shotDecided_blanks {d : Dev} {r : Run} (f t : Nat) (h : r.refused = true ∨ covered d = true) :
    rg (shotDecided d r f t) Adr.EXP_SHOT = w32 f ∧ rg (shotDecided d r f t) Adr.EXP_CNT_SHOTS = rg d Adr.EXP_CNT_SHOTS ∧
    rg (shotDecided d r f t) Adr.EXP_CNT_SKIP = rg d Adr.EXP_CNT_SKIP ∧ (shotDecided d r f t).muz.pulses = d.muz.pulses := by
  unfold shotDecided
  split
  · exact blanked_shows r f t (.refl _)
  · next accepted =>
    rw [if_pos (h.resolve_left accepted)]
    exact blanked_shows r f t (.same rfl rfl)

theorem shotSkipped_shows (d : Dev) (r : Run) (f t : Nat) :
    rg (shotSkipped d r f t) Adr.EXP_CNT_SKIP = rg d Adr.EXP_CNT_SKIP + 1 ∧ rg (shotSkipped d r f t) Adr.EXP_SHOT = w32 f ∧
    latched (shotSkipped d r f t) (Page.exp.base 0) Bit.err_EXP_SKIP = true ∧
    (shotSkipped d r f t).muz.pulses = d.muz.pulses := by
  unfold shotSkipped
  dsimp only
  generalize hx : inc (decideShot d r f t .skip) Adr.EXP_CNT_SKIP = x
  have limit (e : Dev) : ShotStands e (match running e r.tkt.seq with
      | some r => if skipOver e r f then stageFault e Bit.err_EXP_SKIP_LIMIT else e
      | none => e) := by
    split
    · exact .ite (.stageFault _ (by decide)) (.refl _)
    · exact .refl _
  have before := (ShotStands.stripeEnt x .exp r.tkt 3 2 (w32 f) (w32 f)).trans (.commitShot _ r.tkt.seq r.tkt.n f false)
  have error := latched_err (commitShot (stripeEnt x .exp r.tkt 3 2 (w32 f) (w32 f)) r.tkt.seq r.tkt.n f false) (Page.exp.base 0)
    Bit.err_EXP_SKIP (w32 f) r.tkt.index (base_mod .exp 0) (by decide) (by decide)
  have later := (limit (err (commitShot (stripeEnt x .exp r.tkt 3 2 (w32 f) (w32 f)) r.tkt.seq r.tkt.n f false) (Page.exp.base 0)
    Bit.err_EXP_SKIP (w32 f) r.tkt.index)).trans (.shotDone _ r.tkt.seq f)
  have whole := (before.trans (.err _ (w32 f) r.tkt.index (base_mod .exp 0) (b := Bit.err_EXP_SKIP) (by decide))).trans later
  refine ⟨whole.skips.trans ?_, whole.shot.trans ?_, later.latch error, whole.pulses.trans ?_⟩
  · rw [← hx, rg_inc, if_pos rfl, rg_decideShot_ne _ _ _ _ _ (by decide) (by decide)]
  · rw [← hx, rg_inc, if_neg (by decide), rg_decideShot_shot]
  · rw [← hx]
    rfl

theorem shotFired_shows (d : Dev) (r : Run) (f t : Nat) :
    rg (shotFired d r f t) Adr.EXP_CNT_SHOTS = rg d Adr.EXP_CNT_SHOTS + 1 ∧ rg (shotFired d r f t) Adr.EXP_SHOT = w32 f ∧
    (shotFired d r f t).muz.pulses = d.muz.pulses ++ [{ shot := f, tkt := r.tkt }] := by
  unfold shotFired
  dsimp only
  generalize hx : setMuz (emit (inc (decideShot d r f t .fire) Adr.EXP_CNT_SHOTS) (.mark (if f = 0 then 256 else 64))) (fun m => { m with
    pulses := m.pulses ++ [{ shot := f, tkt := r.tkt }] }) = x
  have done := (ShotStands.commitShot x r.tkt.seq r.tkt.n f true).trans (.shotDone _ r.tkt.seq f)
  refine ⟨done.shots.trans ?_, done.shot.trans ?_, done.pulses.trans ?_⟩
  · rw [← hx, rg_setMuz, rg_emit, rg_inc, if_pos rfl, rg_decideShot_ne _ _ _ _ _ (by decide) (by decide)]
  · rw [← hx, rg_setMuz, rg_emit, rg_inc, if_neg (by decide), rg_decideShot_shot]
  · rw [← hx]
    rfl

/-- A frame on the link, with the window open and no acknowledgement outstanding, lets the shot fire. -/
theorem shotReady_fires {d : Dev} {r : Run} {f l : Nat} (t : Nat) (sent : frameLseq d r.tkt.seq f = some l)
    (window : ackBlocked d l = false) (acked : unackEmpty d = true) : shotReady d r f t = shotFired d r f t := by
  unfold shotReady
  dsimp only
  rw [sent]
  dsimp only
  rw [if_neg (by rw [window, acked]; decide)]
  exact if_neg Bool.false_ne_true

/-! ### The obligation -/

/-- What settling and driving the pins leave of a decision. -/
theorem settled_stands (d : Dev) : ShotStands d (drive (settle d)) := by
  refine .of_words (by rw [drive_muz, settle_muz]) fun a ha => ?_
  have apart : ∀ a ∈ shotWords, a ≠ Adr.BOB_CNT_LOW ∧ a ≠ Page.bob.base 0 + oEVTPEND := by decide
  rw [rg_drive, rg_settle d (apart a ha).1 (apart a ha).2]

/-- Settles O22: a boundary's decision is the model's, case by case, and neither the commit nor the end of the stripe changes what
shows it. -/
theorem boundariesDecideShots : Obligations.BoundariesDecideShots := by
  unfold Obligations.BoundariesDecideShots
  refine ⟨fun s t r take early first => ?_, fun s t r take last lead first shot => ?_,
    fun s t f l r take next going accepted bare after fresh sent window acked => ?_,
    fun s t f b r take next going accepted bare fired short => ?_, fun s t f r take next going blank => ?_⟩
  · refine does_of_runS (show _ = execLeadBoundary s from rfl) ?_
    rw [drive_exp, settle_exp, leadBoundary_eq take (by omega), if_pos (.inl (by omega))]
    exact ⟨leadRun r t, rfl, rfl, rfl, rfl⟩
  · refine does_of_runS (show _ = execLeadBoundary s from rfl) ?_
    rw [drive_exp, settle_exp, leadBoundary_eq take (by omega), if_neg (by omega)]
    intro r' h
    have begun := handOver_begun _ _ _ h
    omega
  · refine does_of_runS (show _ = execShotBoundary s from rfl) ?_
    have stands := settled_stands (shotBoundary s.dev)
    have gap : ¬ shotGap r t < 2 * tminNs (shotPaced s.dev) := by
      rw [tminNs_shotPaced]
      unfold shotGap
      split
      · next b hb => exact Nat.not_lt.mpr (after b hb)
      · next hb => exact Nat.not_lt.mpr (fresh hb)
    have glr : (shotFast (shotPaced s.dev) r t).glr = s.dev.glr := (shotFast_glr _ _ _).trans (shotPaced_link _).1
    have ackWord : rg (shotFast (shotPaced s.dev) r t) Adr.GLR_ACKWIN = rg s.dev Adr.GLR_ACKWIN :=
      (rg_shotFast _ _ _ (by decide)).trans (rg_congr (shotPaced_link _).2 _)
    have fires : shotBoundary s.dev = shotFired (shotFast (shotPaced s.dev) r t) r f t := by
      rw [shotBoundary_eq take next going, shotDecided, accepted, covered_shotPaced, bare]
      rw [if_neg Bool.false_ne_true, if_neg Bool.false_ne_true, if_neg gap]
      refine shotReady_fires t (l := l) ?_ ?_ ?_
      · rw [← sent]
        unfold frameLseq linkUp
        rw [glr]
      · rw [← window]
        unfold ackBlocked ackAhead fd
        rw [glr, ackWord]
      · rw [← acked]
        unfold unackEmpty
        rw [glr]
    have counts := (shotPaced_stands s.dev).trans (shotFast_stands _ r t)
    obtain ⟨shots, shot, pulses⟩ := shotFired_shows (shotFast (shotPaced s.dev) r t) r f t
    rw [← fires] at shots shot pulses
    rw [stands.shots, stands.shot, stands.pulses, shots, shot, pulses, counts.shots, counts.pulses]
    exact ⟨rfl, rfl, rfl⟩
  · refine does_of_runS (show _ = execShotBoundary s from rfl) ?_
    have stands := settled_stands (shotBoundary s.dev)
    have gap : shotGap r t < 2 * tminNs (shotPaced s.dev) := by
      rw [tminNs_shotPaced]
      unfold shotGap
      rw [fired]
      exact short
    have skips : shotBoundary s.dev = shotSkipped (shotFast (shotPaced s.dev) r t) r f t := by
      rw [shotBoundary_eq take next going, shotDecided, accepted, covered_shotPaced, bare]
      rw [if_neg Bool.false_ne_true, if_neg Bool.false_ne_true, if_pos gap]
    have counts := (shotPaced_stands s.dev).trans (shotFast_stands _ r t)
    obtain ⟨count, shot, latch, pulses⟩ := shotSkipped_shows (shotFast (shotPaced s.dev) r t) r f t
    rw [← skips] at count shot latch pulses
    rw [stands.skips, stands.shot, stands.pulses, count, shot, pulses, counts.skips, counts.pulses]
    exact ⟨rfl, rfl, stands.latch latch, rfl⟩
  · refine does_of_runS (show _ = execShotBoundary s from rfl) ?_
    have stands := settled_stands (shotBoundary s.dev)
    have paced := shotPaced_stands s.dev
    obtain ⟨shot, shots, skips, pulses⟩ := shotDecided_blanks (d := shotPaced s.dev) f t
      (blank.imp_right fun c => (covered_shotPaced _).trans c)
    rw [← shotBoundary_eq take next going] at shot shots skips pulses
    rw [stands.shot, stands.shots, stands.skips, stands.pulses, shot, shots, skips, pulses, paced.shots, paced.skips, paced.pulses]
    exact ⟨rfl, rfl, rfl, rfl⟩

end Sys2Proof.Machine
end

section
/-! SUPPORT. What self-tests, the restored registers and the kennel's ROM leave alone of a reset: the PMU's state and RSTCAUSE, kennel-away,
and MUZ's cause of the warm reset (R599 to R602, R626, R640, R691, R697). -/

namespace Sys2Proof.Machine

/-- From `d` to `e` the PMU's state and RSTCAUSE stand, and so do kennel-away and the muzzle's cause of a warm reset. -/
structure ResetStands (d e : Dev) : Prop where
  pmu : e.pmu = d.pmu
  cause : rg e Adr.PMU_RSTCAUSE = rg d Adr.PMU_RSTCAUSE
  away : e.knl.away = d.knl.away
  muzzle : e.muz.reset = d.muz.reset

namespace ResetStands

/-- Typed state outside what the relation names changes. -/
theorem same {d e : Dev} (hp : e.pmu = d.pmu) (hr : e.regs = d.regs) (hk : e.knl.away = d.knl.away) (hm : e.muz.reset = d.muz.reset) :
    ResetStands d e :=
  ⟨hp, rg_congr hr _, hk, hm⟩

theorem refl (d : Dev) : ResetStands d d := same rfl rfl rfl rfl

theorem trans {d e f : Dev} (h : ResetStands d e) (k : ResetStands e f) : ResetStands d f :=
  ⟨k.pmu.trans h.pmu, k.cause.trans h.cause, k.away.trans h.away, k.muzzle.trans h.muzzle⟩

/-- The later part first. -/
theorem after {d e f : Dev} (k : ResetStands e f) (h : ResetStands d e) : ResetStands d f := h.trans k

theorem ite {d e f : Dev} {c : Prop} [Decidable c] (h : ResetStands d e) (k : ResetStands d f) :
    ResetStands d (if c then e else f) := by
  split
  · exact h
  · exact k

theorem foldl {α : Type} {f : Dev → α → Dev} (h : ∀ d x, ResetStands d (f d x)) (l : List α) (d : Dev) :
    ResetStands d (l.foldl f d) := by
  induction l generalizing d with
  | nil => exact refl d
  | cons x l ih => exact (h d x).trans (ih _)

/-- A word beyond the PMU's page. -/
theorem wr (d : Dev) {a : Nat} (v : W32) (h : 0x2000 ≤ a) : ResetStands d (wr d a v) :=
  ⟨rfl, rg_wr_ne d v (by simp only [Adr.PMU_RSTCAUSE]; omega), rfl, rfl⟩

theorem inc (d : Dev) {a : Nat} (h : 0x2000 ≤ a) : ResetStands d (inc d a) := wr d _ h

theorem setFd (d : Dev) {a : Nat} (hi lo v : Nat) (h : 0x2000 ≤ a) : ResetStands d (setFd d a hi lo v) := wr d _ h

theorem evt (d : Dev) {base : Nat} (b : Nat) (h : Adr.PMU_RSTCAUSE ≠ base + oEVTPEND) : ResetStands d (evt d base b) :=
  ⟨evt_pmu .., rg_evt_ne _ _ _ h, by rw [evt_knl], by rw [evt_muz]⟩

theorem injTake (d : Dev) {base : Nat} (w : Bool) (h : Adr.PMU_RSTCAUSE ≠ base + oINJECT) : ResetStands d (injTake d base w).2 := by
  refine ⟨?_, rg_injTake d base w h (by decide), ?_, ?_⟩ <;> rw [injTake_rest]

/-- What an error leaves of the typed state. -/
theorem of_errRest {d e : Dev} (h : e.errRest = d.errRest) (hr : rg e Adr.PMU_RSTCAUSE = rg d Adr.PMU_RSTCAUSE) : ResetStands d e :=
  ⟨(congrArg (fun x : Dev => x.pmu) h :), hr, (congrArg (fun x : Dev => x.knl.away) h :), (congrArg (fun x : Dev => x.muz.reset) h :)⟩

theorem of_errFrame {d e : Dev} (h : ErrFrame d e) : ResetStands d e :=
  of_errRest h.view (h.words _ (not_errWord_of (by decide) (by decide)))

theorem err (d : Dev) {base : Nat} (b : Nat) (i0 i1 : W32) (h : base % 0x1000 = 0) : ResetStands d (err d base b i0 i1) := by
  refine of_errRest (err_errRest ..) (rg_err _ _ _ _ _ (not_errWord_of (by decide) (by decide)) ?_ ?_ ?_) <;>
    (simp only [Adr.PMU_RSTCAUSE, oERRLATCH, oINFO0, oINFO1]; omega)

/-! ### Self-tests that fail (R601) -/

theorem requeue (d : Dev) (w : Work) : ResetStands d (requeue d w) := same rfl rfl rfl rfl

theorem takeBack (d : Dev) (n : Nat) : ResetStands d (takeBack d n) :=
  after (foldl requeue _ _) (same rfl rfl rfl rfl)

theorem promote (d : Dev) (n : Nat) (w : Option Work) : ResetStands d (promote d n w) := by
  unfold Machine.promote
  refine ite (refl d) ?_
  split
  · exact after (evt _ _ (by decide)) (wr _ _ (by simp only [Adr.RAS_ROLE]; omega))
  · split
    · exact err _ _ _ _ (base_mod .ver 0)
    · exact err _ _ _ _ (base_mod .ver 0)

theorem outOfService (d : Dev) {base : Nat} (h : 0x2000 ≤ base) : ResetStands d (outOfService d base) :=
  wr _ _ (Nat.le_add_right_of_le h)

theorem tileFail (d : Dev) (n : Nat) : ResetStands d (tileFail d n) := by
  have out : ResetStands d (Machine.takeBack (Machine.wr (Machine.outOfService d (Page.ras.base n)) (Adr.RAS_ROLE n) 0) n) :=
    after (takeBack _ _) (after (wr _ _ (by simp only [Adr.RAS_ROLE]; omega)) (outOfService _ (by simp only [Page.base]; omega)))
  exact ite (out.trans (promote _ _ _)) out

theorem rmpInstall (d : Dev) (sram : Bool) (unit a : Nat) (poisoned : Bool) (lo hi : Nat) :
    ResetStands d (rmpInstall d sram unit a poisoned lo hi) := by
  have put (d : Dev) (f : Mei → Mei) : ResetStands d (setMei d f) := same rfl rfl rfl rfl
  unfold Machine.rmpInstall
  split
  · exact after (evt _ _ (by decide)) (after (inc _ (by decide)) (put _ _))
  · exact err _ _ _ _ (base_mod .mei 0)

theorem pcTestFail (d : Dev) (p : Nat) : ResetStands d (pcTestFail d p) := by
  have state (d : Dev) (q v : Nat) : ResetStands d (setPcState d q v) := wr _ _ (by simp only [Adr.BOB_PCSTATE]; omega)
  have lose (d : Dev) : ResetStands d (setBob (setPcState d p 5) fun b => { b with lost := setIns b.lost p }) :=
    (state d p 5).trans (same rfl rfl rfl rfl)
  have noted (lo : Nat) : ResetStands d (meiErr (Machine.setFd d Adr.MEI_INIT 7 0 (min 255 (fd d Adr.MEI_INIT 7 0 + 1)))
      Bit.err_MEI_PC_INIT lo 0) := after (err _ _ _ _ (base_mod .mei 0)) (setFd _ _ _ _ (by decide))
  unfold Machine.pcTestFail
  refine ite (refl d) ?_
  dsimp only
  refine (noted (1024 * (pcLogical d p).getD 0)).trans ?_
  split
  · exact after (lose _) (after (state _ _ _) (wr _ _ (by simp only [Adr.BOB_PCMAP]; omega)))
  · exact after (err _ _ _ _ (base_mod .bob 0)) (lose _)
  · exact lose _

theorem testFail (d : Dev) (x : TestFail) : ResetStands d (testFail d x) := by
  unfold Machine.testFail
  split
  · exact ite (tileFail _ _) (refl d)
  · exact ite (outOfService _ (by simp only [Page.base]; omega)) (refl d)
  · exact ite (outOfService _ (by simp only [chBase, Page.base]; omega)) (refl d)
  · exact ite (outOfService _ (by simp only [Page.base]; omega)) (refl d)
  · exact pcTestFail _ _
  · exact ite (rmpInstall _ _ _ _ _ _ _) (err _ _ _ _ (base_mod .mei 0))
  · exact err _ _ _ _ (base_mod .mei 0)

/-! ### The registers that a power-up restores (R640) -/

/-- RSTCAUSE has no field that NVM keeps. -/
theorem nvRestoreWord (d : Dev) (x : Nat × W32) : ResetStands d (nvRestoreWord d x) := by
  unfold Machine.nvRestoreWord
  split
  · exact refl d
  · split
    · exact refl d
    · next p n hpage _ r hrow =>
      refine ⟨rfl, ?_, rfl, rfl⟩
      by_cases h : Adr.PMU_RSTCAUSE = x.1
      · rw [← h] at hpage hrow ⊢
        obtain ⟨rfl, rfl⟩ := Prod.mk.inj (Option.some.inj (hpage.symm.trans (by decide : _ = some (Page.pmu, 0))))
        have none : (Page.pmu.row (Adr.PMU_RSTCAUSE % 0x1000)).map (·.nv) = some 0 := by decide
        rw [hrow] at none
        have clear : w32 r.nv = 0#32 := congrArg w32 (Option.some.inj none)
        rw [rg_wr_self, clear, BitVec.and_zero, BitVec.or_zero, BitVec.not_zero, BitVec.and_allOnes]
      · exact rg_wr_ne _ _ h

theorem nvmErr (d : Dev) (b off kind : Nat) : ResetStands d (nvmErr d b off kind) := err _ _ _ _ (base_mod .nvm 0)

theorem nvRestore (d : Dev) : ResetStands d (nvRestore d) := by
  have put (d : Dev) (f : Nvm → Nvm) : ResetStands d (setNvm d f) := same rfl rfl rfl rfl
  have remap (d : Dev) (f : Mei → Mei) : ResetStands d (setMei d f) := same rfl rfl rfl rfl
  unfold Machine.nvRestore
  dsimp only
  refine after (foldl (fun d off => nvmErr _ _ _ _) _ _) (after (put _ _) ?_)
  split
  · exact after (remap _ _) (foldl nvRestoreWord _ _)
  · exact nvmErr _ _ _ _

theorem seedLat (d : Dev) : ResetStands d (seedLat d) :=
  foldl (fun d p => wr _ _ (by simp only [Adr.BOB_LAT_EST]; omega)) _ d

/-! ### The kennel's ROM (R626, R627, R634) -/

theorem sramWrite (d : Dev) (a : Nat) (l : List Byte) : ResetStands d (sramWrite d a l) := by
  have put (d : Dev) (x : Mem) (y : List Nat) : ResetStands d (setKnl d fun k => { k with sram := x, sramBad := y }) := same rfl rfl rfl rfl
  have bad (d : Dev) (y : List Nat) : ResetStands d (setKnl d fun k => { k with sramBad := y }) := same rfl rfl rfl rfl
  have taken (d : Dev) := injTake d (base := Page.knl.base 0) true (by decide)
  have stored (d : Dev) : ResetStands d (if 2 ≤ (Machine.injTake d (Page.knl.base 0) true).1 then
      setKnl (Machine.injTake d (Page.knl.base 0) true).2 fun k => { k with sramBad := setIns k.sramBad (a / 4) }
      else (Machine.injTake d (Page.knl.base 0) true).2) := ite ((taken d).trans (bad _ _)) (taken d)
  exact ite (put _ _ _) (after (stored _) (put _ _ _))

theorem nvFinish (d : Dev) (j : NvJob) (ok : Bool) : ResetStands d (nvFinish d j ok) := by
  have put (d : Dev) (f : Nvm → Nvm) : ResetStands d (setNvm d f) := same rfl rfl rfl rfl
  have area (d : Dev) (a c : Nat) (x : Option NvCopy) : ResetStands d (nvPut d a c x) := by
    unfold nvPut
    exact put d _
  have written : ResetStands d (nvWrite d j) := by
    unfold nvWrite
    split
    · exact ite ((area _ _ _ _).trans (put _ _)) (area _ _ _ _)
    · exact put _ _
  have stored : ResetStands d (if ok then nvWrite d j
      else match jobArea j with
        | some a => nvPut d a (nvTarget d a) none
        | none => setNvm (freeBytes d 512).2 fun n => { n with mram := n.mram.write (jobOff d j) (freeBytes d 512).1 }) := by
    refine ite written ?_
    split
    · exact area _ _ _ _
    · exact same rfl rfl rfl rfl
  have out (d : Dev) : ResetStands d (emit (Machine.evt d (Page.nvm.base 0) Bit.evt_NVM_DONE) (.plic 5)) :=
    (evt d _ (by decide)).trans (same rfl rfl rfl rfl)
  have error (d : Dev) (c : Prop) [Decidable c] (b off kind : Nat) : ResetStands d (if c then d else Machine.nvmErr d b off kind) :=
    ite (refl d) (nvmErr _ _ _ _)
  unfold Machine.nvFinish
  dsimp only
  refine after (out _) (after (error _ _ _ _ _) (after (inc _ (by decide)) (after (wr _ _ (by decide)) (after (put _ _) stored))))

theorem bootStore (d : Dev) (r : W32 × W32 × W32) : ResetStands d (bootStore d r) := by
  have now (d : Dev) (j : NvJob) : ResetStands d (nvNow d j) := (nvFinish d j true).trans (same rfl rfl rfl rfl)
  unfold Machine.bootStore
  dsimp only
  exact after (now _ _) (ite (inc _ (by decide)) (refl d))

theorem runSlot (d : Dev) (s : Nat) : ResetStands d (runSlot d s) := by
  have run (d : Dev) (s : Nat) (r : List Repair) : ResetStands d (setKnl d fun k => { k with phase := 2, slot := s, repairs := r }) :=
    same rfl rfl rfl rfl
  exact after (run _ _ _) (after (wr _ _ (by decide)) (after (wr _ _ (by decide)) (sramWrite _ _ _)))

theorem recovery (d : Dev) : ResetStands d (recovery d) := by
  have phase (d : Dev) : ResetStands d (setKnl d fun k => { k with phase := 3 }) := same rfl rfl rfl rfl
  exact after (err _ _ _ _ (base_mod .knl 0)) (after (phase _) (after (wr _ _ (by decide)) (wr _ _ (by decide))))

theorem romTry (d : Dev) : ResetStands d (romTry d).1 := by
  unfold Machine.romTry
  dsimp only
  split
  · exact bootStore _ _
  · exact bootStore _ _
  · exact refl d

theorem romBoot (d : Dev) : ResetStands d (romBoot d) := by
  have begun (d : Dev) : ResetStands d (setKnl d fun k => { k with phase := 1, slot := 0, nmi := false, cmd := none, wdogNs := 0 }) :=
    same rfl rfl rfl rfl
  have words : ResetStands d (Machine.wr (Machine.wr (Machine.inc (setKnl d fun k => { k with
      phase := 1, slot := 0, nmi := false, cmd := none, wdogNs := 0 }) Adr.KNL_CNT_BOOT) Adr.KNL_FWVER 0) Adr.KNL_FWSVN 0) :=
    after (wr _ _ (by decide)) (after (wr _ _ (by decide)) (after (inc _ (by decide)) (begun d)))
  unfold Machine.romBoot
  dsimp only
  refine words.trans (after ?_ (romTry _))
  split
  · exact runSlot _ _
  · split
    · exact runSlot _ _
    · split
      · exact (runSlot _ _).trans (err _ _ _ _ (base_mod .knl 0))
      · exact recovery _

end ResetStands

end Sys2Proof.Machine
end

section
/-! PROOF. Power-on, PORST#, brown-out and supply warnings (R691 to R694, R700 to R702). -/

namespace Sys2Proof.Machine

/-! ### Everything is lost (R694, R701) -/

theorem nvCut_pmu (d : Dev) : (nvCut d).pmu = d.pmu := by
  unfold nvCut nvPut
  split
  · rfl
  · split <;> rfl

theorem nvCut_of_idle {d : Dev} (h : d.nvm.job = none) : nvCut d = d := by
  unfold nvCut
  rw [h]

/-- What a loss of power keeps of the PMU. -/
theorem powerReset_pmu (d : Dev) : (powerReset d).pmu =
    { warnRails := d.pmu.warnRails, resetRails := d.pmu.resetRails, firstRail := d.pmu.firstRail, aonFell := d.pmu.aonFell } := by
  rw [← nvCut_pmu d]
  rfl

theorem powerReset_regs (d : Dev) : (powerReset d).regs = [] := rfl
theorem powerReset_hbm (d : Dev) : (powerReset d).hbm = [] := rfl
theorem powerReset_queue (d : Dev) : (powerReset d).exp.queue = [] := rfl
theorem powerReset_away (d : Dev) : (powerReset d).knl.away = true := rfl

theorem drive_pins_of_off {d : Dev} (h : d.pmu.seq = .off) : (drive d).pins = {} := pinLevels_of_off h

/-! ### A supply warning (R700) -/

/-- The rail is shown. -/
def railShown (d : Dev) (r : Nat) : Dev :=
  let d := setPmu d fun p => { p with warnRails := p.warnRails ||| 2 ^ r }
  wr d Adr.PMU_SUPPLY (putBit (rg d Adr.PMU_SUPPLY) (16 + r) true)

/-- The first rail's warning before its error: it is counted and muzzles. -/
def warnBegun (d : Dev) : Dev :=
  muzUpdate (setMuz (inc (setPmu d fun p => { p with warn := true }) Adr.PMU_CNT_WARN) fun m => { m with supply := true })

theorem supplyWarn_again {d : Dev} (h : d.pmu.warn = true) (r : Nat) : supplyWarn d r = railShown d r := if_pos h

theorem railShown_warn (d : Dev) (r : Nat) : (railShown d r).pmu.warn = d.pmu.warn := rfl

theorem supplyWarn_first {d : Dev} (h : d.pmu.warn = false) (r : Nat) :
    supplyWarn d r = pmuErr (warnBegun (railShown d r)) Bit.err_PMU_SUPPLY_WARN (warnBegun (railShown d r)).pmu.warnRails := by
  refine if_neg ?_
  change ¬(railShown d r).pmu.warn = true
  rw [railShown_warn, h]
  exact Bool.false_ne_true

theorem pmuErr_errRest (d : Dev) (b i0 : Nat) : (pmuErr d b i0).errRest = d.errRest := err_errRest ..

/-- The muzzle and the error of the first warning change nothing of the PMU, the kennel and MUZ's causes. -/
theorem supplyWarn_first_errRest {d : Dev} (h : d.pmu.warn = false) (r : Nat) : (supplyWarn d r).errRest =
    (setMuz (setPmu (railShown d r) fun p => { p with warn := true }) fun m => { m with supply := true }).errRest := by
  rw [supplyWarn_first h, pmuErr_errRest, warnBegun, (muzUpdate_errFrame _).view]
  rfl

theorem supplyWarn_pmu (d : Dev) (r : Nat) :
    (supplyWarn d r).pmu = { d.pmu with warnRails := d.pmu.warnRails ||| 2 ^ r, warn := true } := by
  cases h : d.pmu.warn
  · exact (congrArg (fun e : Dev => e.pmu) (supplyWarn_first_errRest h r) :)
  · rw [supplyWarn_again h, ← h]
    rfl

theorem supplyWarn_knl (d : Dev) (r : Nat) : (supplyWarn d r).knl = d.knl := by
  cases h : d.pmu.warn
  · exact (congrArg (fun e : Dev => e.knl) (supplyWarn_first_errRest h r) :)
  · rw [supplyWarn_again h]
    rfl

/-- A word that the first warning's muzzle and error leave alone. -/
theorem rg_supplyWarn_first {d : Dev} (h : d.pmu.warn = false) (r : Nat) {a : Nat} (he : ¬ErrWord a)
    (hp : a ∉ [Page.pmu.base 0 + oERRLATCH, Page.pmu.base 0 + oINFO0, Page.pmu.base 0 + oINFO1]) :
    rg (supplyWarn d r) a = rg (inc (railShown d r) Adr.PMU_CNT_WARN) a := by
  simp only [List.mem_cons, List.not_mem_nil, or_false, not_or] at hp
  obtain ⟨hl, h0, h1⟩ := hp
  rw [supplyWarn_first h, pmuErr, rg_err _ _ _ _ _ he hl h0 h1, warnBegun, (muzUpdate_errFrame _).words a he]
  rfl

/-- The words that a supply warning can change beside those of an error. -/
def warnWords : List Nat :=
  [Adr.PMU_SUPPLY, Adr.PMU_CNT_WARN, Page.pmu.base 0 + oERRLATCH, Page.pmu.base 0 + oINFO0, Page.pmu.base 0 + oINFO1]

theorem rg_supplyWarn_ne (d : Dev) (r : Nat) {a : Nat} (he : ¬ErrWord a) (ha : a ∉ warnWords) : rg (supplyWarn d r) a = rg d a := by
  simp only [warnWords, List.mem_cons, List.not_mem_nil, or_false, not_or] at ha
  obtain ⟨hs, hc, hl, h0, h1⟩ := ha
  have shown : rg (railShown d r) a = rg d a := rg_wr_ne _ _ hs
  cases h : d.pmu.warn
  · rw [rg_supplyWarn_first h r he (by simp [hl, h0, h1]), rg_inc, if_neg hc, shown]
  · rw [supplyWarn_again h, shown]

/-- The rail shows in PMU_SUPPLY. -/
theorem supplyWarn_shows (d : Dev) {r : Nat} (h : r < 6) : bit (rg (supplyWarn d r) Adr.PMU_SUPPLY) (16 + r) = true := by
  have shown : bit (rg (railShown d r) Adr.PMU_SUPPLY) (16 + r) = true := by
    rw [railShown, rg_wr_self, bit_putBit _ _ _ _ (by omega), if_pos rfl]
  cases hw : d.pmu.warn
  · rw [rg_supplyWarn_first hw r (not_errWord_of (by decide) (by decide)) (by decide), rg_inc, if_neg (by decide), shown]
  · rw [supplyWarn_again hw, shown]

/-- The first warning counts, latches, and muzzles when no strobe is in progress. -/
theorem supplyWarn_first_acts {d : Dev} (h : d.pmu.warn = false) (r : Nat) :
    (supplyWarn d r).muz.supply = true ∧ (d.muz.pulses = [] → (supplyWarn d r).muz.muzzled = true) ∧
    rg (supplyWarn d r) Adr.PMU_CNT_WARN = rg d Adr.PMU_CNT_WARN + 1 ∧
    latched (supplyWarn d r) (Page.pmu.base 0) Bit.err_PMU_SUPPLY_WARN = true := by
  refine ⟨(congrArg (fun e : Dev => e.muz.supply) (supplyWarn_first_errRest h r) :), fun p => ?_, ?_, ?_⟩
  · rw [supplyWarn_first h]
    have cause : muzCause (setMuz (inc (setPmu (railShown d r) fun p => { p with warn := true }) Adr.PMU_CNT_WARN)
        fun m => { m with supply := true }) = true := by simp [muzCause, setMuz]
    have begun := muzUpdate_muz_of_cause cause p
    exact ((StopsOnly.err (warnBegun (railShown d r)) _ _ _ (base_mod .pmu 0)).muzzle (congrArg Muz.muzzled begun)
      ((muzCause_of_muzzled begun).trans cause)).1
  · rw [rg_supplyWarn_first h r (not_errWord_of (by decide) (by decide)) (by decide), rg_inc, if_pos rfl]
    exact congrArg (· + 1) (rg_wr_ne _ _ (by decide))
  · rw [supplyWarn_first h]
    exact latched_err _ _ _ _ _ (base_mod .pmu 0) (by decide) (by decide)

/-! ### Power-up (R691, R692) -/

/-- From `d` to `e` only supply warnings have come: the PMU's warnings have changed, and RSTCAUSE, TIM_STAT and kennel-away stand. -/
structure WarnsOnly (d e : Dev) : Prop where
  pmu : e.pmu = { d.pmu with warn := e.pmu.warn, warnRails := e.pmu.warnRails }
  cause : rg e Adr.PMU_RSTCAUSE = rg d Adr.PMU_RSTCAUSE
  stat : rg e Adr.TIM_STAT = rg d Adr.TIM_STAT
  away : e.knl.away = d.knl.away

theorem supplyWarn_warnsOnly (d : Dev) (r : Nat) : WarnsOnly d (supplyWarn d r) where
  pmu := by rw [supplyWarn_pmu]
  cause := rg_supplyWarn_ne _ _ (not_errWord_of (by decide) (by decide)) (by decide)
  stat := rg_supplyWarn_ne _ _ (not_errWord_of (by decide) (by decide)) (by decide)
  away := by rw [supplyWarn_knl]

/-- Several warnings in turn: one is in force afterwards when one was before, or one has come. -/
theorem supplyWarns_warnsOnly (rails : List Nat) (d : Dev) : WarnsOnly d (rails.foldl supplyWarn d) ∧
    (rails.foldl supplyWarn d).pmu.warn = (d.pmu.warn || !rails.isEmpty) := by
  induction rails generalizing d with
  | nil => exact ⟨⟨rfl, rfl, rfl, rfl⟩, (Bool.or_false _).symm⟩
  | cons r rest ih =>
    obtain ⟨later, warn⟩ := ih (supplyWarn d r)
    have first := supplyWarn_warnsOnly d r
    refine ⟨⟨?_, later.cause.trans first.cause, later.stat.trans first.stat, later.away.trans first.away⟩, ?_⟩
    · rw [List.foldl_cons, later.pmu, first.pmu]
    · rw [List.foldl_cons, warn, supplyWarn_pmu]
      simp

/-- The block when RSTCAUSE shows the reset, before the self-tests (R691). -/
def upShown (d : Dev) (cause : Nat) (refclk : Bool) : Dev :=
  wr (setPmu d fun p => { p with refclk := refclk, aclkRc := !refclk, seq := .refclk, resetRails := 0, aonFell := false })
    Adr.PMU_RSTCAUSE (w32 cause)

/-- The rails below their warning level. -/
def railsLow (d : Dev) : List Nat := (List.range 6).filter fun r => d.pmu.warnRails.testBit r

/-- Self-tests and the restored registers come before the warnings of the rails that are low, and then the sequence begins. -/
theorem powerUp_eq (d : Dev) (cause : Nat) (refclk : Bool) (lines : List Nat) (fails : List TestFail) :
    ∃ e, ResetStands (upShown d cause refclk) e ∧ bit (rg e Adr.TIM_STAT) 31 = true ∧
      powerUp d cause refclk lines fails =
        if refclk then seqGo (pllLock ((railsLow e).foldl supplyWarn e) 10) else pllStart ((railsLow e).foldl supplyWarn e) 10 := by
  have tim (d : Dev) (f : Tim → Tim) : ResetStands d (setTim d f) := .same rfl rfl rfl rfl
  have mei (d : Dev) (f : Mei → Mei) : ResetStands d (setMei d f) := .same rfl rfl rfl rfl
  have bob (d : Dev) (f : Bob → Bob) : ResetStands d (setBob d f) := .same rfl rfl rfl rfl
  have line (d : Dev) (s : Nat) : ResetStands d (err d (Page.fcl.base 0) Bit.err_FCL_LINE_FAIL (w32 s) (w32 (4 * s))) :=
    .err _ _ _ _ (base_mod .fcl 0)
  refine ⟨_, ?_, ?_, rfl⟩
  · exact .after (.setFd _ _ _ _ (by decide)) (.after (tim _ _) (.after (.seedLat _) (.after (mei _ _) (.after (bob _ _)
      (.after (.nvRestore _) (.after (.foldl .testFail _ _) (.after (.foldl line _ _) (.of_errFrame (muzUpdate_errFrame _)))))))))
  · rw [setFd, rg_wr_self, bit_setBits _ _ _ (by decide) (by decide)]
    rfl

/-! ### The sequence begins (R691, R692) -/

/-- PD_HLK is switched on, and BARK's grid runs (R616, R691). -/
def hlkStarted (d : Dev) : Dev :=
  setPmu (setPd (pllStart (barkBegin d) (pllOf 1)) 1 fun p => { p with st := .switchingOn, fromSr := false }) fun p => { p with
    seq := .hlk }

theorem hlkStarted_seq (d : Dev) : (hlkStarted d).pmu.seq = .hlk := rfl
theorem hlkStarted_resetRails (d : Dev) : (hlkStarted d).pmu.resetRails = d.pmu.resetRails := rfl
theorem hlkStarted_knl (d : Dev) : (hlkStarted d).knl = d.knl := by
  unfold hlkStarted setPmu setPd pllStart barkBegin setFcl
  dsimp only
theorem rg_hlkStarted (d : Dev) (a : Nat) : rg (hlkStarted d) a = rg d a := by
  refine rg_congr ?_ a
  unfold hlkStarted setPmu setPd pllStart barkBegin setFcl
  dsimp only
theorem hlkStarted_pd (d : Dev) : (hlkStarted d).pmu.pd = modNth d.pmu.pd 1 fun p => { p with st := .switchingOn, fromSr := false } := rfl

theorem hlkStarted_pdState {d : Dev} (h : 1 < d.pmu.pd.length) : pdState (hlkStarted d) 1 = .switchingOn := by
  rw [pdState, hlkStarted_pd, nth_modNth_self _ h]

theorem pllLock_knl (d : Dev) (p : Nat) : (pllLock d p).knl = d.knl := by
  unfold pllLock
  dsimp only

/-- With no warning in force and REFCLK running, step 4 follows (R691). -/
theorem seqGo_begins {d : Dev} (calm : d.pmu.warn = false) (first : d.pmu.seq = .refclk) (clock : d.pmu.refclk = true)
    (off : pdState d 1 = .off) : seqGo d = hlkStarted (pllLock d 10) := by
  have off' : pdState (barkBegin (pllLock d 10)) 1 = .off := off
  have asked : pdAct (barkBegin (pllLock d 10)) 1 1 = setPd (pllStart (barkBegin (pllLock d 10)) (pllOf 1)) 1 fun p => { p with
      st := .switchingOn, fromSr := false } := by
    unfold pdAct
    rw [off']
    rfl
  unfold seqGo
  rw [if_neg (by rw [calm]; exact Bool.false_ne_true), first]
  dsimp only
  rw [if_pos clock, seqFour, asked, hlkStarted]

theorem seqGo_held {d : Dev} (h : d.pmu.warn = true) : seqGo d = d := if_pos h

/-- What a power-up leaves, given whether a rail is low. -/
theorem powerUp_begins {d : Dev} (cause : Nat) (refclk : Bool) (lines : List Nat) (fails : List TestFail) (calm : d.pmu.warn = false)
    (pd : d.pmu.pd = List.replicate 14 {}) :
    let warned := (List.range 6).any fun r => d.pmu.warnRails.testBit r
    let e := powerUp d cause refclk lines fails
    e.pmu.seq = (if refclk && !warned then .hlk else .refclk) ∧ pdState e 1 = (if refclk && !warned then .switchingOn else .off) ∧
    e.knl.away = d.knl.away ∧ rg e Adr.PMU_RSTCAUSE = w32 cause ∧ bit (rg e Adr.TIM_STAT) 31 = true ∧ e.pmu.resetRails = 0 := by
  obtain ⟨e, stands, stat, eq⟩ := powerUp_eq d cause refclk lines fails
  have shown : rg (upShown d cause refclk) Adr.PMU_RSTCAUSE = w32 cause := rg_wr_self _ _ _
  obtain ⟨warns, warn⟩ := supplyWarns_warnsOnly (railsLow e) e
  generalize (railsLow e).foldl supplyWarn e = w at eq warns warn
  have pmu : w.pmu = { (upShown d cause refclk).pmu with warn := w.pmu.warn, warnRails := w.pmu.warnRails } := by
    rw [← stands.pmu]
    exact warns.pmu
  have low : w.pmu.warn = (List.range 6).any fun r => d.pmu.warnRails.testBit r := by
    rw [warn, railsLow, stands.pmu, show (upShown d cause refclk).pmu.warn = false from calm,
      show (upShown d cause refclk).pmu.warnRails = d.pmu.warnRails from rfl, Bool.false_or]
    rw [Bool.eq_iff_iff]
    simp [List.filter_eq_nil_iff]
  have off : pdState w 1 = .off := by
    unfold pdState
    rw [pmu, show (upShown d cause refclk).pmu.pd = List.replicate 14 {} from pd]
    rfl
  have first : w.pmu.seq = .refclk := by rw [pmu]; rfl
  have clock : w.pmu.refclk = refclk := by rw [pmu]; rfl
  have rails : w.pmu.resetRails = 0 := by rw [pmu]; rfl
  have length : w.pmu.pd.length = 14 := by
    rw [pmu, show (upShown d cause refclk).pmu.pd = List.replicate 14 {} from pd]
    rfl
  have away : w.knl.away = d.knl.away := warns.away.trans stands.away
  have word : rg w Adr.PMU_RSTCAUSE = w32 cause := (warns.cause.trans stands.cause).trans shown
  have since : bit (rg w Adr.TIM_STAT) 31 = true := by rw [warns.stat, stat]
  dsimp only
  rw [eq, ← low]
  cases refclk
  · exact ⟨first, off, away, word, since, rails⟩
  · cases held : w.pmu.warn
    · rw [if_pos rfl, seqGo_begins (d := pllLock w 10) held first clock off, hlkStarted_seq, hlkStarted_resetRails, hlkStarted_knl,
        rg_hlkStarted, rg_hlkStarted, hlkStarted_pdState (by exact lt_of_lt_of_eq (by decide) length.symm)]
      exact ⟨rfl, rfl, by rw [pllLock_knl]; exact away, word, since, rails⟩
    · rw [if_pos rfl, seqGo_held (d := pllLock w 10) held]
      exact ⟨first, off, by rw [pllLock_knl]; exact away, word, since, rails⟩

/-! ### The end of a supply warning (R700) -/

theorem standbyLeave_keeps (d : Dev) : (standbyLeave d).pmu.warn = d.pmu.warn ∧ (standbyLeave d).muz = d.muz := by
  unfold standbyLeave
  split <;> exact ⟨rfl, rfl⟩

/-- A switch of a domain is none of the warnings' and the muzzle's. -/
theorem pdAct_keeps (d : Dev) (n q : Nat) : (pdAct d n q).pmu.warn = d.pmu.warn ∧ (pdAct d n q).muz = d.muz := by
  have left := standbyLeave_keeps d
  unfold pdAct
  split
  · dsimp only
    split
    · exact left
    · exact ⟨rfl, rfl⟩
  · exact left
  · exact ⟨rfl, rfl⟩
  · exact left
  · split
    · exact ⟨rfl, rfl⟩
    · exact ⟨rfl, rfl⟩
  · exact ⟨rfl, rfl⟩

theorem pdActs_keep (l : List Nat) (q : Nat) (d : Dev) : (l.foldl (fun d n => pdAct d n q) d).pmu.warn = d.pmu.warn ∧
    (l.foldl (fun d n => pdAct d n q) d).muz = d.muz := by
  induction l generalizing d with
  | nil => exact ⟨rfl, rfl⟩
  | cons n l ih =>
    obtain ⟨warn, muz⟩ := ih (pdAct d n q)
    obtain ⟨warn', muz'⟩ := pdAct_keeps d n q
    exact ⟨warn.trans warn', muz.trans muz'⟩

theorem pllLock_pmu_warn (d : Dev) (p : Nat) : (pllLock d p).pmu.warn = d.pmu.warn := by
  unfold pllLock
  dsimp only

theorem pllLock_muz (d : Dev) (p : Nat) : (pllLock d p).muz = d.muz := by
  unfold pllLock
  dsimp only

theorem barkBegin_pmu (d : Dev) : (barkBegin d).pmu = d.pmu := rfl
theorem barkBegin_muz (d : Dev) : (barkBegin d).muz = d.muz := rfl

theorem seqFour_keeps (d : Dev) : (seqFour d).pmu.warn = d.pmu.warn ∧ (seqFour d).muz = d.muz := by
  obtain ⟨warn, muz⟩ := pdAct_keeps (barkBegin d) 1 1
  rw [barkBegin_pmu] at warn
  rw [barkBegin_muz] at muz
  exact ⟨warn, muz⟩

/-- The next step of the sequence leaves what the switches before it left. -/
theorem setSeq_keeps {d e : Dev} (h : e.pmu.warn = d.pmu.warn ∧ e.muz = d.muz) (q : Seq) :
    (setPmu e fun p => { p with seq := q }).pmu.warn = d.pmu.warn ∧ (setPmu e fun p => { p with seq := q }).muz = d.muz := h

theorem seqGo_keeps (d : Dev) : (seqGo d).pmu.warn = d.pmu.warn ∧ (seqGo d).muz = d.muz := by
  unfold seqGo
  split
  · exact ⟨rfl, rfl⟩
  · split
    · split
      · obtain ⟨warn, muz⟩ := seqFour_keeps (pllLock d 10)
        exact ⟨warn.trans (pllLock_pmu_warn d 10), muz.trans (pllLock_muz d 10)⟩
      · exact ⟨rfl, rfl⟩
    · split
      · exact setSeq_keeps (pdAct_keeps d 0 1) _
      · exact ⟨rfl, rfl⟩
    · split
      · obtain ⟨warn, muz⟩ := pdAct_keeps (pdAct d 9 1) 10 1
        obtain ⟨warn', muz'⟩ := pdAct_keeps d 9 1
        exact setSeq_keeps ⟨warn.trans warn', muz.trans muz'⟩ _
      · exact ⟨rfl, rfl⟩
    · split
      · exact setSeq_keeps (pdActs_keep _ 1 d) _
      · exact ⟨rfl, rfl⟩
    · split
      · unfold pmuEvt
        rw [evt_pmu, evt_muz]
        exact ⟨rfl, rfl⟩
      · exact ⟨rfl, rfl⟩
    · exact ⟨rfl, rfl⟩

/-- The warning and its cause of the muzzle are over; what was covered or aborted by it closes (R435). -/
theorem warningEnd_ends {d : Dev} (h : d.pmu.warn = true) (rails : d.pmu.warnRails = 0) :
    (warningEnd d).pmu.warn = false ∧ (warningEnd d).muz.supply = false := by
  have closed {e f : Dev} (hf : f.errRest = e.errRest) (warn : e.pmu.warn = false) (supply : e.muz.supply = false) :
      (seqGo f).pmu.warn = false ∧ (seqGo f).muz.supply = false := by
    obtain ⟨w, m⟩ := seqGo_keeps f
    exact ⟨w.trans ((congrArg (fun x : Dev => x.pmu.warn) hf :).trans warn),
      (congrArg Muz.supply m).trans ((congrArg (fun x : Dev => x.muz.supply) hf :).trans supply)⟩
  unfold warningEnd
  rw [if_neg (by simp [h, rails])]
  dsimp only
  refine closed (e := setMuz (setPmu d fun p => { p with warn := false }) fun m => { m with
    supply := false, supplyFrom := none, supplyBroke := false }) ?_ rfl rfl
  generalize (setMuz (setPmu d fun p => { p with warn := false }) fun m => { m with
    supply := false, supplyFrom := none, supplyBroke := false }) = e
  split
  · refine (muzUpdate_errFrame _).view.trans ((halt_errFrame _).view.trans ((abortStripe_errFrame _ _).view.trans ?_))
    split
    · rfl
    · exact (putEnt_errFrame _ _).view
  · exact (closeOne_errRest _ _ _).trans (muzUpdate_errFrame e).view

/-! ### The resets (R694, R701, R702) -/

/-- The block when a rail has fallen below its reset level, before RSTCAUSE is kept. -/
def railFallen (d : Dev) (r : Nat) : Dev :=
  setPmu (powerReset d) fun q => { q with
    resetRails := d.pmu.resetRails ||| 2 ^ r, firstRail := if d.pmu.resetRails = 0 then r else d.pmu.firstRail
    aonFell := d.pmu.aonFell || decide (r = 0) }

theorem railFallen_pmu (d : Dev) (r : Nat) : (railFallen d r).pmu = {
    warnRails := d.pmu.warnRails, resetRails := d.pmu.resetRails ||| 2 ^ r
    firstRail := if d.pmu.resetRails = 0 then r else d.pmu.firstRail, aonFell := d.pmu.aonFell || decide (r = 0) } := by
  unfold railFallen setPmu
  rw [powerReset_pmu]

/-- A brown-out holds the block in reset; RSTCAUSE is lost only with VDD_AON. -/
theorem brownout_resets (d : Dev) (r : Nat) : (brownout d r).pmu.seq = .off ∧ (brownout d r).hbm = [] ∧
    (brownout d r).pmu.resetRails.testBit r = true ∧ (brownout d r).pmu.pd = List.replicate 14 {} ∧
    (r ≠ 0 → d.pmu.aonFell = false → rg (brownout d r) Adr.PMU_RSTCAUSE = rg d Adr.PMU_RSTCAUSE) := by
  have shown : brownout d r = if (railFallen d r).pmu.aonFell then railFallen d r
      else wr (railFallen d r) Adr.PMU_RSTCAUSE (rg d Adr.PMU_RSTCAUSE) := rfl
  have pmu : (brownout d r).pmu = (railFallen d r).pmu := by
    rw [shown]
    split <;> rfl
  have hbm : (brownout d r).hbm = [] := by
    rw [shown]
    split <;> rfl
  rw [pmu, railFallen_pmu]
  refine ⟨rfl, hbm, by simp, rfl, fun hr fell => ?_⟩
  rw [shown, if_neg (by rw [railFallen_pmu]; simp [fell, hr]), rg_wr_self]

theorem porst_begins {d : Dev} (h : d.pmu.resetRails = 0) (refclk : Bool) (lines : List Nat) (fails : List TestFail) :
    let warned := (List.range 6).any fun r => d.pmu.warnRails.testBit r
    let e := porst d refclk lines fails
    e.pmu.seq = (if refclk && !warned then .hlk else .refclk) ∧ pdState e 1 = (if refclk && !warned then .switchingOn else .off) ∧
    e.knl.away = true ∧ rg e Adr.PMU_RSTCAUSE = w32 (if d.pmu.seq = .off then 1 else 3) ∧ bit (rg e Adr.TIM_STAT) 31 = true := by
  have pmu := powerReset_pmu d
  obtain ⟨seq, pd, away, cause, stat, -⟩ := powerUp_begins (d := powerReset d) (if d.pmu.seq = .off then 1 else 3) refclk lines fails
    (by rw [pmu]) (by rw [pmu])
  unfold porst
  rw [if_neg (not_not.mpr h)]
  rw [pmu] at seq pd
  exact ⟨seq, pd, away.trans (powerReset_away d), cause, stat⟩

theorem brownoutRelease_begins {d : Dev} (off : d.pmu.seq = .off) (h : d.pmu.resetRails ≠ 0 ∨ d.pmu.aonFell = true) (refclk : Bool)
    (lines : List Nat) (fails : List TestFail) :
    let e := brownoutRelease d refclk lines fails
    e.pmu.seq = (if refclk then .hlk else .refclk) ∧ e.pmu.resetRails = 0 ∧
    rg e Adr.PMU_RSTCAUSE = w32 (if d.pmu.aonFell then 1 else 256 * d.pmu.firstRail + 2) := by
  have pmu : (setPmu (powerReset d) fun p => { p with warnRails := 0 }).pmu = { (powerReset d).pmu with warnRails := 0 } := rfl
  rw [powerReset_pmu] at pmu
  obtain ⟨seq, -, -, cause, -, rails⟩ := powerUp_begins (d := setPmu (powerReset d) fun p => { p with warnRails := 0 })
    (if d.pmu.aonFell then 1 else 256 * d.pmu.firstRail + 2) refclk lines fails (by rw [pmu]) (by rw [pmu])
  have none : ((List.range 6).any fun r => (setPmu (powerReset d) fun p => { p with warnRails := 0 }).pmu.warnRails.testBit r) = false := by
    rw [pmu]
    exact List.any_eq_false.mpr fun r _ => by simp
  rw [none] at seq
  unfold brownoutRelease
  rw [if_pos ⟨off, h⟩]
  refine ⟨seq.trans ?_, rails, cause⟩
  cases refclk <;> rfl

end Sys2Proof.Machine
end

section
/-! PROOF. The warm reset (R695 to R697, R703 to R706). -/

namespace Sys2Proof.Machine

/-! ### What a warm reset clears (R696) -/

/-- Writes of words change nothing but words. -/
theorem foldl_wr_rest {α : Type} (a : α → Nat) (v : Dev → α → W32) (l : List α) (d : Dev) :
    ∃ regs, l.foldl (fun d x => wr d (a x) (v d x)) d = { d with regs := regs } := by
  induction l generalizing d with
  | nil => exact ⟨d.regs, rfl⟩
  | cons x l ih =>
    obtain ⟨regs, eq⟩ := ih (wr d (a x) (v d x))
    exact ⟨regs, eq⟩

/-- The reset of the clocked logic keeps the PMU, the causes of the muzzle and what has been put out; it drops the stripe, the tickets and
the transfers. -/
theorem warmLogic_keeps (d : Dev) : (warmLogic d).pmu = d.pmu ∧ (warmLogic d).muz.reset = d.muz.reset ∧
    (warmLogic d).muz.muzzled = d.muz.muzzled ∧ (warmLogic d).outs = d.outs := by
  unfold warmLogic seedLat
  dsimp only
  obtain ⟨regs, eq⟩ := foldl_wr_rest Adr.BOB_LAT_EST (fun d p => w32 (fd d (Adr.BOB_LAT_SEED p) 15 0)) (List.range 15) _
  rw [eq]
  exact ⟨rfl, rfl, rfl, rfl⟩

theorem warmLogic_drops (d : Dev) : (warmLogic d).exp.run = none ∧ (warmLogic d).exp.queue = [] ∧
    (warmLogic d).chans = List.replicate 16 {} := by
  unfold warmLogic seedLat
  dsimp only
  obtain ⟨regs, eq⟩ := foldl_wr_rest Adr.BOB_LAT_EST (fun d p => w32 (fd d (Adr.BOB_LAT_SEED p) 15 0)) (List.range 15) _
  rw [eq]
  exact ⟨rfl, rfl, rfl⟩

/-! ### A warm reset begins (R695, R703) -/

/-- The reset holds its cause of the muzzle. -/
def warmMuzzled (d : Dev) : Dev := muzUpdate (setMuz d fun m => { m with reset := true })

/-- The interrupted stripe is recorded; BARK stops. -/
def warmRecorded (d : Dev) : Dev :=
  warmRecord (setFcl (warmMuzzled d) fun f => { f with bark := false, barkRun := false, barkArm := false })

/-- A domain in self-refresh or on its way to it stays in self-refresh. -/
def srHeld (p : Pd) : Pd := if p.st = .on ∨ p.fromSr then { p with st := .selfRefresh, fromSr := false } else p

/-- The PMU in a warm reset, before the clocked logic is reset. -/
def warmHeld (d : Dev) (cause : Nat) : Dev :=
  setPmu (warmRecorded d) fun p => { p with
    pd := modNth (modNth p.pd 9 srHeld) 10 srHeld, seq := .warm, ready := false, warmCause := cause }

/-- With the sequence done a warm reset begins. -/
theorem warmBegin_of_done {d : Dev} (h : d.pmu.seq = .done) (cause : Nat) :
    warmBegin d cause = warmLogic (emit (warmHeld d cause) (.outputsOff true)) := if_neg (not_not.mpr h)

/-- Before the sequence is done a warm reset is not taken. -/
theorem warmBegin_of_not_done {d : Dev} (h : d.pmu.seq ≠ .done) (cause : Nat) : warmBegin d cause = d := if_pos h

theorem wr_errRest (d : Dev) (a : Nat) (v : W32) : (wr d a v).errRest = d.errRest := rfl

theorem warmRecord_errRest (d : Dev) : (warmRecord d).errRest = d.errRest := by
  unfold warmRecord
  split
  · rfl
  · dsimp only
    rw [pmuErr_errRest, wr_errRest, wr_errRest, wr_errRest, wr_errRest, wr_errRest, wr_errRest]

theorem StopsOnly.warmRecord (d : Dev) : StopsOnly d (warmRecord d) := by
  unfold Machine.warmRecord
  split
  · exact refl d
  · exact after (err _ _ _ _ (base_mod .pmu 0)) (after (wr _ _ (by decide)) (after (wr _ _ (by decide)) (after (wr _ _ (by decide))
      (after (wr _ _ (by decide)) (after (wr _ _ (by decide)) (wr _ _ (by decide)))))))

/-- The muzzle's cause holds until the reset ends, and with no strobe in progress it muzzles at once. -/
theorem warmRecorded_muz (d : Dev) : (warmRecorded d).muz.reset = true ∧
    (d.muz.pulses = [] → (warmRecorded d).muz.muzzled = true) := by
  have cause : muzCause (setMuz d fun m => { m with reset := true }) = true := by simp [muzCause, setMuz]
  constructor
  · obtain ⟨m, eq⟩ := muzUpdate_muz (setMuz d fun m => { m with reset := true })
    exact (congrArg (fun e : Dev => e.muz.reset) (warmRecord_errRest _) :).trans (congrArg Muz.reset eq)
  · intro p
    have begun := muzUpdate_muz_of_cause cause p
    have stops : StopsOnly (warmMuzzled d) (warmRecorded d) := .after (.warmRecord _) (.same rfl rfl rfl)
    exact (stops.muzzle (congrArg Muz.muzzled begun) ((muzCause_of_muzzled begun).trans cause)).1

/-- What a warm reset leaves. -/
theorem warmBegin_begins {d : Dev} (h : d.pmu.seq = .done) (cause : Nat) :
    let e := warmBegin d cause
    e.pmu.seq = .warm ∧ e.pmu.warmCause = cause ∧ e.muz.reset = true ∧ e.exp.run = none ∧ e.exp.queue = [] ∧
    e.chans = List.replicate 16 {} ∧ .outputsOff true ∈ e.outs ∧ (d.muz.pulses = [] → e.muz.muzzled = true) := by
  obtain ⟨pmu, reset, muzzled, outs⟩ := warmLogic_keeps (emit (warmHeld d cause) (.outputsOff true))
  obtain ⟨run, queue, chans⟩ := warmLogic_drops (emit (warmHeld d cause) (.outputsOff true))
  obtain ⟨held, muzzles⟩ := warmRecorded_muz d
  dsimp only
  rw [warmBegin_of_done h]
  exact ⟨congrArg Pmu.seq pmu, congrArg Pmu.warmCause pmu, reset.trans held, run, queue, chans,
    by rw [outs]; exact List.mem_cons_self, fun p => muzzled.trans (muzzles p)⟩

/-- A write of PMU_CMD with WARM and its key begins a warm reset (R695). -/
theorem pmuCmd_warm (d : Dev) (v : W32) : pmuCmd d (setBits (putBit v 0 true) 31 16 0x5752) = warmBegin d 5 := by
  refine if_pos ⟨bits_setBits _ _ (by decide) (by decide), ?_⟩
  rw [bit_setBits _ _ _ (by decide) (by decide), if_neg (by decide), bit_putBit _ _ _ _ (by decide), if_pos rfl]

/-! ### The end of a warm reset (R697) -/

/-- A domain in self-refresh is on again. -/
def srWoken (p : Pd) : Pd := if p.st = .selfRefresh ∨ p.fromSr then { p with st := .on, fromSr := false } else p

/-- The logic is reset, RSTCAUSE shows the cause, and HBM is awake. -/
def warmWoken (d : Dev) : Dev :=
  setPmu (wr (warmLogic d) Adr.PMU_RSTCAUSE (w32 (warmLogic d).pmu.warmCause)) fun p => { p with
    pd := modNth (modNth p.pd 9 srWoken) 10 srWoken, seq := .done }

/-- The link's domain `n` is switched off where its control word asks for it. -/
def linkOff (d : Dev) (n : Nat) : Dev := if fd d (Adr.PMU_PD n) 5 4 = 2 then pdGo d n 2 else d

/-- The muzzle of the reset is over. -/
def warmUnmuzzled (d : Dev) : Dev :=
  muzUpdate (setMuz (setFcl d fun f => { f with halted := false, barkArm := !sev3Held d }) fun m => { m with
    reset := false, sev3 := false })

/-- The kennel's core comes out of reset when its domain is on. -/
def coreOut (d : Dev) : Dev := if pdState d 0 = .on then coreReset d else d

/-- READY and WARM_DONE. -/
def warmReady (d : Dev) : Dev :=
  pmuEvt (pmuEvt (setPmu (standbyLeave d) fun p => { p with ready := true }) Bit.evt_PMU_READY) Bit.evt_PMU_WARM_DONE

theorem warmEnd_eq {d : Dev} (h : d.pmu.seq = .warm) :
    warmEnd d = warmReady (coreOut (warmUnmuzzled (linkOff (linkOff (warmWoken d) 11) 12))) := if_neg (not_not.mpr h)

/-- From `d` to `e` the sequence, the state of HBM's domains and RSTCAUSE stand. -/
structure WarmStands (d e : Dev) : Prop where
  seq : e.pmu.seq = d.pmu.seq
  hbm : ∀ m, m = 9 ∨ m = 10 → pdState e m = pdState d m
  cause : rg e Adr.PMU_RSTCAUSE = rg d Adr.PMU_RSTCAUSE

namespace WarmStands

/-- The PMU stands. -/
theorem of_pmu {d e : Dev} (h : e.pmu = d.pmu) (hr : rg e Adr.PMU_RSTCAUSE = rg d Adr.PMU_RSTCAUSE) : WarmStands d e :=
  ⟨congrArg Pmu.seq h, fun m _ => congrArg (fun p : Pmu => (nth p.pd m {}).st) h, hr⟩

theorem refl (d : Dev) : WarmStands d d := of_pmu rfl rfl

theorem trans {d e f : Dev} (h : WarmStands d e) (k : WarmStands e f) : WarmStands d f :=
  ⟨k.seq.trans h.seq, fun m hm => (k.hbm m hm).trans (h.hbm m hm), k.cause.trans h.cause⟩

theorem ite {d e f : Dev} {c : Prop} [Decidable c] (h : WarmStands d e) (k : WarmStands d f) : WarmStands d (if c then e else f) := by
  split
  · exact h
  · exact k

/-- A domain of the link changes. -/
theorem setPd (d : Dev) {n : Nat} (hn : n = 11 ∨ n = 12) (f : Pd → Pd) : WarmStands d (setPd d n f) :=
  ⟨rfl, fun m hm => congrArg Pd.st (nth_modNth_ne _ (by omega) f {}), rfl⟩

theorem standbyLeave (d : Dev) : WarmStands d (standbyLeave d) := ite ⟨rfl, fun _ _ => rfl, rfl⟩ (refl d)

theorem pdAct_off (d : Dev) {n : Nat} (hn : n = 11 ∨ n = 12) : WarmStands d (pdAct d n 2) := by
  have left := (standbyLeave d).trans (setPd _ hn fun p => { p with st := .switchingOff })
  unfold pdAct
  cases pdState d n
  case on => exact setPd _ hn _
  case selfRefresh => exact left
  all_goals exact refl d

theorem pdAsk_off (d : Dev) {n : Nat} (hn : n = 11 ∨ n = 12) : WarmStands d (pdAsk d n 2) := by
  unfold pdAsk
  refine ite (refl d) ?_
  split
  · exact setPd _ hn _
  · exact setPd _ hn _
  · exact pdAct_off d hn

/-- RSTCAUSE lies below the pages that the link writes. -/
theorem rstcause_not_linkWord : ¬LinkWord Adr.PMU_RSTCAUSE := by
  have err : ¬ErrWord Adr.PMU_RSTCAUSE := not_errWord_of (by decide) (by decide)
  simp only [LinkWord, err, false_or, not_or, not_exists, not_and, forall_and]
  simp only [Adr.PMU_RSTCAUSE, Page.base, oERRLATCH, oINFO0, oINFO1, oEVTPEND, oINJECT, oCTRL, Adr.GLR_CNT_LANE, Adr.GLR_CNT_RESEND,
    Adr.GLR_CNT_ROWFAIL, Adr.TAG_CTRL, Adr.TAG_NONCE, Adr.LANE_CNT_LOSS, Adr.DBM_BITS]
  and_intros <;> intros <;> omega

theorem linkDown (d : Dev) : WarmStands d (linkDown d) := by
  have frame := linkDown_linkFrame d
  exact of_pmu (congrArg (fun x : Dev => x.pmu) frame.view :) (frame.words _ rstcause_not_linkWord)

theorem linkOff (d : Dev) {n : Nat} (hn : n = 11 ∨ n = 12) : WarmStands d (linkOff d n) := by
  have dark (d : Dev) : WarmStands d (domainDark d n) := by
    rw [domainDark, if_pos hn]
    exact linkDown d
  exact ite (ite ((pdAsk_off d hn).trans (dark _)) (pdAsk_off d hn)) (refl d)

theorem warmUnmuzzled (d : Dev) : WarmStands d (warmUnmuzzled d) := by
  have stands := ResetStands.of_errFrame (muzUpdate_errFrame (setMuz (setFcl d fun f => { f with
    halted := false, barkArm := !sev3Held d }) fun m => { m with reset := false, sev3 := false }))
  exact of_pmu stands.pmu stands.cause

end WarmStands

theorem warmUnmuzzled_reset (d : Dev) : (warmUnmuzzled d).muz.reset = false := by
  obtain ⟨m, eq⟩ := muzUpdate_muz (setMuz (setFcl d fun f => { f with halted := false, barkArm := !sev3Held d }) fun m => { m with
    reset := false, sev3 := false })
  exact congrArg Muz.reset eq

/-- The core's reset is none of the PMU's and MUZ's. -/
theorem coreOut_keeps (d : Dev) : WarmStands d (coreOut d) ∧ (coreOut d).muz.reset = d.muz.reset := by
  have away : (awayBegin d).pmu = d.pmu ∧ (awayBegin d).regs = d.regs ∧ (awayBegin d).muz = d.muz := by
    unfold awayBegin
    split <;> exact ⟨rfl, rfl, rfl⟩
  obtain ⟨pmu, regs, muz⟩ := away
  have boot := ResetStands.romBoot (awayBegin d)
  unfold coreOut
  split
  · exact ⟨.of_pmu (boot.pmu.trans pmu) (boot.cause.trans (rg_congr regs _)), boot.muzzle.trans (congrArg Muz.reset muz)⟩
  · exact ⟨.refl d, rfl⟩

theorem WarmStands.pmuEvt (d : Dev) (b : Nat) : WarmStands d (pmuEvt d b) := .of_pmu (evt_pmu ..) (rg_evt_ne _ _ _ (by decide))

theorem warmReady_ready (d : Dev) : WarmStands d (warmReady d) ∧ (warmReady d).pmu.ready = true ∧ (warmReady d).muz = d.muz ∧
    pends (warmReady d) (Page.pmu.base 0) Bit.evt_PMU_READY = true ∧
    pends (warmReady d) (Page.pmu.base 0) Bit.evt_PMU_WARM_DONE = true := by
  have woken : WarmStands d (setPmu (standbyLeave d) fun p => { p with ready := true }) :=
    (WarmStands.standbyLeave d).trans ⟨rfl, fun _ _ => rfl, rfl⟩
  refine ⟨(woken.trans (.pmuEvt _ _)).trans (.pmuEvt _ _), ?_, ?_, pends_evt_of_pends _ (by decide) (pends_evt _ _ (by decide)),
    pends_evt _ _ (by decide)⟩
  · unfold warmReady pmuEvt
    rw [evt_pmu, evt_pmu]
    rfl
  · unfold warmReady pmuEvt
    rw [evt_muz, evt_muz]
    exact (standbyLeave_keeps d).2

theorem warmWoken_seq (d : Dev) : (warmWoken d).pmu.seq = .done := by
  unfold warmWoken setPmu
  dsimp only

/-- RSTCAUSE shows the cause of the reset. -/
theorem rg_warmWoken_cause (d : Dev) : rg (warmWoken d) Adr.PMU_RSTCAUSE = w32 d.pmu.warmCause := by
  have shown : rg (warmWoken d) Adr.PMU_RSTCAUSE = w32 (warmLogic d).pmu.warmCause := by
    unfold warmWoken
    rw [rg_setPmu, rg_wr_self]
  rw [shown, (warmLogic_keeps d).1]

/-- HBM that was in self-refresh is on. -/
theorem warmWoken_hbm {d : Dev} (h : d.pmu.pd.length = 14) {n : Nat} (hn : n = 9 ∨ n = 10) (sr : pdState d n = .selfRefresh) :
    pdState (warmWoken d) n = .on := by
  have pmu := (warmLogic_keeps d).1
  have pd : (warmWoken d).pmu.pd = modNth (modNth d.pmu.pd 9 srWoken) 10 srWoken :=
    by
    unfold warmWoken setPmu
    dsimp only
    rw [wr_pmu, pmu]
  have woken : (srWoken (nth d.pmu.pd n {})).st = .on := by
    unfold srWoken
    rw [if_pos (.inl sr)]
  unfold pdState
  rw [pd]
  rcases hn with rfl | rfl
  · rw [nth_modNth_ne _ (by decide), nth_modNth_self _ (by omega), woken]
  · rw [nth_modNth_self _ (by rw [length_modNth]; omega), nth_modNth_ne _ (by decide), woken]

/-- What the end of a warm reset leaves. -/
theorem warmEnd_ends {d : Dev} (h : d.pmu.seq = .warm) (len : d.pmu.pd.length = 14) :
    let e := warmEnd d
    e.pmu.seq = .done ∧ e.pmu.ready = true ∧ e.muz.reset = false ∧ rg e Adr.PMU_RSTCAUSE = w32 d.pmu.warmCause ∧
    (∀ n, n = 9 ∨ n = 10 → pdState d n = .selfRefresh → pdState e n = .on) ∧
    pends e (Page.pmu.base 0) Bit.evt_PMU_READY = true ∧ pends e (Page.pmu.base 0) Bit.evt_PMU_WARM_DONE = true := by
  dsimp only
  rw [warmEnd_eq h]
  have off := (WarmStands.linkOff (warmWoken d) (.inl rfl)).trans (.linkOff (linkOff (warmWoken d) 11) (.inr rfl))
  generalize linkOff (linkOff (warmWoken d) 11) 12 = x at off ⊢
  obtain ⟨core, reset⟩ := coreOut_keeps (warmUnmuzzled x)
  obtain ⟨stands, ready, muz, pends⟩ := warmReady_ready (coreOut (warmUnmuzzled x))
  have all := off.trans ((WarmStands.warmUnmuzzled x).trans (core.trans stands))
  exact ⟨all.seq.trans (warmWoken_seq d), ready, (congrArg Muz.reset muz).trans (reset.trans (warmUnmuzzled_reset x)),
    all.cause.trans (rg_warmWoken_cause d), fun n hn sr => (all.hbm n hn).trans (warmWoken_hbm len hn sr), pends⟩

/-! ### Resets and supply warnings together -/

/-- VDD_AON has come up (R694). -/
def powerOn (d : Dev) : Dev :=
  setPmu (powerReset d) fun p => { p with warnRails := 0, resetRails := 0, firstRail := 0, aonFell := true }

theorem powerOn_pmu (d : Dev) : (powerOn d).pmu = { aonFell := true } := by
  unfold powerOn setPmu
  rw [powerReset_pmu]

/-- What NVM and the kennel's flash hold is kept when no write is cut. -/
theorem powerOn_keeps {d : Dev} (h : d.nvm.job = none) : (powerOn d).nvm.copies = d.nvm.copies ∧ (powerOn d).knl.flash = d.knl.flash := by
  unfold powerOn powerReset
  rw [nvCut_of_idle h]
  exact ⟨rfl, rfl⟩

theorem pdState_drive (d : Dev) (n : Nat) : pdState (drive d) n = pdState d n := by
  unfold pdState
  rw [drive_pmu]

/-- A bit that is set is clear once its weight is taken away. -/
theorem testBit_sub_two_pow {w r : Nat} (h : w.testBit r = true) : (w - 2 ^ r).testBit r = false := by
  have quot : (w - 2 ^ r) / 2 ^ r = w / 2 ^ r - 1 := by simpa using Nat.sub_mul_div w (2 ^ r) 1
  rw [Nat.testBit_eq_decide_div_mod_eq, decide_eq_true_iff] at h
  rw [Nat.testBit_eq_decide_div_mod_eq, decide_eq_false_iff_not, quot]
  omega

/-- What a warm reset leaves, once the pins are driven. -/
theorem warmBegin_driven {d : Dev} (h : d.pmu.seq = .done) (cause : Nat) :
    let e := drive (warmBegin d cause)
    e.pmu.seq = .warm ∧ e.pmu.warmCause = cause ∧ e.muz.reset = true ∧ e.exp.run = none ∧ e.exp.queue = [] ∧
    e.chans = List.replicate 16 {} ∧ .outputsOff true ∈ e.outs ∧ (d.muz.pulses = [] → e.muz.muzzled = true) := by
  obtain ⟨seq, warm, reset, run, queue, chans, outs, muzzled⟩ := warmBegin_begins h cause
  simp only [drive_pmu, drive_muz, drive_exp, drive_chans]
  exact ⟨seq, warm, reset, run, queue, chans, mem_drive_outs outs, muzzled⟩

/-- What PORST# leaves, once the pins are driven. -/
theorem porst_driven {d : Dev} (h : d.pmu.resetRails = 0) (refclk : Bool) (lines : List Nat) (fails : List TestFail) :
    let warned := (List.range 6).any fun r => d.pmu.warnRails.testBit r
    let e := drive (porst d refclk lines fails)
    e.pmu.seq = (if refclk && !warned then .hlk else .refclk) ∧ pdState e 1 = (if refclk && !warned then .switchingOn else .off) ∧
    e.knl.away = true ∧ rg e Adr.PMU_RSTCAUSE = w32 (if d.pmu.seq = .off then 1 else 3) ∧ bit (rg e Adr.TIM_STAT) 31 = true := by
  simp only [drive_pmu, pdState_drive, drive_knl, rg_drive]
  exact porst_begins h refclk lines fails

/-- Settles O60: a loss of power keeps the causes of its reset and NVM; a power-up shows its cause before the warnings of the rails that
are low, which alone can hold its sequence; and what a warm reset's own errors and the core's boot do leaves its marks standing. -/
theorem resetsAndSupplyWarningsAct : Obligations.ResetsAndSupplyWarningsAct := by
  unfold Obligations.ResetsAndSupplyWarningsAct
  refine ⟨fun s idle => ?_, fun s lines fails rails => ?_, fun s req v => ?_, fun s warm len => ?_, fun s r hr => ?_,
    fun s warn rails => ?_, fun s refclk lines fails off fallen => ?_⟩
  · refine does_of_run (f := powerOn) (show _ = execPowerOn s from rfl) ?_
    obtain ⟨copies, flash⟩ := powerOn_keeps idle
    rw [drive_pins_of_off (by rw [powerOn_pmu])]
    simp only [drive_pmu, drive_regs, drive_hbm, drive_exp, drive_nvm, drive_knl, powerOn_pmu]
    exact ⟨trivial, trivial, powerReset_regs s.dev, powerReset_hbm s.dev, trivial, powerReset_queue s.dev, copies, flash⟩
  · obtain ⟨seq, pd, rest⟩ := porst_driven rails true lines fails
    refine ⟨does_of_run (show _ = execPorst true lines fails s from rfl) ⟨seq.trans ?_, pd.trans ?_, rest⟩,
      does_of_run (show _ = execPorst false lines fails s from rfl) (porst_driven rails false lines fails)⟩
    · cases (List.range 6).any fun r => s.dev.pmu.warnRails.testBit r <;> rfl
    · cases (List.range 6).any fun r => s.dev.pmu.warnRails.testBit r <;> rfl
  · refine ⟨fun done => ⟨does_of_run (show _ = execWrst s from rfl) (warmBegin_driven done 4), fun ha =>
      does_of_run (show _ = execWarm req v s from rfl) ?_⟩, fun early => ⟨does_of_run (show _ = execWrst s from rfl) ?_,
      does_of_run (show _ = execWarm req v s from rfl) ?_⟩⟩
    · rw [write, if_pos ha, pmuCmd_warm]
      exact warmBegin_driven done 5
    · rw [warmBegin_of_not_done early]
      exact ⟨drive_pmu _, drive_regs _⟩
    · rw [write, pmuCmd_warm, warmBegin_of_not_done early, ite_self]
      exact ⟨drive_pmu _, drive_regs _⟩
  · refine does_of_run (show _ = execWarmEnd s from rfl) ?_
    simp only [drive_pmu, drive_muz, rg_drive, pdState_drive, pends_drive]
    exact warmEnd_ends warm len
  · refine ⟨fun on => does_of_runS (show _ = execSupplyWarn r s from rfl) ?_, fun low =>
      does_of_run (show _ = execRailRelease r s from rfl) ?_, does_of_run (show _ = execBrownout r s from rfl) ?_⟩
    · rw [if_pos ⟨hr, on⟩, latched_drive, latched_congr (rg_settle _ (by decide) (by decide)), rg_drive, rg_drive,
        rg_settle _ (by decide) (by decide), rg_settle _ (by decide) (by decide)]
      simp only [drive_pmu, drive_muz, settle_pmu, settle_muz, supplyWarn_pmu]
      exact ⟨trivial, by simp, supplyWarn_shows _ hr, fun first => supplyWarn_first_acts first r⟩
    · rw [if_pos low]
      simp only [drive_pmu, drive_muz, drive_regs]
      exact ⟨testBit_sub_two_pow low, rfl, rfl, rfl⟩
    · obtain ⟨seq, hbm, fallen, pd, cause⟩ := brownout_resets s.dev r
      rw [if_pos hr, drive_pins_of_off seq]
      simp only [drive_pmu, drive_hbm, rg_drive]
      exact ⟨seq, trivial, hbm, fallen, pd, cause⟩
  · refine does_of_runS (show _ = execWarningEnd s from rfl) ?_
    simp only [drive_pmu, drive_muz, settle_pmu, settle_muz]
    exact warningEnd_ends warn rails
  · refine does_of_run (show _ = execBrownoutRelease refclk lines fails s from rfl) ?_
    simp only [drive_pmu, rg_drive]
    exact brownoutRelease_begins off fallen refclk lines fails

end Sys2Proof.Machine
end

section
/-! SUPPORT. A microcode instruction that can run: its fetch, the register it writes, and what it leaves alone (R469 to R473). -/

namespace Sys2Proof.Machine

/-! ### The fetch -/

/-- The block after the fetch of a microcode word that reads well: an injection may have been used up (R603). -/
def ucFetched (d : Dev) : Dev := (injTake d (Page.hel.base 0) false).2

theorem ucFetched_rest (d : Dev) : ucFetched d = { d with regs := (ucFetched d).regs } := injTake_rest d _ _

@[simp] theorem ucFetched_hel (d : Dev) : (ucFetched d).hel = d.hel := by rw [ucFetched_rest]

theorem ucFetched_keeps (d : Dev) : UcKeeps d (ucFetched d) := fun _ h hc => rg_injTake d _ false h hc

/-- An instruction that can run acts on the fetched word, and moves on. -/
theorem ucExec_of_ready {d : Dev} {op cost : Nat} (ready : UcReady d op cost) (f : Dev → Nat → Dev) (go : Hel → Nat → Nat) :
    ucExec d op cost f go =
      setHel (f (ucFetched d) (ucWord d)) fun h => { h with pc := go d.hel (ucWord d) % 256, cyc := h.cyc + cost } := by
  obtain ⟨clock, going, word, time, read, good⟩ := ready
  have whole : (decide (2 ≤ (injTake d (Page.hel.base 0) false).1) ||
      (ucFetched d).hel.bad.contains ((ucFetched d).hel.pc % 256)) = false := by
    rw [ucFetched_hel, Bool.or_eq_false_iff]
    exact ⟨decide_eq_false (by omega), by simpa using good⟩
  unfold ucExec
  dsimp only
  rw [clock, going, word, if_neg (by simp [time])]
  refine (if_neg (Bool.eq_false_iff.mp whole)).trans ?_
  rw [← ucFetched_hel d]
  rfl

/-! ### The registers of a program (R469) -/

/-- A register write reads back in the register named, and h0 stays 0. -/
theorem ucReg_ucSet {h : Hel} (len : h.h.length = 16) {i j : Nat} (hj : j < 16) (v : Int) :
    ucReg (ucSet h i v) j = if j = i ∧ j ≠ 0 then v else ucReg h j := by
  unfold ucReg ucSet
  by_cases zero : j = 0
  · simp [zero]
  · by_cases same : j = i
    · subst same
      rw [if_neg zero, if_neg zero, if_pos ⟨rfl, zero⟩]
      exact nth_modNth_self h.h (by omega) _ 0
    · rw [if_neg (fun e => same e.1 : ¬(j = i ∧ j ≠ 0)), if_neg zero, if_neg zero]
      split
      · rfl
      · exact nth_modNth_ne h.h same _ 0

theorem ucSet_rest (h : Hel) (i : Nat) (v : Int) : ucSet h i v = { h with h := (ucSet h i v).h } := by
  unfold ucSet
  split <;> rfl

/-- An instruction that can run and whose action is a register write has written it, and nothing else of the Heel. -/
theorem ucExec_wrote {d : Dev} {op cost : Nat} (len : d.hel.h.length = 16) (ready : UcReady d op cost) {f : Dev → Nat → Dev}
    {v : Int} (hf : f (ucFetched d) (ucWord d) = setHel (ucFetched d) fun h => ucSet h (ucD (ucWord d)) v) :
    UcWrote d (drive (ucExec d op cost f ucNext)) cost v := by
  have hel : (drive (ucExec d op cost f ucNext)).hel =
      { ucSet d.hel (ucD (ucWord d)) v with pc := (d.hel.pc + 1) % 256, cyc := d.hel.cyc + cost } := by
    rw [drive_hel, ucExec_of_ready ready, hf, setHel_self, setHel_self, ucFetched_hel, ucSet_rest]
    rfl
  refine ⟨fun i hi => ?_, ?_, fun a h hc => ?_⟩
  · rw [hel]
    exact ucReg_ucSet len hi v
  · rw [hel, ucSet_rest]
  · rw [rg_drive, ucExec_of_ready ready, hf]
    exact ucFetched_keeps d a h hc

theorem ucAlu_wrote {d : Dev} {op cost : Nat} (len : d.hel.h.length = 16) (ready : UcReady d op cost) (f : Hel → Nat → Int) :
    UcWrote d (drive (ucAlu d op cost f)) cost (f d.hel (ucWord d)) :=
  ucExec_wrote len ready (by rw [← ucFetched_hel d]; rfl)

/-- Saturation is to s32 (R470). -/
theorem satS_32 (x : Int) : satS 32 x = clampI (-2147483648) 2147483647 x := rfl

end Sys2Proof.Machine
end

section
/-! PROOF. The Heel's arithmetic instructions (R469, R470, R472, R473, R475). -/

namespace Sys2Proof.Machine

/-- Settles O17: each arithmetic instruction is a register write by an instruction that can run, of the value that R470 gives. -/
theorem microcodeArithmetic : Obligations.MicrocodeArithmetic := by
  unfold Obligations.MicrocodeArithmetic
  intro s len
  dsimp only
  simp only [← satS_32]
  refine ⟨fun ready => ?_, fun ready => ?_, fun ready => ?_, fun ready => ?_, fun ready inside => ?_, fun ready => ?_,
    fun ready => ?_, fun ready => ?_, fun ready => ?_, fun ready => ?_, fun ready => ?_, fun ready => ?_⟩
  · exact does_of_run (show _ = execLdi s from rfl) (ucAlu_wrote len ready _)
  · exact does_of_run (show _ = execLdh s from rfl) (ucAlu_wrote len ready _)
  · exact does_of_run (show _ = execAdd s from rfl) (ucAlu_wrote len ready _)
  · exact does_of_run (show _ = execSub s from rfl) (ucAlu_wrote len ready _)
  · refine does_of_run (show _ = execAddi s from rfl) (ucExec_wrote len ready ?_)
    rw [ucFetched_hel, if_pos inside]
  · exact does_of_run (show _ = execMul s from rfl) (ucAlu_wrote len ready _)
  · exact does_of_run (show _ = execShr s from rfl) (ucAlu_wrote len ready _)
  · exact does_of_run (show _ = execShl s from rfl) (ucAlu_wrote len ready _)
  · exact does_of_run (show _ = execMinI s from rfl) (ucAlu_wrote len ready _)
  · exact does_of_run (show _ = execMaxI s from rfl) (ucAlu_wrote len ready _)
  · exact does_of_run (show _ = execInPort s from rfl) (ucAlu_wrote len ready _)
  · exact does_of_run (show _ = execCf s from rfl) (ucAlu_wrote len ready _)

end Sys2Proof.Machine
end

section
/-! SUPPORT. What an error of the Heel, a cause for SAFE and a change of the slope state leave alone (R464, R479, R482, R606). -/

namespace Sys2Proof.Machine

/-! ### Errors of HEL -/

/-- Of the Heel, an error changes the trigger sources seen and nothing else (R479). -/
theorem err_hel (d : Dev) (base b : Nat) (i0 i1 : W32) :
    (err d base b i0 i1).hel = { d.hel with seen := (err d base b i0 i1).hel.seen } :=
  congrArg (fun e : Dev => { e.hel with seen := (err d base b i0 i1).hel.seen }) (err_errRest d base b i0 i1)

theorem helErr_hel (d : Dev) (b : Nat) (i1 : W32) : (helErr d b i1).hel = { d.hel with seen := (helErr d b i1).hel.seen } :=
  err_hel _ _ _ _ _

/-- The words of an error of HEL, but for the _INJECT words. -/
def helErrWords : List Nat :=
  [Page.hel.base 0 + oERRLATCH, Page.hel.base 0 + oINFO0, Page.hel.base 0 + oINFO1] ++ errWords

theorem rg_helErr (d : Dev) (b : Nat) (i1 : W32) {a : Nat} (hi : a % 0x1000 ≠ oINJECT) (h : a ∉ helErrWords) :
    rg (helErr d b i1) a = rg d a := by
  simp only [helErrWords, List.mem_append, List.mem_cons, List.not_mem_nil, or_false, not_or] at h
  obtain ⟨⟨latch, info0, info1⟩, listed⟩ := h
  exact rg_err _ _ _ _ _ (not_errWord_of hi listed) latch info0 info1

theorem latched_helErr (d : Dev) {b : Nat} (i1 : W32) (h : b < 32) : latched (helErr d b i1) (Page.hel.base 0) b = true :=
  latched_err _ _ _ _ _ (base_mod .hel 0) (by decide) h

/-! ### Causes for SAFE, and the slope state -/

theorem helCause_regs (d : Dev) : (helCause d).regs = d.regs := by
  unfold helCause
  split <;> rfl

@[simp] theorem rg_helCause (d : Dev) (a : Nat) : rg (helCause d) a = rg d a := rg_congr (helCause_regs d) a

theorem helCause_hel (d : Dev) : (helCause d).hel = { d.hel with safeReq := (helCause d).hel.safeReq } := by
  unfold helCause
  split <;> rfl

@[simp] theorem helSlope_hel (d : Dev) (v : Int) : (helSlope d v).hel = { d.hel with v := v } := by
  unfold helSlope
  split <;> rfl

theorem rg_helSlope (d : Dev) (v : Int) {a : Nat} (h : a ≠ Adr.HEL_CNT_SWITCH) : rg (helSlope d v) a = rg d a := by
  unfold helSlope
  rw [rg_setHel]
  split
  · rfl
  · rw [rg_inc, if_neg h]

/-! ### The leash (R465) -/

theorem helLeash_hel (d : Dev) (e : Int) : (helLeash d e).hel = { d.hel with
    leash := (helLeash d e).hel.leash, seen := (helLeash d e).hel.seen, safeReq := (helLeash d e).hel.safeReq } := by
  unfold helLeash
  dsimp only
  split
  · split
    · rfl
    · split
      · rw [helCause_hel, helErr_hel]
        rfl
      · rfl
  · rfl

theorem rg_helLeash (d : Dev) (e : Int) {a : Nat} (hi : a % 0x1000 ≠ oINJECT) (h : a ∉ helErrWords) :
    rg (helLeash d e) a = rg d a := by
  unfold helLeash
  dsimp only
  split
  · split
    · rfl
    · split
      · rw [rg_helCause, rg_helErr _ _ _ hi h, rg_setHel]
      · rfl
  · rfl

end Sys2Proof.Machine
end

section
/-! PROOF. The Heel's branches, HYST, OUT, CAP, WAIT and UC_FAULT (R458, R460, R470, R471, R473, R479). -/

namespace Sys2Proof.Machine

/-! ### HYST in TRACK (R460) -/

/-- The slope state by the band. -/
def hystSlope (h : Hel) (e : Int) : Int := if smpH h < e then 1 else if e < -smpH h then -1 else h.v

/-- HYST before the leash: the slope state `v`, the value staged, the error and its peak shown. -/
def hystShown (d : Dev) (e v : Int) : Dev :=
  let staged := setHel (helSlope d v) fun h => { h with ystage := clampI (-134217728) 134217727 (h.y + v * smpS h) }
  let shown := wr staged Adr.HEL_ERR_LAST (w32 (ofS 32 e))
  if (rg shown Adr.HEL_PEAK).toNat < e.natAbs then wr shown Adr.HEL_PEAK (w32 e.natAbs) else shown

theorem hystShown_hel (d : Dev) (e v : Int) : (hystShown d e v).hel =
    { d.hel with v := v, ystage := clampI (-134217728) 134217727 (d.hel.y + v * smpS d.hel) } := by
  unfold hystShown
  dsimp only
  split <;> simp only [wr_hel, setHel_self, helSlope_hel, smpS]

theorem rg_hystShown (d : Dev) (e v : Int) : rg (hystShown d e v) Adr.HEL_ERR_LAST = w32 (ofS 32 e) := by
  unfold hystShown
  dsimp only
  split
  · rw [rg_wr_ne _ _ (by decide), rg_wr_self]
  · rw [rg_wr_self]

theorem helHyst_track {d : Dev} (track : d.hel.mode = 3) (quiet : d.hel.inj = false) (e : Int) :
    helHyst d e = setHel (helLeash (hystShown d e (hystSlope d.hel e)) e) fun h => { h with hysted := true } := by
  unfold helHyst
  dsimp only
  rw [track, quiet]
  simp only [Bool.false_and, Bool.false_eq_true, if_false, Nat.reduceEqDiff, false_or, decide_true, if_true,
    Bool.true_and, decide_eq_true_eq, gt_iff_lt]
  rfl

/-- HYST in TRACK with no injection running: what it makes of the Heel, and the error it shows. -/
theorem helHyst_acts {d : Dev} (track : d.hel.mode = 3) (quiet : d.hel.inj = false) (e : Int) :
    (∃ leash seen safeReq, (helHyst d e).hel = { d.hel with
      v := hystSlope d.hel e
      ystage := clampI (-134217728) 134217727 (d.hel.y + hystSlope d.hel e * smpS d.hel)
      leash := leash, seen := seen, safeReq := safeReq, hysted := true }) ∧
    rg (helHyst d e) Adr.HEL_ERR_LAST = w32 (ofS 32 e) := by
  rw [helHyst_track track quiet, setHel_self, rg_setHel, rg_helLeash _ _ (by decide) (by decide), rg_hystShown, helLeash_hel,
    hystShown_hel]
  exact ⟨⟨_, _, _, rfl⟩, rfl⟩

/-! ### Branches -/

/-- An instruction that can run and acts on nothing moves on, and leaves the rest. -/
theorem ucExec_moved {d : Dev} {op cost pc : Nat} (ready : UcReady d op cost) {go : Hel → Nat → Nat}
    (next : go d.hel (ucWord d) % 256 = pc) :
    (drive (ucExec d op cost (fun d _ => d) go)).hel = { d.hel with pc := pc, cyc := d.hel.cyc + cost } ∧
    UcKeeps d (drive (ucExec d op cost (fun d _ => d) go)) := by
  rw [ucExec_of_ready ready, drive_hel, setHel_self, ucFetched_hel, next]
  exact ⟨rfl, fun a h hc => (rg_drive _ a).trans (ucFetched_keeps d a h hc)⟩

theorem ucCond_taken {d : Dev} {op : Nat} {c : Int → Bool} (taken : c (ucReg d.hel (ucA (ucWord d))) = true) :
    ucCond d op c = ucExec d op 2 (fun d _ => d) fun _ w => ucImm w % 256 := if_pos taken

theorem ucCond_passed {d : Dev} {op : Nat} {c : Int → Bool} (passed : c (ucReg d.hel (ucA (ucWord d))) = false) :
    ucCond d op c = ucExec d op 1 (fun d _ => d) ucNext := if_neg (Bool.eq_false_iff.mp passed)

/-! ### UC_FAULT (R471) -/

theorem ucFault_acts (d : Dev) : (ucFault d).hel.going = false ∧
    latched (ucFault d) (Page.hel.base 0) Bit.err_HEL_UC_FAULT = true ∧
    (1 ≤ d.hel.mode → d.hel.mode ≤ 3 → (ucFault d).hel.safeReq = true) := by
  unfold ucFault
  refine ⟨?_, (latched_congr (rg_helCause _ _) _).trans (latched_helErr _ _ (by decide)), fun low high => ?_⟩
  · rw [helCause_hel, helErr_hel]
    rfl
  · exact helCause_safeReq (by rw [helErr_hel]; exact low) (by rw [helErr_hel]; exact high)

/-! ### The obligation -/

/-- Settles O18: a branch acts on nothing but the address and the count, and the leash and the errors that HYST and a fault bring
leave the registers, the law's values and the words they show. -/
theorem microcodeControlAndOutput : Obligations.MicrocodeControlAndOutput := by
  unfold Obligations.MicrocodeControlAndOutput
  intro s
  dsimp only
  refine ⟨fun ready => ?_, fun ready => ?_, fun ready zero => ?_, fun ready other => ?_, fun ready neg => ?_, fun ready pos => ?_,
    fun ready track quiet => ?_, fun ready active => ?_, fun i ready cur => ?_, fun ready => ?_, fun clock going => ?_⟩
  · exact does_of_run (show _ = execNop s from rfl) (ucExec_moved ready rfl)
  · exact does_of_run (show _ = execBr s from rfl) (ucExec_moved ready (Nat.mod_mod _ _))
  · refine does_of_run (show _ = execBz s from rfl) ?_
    rw [ucCond_taken (decide_eq_true zero)]
    exact ucExec_moved ready (Nat.mod_mod _ _)
  · refine does_of_run (show _ = execBz s from rfl) ?_
    rw [ucCond_passed (decide_eq_false other)]
    exact ucExec_moved ready rfl
  · refine does_of_run (show _ = execBn s from rfl) ?_
    rw [ucCond_taken (decide_eq_true neg)]
    exact ucExec_moved ready (Nat.mod_mod _ _)
  · refine does_of_run (show _ = execBn s from rfl) ?_
    rw [ucCond_passed (decide_eq_false (Int.not_lt.mpr pos))]
    exact ucExec_moved ready rfl
  · refine does_of_run (show _ = execHyst s from rfl) ?_
    obtain ⟨⟨leash, seen, safe, hel⟩, shown⟩ := helHyst_acts (d := ucFetched s.dev) (by rwa [ucFetched_hel])
      (by rwa [ucFetched_hel]) (ucReg (ucFetched s.dev).hel (ucA (ucWord s.dev)))
    rw [ucExec_of_ready ready, drive_hel, rg_drive, setHel_self, rg_setHel, hel, shown, ucFetched_hel]
    exact ⟨rfl, rfl, rfl, rfl, rfl⟩
  · refine does_of_run (show _ = execOutI s from rfl) ?_
    have out : helOut (ucFetched s.dev) (ucReg (ucFetched s.dev).hel (ucA (ucWord s.dev))) = _ :=
      if_pos (by rwa [ucFetched_hel])
    rw [ucExec_of_ready ready, out, drive_hel, setHel_self, setHel_self, ucFetched_hel]
    exact ⟨rfl, fun a h hc => (rg_drive _ a).trans (ucFetched_keeps s.dev a h hc)⟩
  · refine does_of_run (show _ = execCapI s from rfl) ?_
    have entry : (ucFetched s.dev).hel.capCur = some i := by rwa [ucFetched_hel]
    rw [ucExec_of_ready ready, entry, drive_hel, rg_drive, rg_drive, rg_setHel, rg_setHel, rg_wr_self,
      rg_wr_ne _ _ (by omega), rg_wr_self, setHel_self, wr_hel, wr_hel, ucFetched_hel]
    exact ⟨rfl, rfl, rfl⟩
  · refine does_of_run (show _ = execWaitInstruction s from rfl) ?_
    rw [ucExec_of_ready ready, drive_hel, rg_drive, rg_setHel, rg_setHel, rg_wr_self, setHel_self, setHel_self, wr_hel,
      ucFetched_hel, fd, ucFetched_keeps s.dev Adr.HEL_CYC (by decide) (by decide)]
    exact ⟨rfl, rfl⟩
  · refine does_of_run (show _ = execUcFault true s from rfl) ?_
    rw [if_pos (by rw [clock, going]; rfl), drive_hel, latched_drive]
    exact ucFault_acts s.dev

end Sys2Proof.Machine
end

section
/-! SUPPORT. The parts of a tick of the Heel, and what each leaves alone (R457 to R460, R462, R464, R477 to R481). -/

namespace Sys2Proof.Machine

/-! ### What stands through a tick -/

/-- The words that the parts of a tick leave alone: the count of samples and the configuration. -/
def tickWords : List Nat := [Adr.HEL_SAMPLE, Adr.HEL_CFG]

/-- What every part of a tick leaves alone of the Heel: the frame number. -/
def Dev.tickRest (d : Dev) : Dev := { hel := { seq := d.hel.seq } }

/-- What the injection, the capture and the overruns of a tick leave alone of the Heel: the law. -/
def Hel.law (h : Hel) : Hel :=
  { mode := h.mode, y := h.y, ystage := h.ystage, ticked := h.ticked, complete := h.complete, seq := h.seq }

def Dev.lawRest (d : Dev) : Dev := { hel := d.hel.law }

abbrev TickFrame : Dev → Dev → Prop := Frame (· ∉ tickWords) Dev.tickRest

abbrev LawFrame : Dev → Dev → Prop := Frame (· ∉ tickWords) Dev.lawRest

theorem Frame.tick {d e : Dev} (h : LawFrame d e) : TickFrame d e :=
  Frame.weaken (R := Dev.lawRest) Dev.tickRest (fun _ => rfl) (fun _ w => w) h

theorem Frame.rg_eq {R : Dev → Dev} {d e : Dev} (h : Frame (· ∉ tickWords) R d e) {a : Nat} (ha : a ∈ tickWords) :
    rg e a = rg d a := h.words a (not_not.mpr ha)

theorem lawFrame_of {d e : Dev} (h : e.hel.law = d.hel.law) (hr : ∀ a ∈ tickWords, rg e a = rg d a) : LawFrame d e :=
  ⟨congrArg (fun x => ({ hel := x } : Dev)) h, fun a ha => hr a (not_not.mp ha)⟩

theorem wr_lawFrame (d : Dev) {a : Nat} (v : W32) (h : a ∉ tickWords) : LawFrame d (wr d a v) := .wr (fun _ _ _ => rfl) d a v h

theorem setHel_lawFrame (d : Dev) {f : Hel → Hel} (h : ∀ x, (f x).law = x.law) : LawFrame d (setHel d f) :=
  lawFrame_of (h d.hel) fun _ _ => rfl

theorem helErr_lawFrame (d : Dev) (b : Nat) (i1 : W32) : LawFrame d (helErr d b i1) :=
  lawFrame_of (congrArg Hel.law (helErr_hel d b i1) :) fun a ha =>
    rg_helErr d b i1 ((by decide : ∀ a ∈ tickWords, a % 0x1000 ≠ oINJECT) a ha)
      ((by decide : ∀ a ∈ tickWords, a ∉ helErrWords) a ha)

theorem helEvt_lawFrame (d : Dev) (b : Nat) : LawFrame d (helEvt d b) :=
  lawFrame_of (congrArg Hel.law (evt_hel d _ b)) fun a ha =>
    rg_evt_ne _ _ _ ((by decide : ∀ a ∈ tickWords, a ≠ Page.hel.base 0 + oEVTPEND) a ha)

theorem helCause_lawFrame (d : Dev) : LawFrame d (helCause d) :=
  lawFrame_of (congrArg Hel.law (helCause_hel d) :) fun a _ => rg_helCause d a

theorem helSlope_lawFrame (d : Dev) (v : Int) : LawFrame d (helSlope d v) :=
  lawFrame_of (congrArg Hel.law (helSlope_hel d v) :) fun a ha =>
    rg_helSlope d v ((by decide : ∀ a ∈ tickWords, a ≠ Adr.HEL_CNT_SWITCH) a ha)

/-- A word of the capture is none of the tick's. -/
theorem cap_not_tickWord {i a : Nat} (h : Adr.HEL_CAP i ≤ a) : a ∉ tickWords := by
  simp only [tickWords, Adr.HEL_CAP, Adr.HEL_SAMPLE, Adr.HEL_CFG, List.mem_cons, List.not_mem_nil, or_false] at h ⊢
  omega

/-! ### Injection and capture -/

theorem injAbort_lawFrame (d : Dev) : LawFrame d (injAbort d) := by
  have stopped := wr_lawFrame d (setBits (rg d Adr.HEL_INJ_CTRL) 1 0 0) (a := Adr.HEL_INJ_CTRL) (by decide)
  unfold injAbort
  dsimp only
  refine .ite ?_ stopped
  exact .after (helErr_lawFrame _ _ _) (stopped.trans (.of rfl rfl))

theorem injTick_lawFrame (d : Dev) : LawFrame d (injTick d) := by
  have put (d : Dev) (hi lo v : Nat) : LawFrame d (setFd d Adr.HEL_INJ_CTRL hi lo v) := wr_lawFrame d _ (by decide)
  unfold injTick
  dsimp only
  refine (put d 0 0 0).trans (.ite ?_ (.ite (.ite (injAbort_lawFrame _) (.ite ?_ ?_)) (.refl _)))
  · exact (put _ 1 1 0).trans (.of rfl rfl)
  · exact .after (helEvt_lawFrame _ _) ((put _ 1 1 0).trans (.of rfl rfl))
  · exact .of rfl rfl

theorem capTick_lawFrame (d : Dev) (defl : Int) : LawFrame d (capTick d defl) := by
  have head (d : Dev) (i : Nat) (v : W32) : LawFrame d (wr d (Adr.HEL_CAP i) v) :=
    wr_lawFrame d v (cap_not_tickWord (Nat.le_refl _))
  have word (d : Dev) (i o : Nat) (v : W32) : LawFrame d (wr d (Adr.HEL_CAP i + o) v) :=
    wr_lawFrame d v (cap_not_tickWord (Nat.le_add_right _ o))
  unfold capTick
  extract_lets seen begun i a shown trig hit n counted triggered left
  have toBegun : LawFrame d begun := setHel_lawFrame _ fun _ => rfl
  have toShown : LawFrame begun shown := (((head _ i _).trans (word _ i 4 _)).trans (word _ i 8 _)).trans (word _ i 12 _)
  have toCounted : LawFrame shown counted := setHel_lawFrame _ fun _ => rfl
  have toTriggered : LawFrame counted triggered := .ite (setHel_lawFrame _ fun _ => rfl) (.refl _)
  have toLeft : LawFrame triggered left := setHel_lawFrame _ fun _ => rfl
  refine .ite toBegun (((toBegun.trans toShown).trans (toCounted.trans toTriggered)).trans
    (.ite (.refl _) (toLeft.trans (.ite ?_ (.refl _)))))
  exact .after (helEvt_lawFrame _ _) (setHel_lawFrame _ fun _ => rfl)

/-! ### Modes and overruns -/

theorem helStart_tickFrame (d : Dev) : TickFrame d (helStart d) := by
  unfold helStart
  refine Frame.trans (helSlope_lawFrame d 0).tick ?_
  exact Frame.trans (wr_lawFrame _ _ (by decide)).tick (.of rfl rfl)

theorem helAcquire_tickFrame (d : Dev) : TickFrame d (helAcquire d) :=
  (helSlope_lawFrame d 0).tick.trans (.of rfl rfl)

theorem helSafe_tickFrame (d : Dev) : TickFrame d (helSafe d) :=
  Frame.after (injAbort_lawFrame _).tick (.of rfl rfl)

theorem helModes_tickFrame (d : Dev) (enc : Bool) : TickFrame d (helModes d enc) := by
  unfold helModes
  extract_lets begun latched calm counted
  have toLatched : TickFrame d latched := Frame.trans (e := begun) (.ite (helStart_tickFrame d) (.refl d)) (.of rfl rfl)
  have toCalm : TickFrame latched calm := .of rfl rfl
  refine toLatched.trans (.ite (helSafe_tickFrame _) (toCalm.trans ?_))
  split
  · exact .ite (helAcquire_tickFrame _) (.refl _)
  · have toCounted : TickFrame calm counted := .of rfl rfl
    exact toCounted.trans (.ite (.after (helEvt_lawFrame _ _).tick (.of rfl rfl)) (.refl _))
  · exact .refl _

/-- In TRACK with no cause for SAFE waiting a tick changes no mode (R462, R464). -/
theorem helModes_track {d : Dev} (track : d.hel.mode = 3) (calm : d.hel.safeReq = false) (enc : Bool) :
    LawFrame d (helModes d enc) := by
  unfold helModes
  simp only [track, calm, setHel_self, Nat.reduceEqDiff, if_false, Bool.false_eq_true, false_and]
  exact .of rfl rfl

theorem helOverrun_lawFrame (d : Dev) (was : Nat) : LawFrame d (helOverrun d was) := by
  unfold helOverrun
  extract_lets counted marked noted
  have toCounted : LawFrame d counted := wr_lawFrame d _ (by decide)
  have toMarked : LawFrame counted marked := by
    unfold marked
    split
    · exact wr_lawFrame _ _ (cap_not_tickWord (Nat.le_add_right _ 12))
    · exact .refl _
  have toNoted : LawFrame marked noted := .of rfl rfl
  refine (toCounted.trans toMarked).trans (toNoted.trans (.ite ?_ (.refl _)))
  exact (helErr_lawFrame _ _ _).trans (helCause_lawFrame _)

/-! ### The three parts of a tick -/

/-- The modes of a tick, the registers sampled, the sample before judged, ENC_VALID counted, and the injection's part. -/
def tickJudged (d : Dev) (enc : Bool) : Dev :=
  let was := d.hel.mode
  let d := helModes d enc
  let d := setHel d fun h => { h with smp := helSampled d }
  let d := if d.hel.ticked && !d.hel.complete then helOverrun d was else setHel d fun h => { h with overruns := 0 }
  let low := !enc && decide (d.hel.mode = 2 ∨ d.hel.mode = 3) && !inStripe d
  let d := setHel d fun h => { h with encLow := if low then h.encLow + 1 else 0 }
  injTick (if 2 ≤ d.hel.encLow then helCause d else d)

/-- The law at a tick: the ramp of SAFE, or the value staged. -/
def tickLaw (d : Dev) : Dev :=
  let h := d.hel
  let ramp := h.y - h.y.sign * min (h.y.natAbs : Int) (smpRamp h)
  if h.mode = 4 then
    if h.hold then setHel d fun h => { h with hold := false }
    else
      let d := setHel d fun h => { h with y := ramp }
      if ramp = 0 then helEvt (setHel (helSlope d 0) fun h => { h with mode := 1 }) Bit.evt_HEL_SAFE_DONE else d
  else if h.ticked && h.complete then setHel d fun h => { h with y := h.ystage }
  else d

/-- The DAC frame, the capture, and the program's start. -/
def tickSent (d : Dev) (t : Nat) (enc : Bool) : Dev :=
  let g := if d.hel.inj && injPoint d = 2 then d.hel.injG else 0
  let defl := clampI (-524288) 524287 ((d.hel.y + g + 128) / 256)
  let frame := dacFrame d defl
  let d := capTick (setHel (emit d (.dac frame)) fun h => { h with seq := (h.seq + 1) % 16, frame := frame }) defl
  let d := setHel d fun h => { h with
    ystage := h.y, ports := helPorts d t enc, pc := fd d Adr.HEL_CFG 7 0, cyc := 0, going := true, ticked := true
    complete := false, hysted := false }
  wr d Adr.HEL_Y (w32 (ofS 32 d.hel.y))

theorem helTick_eq {d : Dev} (runs : helRuns d = true) (t : Nat) (enc : Bool) :
    helTick d t enc = tickSent (tickLaw (tickJudged (inc d Adr.HEL_SAMPLE) enc)) t enc := by
  unfold helTick
  rw [runs]
  rfl

/-- Once the modes have changed, what judges the sample before leaves the law alone. -/
theorem tickJudged_lawFrame (d : Dev) (enc : Bool) : LawFrame (helModes d enc) (tickJudged d enc) := by
  unfold tickJudged
  extract_lets was moded sampled judged low counted
  have toSampled : LawFrame moded sampled := .of rfl rfl
  have toJudged : LawFrame sampled judged := .ite (helOverrun_lawFrame _ _) (.of rfl rfl)
  have toCounted : LawFrame judged counted := .of rfl rfl
  refine ((toSampled.trans toJudged).trans toCounted).trans (.after (injTick_lawFrame _) ?_)
  exact .ite (helCause_lawFrame _) (.refl _)

theorem tickLaw_tickFrame (d : Dev) : TickFrame d (tickLaw d) := by
  unfold tickLaw
  extract_lets h ramp ramped
  have toRamped : TickFrame d ramped := .of rfl rfl
  refine .ite (.ite (.of rfl rfl) (toRamped.trans (.ite ?_ (.refl _)))) (.ite (.of rfl rfl) (.refl d))
  exact .after (helEvt_lawFrame _ _).tick ((helSlope_lawFrame _ 0).tick.trans (.of rfl rfl))

/-- In TRACK Y takes the value staged by a complete sample (R458). -/
theorem tickLaw_track {d : Dev} (track : d.hel.mode = 3) (begun : d.hel.ticked = true) (done : d.hel.complete = true) :
    (tickLaw d).hel.y = d.hel.ystage := by
  unfold tickLaw
  dsimp only
  rw [track, begun, done]
  rfl

/-- What the last part of a tick leaves: the frame counted, the program at its start, and Y as the law made it. -/
theorem tickSent_acts (d : Dev) (t : Nat) (enc : Bool) :
    rg (tickSent d t enc) Adr.HEL_SAMPLE = rg d Adr.HEL_SAMPLE ∧
    (tickSent d t enc).hel.seq = (d.hel.seq + 1) % 16 ∧ (tickSent d t enc).hel.pc = fd d Adr.HEL_CFG 7 0 ∧
    (tickSent d t enc).hel.cyc = 0 ∧ (tickSent d t enc).hel.going = true ∧ (tickSent d t enc).hel.complete = false ∧
    (tickSent d t enc).hel.y = d.hel.y := by
  unfold tickSent
  extract_lets g defl frame captured started
  have capture := capTick_lawFrame (setHel (emit d (.dac frame)) fun h => { h with seq := (h.seq + 1) % 16, frame := frame }) defl
  refine ⟨?_, (congrArg (fun e : Dev => e.hel.seq) capture.view :), ?_, rfl, rfl, rfl,
    (congrArg (fun e : Dev => e.hel.y) capture.view :)⟩
  · rw [rg_wr_ne _ _ (by decide)]
    exact capture.rg_eq (by decide)
  · exact congrArg (bits · 7 0) (capture.rg_eq (by decide))

end Sys2Proof.Machine
end

section
/-! PROOF. The tick of the Heel, its command register, injection, capture and microcode writes (R457 to R459, R462, R464, R468,
R477 to R479, R481, R482). -/

namespace Sys2Proof.Machine

/-! ### The tick -/

theorem helTick_acts {d : Dev} (runs : helRuns d = true) (t : Nat) (enc : Bool) :
    rg (helTick d t enc) Adr.HEL_SAMPLE = rg d Adr.HEL_SAMPLE + 1 ∧ (helTick d t enc).hel.seq = (d.hel.seq + 1) % 16 ∧
    (helTick d t enc).hel.pc = fd d Adr.HEL_CFG 7 0 ∧ (helTick d t enc).hel.cyc = 0 ∧ (helTick d t enc).hel.going = true ∧
    (helTick d t enc).hel.complete = false := by
  have stands : TickFrame (inc d Adr.HEL_SAMPLE) (tickLaw (tickJudged (inc d Adr.HEL_SAMPLE) enc)) :=
    ((helModes_tickFrame _ enc).trans (tickJudged_lawFrame _ enc).tick).trans (tickLaw_tickFrame _)
  obtain ⟨sample, seq, pc, cyc, going, complete, -⟩ := tickSent_acts (tickLaw (tickJudged (inc d Adr.HEL_SAMPLE) enc)) t enc
  rw [helTick_eq runs, sample, seq, pc, fd, stands.rg_eq (a := Adr.HEL_SAMPLE) (by decide), rg_inc, if_pos rfl,
    stands.rg_eq (a := Adr.HEL_CFG) (by decide), rg_inc, if_neg (by decide)]
  refine ⟨rfl, congrArg (fun n => (n + 1) % 16) ?_, rfl, cyc, going, complete⟩
  exact (congrArg (fun e : Dev => e.hel.seq) stands.view :)

theorem helTick_track {d : Dev} (runs : helRuns d = true) (track : d.hel.mode = 3) (calm : d.hel.safeReq = false)
    (begun : d.hel.ticked = true) (done : d.hel.complete = true) (t : Nat) (enc : Bool) :
    (helTick d t enc).hel.y = d.hel.ystage := by
  have law : (tickJudged (inc d Adr.HEL_SAMPLE) enc).lawRest = d.lawRest :=
    (tickJudged_lawFrame _ enc).view.trans (helModes_track (d := inc d Adr.HEL_SAMPLE) track calm enc).view
  obtain ⟨-, -, -, -, -, -, y⟩ := tickSent_acts (tickLaw (tickJudged (inc d Adr.HEL_SAMPLE) enc)) t enc
  rw [helTick_eq runs, y, tickLaw_track]
  · exact (congrArg (fun e : Dev => e.hel.ystage) law :)
  · exact (congrArg (fun e : Dev => e.hel.mode) law :).trans track
  · exact (congrArg (fun e : Dev => e.hel.ticked) law :).trans begun
  · exact (congrArg (fun e : Dev => e.hel.complete) law :).trans done

/-! ### HEL_CMD (R462, R464, R468, R482) -/

/-- A key list without the keys that fail a test. -/
theorem alGet_filter {α : Type} (l : List (Nat × α)) (p : Nat → Bool) (a : Nat) :
    alGet (l.filter fun e => p e.1) a = if p a then alGet l a else none := by
  induction l with
  | nil => simp [alGet]
  | cons e l ih =>
    obtain ⟨k, x⟩ := e
    rw [List.filter_cons]
    by_cases same : a = k
    · subst same
      by_cases kept : p a = true
      · simp [alGet, kept]
      · simp [ih, kept]
    · by_cases kept : p k = true
      · simp [alGet, kept, same, ih]
      · simp [alGet, kept, same, ih]

theorem rg_ucReload (d : Dev) (a : Nat) :
    rg (ucReload d) a = if Adr.HEL_UC 0 ≤ a ∧ a < Adr.HEL_UC 256 then w32 (wordReset a) else rg d a := by
  have got := alGet_filter d.regs (fun k => !decide (Adr.HEL_UC 0 ≤ k ∧ k < Adr.HEL_UC 256)) a
  refine (congrArg (·.getD (w32 (wordReset a))) got).trans ?_
  by_cases inside : Adr.HEL_UC 0 ≤ a ∧ a < Adr.HEL_UC 256
  · simp only [inside, and_self, decide_true, Bool.not_true, Bool.false_eq_true, if_false, if_true, Option.getD_none]
  · rw [if_neg inside, decide_eq_false inside]
    rfl

/-- PEAK_CLR and RELOAD of a write of HEL_CMD. -/
def cmdCleared (d : Dev) (v : W32) : Dev :=
  let d := if bit v 3 then wr d Adr.HEL_PEAK 0 else d
  if bit v 2 && !bit (rg d (Page.hel.base 0 + oCTRL)) 0 then ucReload d else d

/-- SAFE and ACQ of a write of HEL_CMD. -/
def cmdAsked (d : Dev) (v : W32) : Dev :=
  let d := if bit v 1 then helCause d else d
  if bit v 0 && d.hel.mode = 1 then setHel d fun h => { h with acqReq := true } else d

theorem helCmd_eq (d : Dev) (v : W32) : helCmd d v = cmdAsked (cmdCleared d v) v := rfl

theorem rg_cmdAsked (d : Dev) (v : W32) (a : Nat) : rg (cmdAsked d v) a = rg d a := by
  unfold cmdAsked
  extract_lets caused
  have cause : rg caused a = rg d a := by
    unfold caused
    split
    · exact rg_helCause d a
    · rfl
  split <;> exact cause

theorem cmdAsked_bad (d : Dev) (v : W32) : (cmdAsked d v).hel.bad = d.hel.bad := by
  unfold cmdAsked
  extract_lets caused
  have cause : caused.hel.bad = d.hel.bad := by
    unfold caused
    split
    · rw [helCause_hel]
    · rfl
  split <;> exact cause

theorem cmdCleared_mode (d : Dev) (v : W32) : (cmdCleared d v).hel.mode = d.hel.mode := by
  unfold cmdCleared
  dsimp only
  split <;> split <;> rfl

theorem helCmd_peakClr (d : Dev) {v : W32} (peak : bit v 3 = true) : rg (helCmd d v) Adr.HEL_PEAK = 0 := by
  rw [helCmd_eq, rg_cmdAsked, cmdCleared, if_pos peak]
  split
  · rw [rg_ucReload, if_neg (by decide), rg_wr_self]
  · rw [rg_wr_self]

theorem cmdCleared_reload {d : Dev} {v : W32} (reload : bit v 2 = true) (off : bit (rg d (Page.hel.base 0 + oCTRL)) 0 = false) :
    ∃ e, cmdCleared d v = ucReload e := by
  unfold cmdCleared
  extract_lets cleared
  have ctrl : rg cleared (Page.hel.base 0 + oCTRL) = rg d (Page.hel.base 0 + oCTRL) := by
    unfold cleared
    split
    · exact rg_wr_ne _ _ (by decide)
    · rfl
  exact ⟨cleared, if_pos (by rw [reload, ctrl, off]; rfl)⟩

theorem helCmd_reload {d : Dev} {v : W32} (reload : bit v 2 = true) (off : bit (rg d (Page.hel.base 0 + oCTRL)) 0 = false) :
    (helCmd d v).hel.bad = [] ∧ ∀ a < 256, rg (helCmd d v) (Adr.HEL_UC a) = w32 (wordReset (Adr.HEL_UC a)) := by
  obtain ⟨e, eq⟩ := cmdCleared_reload reload off
  rw [helCmd_eq, cmdAsked_bad, eq]
  refine ⟨rfl, fun a ha => ?_⟩
  rw [rg_cmdAsked, rg_ucReload, if_pos (by simp only [Adr.HEL_UC]; omega)]

theorem helCmd_safe {d : Dev} {v : W32} (safe : bit v 1 = true) (low : 1 ≤ d.hel.mode) (high : d.hel.mode ≤ 3) :
    (helCmd d v).hel.safeReq = true := by
  rw [← cmdCleared_mode d v] at low high
  have asked := helCause_safeReq low high
  rw [helCmd_eq, cmdAsked, if_pos safe]
  split
  · exact asked
  · exact asked

theorem helCmd_acq {d : Dev} {v : W32} (acq : bit v 0 = true) (hold : d.hel.mode = 1) : (helCmd d v).hel.acqReq = true := by
  rw [← cmdCleared_mode d v] at hold
  rw [helCmd_eq, cmdAsked, acq]
  refine (congrArg (fun e : Dev => e.hel.acqReq) (if_pos ?_)).trans rfl
  split
  · rw [helCause_hel]
    simp [hold]
  · simp [hold]

/-! ### HEL_INJ_CTRL (R477, R478) -/

theorem injMay_iff (d : Dev) :
    injMay d = true ↔ injPoint d ≠ 0 ∧ d.exp.run = none ∧ d.hel.mode ≠ 0 ∧ d.hel.mode ≠ 4 := by
  simp [injMay, inStripe, and_assoc]

/-- The field of POINT stands where the word's other bits change. -/
theorem bits_point_congr {w w' : W32} (h4 : bit w 4 = bit w' 4) (h5 : bit w 5 = bit w' 5) : bits w 5 4 = bits w' 5 4 := by
  refine Nat.eq_of_testBit_eq fun i => ?_
  rw [testBit_bits, testBit_bits]
  match i with
  | 0 => rw [h4]
  | 1 => rw [h5]
  | i + 2 => rfl

theorem injAbort_point (d : Dev) : injPoint (injAbort d) = injPoint d := by
  have word : rg (injAbort d) Adr.HEL_INJ_CTRL = setBits (rg d Adr.HEL_INJ_CTRL) 1 0 0 := by
    unfold injAbort
    dsimp only
    split
    · rw [rg_helErr _ _ _ (by decide) (by decide), rg_setHel, setFd, rg_wr_self]
    · rw [setFd, rg_wr_self]
  unfold injPoint fd
  rw [word]
  refine bits_point_congr ?_ ?_ <;> rw [bit_setBits _ _ _ (by decide) (by decide)] <;> rfl

theorem injAbort_run {d : Dev} (idle : d.exp.run = none) : (injAbort d).exp.run = none := by
  unfold injAbort
  dsimp only
  split
  · exact (RefusalStands.helErr _ _ (by decide)).stops.run_none idle
  · exact idle

theorem injAbort_mode (d : Dev) : (injAbort d).hel.mode = d.hel.mode :=
  (congrArg (fun e : Dev => e.hel.mode) (injAbort_lawFrame d).view :)

/-- Ending an injection keeps no other from starting. -/
theorem injMay_injAbort {d : Dev} (may : injMay d = true) : injMay (injAbort d) = true := by
  obtain ⟨point, idle, off, safe⟩ := (injMay_iff d).mp may
  rw [injMay_iff, injAbort_point, injAbort_mode]
  exact ⟨point, injAbort_run idle, off, safe⟩

theorem injAbort_stops {d : Dev} (runs : d.hel.inj = true) :
    (injAbort d).hel.inj = false ∧ latched (injAbort d) (Page.hel.base 0) Bit.err_HEL_INJ_ABORT = true := by
  unfold injAbort
  dsimp only
  rw [setFd_hel, if_pos runs, helErr_hel]
  exact ⟨rfl, latched_helErr _ _ (by decide)⟩

theorem helInjCtrl_arm {d : Dev} {v : W32} (arm : bit v 0 = true) (point : bits v 5 4 ≠ 0) (idle : inStripe d = false)
    (low : 1 ≤ d.hel.mode) (high : d.hel.mode ≤ 3) : bit (rg (helInjCtrl d v) Adr.HEL_INJ_CTRL) 0 = true := by
  unfold helInjCtrl
  extract_lets stored stopped
  have may : injMay stored = true := by
    refine (injMay_iff _).mpr ⟨?_, Option.isNone_iff_eq_none.mp (Option.isSome_eq_false_iff.mp idle), ?_, ?_⟩
    · unfold injPoint fd stored
      rw [rg_wr_self, bits_point_congr (w' := v) (by simp [bit]) (by simp [bit])]
      exact point
    · exact Nat.one_le_iff_ne_zero.mp low
    · exact Nat.ne_of_lt (Nat.lt_succ_of_le high)
  have may' : injMay stopped = true := by
    unfold stopped
    split
    · exact injMay_injAbort may
    · exact may
  rw [arm, may', Bool.and_self, if_pos rfl, setFd, rg_wr_self, bit_setBits _ _ _ (by decide) (by decide)]
  rfl

theorem helInjCtrl_stop {d : Dev} {v : W32} (stop : bit v 1 = true) (runs : d.hel.inj = true) :
    (helInjCtrl d v).hel.inj = false ∧ latched (helInjCtrl d v) (Page.hel.base 0) Bit.err_HEL_INJ_ABORT = true := by
  unfold helInjCtrl
  extract_lets stored stopped
  have ended : stopped = injAbort stored := if_pos (by rw [stop]; exact runs)
  have done := injAbort_stops (d := stored) runs
  rw [ended]
  split
  · exact ⟨done.1, (latched_congr (rg_wr_ne _ _ (by decide)) _).trans done.2⟩
  · exact done

/-! ### The capture and the microcode (R468, R479) -/

theorem helCapCtrl_arm (d : Dev) {v : W32} (arm : bit v 0 = true) :
    (helCapCtrl d v).hel.capArmed = true ∧ (helCapCtrl d v).hel.capDone = false ∧ (helCapCtrl d v).hel.capN = 0 ∧
    rg (helCapCtrl d v) Adr.HEL_CAP_CTRL = v &&& 0x077FFF00 := by
  unfold helCapCtrl
  dsimp only
  rw [if_pos arm, rg_setHel, rg_wr_self]
  exact ⟨rfl, rfl, rfl, rfl⟩

/-- ARM is none of the bits that HEL_CAP_CTRL stores. -/
theorem capStored_or_arm (v : W32) : (v ||| 1) &&& 0x077FFF00 = v &&& 0x077FFF00 := by
  rw [BitVec.and_comm, BitVec.and_or_distrib_left, BitVec.and_comm]
  exact BitVec.or_zero

theorem ucStore_stored {d : Dev} {a : Nat} (ha : a < 256) (off : bit (rg d (Page.hel.base 0 + oCTRL)) 0 = false)
    (good : (injTake d (Page.hel.base 0) true).1 = 0) (v : W32) :
    rg (ucStore d a v) (Adr.HEL_UC a) = v ∧ a ∉ (ucStore d a v).hel.bad := by
  unfold ucStore
  rw [if_neg (by simp [off, ha])]
  dsimp only
  rw [rg_setHel, rg_wr_self, setHel_self, good]
  exact ⟨rfl, by simp [setDel]⟩

/-! ### The obligation -/

/-- Settles O19: through a tick the count, the configuration and the frame number stand but where they move on, and in TRACK the law
with them; each command does its own part, and the errors beside it leave what shows it. -/
theorem heelTickAndCommands : Obligations.HeelTickAndCommands := by
  unfold Obligations.HeelTickAndCommands
  refine ⟨fun s t enc runs => ?_, fun s t runs track calm begun done => ?_, fun s req v reach => ⟨?_, fun off => ?_,
    fun low high => ?_, fun hold => ?_⟩, fun s req v reach => ⟨fun point idle low high => ?_, fun runs => ?_⟩,
    fun s req v reach => ?_, fun s req a v ha reach off good => ?_⟩
  · refine does_of_run (show _ = execTick t enc s from rfl) ?_
    simp only [rg_drive, drive_hel]
    exact helTick_acts runs t enc
  · refine does_of_run (show _ = execTick t true s from rfl) ?_
    rw [drive_hel]
    exact helTick_track runs track calm begun done t true
  · refine does_of_run (show _ = execPeakClr req v s from rfl) ?_
    rw [write, if_pos reach, rg_drive]
    exact helCmd_peakClr _ (by simp [bit])
  · refine does_of_run (show _ = execReload req v s from rfl) ?_
    simp only [write, reach, if_true, rg_drive, drive_hel]
    exact helCmd_reload (by simp [bit]) off
  · refine does_of_run (show _ = execSafe req v s from rfl) ?_
    rw [write, if_pos reach, drive_hel]
    exact helCmd_safe (by simp [bit]) low high
  · refine does_of_run (show _ = execAcq req v s from rfl) ?_
    rw [write, if_pos reach, drive_hel]
    exact helCmd_acq (bit_or_one v) hold
  · refine does_of_run (show _ = execInjArm req v s from rfl) ?_
    rw [write, if_pos reach, rg_drive]
    exact helInjCtrl_arm (bit_or_one v) (by rwa [bits_point_congr (w' := v) (by simp [bit]) (by simp [bit])]) idle low high
  · refine does_of_run (show _ = execInjStop req v s from rfl) ?_
    rw [write, if_pos reach, drive_hel, latched_drive]
    exact helInjCtrl_stop (by simp [bit]) runs
  · refine does_of_run (show _ = execCapArm req v s from rfl) ?_
    rw [write, if_pos reach, drive_hel, rg_drive, ← capStored_or_arm]
    exact helCapCtrl_arm _ (bit_or_one v)
  · refine does_of_run (show _ = execMicrocodeWrite req a v s from rfl) ?_
    rw [if_pos ha, write, if_pos reach, rg_drive, drive_hel]
    exact ucStore_stored ha off good v

end Sys2Proof.Machine
end
